-- ==== Sys2Proof/Word.lean ====
section
/-! DEFINITION. The words of the device and their plainest arithmetic (00_scope.md, numbers and units). -/

namespace Sys2Proof

abbrev Byte := BitVec 8
abbrev W16 := BitVec 16
abbrev W32 := BitVec 32
abbrev W64 := BitVec 64

/-- The quotient rounded up, as the ceiling brackets of the spec read; a divisor of zero gives zero. -/
def ceilDiv (a b : Nat) : Nat := (a + b - 1) / b

/-- One as a number where the condition holds, else zero. -/
def b2n (b : Bool) : Nat := if b then 1 else 0

end Sys2Proof
end

