-- ==== Sys2Proof/Syntax.lean ====
section
/-! DEFINITION. The commands of the block: one constructor of `Instr` for each row of spec/opcode_table.json, with the
row's operands. Whatever the outside world decides (a die's outcome, a host's reply, a regulator's voltage, a sensor's
conversion, an image in the boot flash) is an operand of the command that delivers it (log entry 4). -/

namespace Sys2Proof

/-- The four operand fields and the immediate of a Clapex instruction word (R84). -/
structure Fields where
  a : BitVec 4
  b : BitVec 4
  c : BitVec 4
  mod : BitVec 4
  imm : BitVec 40
  deriving DecidableEq, Repr

/-- Who reads the flash: an admitted read of an order, by its request, or the device itself with D = 0 (R131, R162,
R179), by the number of its read. -/
inductive Reader where
  | order (rid : Nat)
  | device (id : Nat)
  deriving DecidableEq, Repr

/-- What decides a hard decode in this strike: for a codeword of a read, named by its reader and its part, the bits it
corrected, or that it failed (R162, R200). A codeword that is not listed decodes with no bit corrected. -/
structure DecodeReport where
  who : Reader
  part : Nat
  bits : Option Nat
  deriving DecidableEq, Repr

/-- What the flash tells in a strike. -/
structure StrikeEnv where
  decodes : List DecodeReport
  deriving DecidableEq, Repr

/-- Where a command's data pointer leads (R95, R215, Table 9.4): nowhere, to the pages of PRP entries, which give no length, to
host memory that an SGL describes, into the capsule, or to a remote region. -/
inductive DataPtr where
  | none
  | prp
  | host (len : Nat)
  | inCapsule (off len : Nat)
  | keyed (addr : W64) (len : Nat) (key : W32) (invalidate : Bool)
  | other
  deriving DecidableEq, Repr

/-- An NVMe submission entry (R46, R73). -/
structure NvmeCmd where
  cid : W16
  opcode : Byte
  nsid : W32
  dw10 : W32
  dw11 : W32
  dw12 : W32
  dw13 : W32
  dw14 : W32
  dw15 : W32
  ptr : DataPtr
  deriving DecidableEq, Repr

/-- A command capsule as its last packet completes it: the entry, the in-capsule data, and the length of the SEND
(R215, R217, Table 9.4). -/
structure Capsule where
  cmd : NvmeCmd
  data : List Byte
  sendLen : Nat
  deriving DecidableEq, Repr

/-- What the host side of a transfer answers: the bytes, with the 4 KiB pages of host memory that a list of the host
described (R261), a length other than declared, a remote access error, or a failed transfer (Table 9.4). -/
inductive HostReply where
  | done (data : List Byte) (pages : List Nat)
  | shortOrLong
  | accessError
  | failed
  deriving DecidableEq, Repr

/-- The creation parameters of a namespace (Table 5.2, R399). -/
structure NsParams where
  zoned : Bool
  ncap : Nat
  lbaf : Nat
  iu : Byte
  cls : Byte
  bay : Byte
  op : Byte
  z : W32
  pi : Nat
  reservedZero : Bool
  deriving DecidableEq, Repr

/-- One firmware image as the boot flash or a package holds it: its header bytes, and what the checks of R296 that read
the signature and the payload find. -/
structure FwImage where
  header : List Byte
  sigOk : Bool
  payloadHash : List Byte
  complete : Bool
  deriving DecidableEq, Repr

/-- The two images of a slot (Table 19.2). -/
structure SlotImages where
  sec : FwImage
  mgmt : FwImage
  deriving DecidableEq, Repr

/-- The board record as it reads (R414). -/
structure BoardRecord where
  formatOk : Bool
  crcOk : Bool
  entries : List (Nat × W32)
  deriving DecidableEq, Repr

/-- The boot flash as a board programmer leaves it (R413). -/
structure BootFlash where
  slotA : SlotImages
  slotB : SlotImages
  board : BoardRecord
  deriving DecidableEq, Repr

/-- What stands on the pins and in the fuses at the release of a reset: the straps (R412), whether the fuses read (Table
19.3), whether the boot flash answers, a boot flash rewritten while the device stood still (R416), whether the ring's
test slot reads back (R389), and the anti-rollback counters whose MAC fails (R298). -/
structure ResetPins where
  cfgMode : BitVec 2
  memberId : BitVec 6
  fusesOk : Bool
  flashAnswers : Bool
  reflash : Option BootFlash
  ringOk : Bool
  badMacs : List Nat
  deriving DecidableEq, Repr

/-- What a wake meets: the pins of a boot, and whether the retained image hashes to its record (R334). -/
structure WakeEnv where
  pins : ResetPins
  imageOk : Bool
  deriving DecidableEq, Repr

/-- What a LUN answers in identification (R198): its number on the channel, its 8-byte ID at address 0x00, whether its
parameter page passes its CRC, and the geometry that it reports: capacity in Gbit, planes, cell type as Table 8.4 codes it,
MiB of a plane's block, and blocks per plane. -/
structure LunReport where
  lun : Nat
  id : List Byte
  crcOk : Bool
  gbit : Nat
  planes : Nat
  cell : Nat
  blkMib : Nat
  blocks : Nat
  deriving DecidableEq, Repr

/-- What media bring-up finds on one channel (R198, R199): the rate it trained at, and the LUNs that answer. -/
structure ChannelReport where
  ch : Nat
  rate : Option (Fin 3)
  luns : List LunReport
  deriving DecidableEq, Repr

/-- What a bring-up stage meets (Table 19.4): the channels, the bad blocks of a first format, each with die, plane and block
(R139), the units that fail their read-back in the recovery of parity, each with course and position, and the pages that
cannot be read there, each with course and stripe * 16 + position (R180, R184). -/
structure BootReport where
  channels : List ChannelReport
  badBlocks : List (Nat × Nat × Nat)
  verifyFails : List (Nat × Nat)
  lostPages : List (Nat × Nat)
  deriving DecidableEq, Repr

/-- A Connect command (R216). -/
structure ConnectCmd where
  nqn : List Byte
  discovery : Bool
  sqsize : Nat
  admin : Bool
  assoc : Nat
  deriving DecidableEq, Repr

/-- An IP address (R210). -/
structure IpAddr where
  v6 : Bool
  addr : BitVec 128
  deriving DecidableEq, Repr

/-- A KEK export request (R304): tenant, epoch, nonce, encapsulation key and signature. -/
structure KekRequest where
  tenant : Nat
  epoch : W32
  nonce : List Byte
  ek : List Byte
  sig : List Byte
  deriving DecidableEq, Repr

/-- An occurrence at an event source (R432): its source, its code and the twelve parameter bytes (Tables 17.1, 17.2). -/
structure Event where
  source : Nat
  code : W16
  param : List Byte
  deriving DecidableEq, Repr

/-- One conversion of a housekeeping input (R365, R367): a good value (quarter degrees, or mV), or a fault. -/
inductive Conversion where
  | good (v : Int)
  | opened
  | short
  deriving DecidableEq, Repr

/-- What the trained link reports (R393). -/
structure LinkReport where
  passed : Bool
  peer : Nat
  size : Nat
  skip : Nat
  delay : Nat
  deriving DecidableEq, Repr

/-- A strike marker as it arrives (R403, R405): the strike number, the whole 64 bits or the low 16, the error against the
member's own strike in quarter nanoseconds, the hops it travelled, and a period it announces with its strike. -/
structure Marker where
  full : Bool
  strike : W64
  err : Int
  hops : Nat
  period : Option (Nat × W64)
  deriving DecidableEq, Repr

/-- A member's host transfer carried to the head (R402), in a mode of Table 4.7 with its address. -/
structure MemberTransfer where
  member : Nat
  slot : Nat
  tenant : Nat
  gen : Nat
  write : Bool
  mode : Nat
  rkey : W32
  addr : W64
  data : List Byte
  /-- The sequence number of its packet (R396). -/
  seq : W32
  deriving DecidableEq, Repr

/-- A command that the head forwards to this member (R400, R401): an admin or an I/O command, which the head received over
RDMA or over PCIe. -/
structure ForwardedOrder where
  cmd : NvmeCmd
  isAdmin : Bool
  viaRdma : Bool
  data : List Byte
  tenant : Nat
  gen : Nat
  headSlot : Nat
  /-- The sequence number of its packet (R396). -/
  seq : W32
  deriving DecidableEq, Repr

/-- A completion that a member returns to the head (R401), with the NVMe status as the member's namespaces give it. -/
structure MemberCompletion where
  status : W16
  pos : W16
  value : W64
  sct : Nat
  sc : Nat
  dnr : Bool
  /-- The sequence number of its packet (R396). -/
  seq : W32
  deriving DecidableEq, Repr

/-- A tenant record that the head sends to a member (R397, R400). -/
structure TenantRecord where
  tenant : Nat
  gen : Nat
  present : Bool
  block : List Byte
  deriving DecidableEq, Repr

/-- Where an uncorrectable line lies (Table 13.6). -/
inductive PoisonPlace where
  | buffer (buf off : Nat)
  | context (slot : Nat)
  | readStaging (rid : Nat)
  | holdBuffer (lane : Nat)
  | writeBufferDone (course pos page : Nat)
  | writeBufferSending (course pos page : Nat)
  | writeBufferPlain (course page : Nat)
  | accumulator (set : Nat)
  | patternPage (tenant number : Nat)
  | structures
  deriving DecidableEq, Repr

/-- An uncorrectable line: which memory, its address and the region that holds it (R308, R320, R322). -/
structure PoisonLine where
  crucible : Bool
  addr : Nat
  place : PoisonPlace
  deriving DecidableEq, Repr

/-- The rails of Table 21.2 whose fall below 90 % halts the device (R439). -/
inductive Rail where
  | core | sram | ddr | nand | ser | serHigh | io
  deriving DecidableEq, Repr

/-- The commands, one for each row of spec/opcode_table.json. The docstring of a constructor is its row.
The constructors without operands stand last: Lean's compiled code numbers only the first 245 constructors that carry operands. -/
inductive Instr where
  /-- STRIKE (R29): The strike timer fires. SCHED applies the changes due, grants budgets, admits reads, steps every die and runs the channel calendars. -/
  | strike (e : StrikeEnv)
  /-- STK_PERIOD_WRITE (R24): A write of STK_PERIOD is refused, takes effect at the next strike, or leaves a shorter period pending. -/
  | stkPeriodWrite (req : Nat) (value : W32)
  /-- PROGRAM_AGED (R31): A program that has waited PROG_AGE strikes becomes aged for the prediction of later reads. -/
  | programAged (die : Nat)
  /-- SENSE_DONE (R35): A die's read sense ends and its data becomes ready for data-out bursts. -/
  | senseDone (die : Nat)
  /-- SUSPEND_DONE (R32): A suspended program or erase reaches its suspend point, or ends instead, and the die accepts window reads. -/
  | suspendDone (die : Nat) (ended : Bool)
  /-- LADDER_STEP_DONE (R162): A soft decode, read-retry or rebuild step of the ladder ends with correct data, or the ladder moves on or ends unrecovered. -/
  | ladderStepDone (who : Reader) (part : Nat) (ok : Bool)
  /-- READ_RESULT_POSTED (R99): A read-class instruction posts its result to the context in its fixed strike. -/
  | readResultPosted (rid : Nat)
  /-- PROGRAM_DONE (R171): A program's status passes and its unit becomes PROGRAMMED. -/
  | programDone (die : Nat)
  /-- PROGRAM_FAIL (R157): A program reports failure, and the slab is mended or the collection course repaired. -/
  | programFail (die : Nat)
  /-- ERASE_DONE (R154): An erase passes, the slab becomes ERASED, its P/E count rises and the wear spread is checked. -/
  | eraseDone (die : Nat)
  /-- ERASE_FAIL (R159): An erase fails and the slab is retired at once. -/
  | eraseFail (die : Nat)
  /-- VERIFY_PASS (R172): Read-back of a programmed unit passes, the unit becomes VERIFYING, and its XOR-out begins. -/
  | verifyPass (course pos bits : Nat)
  /-- VERIFY_FAIL (R173): A unit fails read-back verification and is handled as a program failure. -/
  | verifyFail (course pos : Nat)
  /-- UNIT_XOR_OUT_DONE (R171): A unit's last bitmap bit clears, it returns to NONE, and its write-buffer entries are freed. -/
  | unitXorOutDone (course pos : Nat)
  /-- ROW_DATA_IN_START (R168): A row whose data pages are all in the write buffer gets its Mortar set and Keystone, and its data-in begins. -/
  | rowDataInStart (course : Nat)
  /-- DIE_OP_TIMEOUT (R196): A die operation runs beyond OP_MS, and the channel sends LUN Reset to its LUN. -/
  | dieOpTimeout (die : Nat)
  /-- LUN_RESET_DONE (R196): After t_RST the channel reads the die's ID again, and either returns the die to service with the operation failed, or declares it lost. -/
  | lunResetDone (die : Nat) (idOk : Bool)
  /-- CHANNEL_TRAINING_DONE (R199): A channel's training ends at some rate and the channel enters READY, or enters FAULT at 1,600 MT/s. -/
  | channelTrainingDone (ch : Nat) (rate : Option (Fin 3))
  /-- RECENTRE_DONE (R202): A re-centre completes, or keeps the old values and sets EYE_LOW. -/
  | recentreDone (ch : Nat) (narrow : Bool)
  /-- SLAB_RELEASE (R124): Slabs of a reset, finished, offline or relocated course are queued for erase once every read admitted on them has passed P. -/
  | slabRelease (rel : Nat)
  /-- COURSE_FORMATION_RESUME (R140): A course formation waiting for an ERASED slab on a channel proceeds once the erase is done. -/
  | courseFormationResume (rid : Nat)
  /-- ZONE_ACTION_EFFECT (R123): A Close, Finish, Reset or Offline takes effect once the writes placed before it have met R13. -/
  | zoneActionEffect (rid : Nat)
  /-- MIGRATION_CUTOVER (R131): A migration's cut-over is recorded and the zone's course is swapped at the next strike. -/
  | migrationCutover (course : Nat)
  /-- MEND_CUTOVER (R132): A mend's replacement slab takes the failed slab's place in the course record. -/
  | mendCutover (course : Nat)
  /-- COLLECTION_VICTIM_DONE (R150): Every valid unit of the victim is copied and journalled, and its slabs pass to ERASE_PENDING. -/
  | collectionVictimDone (nsid dom : Nat)
  /-- MEDIA_INSTRUCTION_RESUME (R97): A media instruction pending on a full die queue or on missing tokens proceeds. -/
  | mediaInstructionResume (rid : Nat)
  /-- CAPSULE_RECEIVED (R217): The last packet of an RDMA command capsule arrives, takes its credited slot, and passes to admission. -/
  | capsuleReceived (qp : Nat) (cap : Capsule)
  /-- SQ_ENTRY_FETCH (R230): PE fetches a submission entry by round-robin into a free uncredited slot. -/
  | sqEntryFetch (fn sq : Nat) (cmd : NvmeCmd)
  /-- ORDER_TEXT_FETCHED (R46): The text of a by-pointer order arrives from host memory and goes to admission. -/
  | orderTextFetched (slot : Nat) (r : HostReply)
  /-- RESULT_ARRIVAL (R63): An awaited asynchronous result arrives, and the order is RUNNABLE from the next strike. -/
  | resultArrival (rid : Nat) (r : HostReply)
  /-- COMPLETION_POSTED (R52): An order's completion is handed to the port after all its host writes, and its slot enters QUENCH. -/
  | completionPosted (slot : Nat)
  /-- SLOT_QUENCH_DONE (R56): Zeroing of a slot's context and text record completes, and the slot is FREE. -/
  | slotQuenchDone (slot : Nat)
  /-- ADD (R90): Adds s to v[b] into v[a] and sets Z, C and N. -/
  | add (slot : Nat) (f : Fields)
  /-- SUB (R90): Subtracts s from v[b] into v[a] and sets Z, C and N. -/
  | sub (slot : Nat) (f : Fields)
  /-- AND (R90): Bitwise AND of v[b] and s into v[a]. -/
  | and (slot : Nat) (f : Fields)
  /-- OR (R90): Bitwise OR of v[b] and s into v[a]. -/
  | or (slot : Nat) (f : Fields)
  /-- XOR (R90): Bitwise XOR of v[b] and s into v[a]. -/
  | xor (slot : Nat) (f : Fields)
  /-- SHL (R90): Shifts v[b] left by s[5:0] into v[a]. -/
  | shl (slot : Nat) (f : Fields)
  /-- SHR (R90): Shifts v[b] right, logically or arithmetically, into v[a]. -/
  | shr (slot : Nat) (f : Fields)
  /-- LDI (R90): Loads an immediate into v[a], zero- or sign-extended, or into its upper bits. -/
  | ldi (slot : Nat) (f : Fields)
  /-- CMP (R90): Compares v[b] with s and sets the flags. -/
  | cmp (slot : Nat) (f : Fields)
  /-- SEL (R90): Selects v[b] or v[c] into v[a] by a flag. -/
  | sel (slot : Nat) (f : Fields)
  /-- BR (R91): Jumps to an immediate or register target. -/
  | br (slot : Nat) (f : Fields)
  /-- BZ (R91): Jumps if the named source is zero. -/
  | bz (slot : Nat) (f : Fields)
  /-- BNZ (R91): Jumps if the named source is nonzero. -/
  | bnz (slot : Nat) (f : Fields)
  /-- CALLP (R64): Calls a pattern, to a nesting depth of at most four. -/
  | callp (slot : Nat) (f : Fields)
  /-- END (R91): Returns from a called pattern, or at depth 0 waits for every ticket and posts OK. -/
  | endOrder (slot : Nat) (f : Fields)
  /-- FAULT (R92): Raises a chosen status as a fault. -/
  | fault (slot : Nat) (f : Fields)
  /-- YIELD (R63): Ends the slice, and the order is RUNNABLE from the next strike. -/
  | yield (slot : Nat) (f : Fields)
  /-- BALLOC (R93): Allocates a zeroed Crucible or DRAM buffer to an empty handle. -/
  | balloc (slot : Nat) (f : Fields)
  /-- BFREE (R94): Frees a handle's buffer, emptying every handle that names it. -/
  | bfree (slot : Nat) (f : Fields)
  /-- BFILL (R93): Fills a handle with a repeated 64-bit value. -/
  | bfill (slot : Nat) (f : Fields)
  /-- BCOPY (R93): Copies one handle into another, or loads up to 8 bytes of a handle. -/
  | bcopy (slot : Nat) (f : Fields)
  /-- BSLICE (R93): Aims a handle at a window of a buffer. -/
  | bslice (slot : Nat) (f : Fields)
  /-- HGET (R96): Copies host memory into a handle in the selected host mode. -/
  | hget (slot : Nat) (f : Fields)
  /-- HPUT (R96): Copies a handle to host memory in the selected host mode. -/
  | hput (slot : Nat) (f : Fields)
  /-- ZREAD (R34): Reads zone blocks into a handle under a Plumb deadline. -/
  | zread (slot : Nat) (f : Fields)
  /-- ZAPPEND (R100): Appends a handle to a zone, opening it if needed, and returns the first LBA written. -/
  | zappend (slot : Nat) (f : Fields)
  /-- ZWRITE (R100): Writes a handle at the zone's write pointer. -/
  | zwrite (slot : Nat) (f : Fields)
  /-- ZONE_OPEN (R122): ZMGMT action 0x03 explicitly opens a zone, or every Closed zone of the namespace. -/
  | zoneOpen (slot : Nat) (f : Fields)
  /-- ZONE_CLOSE (R122): ZMGMT action 0x01 closes an open zone. -/
  | zoneClose (slot : Nat) (f : Fields)
  /-- ZONE_FINISH (R122): ZMGMT action 0x02 makes a zone Full. -/
  | zoneFinish (slot : Nat) (f : Fields)
  /-- ZONE_RESET (R122): ZMGMT action 0x04 returns a zone to Empty. -/
  | zoneReset (slot : Nat) (f : Fields)
  /-- ZONE_OFFLINE (R122): ZMGMT action 0x05 takes a zone Offline. -/
  | zoneOffline (slot : Nat) (f : Fields)
  /-- ZONE_SET_EXTENSION (R122): ZMGMT action 0x10 sets the descriptor extension of an Empty zone and closes it. -/
  | zoneSetExtension (slot : Nat) (f : Fields)
  /-- REPORT_ZONES (R126): Receive action 0x00 writes a zone report to a handle. -/
  | reportZones (slot : Nat) (f : Fields)
  /-- EXTENDED_REPORT_ZONES (R126): Receive action 0x01 writes an extended zone report to a handle. -/
  | extendedReportZones (slot : Nat) (f : Fields)
  /-- CREAD (R34): Reads conventional blocks into a handle under a Plumb deadline. -/
  | cread (slot : Nat) (f : Fields)
  /-- CWRITE (R146): Writes a handle to a conventional namespace, merging partial IUs. -/
  | cwrite (slot : Nat) (f : Fields)
  /-- CTRIM (R151): Deallocates conventional blocks. -/
  | ctrim (slot : Nat) (f : Fields)
  /-- PARCHK (R182): Reads a Keystone stripe and checks that its parity is zero. -/
  | parchk (slot : Nat) (f : Fields)
  /-- SEAL (R101): Encrypts a handle with AES-256-XTS or GCM on a cipher lane. -/
  | seal (slot : Nat) (f : Fields)
  /-- OPEN (R102): Decrypts and verifies a sealed handle and releases the plaintext to a handle or to the host. -/
  | openRecord (slot : Nat) (f : Fields)
  /-- MAC (R103): Generates or verifies an AES-CMAC tag. -/
  | mac (slot : Nat) (f : Fields)
  /-- DGFEED (R103): Feeds a handle into an Assay context. -/
  | dgfeed (slot : Nat) (f : Fields)
  /-- DGFIN (R103): Finishes an Assay context into a digest or a state record. -/
  | dgfin (slot : Nat) (f : Fields)
  /-- DGLOAD (R103): Allocates a fresh Assay context, or imports one from a state record. -/
  | dgload (slot : Nat) (f : Fields)
  /-- WAIT (R105): Suspends until the named tickets are in or a strike is reached. -/
  | wait (slot : Nat) (f : Fields)
  /-- FENCE (R105): Suspends until every ticket is in. -/
  | fence (slot : Nat) (f : Fields)
  /-- TIME (R105): Reads the strike counter, the strike of arrival or the instruction count. -/
  | time (slot : Nat) (f : Fields)
  /-- PLUMB (R38): Computes the promise a read would receive, reserving nothing. -/
  | plumb (slot : Nat) (f : Fields)
  /-- POST (R106): Waits for every ticket, then ends the order with a chosen status. -/
  | post (slot : Nat) (f : Fields)
  /-- NOTE (R106): Writes a 16-byte notice to host memory. -/
  | note (slot : Nat) (f : Fields)
  /-- POWER (R329): The manager requests a device power state, and an entry begins or the request is refused. -/
  | power (slot : Nat) (f : Fields)
  /-- TENANT_CREATE (R247): Creates a tenant from a parameter block and draws its quotas from the pools. -/
  | tenantCreate (slot : Nat) (f : Fields)
  /-- TENANT_MODIFY (R250): Applies the selected parameter groups to a tenant. -/
  | tenantModify (slot : Nat) (f : Fields)
  /-- TENANT_RESET (R251): Resets a tenant under its GENERATION or QUIESCE mode. -/
  | tenantReset (slot : Nat) (f : Fields)
  /-- TENANT_DESTROY (R256): Starts destroying a tenant: removes its bindings, detaches its namespaces and raises its epoch. -/
  | tenantDestroy (slot : Nat) (f : Fields)
  /-- TENANT_QUERY (R246): Writes a tenant's parameter block and usage record to a handle. -/
  | tenantQuery (slot : Nat) (f : Fields)
  /-- KEYLOAD (R267): Unwraps a key blob into a key slot, or unloads the slot. -/
  | keyload (slot : Nat) (f : Fields)
  /-- PATLOAD (R78): Loads, replaces or unloads a tenant pattern. -/
  | patload (slot : Nat) (f : Fields)
  /-- OPSET (R343): Starts the sequencer toward a new operating point, or takes no step for the point in force. -/
  | opset (slot : Nat) (f : Fields)
  /-- HMREAD (R385): Copies the held Hallmark records of a SEQ range into a handle. -/
  | hmread (slot : Nat) (f : Fields)
  /-- NVME_FLUSH (R15): Pattern 0x000 completes at once, with no flash program awaited. -/
  | nvmeFlush (slot : Nat)
  /-- NVME_WRITE (R73): Pattern 0x001 writes with ZWRITE or CWRITE. -/
  | nvmeWrite (slot : Nat)
  /-- NVME_READ (R73): Pattern 0x002 reads with D = 0. -/
  | nvmeRead (slot : Nat)
  /-- NVME_COMPARE (R73): Pattern 0x005 reads and compares. -/
  | nvmeCompare (slot : Nat)
  /-- NVME_WRITE_ZEROES (R73): Pattern 0x008 writes a zero buffer, or deallocates when DEAC is set. -/
  | nvmeWriteZeroes (slot : Nat)
  /-- NVME_DATASET_MANAGEMENT (R73): Pattern 0x009 deallocates ranges with CTRIM. -/
  | nvmeDatasetManagement (slot : Nat)
  /-- NVME_VERIFY (R73): Pattern 0x00C reads with no host transfer. -/
  | nvmeVerify (slot : Nat)
  /-- ZONE_MANAGEMENT_SEND (R115): Pattern 0x079 runs a ZMGMT action, with the class taken from CDW13. -/
  | zoneManagementSend (slot : Nat)
  /-- ZONE_MANAGEMENT_RECEIVE (R126): Pattern 0x07A returns a zone report after checking the reporting option. -/
  | zoneManagementReceive (slot : Nat)
  /-- ZONE_APPEND (R73): Pattern 0x07D appends with ZAPPEND. -/
  | zoneAppend (slot : Nat)
  /-- EXECUTE_WORK_ORDER (R46): Opcode 0xC1 runs a host-supplied inline, by-pointer or pattern-only order. -/
  | executeWorkOrder (slot : Nat)
  /-- NAMESPACE_CREATE (R113): MF creates a zoned or conventional namespace and commits its courses and map. -/
  | namespaceCreate (slot : Nat) (p : NsParams)
  /-- NAMESPACE_DELETE (R110): MF deletes a namespace. -/
  | namespaceDelete (slot : Nat)
  /-- NAMESPACE_ATTACH (R110): Attaches a namespace to a tenant and charges its zones and Bedrock courses. -/
  | namespaceAttach (slot tenant : Nat)
  /-- NAMESPACE_DETACH (R110): Detaches a namespace and releases its charges. -/
  | namespaceDetach (slot tenant : Nat)
  /-- MANAGER_REQUEST (R76): A tenant's vendor admin command 0xC2 takes a mailbox entry, or completes at once with Command Interrupted. -/
  | managerRequest (slot : Nat) (data : List Byte)
  /-- MANAGER_ANSWER (R76): MF's vendor admin command 0xC3 completes the named waiting Manager Request. -/
  | managerAnswer (slot : Nat)
  /-- GET_LOG_PAGE_MAILBOX (R76): Log Identifier 0xC9 lists the waiting mailbox entries, or returns one entry's data. -/
  | getLogPageMailbox (slot : Nat)
  /-- GET_LOG_PAGE_HALLMARK (R387): Log Identifier 0xC8 returns a header and Hallmark records from the controller's captured BASE. -/
  | getLogPageHallmark (slot : Nat)
  /-- CREATE_IO_SUBMISSION_QUEUE (R229): Creates an NVMe I/O submission queue within the tenant quota and the pool. -/
  | createIoSubmissionQueue (slot : Nat)
  /-- CREATE_IO_COMPLETION_QUEUE (R229): Creates an NVMe I/O completion queue within the tenant quota and the pool. -/
  | createIoCompletionQueue (slot : Nat) (base : W64)
  /-- SET_FEATURES_POWER_STATE (R327): Set Features 0xC0 requests a device power state. -/
  | setFeaturesPowerState (slot : Nat)
  /-- GET_FEATURES_POWER_STATE (R327): Get Features 0xC0 returns the present state and any entry in progress. -/
  | getFeaturesPowerState (slot : Nat)
  /-- SP_GET_IDENTITY (R301): Security protocol 0xF0 operation 0x0001 returns the public keys and the attestation certificate. -/
  | spGetIdentity (slot : Nat)
  /-- SP_QUOTE (R302): Operation 0x0002 produces a signed quote over a nonce. -/
  | spQuote (slot : Nat) (nonce : List Byte)
  /-- SP_ENROL_KEY_MANAGER (R303): Operation 0x0003 enrols or replaces the key manager key. -/
  | spEnrolKeyManager (slot : Nat) (key sig : List Byte)
  /-- SP_KEK_EXPORT (R304): Operation 0x0004 wraps a tenant KEK to a signed ML-KEM request and adds a bound quote. -/
  | spKekExport (slot : Nat) (r : KekRequest)
  /-- SECURITY_RECEIVE (R301): Security Receive returns the result of the matching Send, or fails with no match. -/
  | securityReceive (slot : Nat)
  /-- FIRMWARE_IMAGE_DOWNLOAD (R422): A piece of the firmware package is stored in DRAM. -/
  | firmwareImageDownload (slot : Nat) (piece : List Byte)
  /-- FIRMWARE_COMMIT_WRITE (R423): Commit Action 0 checks and writes the package to a slot. -/
  | firmwareCommitWrite (slot : Nat) (p : SlotImages)
  /-- FIRMWARE_COMMIT_WRITE_PENDING (R423): Commit Action 1 writes the slot, then sets it PENDING. -/
  | firmwareCommitWritePending (slot : Nat) (p : SlotImages)
  /-- FIRMWARE_COMMIT_PENDING (R423): Commit Action 2 sets an already valid slot PENDING. -/
  | firmwareCommitPending (slot : Nat)
  /-- FIRMWARE_SLOT_WRITTEN (R423): A slot write and its read-back end, and PENDING is updated for action 1. -/
  | firmwareSlotWritten (readback : Bool)
  /-- CONNECT (R216): A fabric Connect is accepted or refused by host NQN, SQSIZE and queue quota. -/
  | connect (qp : Nat) (c : ConnectCmd)
  /-- RESPONSE_RNR_NAK (R221): The host answers a response capsule with RNR NAK, and RT retries it. -/
  | responseRnrNak (slot : Nat)
  /-- QP_TRANSPORT_ERROR (R222): A queue pair enters error on retry exhaustion, a NAK or a remote access error. -/
  | qpTransportError (qp : Nat)
  /-- QP_DISCONNECT (R222): A disconnect puts a queue pair in error and returns its credits. -/
  | qpDisconnect (qp : Nat)
  /-- KEEP_ALIVE_EXPIRY (R222): The association's keep-alive timer expires, and every queue pair of the association enters error. -/
  | keepAliveExpiry (assoc : Nat)
  /-- CE_MARKED_PACKET (R224): A CE-marked RoCEv2 packet causes a CNP, at most one per INTERVAL. -/
  | ceMarkedPacket (qp us : Nat)
  /-- CNP_RECEIVED (R225): A CNP cuts the queue pair's current rate and raises alpha. -/
  | cnpReceived (qp : Nat)
  /-- RATE_INCREASE_TIMER (R225): T_INC passes with no CNP, and the current rate recovers toward the target. -/
  | rateIncreaseTimer (qp : Nat)
  /-- ALPHA_DECAY_TIMER (R225): K passes with no CNP, and alpha decays. -/
  | alphaDecayTimer (qp : Nat)
  /-- PFC_PAUSE_RECEIVED (R211): A received pause frame stops transmission on the RoCE priority. -/
  | pfcPauseReceived (lport : Nat) (prio : BitVec 3) (quanta : W16)
  /-- ADDRESS_RESOLUTION_REQUEST (R210): The logical port answers ARP or Neighbour Discovery for its own addresses. -/
  | addressResolutionRequest (lport : Nat) (target : IpAddr) (vlan : Option Nat)
  /-- ICMP_ECHO_REQUEST (R210): The logical port answers an ICMP or ICMPv6 Echo. -/
  | icmpEchoRequest (lport : Nat) (target : IpAddr) (vlan : Option Nat) (payload : List Byte)
  /-- FOREIGN_FRAME (R210): A frame that is not RoCEv2 or answered is dropped and counted. -/
  | foreignFrame (lport : Nat)
  /-- HOST_RDMA_ACCESS (R213): A host RDMA READ or WRITE aimed at the device is answered with NAK Remote Access Error. -/
  | hostRdmaAccess (qp : Nat)
  /-- DOORBELL_WRITE (R231): A doorbell write moves a queue tail or head, or raises a doorbell error event. -/
  | doorbellWrite (fn idx : Nat) (value : W32)
  /-- CONTROLLER_ENABLE (R227): CC.EN set on a function brings up its controller if the tenant exists and is PCIe-bound. -/
  | controllerEnable (fn : Nat) (en : Bool) (sqSize cqSize : Nat) (acq : W64)
  /-- FUNCTION_LEVEL_RESET (R232): An FLR of a VF acts as a GENERATION reset of its tenant. -/
  | functionLevelReset (fn : Nat)
  /-- PCIE_RESET (R232): A conventional reset, hot reset, link-down or PERST_N resets MF's PCIe controller and every PCIe tenant. -/
  | pcieReset (perst : Bool)
  /-- DEFERRED_FLR_EFFECT (R254): An FLR that waited for a clashing old request takes effect once that request is discarded. -/
  | deferredFlrEffect (tenant : Nat)
  /-- MI_READ_DATA_STRUCTURE (R237): NVMe-MI Read NVMe-MI Data Structure is answered. -/
  | miReadDataStructure (dtyp : Nat)
  /-- MI_CONFIGURATION_GET (R237): NVMe-MI Configuration Get is answered. -/
  | miConfigurationGet (cfg : Nat)
  /-- MI_CONFIGURATION_SET (R237): NVMe-MI Configuration Set is applied, and with vendor identifier 0xC0 acts as a wake event. -/
  | miConfigurationSet (cfg value : Nat) (w : WakeEnv)
  /-- MI_VPD_READ (R237): NVMe-MI VPD Read is answered. -/
  | miVpdRead (offset len : Nat)
  /-- MI_TUNNELLED_ADMIN (R237): An admin command tunnelled over MCTP is run, or refused unless ADMIN_WR allows it. -/
  | miTunnelledAdmin (cmd : NvmeCmd)
  /-- STALE_RESULT_DISCARD (R252): A result of an old generation is discarded, its bytes are zeroed and TEN_STALE_CNT rises. -/
  | staleResultDiscard (rid : Nat)
  /-- TENANT_RESET_END (R254): No old-generation request is outstanding, and the tenant returns to ACTIVE. -/
  | tenantResetEnd (tenant : Nat)
  /-- TENANT_DESTROY_END (R256): The old generation has drained, so keys and patterns are quenched, quotas return and the tenant is NONE. -/
  | tenantDestroyEnd (tenant : Nat)
  /-- DIRTY_LOG_ENABLE (R262): Setting EN puts the bitmap at NEXT in use from the next strike. -/
  | dirtyLogEnable (req : Nat)
  /-- DIRTY_LOG_SWAP (R262): Writing SWAP switches bitmaps at the next strike and sets BUSY. -/
  | dirtyLogSwap (req : Nat)
  /-- DIRTY_LOG_DISABLE (R262): Clearing EN flushes the bitmap in use under BUSY. -/
  | dirtyLogDisable (req : Nat)
  /-- DIRTY_LOG_FLUSH_DONE (R262): The old bitmap is written back and its writes have landed, so OLD is set and BUSY clears. -/
  | dirtyLogFlushDone (tenant : Nat)
  /-- LANE_REQUEST_DONE (R274): A lane finishes a request's last unit and checks any tag. -/
  | laneRequestDone (lane : Nat)
  /-- HOLD_RELEASE_DONE (R276): Verified plaintext from the hold buffer finishes reaching its destination, and the OPEN result arrives. -/
  | holdReleaseDone (lane : Nat) (pages : List Nat)
  /-- ZEROING_DONE (R278): The last zeroing write is acknowledged, and OPEN faults with SEC_TAG_FAIL_ZEROED. -/
  | zeroingDone (lane : Nat) (pages : List Nat)
  /-- KEK_EPOCH_WRITE (R266): MF raises a tenant's KEK epoch, or a write that is not higher is refused. -/
  | kekEpochWrite (req : Nat) (value : W32)
  /-- DG_ALLOC_REQUEST (R283): A DG_ALLOC write allocates a context to the registers, or sets FAIL. -/
  | dgAllocRequest (req : Nat) (value : W32)
  /-- DG_FREE_WRITE (R287): Frees a register-owned context, discarding any block in flight. -/
  | dgFreeWrite (req : Nat) (value : W32)
  /-- DG_INIT (R292): DG_CTRL.CMD 1 discards the message and resets the context. -/
  | dgInit (ctx : Nat) (algo : Bool)
  /-- DG_EXPORT (R292): DG_CTRL.CMD 2 writes the state record into DG_STATE. -/
  | dgExport (ctx : Nat) (algo : Bool)
  /-- DG_IMPORT (R292): DG_CTRL.CMD 3 loads a valid state record as the context state. -/
  | dgImport (ctx : Nat) (algo : Bool)
  /-- DG_DATA_WRITE (R288): Appends four message bytes, or is dropped while BUSY, or starts a new message. -/
  | dgDataWrite (ctx : Nat) (value : W32)
  /-- DG_LAST_WRITE (R288): Appends the final bytes and finishes the message with padding. -/
  | dgLastWrite (ctx : Nat) (value : W32)
  /-- BLOCK_COMPRESSED (R288): A context block or finish is compressed, BUSY clears, and a finish sets VALID or ERR. -/
  | blockCompressed (ctx : Nat)
  /-- SELF_REFRESH_ENTRY (R316): A DRAM channel idle for IDLE strikes, within tolerance, precharges, refreshes and issues SRE. -/
  | selfRefreshEntry (ch : Nat)
  /-- SELF_REFRESH_INTERRUPT (R317): A request reaches a channel entering or in self-refresh, and entry is abandoned or exit begins. -/
  | selfRefreshInterrupt (ch : Nat)
  /-- SELF_REFRESH_EXIT_DONE (R317): Exit and t_XS end, and the waiting request is served. -/
  | selfRefreshExitDone (ch : Nat)
  /-- DM_GATE_IDLE_EXPIRY (R318): A channel in self-refresh for GATE_IDLE strikes gates its DM domain and stops its PHY. -/
  | dmGateIdleExpiry (ch : Nat)
  /-- REFRESH_DUE (R315): A same-bank refresh interval expires, and the refresh is issued or postponed. -/
  | refreshDue (ch bank : Nat) (busy : Bool)
  /-- OPEN_ROW_TIMEOUT (R314): A bank idle for TIMEOUT closes its open row. -/
  | openRowTimeout (ch bank : Nat)
  /-- PATROL_SCRUB (R309): Patrol scrub reads DRAM lines and writes back corrected ones. -/
  | patrolScrub (ch : Nat) (corrected : List Nat) (bad : List PoisonLine)
  /-- CRUCIBLE_SCRUB (R320): Crucible patrol scrub reads and corrects words. -/
  | crucibleScrub (corrected : List Nat) (bad : List PoisonLine)
  /-- UNCORRECTABLE_LINE (R322): A poisoned DRAM or Crucible line is read and handled by the region that holds it. -/
  | uncorrectableLine (line : PoisonLine)
  /-- CRUCIBLE_RETENTION_ENTRY (R323): A bank group idle for IDLE strikes, within tolerance, enters retention. -/
  | crucibleRetentionEntry (group : Nat)
  /-- PWR_WAKE_N_ASSERT (R333): PWR_WAKE_N held low for 1 µs wakes the device from BANKED, EMBER or COLD. -/
  | pwrWakeNAssert (w : WakeEnv)
  /-- WAKE_TIMER_EXPIRY (R333): The wake timer expires and wakes the device. -/
  | wakeTimerExpiry (w : WakeEnv)
  /-- PERST_WAKE (R333): PERST_N rising wakes a Single or Wall head device from EMBER or COLD. -/
  | perstWake (w : WakeEnv)
  /-- WAKE_PACKET (R212): A local RoCEv2, ARP or ND packet in BANKED wakes the device and is buffered. -/
  | wakePacket (lport : Nat) (target : IpAddr) (len : Nat)
  /-- WAKE_TLP (R333): A TLP to any function in BANKED is held and wakes the device. -/
  | wakeTlp (fn len : Nat)
  /-- DOMAIN_ON_REQUEST (R339): A PWR_DOM_CTRL on request wakes a domain, abandons its drain, or is refused. -/
  | domainOnRequest (req : Nat)
  /-- DOMAIN_OFF_REQUEST (R339): A PWR_DOM_CTRL off request starts a drain, or is refused at once. -/
  | domainOffRequest (req : Nat)
  /-- DOMAIN_DRAINED (R339): A manager-ordered drain meets its condition, and the domain enters MGR_OFF. -/
  | domainDrained (dom : Nat)
  /-- DOMAIN_DRAIN_LIMIT_EXPIRY (R339): A manager drain passes PWR_DRAIN_LIMIT, and the domain returns to ON with STATE_NOT_IDLE. -/
  | domainDrainLimitExpiry (dom : Nat)
  /-- AUTO_GATE_IDLE_EXPIRY (R338): A domain idle for PWR_AUTO.IDLE strikes, within tolerance, enters DRAINING for automatic gating. -/
  | autoGateIdleExpiry (dom : Nat)
  /-- AUTO_DRAIN_DONE (R338): An automatically draining domain has drained and enters AUTO_OFF. -/
  | autoDrainDone (dom : Nat)
  /-- DOMAIN_WAKE_DONE (R338): A waking domain reaches ON after its wake time, and its held work proceeds. -/
  | domainWakeDone (dom : Nat)
  /-- AVS_SETTLE_TIMEOUT (R345): The regulator does not report within SETTLE_US, and OPSET faults STATE_OP_REFUSED. -/
  | avsSettleTimeout (lastMv : Nat)
  /-- VOLTAGE_SAMPLE (R351): The 1 µs sample of VHV and VBANK drives the charger hysteresis and the overvoltage checks. -/
  | voltageSample (vhv vbank : Nat)
  /-- CAP_TEST_BLEED_START (R354): At TARGET, with the bytes at risk covered at V1 − DV, the bleed of a test begins. -/
  | capTestBleedStart (v1 : Nat)
  /-- CAP_TEST_BLEED_END (R352): The bank falls by DV, or 500 ms pass, and C is computed and judged. -/
  | capTestBleedEnd (v2 us : Nat)
  /-- BELLOWS_RESTART (R360): After a halt, VHV stays above TH + 1.0 V for 100 ms and the Bellows resets the device. -/
  | bellowsRestart (p : ResetPins)
  /-- BANK_DEPLETED (R360): The bank falls below V_MIN and AON loses power, as on PORST_N. -/
  | bankDepleted (p : ResetPins)
  /-- HOUSEKEEPING_SAMPLE (R365): A scan slot converts one input and updates its reading, broken state and level. -/
  | housekeepingSample (input : Nat) (c : Conversion)
  /-- CRITICAL_COMPARATOR_TRIP (R371): An on-die comparator at 125 °C junction starts thermal shutdown. -/
  | criticalComparatorTrip (sensor : Nat)
  /-- FLUSH_OVERTEMP_HALT (R371): An on-die sensor at 130 °C during the flush halts the device at once. -/
  | flushOvertempHalt (sensor : Nat)
  /-- THERMAL_RESTART_RELEASE (R372): Temperatures fall below the restart limits, and the held wake event starts the boot. -/
  | thermalRestartRelease (w : WakeEnv)
  /-- EVENT_ARRIVAL (R382): An event reaches the recorder and is committed, folded, queued or lost, and its source bit sets. -/
  | eventArrival (e : Event)
  /-- HM_RD_SEQ_WRITE (R386): Writing a SEQ fetches that record into HM_RD_DATA. -/
  | hmRdSeqWrite (req : Nat) (value : W32)
  /-- OP_MS_PERSIST_TIMER (R378): Every 60 s OP_MS is written to the Cornerstone. -/
  | opMsPersistTimer (elapsedMs : Nat)
  /-- FLIT_CRC_FAIL (R392): A flit that fails its CRC is replayed, and the link goes DOWN after three failed replays. -/
  | flitCrcFail (port : Fin 4)
  /-- LINK_ELECTRICAL_IDLE (R392): Electrical idle for 1 µs takes a link DOWN and starts retraining. -/
  | linkElectricalIdle (port : Fin 4)
  /-- LINK_TRAINING_DONE (R393): Training measures the delay and brings the link UP, or leaves it MISWIRED. -/
  | linkTrainingDone (port : Fin 4) (r : LinkReport)
  /-- FORM_MESSAGE (R394): A member receives N, S and the strike number from the head. -/
  | formMessage (size skip : Nat) (strike : W64)
  /-- ROUTE_TABLES_IN_FORCE (R395): The recomputed route tables are in force on every live member. -/
  | routeTablesInForce (far : List (Nat × Nat))
  /-- END_TO_END_ACK_TIMEOUT (R396): A forwarded packet unacknowledged for 64 µs is sent again over the route in force. -/
  | endToEndAckTimeout (pkt : Nat)
  /-- DOWN_NOTICE (R397): A member's DOWN notice marks it failed, and the head posts its forwarded commands STATE_NOT_IDLE. -/
  | downNotice (member : Nat)
  /-- STRIKE_MARKER (R403): A member receives a strike marker, forwards it and disciplines its strike timer. -/
  | strikeMarker (m : Marker)
  /-- COMMAND_FORWARD (R401): The head forwards a waiting command to a member once it holds a command credit. -/
  | commandForward (slot : Nat)
  /-- MEMBER_HOST_TRANSFER (R402): The head performs a member's HGET, HPUT or NOTE on the originating queue pair or function. -/
  | memberHostTransfer (t : MemberTransfer)
  /-- WALL_WAKE_PULSE (R407): The head drives PWR_WAKE_N low for 2 µs and every member wakes. -/
  | wallWakePulse (w : WakeEnv)
  /-- WALL_RESET_MESSAGE (R410): A member receives the head's subsystem reset message and resets as SYS_RST_N. -/
  | wallResetMessage (p : ResetPins)
  /-- PORST_N_RESET (R410): PORST_N low for 10 µs resets every domain, and the boot restarts at stage 1. -/
  | porstNReset (p : ResetPins)
  /-- SYS_RST_N_RESET (R410): SYS_RST_N low resets all but AON, after the Hallmark FIFO empties. -/
  | sysRstNReset (p : ResetPins)
  /-- NVM_SUBSYSTEM_RESET (R410): A host write of 0x4E56_4D65 to NSSR resets the device, and in a head every live member too. -/
  | nvmSubsystemReset (p : ResetPins) (value : W32)
  /-- SOFTWARE_RESET (R410): MF writes 0x5EED to GLB_SW_RESET and resets the device. -/
  | softwareReset (req : Nat) (value : W32) (p : ResetPins)
  /-- BOOT_WATCHDOG_EXPIRY (R419): The boot watchdog expires before EXEC_EN, and resets the device. -/
  | bootWatchdogExpiry (p : ResetPins)
  /-- BOOT_STAGE_DONE (R417): A bring-up stage of Table 19.4 completes and the next one begins. -/
  | bootStageDone (b : BootReport)
  /-- BOOT_LOCK_WRITE (R418): Writing LOCK applies the boot lock, after which RWL fields ignore writes. -/
  | bootLockWrite (req : Nat) (value : W32)
  /-- EXEC_EN_WRITE (R418): Setting EXEC_EN applies the boot lock if needed, stops the watchdog and starts fetching. -/
  | execEnWrite (req : Nat) (value : W32)
  /-- RAIL_FAULT (R439): A rail below 90 % of its minimum for 2 µs halts the device with no flush. -/
  | railFault (rail : Rail) (mv : Nat)
  /-- AON_UNDERVOLTAGE (R439): VDD_AON below 0.68 V for 2 µs resets the device as PORST_N. -/
  | aonUndervoltage (p : ResetPins)
  /-- BAY_MASK_WRITE (R120): Writing MED_BAY_MASK_HI commits the Bay mask and its shadow, or refuses a mask of fewer than 16 channels. -/
  | bayMaskWrite (req : Nat) (value : W32)
  /-- IP_ENTRY_COMMIT (R210): Writing ETH_IP_CTRL commits the selected IP address entry. -/
  | ipEntryCommit (req : Nat) (value : W32)
  /-- EVENT_FORCE_WRITE (R433): Writing a source number sets its status bit with no Hallmark record. -/
  | eventForceWrite (req : Nat) (value : W32)
  /-- EVENT_STATUS_CLEAR (R434): A W1C write of GLB_EVT_STAT clears bits, and every line still asserted sends a message. -/
  | eventStatusClear (req k : Nat) (value : W32)
  /-- EVENT_ENABLE_WRITE (R434): A write of GLB_EVT_EN sets enables, and every line still asserted sends a message. -/
  | eventEnableWrite (req k : Nat) (value : W32)
  /-- REG_PAIR_LO_READ (R7): Reading _LO returns the lower half and captures all 64 bits for the requester. -/
  | regPairLoRead (req addr size : Nat)
  /-- REG_PAIR_HI_READ (R7): Reading _HI returns the captured upper half and consumes the capture, or the live one. -/
  | regPairHiRead (req addr size : Nat)
  /-- REG_PAIR_LO_WRITE (R7): Writing _LO stages the lower half for the requester. -/
  | regPairLoWrite (req addr : Nat) (value : W32)
  /-- REG_PAIR_HI_WRITE (R7): Writing _HI commits the staged or present lower half together with the new upper half. -/
  | regPairHiWrite (req addr : Nat) (value : W32)
  /-- RC_REGISTER_READ (R8): Reading an RC field returns its value and clears it. -/
  | rcRegisterRead (req addr size : Nat)
  /-- REGISTER_WRITE (R8): A write to a register with no row of its own acts by its access code: RW, W1C, RWL or ignored. -/
  | registerWrite (req addr size : Nat) (value : W32)
  /-- KEEP_ALIVE (R222): An NVMe Keep Alive command restarts the keep-alive timer of its association. -/
  | keepAlive (qp : Nat)
  /-- CONNECTION_REQUEST (R214): A Communication Management connection request takes a free RC queue pair, or is rejected with No QP available. -/
  | connectionRequest (lport : Nat)
  /-- ACK_TIMEOUT (R213): The local ACK timeout of a queue pair expires and the unacknowledged operations are retransmitted go-back-N, or the queue pair errors once the retry count is spent. -/
  | ackTimeout (qp : Nat)
  /-- ETHERNET_LINK_CHANGE (R209): A logical Ethernet port's link comes up after auto-negotiation and training, or goes down, changing ETH_LINK_STAT and what discovery lists. -/
  | ethernetLinkChange (lport : Nat) (up : Bool)
  /-- PCIE_LINK_UP (R226): PCIe link training ends, and the data link layer becomes active at the negotiated speed and width, as PCI_LINK_STAT reports. -/
  | pcieLinkUp (speed width : Nat) (flit : Bool)
  /-- DELETE_IO_QUEUE (R229): Delete I/O Submission or Completion Queue removes a queue and returns it to the tenant quota and the pool. -/
  | deleteIoQueue (slot : Nat)
  /-- FORWARDED_COMMAND_RECEIVED (R400): A Wall member receives a forwarded work order and its data over the Course links, takes a slot, and passes the order to admission. -/
  | forwardedCommandReceived (fwd : ForwardedOrder)
  /-- MEMBER_COMPLETION_RECEIVED (R401): The head receives a member's completion for a forwarded command and posts it on the originating queue pair or function. -/
  | memberCompletionReceived (slot : Nat) (c : MemberCompletion)
  /-- MEMBER_POWER_COMMAND (R400): A member receives the head's power-state command and runs the entry steps, or abandons them on the head's word. -/
  | memberPowerCommand (target : Nat) (abandon : Bool)
  /-- MEMBER_TENANT_RECORD (R400): A member receives a tenant record from the head and applies the create, modify, reset or destroy at the named strike. -/
  | memberTenantRecord (r : TenantRecord)
  /-- ENDPOINT_ID_ASSIGNMENT (R236): The MCTP bus owner assigns the device's endpoint ID. -/
  | endpointIdAssignment (eid : Byte)
  /-- PERIOD_CHANGE_EFFECT (R24): A pending shorter period takes effect at the first strike at which no read admitted under a longer period is outstanding. -/
  | periodChangeEffect
  /-- SECURITY_OP_DONE (R301): SEC core 1 finishes a queued security operation, and any pending Receive completes. -/
  | securityOpDone
  /-- MI_HEALTH_STATUS_POLL (R237): NVMe-MI NVM Subsystem Health Status Poll is answered. -/
  | miHealthStatusPoll
  /-- MI_CONTROLLER_HEALTH_POLL (R237): NVMe-MI Controller Health Status Poll is answered. -/
  | miControllerHealthPoll
  /-- POWER_ENTRY_STEP_DONE (R329): A step of a power-state entry ends, and the next step runs or the state is reached. -/
  | powerEntryStepDone
  /-- ENTRY_DRAIN_LIMIT_EXPIRY (R330): Steps 2 to 4 pass PWR_DRAIN_LIMIT, so the entry is abandoned with STATE_NOT_IDLE. -/
  | entryDrainLimitExpiry
  /-- AVS_VOLTAGE_REACHED (R343): The regulator reports the voltage reached, and the OPSET sequencer proceeds. -/
  | avsVoltageReached
  /-- PLL_LOCKED (R343): The idle PLL locks for a downward OPSET, and FCLK switches at the next boundary. -/
  | pllLocked
  /-- BELLOWS_ARM (R350): Setting ARM, with VHV in the window, starts charging and the first capacitance test. -/
  | bellowsArm
  /-- BLEED_CHECK_TIMER (R361): After 50 ms the bleed has worked, or BANK_FAULT latches. -/
  | bleedCheckTimer
  /-- FAULT_CLEAR (R361): A FAULT_CLR write with VBANK at or below TARGET clears BANK_FAULT and starts a test. -/
  | faultClear
  /-- CHARGE_TIMEOUT (R350): The bank has not reached TARGET within TIMEOUT_S, so CHG_SLOW sets. -/
  | chargeTimeout
  /-- CAP_TEST_REQUEST (R354): A TEST_REQ write requests a capacitance test. -/
  | capTestRequest
  /-- PERIODIC_TEST_TIMER (R354): PERIOD_H expires and a capacitance test is requested. -/
  | periodicTestTimer
  /-- CAP_TEST_RETRY_TIMER (R353): 10 s after a failed test, the test runs again. -/
  | capTestRetryTimer
  /-- SUPPLY_LOSS (R358): VHV below TH for FILT switches the bank in and starts the power-loss sequence. -/
  | supplyLoss
  /-- FLUSH_PROGRAM_DONE (R359): A flush program completes, progress records are written, and the last one brings the final record and the halt. -/
  | flushProgramDone
  /-- FLUSH_AREA_REARM (R362): The restored bytes are covered or verified, so the other flush area is armed and the used one erased. -/
  | flushAreaRearm
  /-- RECORD_COMMIT_DONE (R380): A record is written and read back, and the next rewrite or FIFO entry begins. -/
  | recordCommitDone
  /-- REPEAT_REWRITE_DONE (R381): A record rewrite with an updated REPEAT completes. -/
  | repeatRewriteDone
  /-- COMMIT_READBACK_FAIL (R388): A commit fails its read-back, and the recorder moves to the AON fallback. -/
  | commitReadbackFail
  /-- FORMATION_TIMEOUT (R394): 10 s after the first link trains, the Wall forms, and members not reached count as failed. -/
  | formationTimeout
  /-- MARKER_HOLDOVER (R404): No marker arrives for 4 strikes, and the member enters holdover. -/
  | markerHoldover
  /-- REFCLK_STOP (R445): REFCLK stops while PORST_N is high and halts the device as a rail fault. -/
  | refclkStop
  deriving DecidableEq, Repr

end Sys2Proof
end

