-- ==== Sys2Proof/WellFormed.lean ====
section
/-! DEFINITION. When a command's operands lie in the ranges the spec gives the units they name (Table 1.1, R194, R240,
R283, R337, R427, R432). -/

namespace Sys2Proof

/-- Command slots (R52). -/
def slotCount : Nat := 262144

/-- Die numbers (R194). -/
def dieCount : Nat := 2048

/-- Flash channels (Table 1.1). -/
def channelCount : Nat := 64

/-- DRAM channels (Table 1.1). -/
def dramCount : Nat := 4

/-- Tenants, and PCIe functions, which carry their numbers (R227, R240). -/
def tenantCount : Nat := 1024

/-- Cipher lanes (Table 1.1). -/
def laneCount : Nat := 24

/-- Assay contexts (R283). -/
def ctxCount : Nat := 256

/-- RC queue pairs (R214). -/
def qpCount : Nat := 16384

/-- Switched domains (R337). -/
def domCount : Nat := 169

/-- Requesters of the register window (R427). -/
def requesterCount : Nat := 10

/-- A command is well formed when every operand that names a unit names one that exists. -/
def Instr.wf : Instr → Bool
  | .strike _ => true
  | .stkPeriodWrite req _ => decide (req < requesterCount)
  | .periodChangeEffect => true
  | .programAged die => decide (die < dieCount)
  | .senseDone die => decide (die < dieCount)
  | .suspendDone die _ => decide (die < dieCount)
  | .ladderStepDone _ _ _ => true
  | .readResultPosted _ => true
  | .programDone die => decide (die < dieCount)
  | .programFail die => decide (die < dieCount)
  | .eraseDone die => decide (die < dieCount)
  | .eraseFail die => decide (die < dieCount)
  | .verifyPass _ pos _ => decide (pos < 16)
  | .verifyFail _ pos => decide (pos < 16)
  | .unitXorOutDone _ pos => decide (pos < 16)
  | .rowDataInStart _ => true
  | .dieOpTimeout die => decide (die < dieCount)
  | .lunResetDone die _ => decide (die < dieCount)
  | .channelTrainingDone ch _ => decide (ch < channelCount)
  | .recentreDone ch _ => decide (ch < channelCount)
  | .slabRelease _ => true
  | .courseFormationResume _ => true
  | .zoneActionEffect _ => true
  | .migrationCutover _ => true
  | .mendCutover _ => true
  | .collectionVictimDone _ _ => true
  | .mediaInstructionResume _ => true
  | .capsuleReceived qp cap => decide (qp < qpCount) && decide (cap.sendLen = 64 + cap.data.length ∨ cap.data = [])
  | .sqEntryFetch fn _ _ => decide (fn < tenantCount)
  | .orderTextFetched slot _ => decide (slot < slotCount)
  | .resultArrival _ _ => true
  | .completionPosted slot => decide (slot < slotCount)
  | .slotQuenchDone slot => decide (slot < slotCount)
  | .add slot _ => decide (slot < slotCount)
  | .sub slot _ => decide (slot < slotCount)
  | .and slot _ => decide (slot < slotCount)
  | .or slot _ => decide (slot < slotCount)
  | .xor slot _ => decide (slot < slotCount)
  | .shl slot _ => decide (slot < slotCount)
  | .shr slot _ => decide (slot < slotCount)
  | .ldi slot _ => decide (slot < slotCount)
  | .cmp slot _ => decide (slot < slotCount)
  | .sel slot _ => decide (slot < slotCount)
  | .br slot _ => decide (slot < slotCount)
  | .bz slot _ => decide (slot < slotCount)
  | .bnz slot _ => decide (slot < slotCount)
  | .callp slot _ => decide (slot < slotCount)
  | .endOrder slot _ => decide (slot < slotCount)
  | .fault slot _ => decide (slot < slotCount)
  | .yield slot _ => decide (slot < slotCount)
  | .balloc slot _ => decide (slot < slotCount)
  | .bfree slot _ => decide (slot < slotCount)
  | .bfill slot _ => decide (slot < slotCount)
  | .bcopy slot _ => decide (slot < slotCount)
  | .bslice slot _ => decide (slot < slotCount)
  | .hget slot _ => decide (slot < slotCount)
  | .hput slot _ => decide (slot < slotCount)
  | .zread slot _ => decide (slot < slotCount)
  | .zappend slot _ => decide (slot < slotCount)
  | .zwrite slot _ => decide (slot < slotCount)
  | .zoneOpen slot _ => decide (slot < slotCount)
  | .zoneClose slot _ => decide (slot < slotCount)
  | .zoneFinish slot _ => decide (slot < slotCount)
  | .zoneReset slot _ => decide (slot < slotCount)
  | .zoneOffline slot _ => decide (slot < slotCount)
  | .zoneSetExtension slot _ => decide (slot < slotCount)
  | .reportZones slot _ => decide (slot < slotCount)
  | .extendedReportZones slot _ => decide (slot < slotCount)
  | .cread slot _ => decide (slot < slotCount)
  | .cwrite slot _ => decide (slot < slotCount)
  | .ctrim slot _ => decide (slot < slotCount)
  | .parchk slot _ => decide (slot < slotCount)
  | .seal slot _ => decide (slot < slotCount)
  | .openRecord slot _ => decide (slot < slotCount)
  | .mac slot _ => decide (slot < slotCount)
  | .dgfeed slot _ => decide (slot < slotCount)
  | .dgfin slot _ => decide (slot < slotCount)
  | .dgload slot _ => decide (slot < slotCount)
  | .wait slot _ => decide (slot < slotCount)
  | .fence slot _ => decide (slot < slotCount)
  | .time slot _ => decide (slot < slotCount)
  | .plumb slot _ => decide (slot < slotCount)
  | .post slot _ => decide (slot < slotCount)
  | .note slot _ => decide (slot < slotCount)
  | .power slot _ => decide (slot < slotCount)
  | .tenantCreate slot _ => decide (slot < slotCount)
  | .tenantModify slot _ => decide (slot < slotCount)
  | .tenantReset slot _ => decide (slot < slotCount)
  | .tenantDestroy slot _ => decide (slot < slotCount)
  | .tenantQuery slot _ => decide (slot < slotCount)
  | .keyload slot _ => decide (slot < slotCount)
  | .patload slot _ => decide (slot < slotCount)
  | .opset slot _ => decide (slot < slotCount)
  | .hmread slot _ => decide (slot < slotCount)
  | .nvmeFlush slot => decide (slot < slotCount)
  | .nvmeWrite slot => decide (slot < slotCount)
  | .nvmeRead slot => decide (slot < slotCount)
  | .nvmeCompare slot => decide (slot < slotCount)
  | .nvmeWriteZeroes slot => decide (slot < slotCount)
  | .nvmeDatasetManagement slot => decide (slot < slotCount)
  | .nvmeVerify slot => decide (slot < slotCount)
  | .zoneManagementSend slot => decide (slot < slotCount)
  | .zoneManagementReceive slot => decide (slot < slotCount)
  | .zoneAppend slot => decide (slot < slotCount)
  | .executeWorkOrder slot => decide (slot < slotCount)
  | .namespaceCreate slot _ => decide (slot < slotCount)
  | .namespaceDelete slot => decide (slot < slotCount)
  | .namespaceAttach slot tenant => decide (slot < slotCount) && decide (tenant < tenantCount)
  | .namespaceDetach slot tenant => decide (slot < slotCount) && decide (tenant < tenantCount)
  | .managerRequest slot _ => decide (slot < slotCount)
  | .managerAnswer slot => decide (slot < slotCount)
  | .getLogPageMailbox slot => decide (slot < slotCount)
  | .getLogPageHallmark slot => decide (slot < slotCount)
  | .createIoSubmissionQueue slot => decide (slot < slotCount)
  | .createIoCompletionQueue slot _ => decide (slot < slotCount)
  | .setFeaturesPowerState slot => decide (slot < slotCount)
  | .getFeaturesPowerState slot => decide (slot < slotCount)
  | .spGetIdentity slot => decide (slot < slotCount)
  | .spQuote slot _ => decide (slot < slotCount)
  | .spEnrolKeyManager slot _ _ => decide (slot < slotCount)
  | .spKekExport slot _ => decide (slot < slotCount)
  | .securityOpDone => true
  | .securityReceive slot => decide (slot < slotCount)
  | .firmwareImageDownload slot _ => decide (slot < slotCount)
  | .firmwareCommitWrite slot _ => decide (slot < slotCount)
  | .firmwareCommitWritePending slot _ => decide (slot < slotCount)
  | .firmwareCommitPending slot => decide (slot < slotCount)
  | .firmwareSlotWritten _ => true
  | .connect qp _ => decide (qp < qpCount)
  | .responseRnrNak slot => decide (slot < slotCount)
  | .qpTransportError qp => decide (qp < qpCount)
  | .qpDisconnect qp => decide (qp < qpCount)
  | .keepAliveExpiry _ => true
  | .ceMarkedPacket qp _ => decide (qp < qpCount)
  | .cnpReceived qp => decide (qp < qpCount)
  | .rateIncreaseTimer qp => decide (qp < qpCount)
  | .alphaDecayTimer qp => decide (qp < qpCount)
  | .pfcPauseReceived lport _ _ => decide (lport < 8)
  | .addressResolutionRequest lport _ _ => decide (lport < 8)
  | .icmpEchoRequest lport _ _ _ => decide (lport < 8)
  | .foreignFrame lport => decide (lport < 8)
  | .hostRdmaAccess qp => decide (qp < qpCount)
  | .doorbellWrite fn _ _ => decide (fn < tenantCount)
  | .controllerEnable fn _ _ _ _ => decide (fn < tenantCount)
  | .functionLevelReset fn => decide (fn < tenantCount)
  | .pcieReset _ => true
  | .deferredFlrEffect tenant => decide (tenant < tenantCount)
  | .miHealthStatusPoll => true
  | .miControllerHealthPoll => true
  | .miReadDataStructure _ => true
  | .miConfigurationGet _ => true
  | .miConfigurationSet _ _ _ => true
  | .miVpdRead _ _ => true
  | .miTunnelledAdmin _ => true
  | .staleResultDiscard _ => true
  | .tenantResetEnd tenant => decide (tenant < tenantCount)
  | .tenantDestroyEnd tenant => decide (tenant < tenantCount)
  | .dirtyLogEnable req => decide (req < requesterCount)
  | .dirtyLogSwap req => decide (req < requesterCount)
  | .dirtyLogDisable req => decide (req < requesterCount)
  | .dirtyLogFlushDone tenant => decide (tenant < tenantCount)
  | .laneRequestDone lane => decide (lane < laneCount)
  | .holdReleaseDone lane _ => decide (lane < laneCount)
  | .zeroingDone lane _ => decide (lane < laneCount)
  | .kekEpochWrite req _ => decide (req < requesterCount)
  | .dgAllocRequest req _ => decide (req < requesterCount)
  | .dgFreeWrite req _ => decide (req < requesterCount)
  | .dgInit ctx _ => decide (ctx < ctxCount)
  | .dgExport ctx _ => decide (ctx < ctxCount)
  | .dgImport ctx _ => decide (ctx < ctxCount)
  | .dgDataWrite ctx _ => decide (ctx < ctxCount)
  | .dgLastWrite ctx _ => decide (ctx < ctxCount)
  | .blockCompressed ctx => decide (ctx < ctxCount)
  | .selfRefreshEntry ch => decide (ch < dramCount)
  | .selfRefreshInterrupt ch => decide (ch < dramCount)
  | .selfRefreshExitDone ch => decide (ch < dramCount)
  | .dmGateIdleExpiry ch => decide (ch < dramCount)
  | .refreshDue ch bank _ => decide (ch < dramCount) && decide (bank < 32)
  | .openRowTimeout ch bank => decide (ch < dramCount) && decide (bank < 32)
  | .patrolScrub ch _ _ => decide (ch < dramCount)
  | .crucibleScrub _ _ => true
  | .uncorrectableLine _ => true
  | .crucibleRetentionEntry group => decide (group < 32)
  | .powerEntryStepDone => true
  | .entryDrainLimitExpiry => true
  | .pwrWakeNAssert _ => true
  | .wakeTimerExpiry _ => true
  | .perstWake _ => true
  | .wakePacket lport _ _ => decide (lport < 8)
  | .wakeTlp fn _ => decide (fn < tenantCount)
  | .domainOnRequest req => decide (req < requesterCount)
  | .domainOffRequest req => decide (req < requesterCount)
  | .domainDrained dom => decide (dom < domCount)
  | .domainDrainLimitExpiry dom => decide (dom < domCount)
  | .autoGateIdleExpiry dom => decide (dom < domCount)
  | .autoDrainDone dom => decide (dom < domCount)
  | .domainWakeDone dom => decide (dom < domCount)
  | .avsVoltageReached => true
  | .pllLocked => true
  | .avsSettleTimeout _ => true
  | .bellowsArm => true
  | .voltageSample _ _ => true
  | .bleedCheckTimer => true
  | .faultClear => true
  | .chargeTimeout => true
  | .capTestRequest => true
  | .periodicTestTimer => true
  | .capTestBleedStart _ => true
  | .capTestBleedEnd _ _ => true
  | .capTestRetryTimer => true
  | .supplyLoss => true
  | .flushProgramDone => true
  | .bellowsRestart _ => true
  | .bankDepleted _ => true
  | .flushAreaRearm => true
  | .housekeepingSample input _ => decide (input < 32)
  | .criticalComparatorTrip sensor => decide (24 ≤ sensor ∧ sensor ≤ 27)
  | .flushOvertempHalt sensor => decide (24 ≤ sensor ∧ sensor ≤ 27)
  | .thermalRestartRelease _ => true
  | .eventArrival e => decide (e.source ≤ 242 ∧ e.param.length ≤ 12)
  | .recordCommitDone => true
  | .repeatRewriteDone => true
  | .commitReadbackFail => true
  | .hmRdSeqWrite req _ => decide (req < requesterCount)
  | .opMsPersistTimer _ => true
  | .flitCrcFail _ => true
  | .linkElectricalIdle _ => true
  | .linkTrainingDone _ _ => true
  | .formMessage _ _ _ => true
  | .formationTimeout => true
  | .routeTablesInForce _ => true
  | .endToEndAckTimeout _ => true
  | .downNotice member => decide (member < 64)
  | .strikeMarker _ => true
  | .markerHoldover => true
  | .commandForward slot => decide (slot < slotCount)
  | .memberHostTransfer _ => true
  | .wallWakePulse _ => true
  | .wallResetMessage _ => true
  | .porstNReset _ => true
  | .sysRstNReset _ => true
  | .nvmSubsystemReset _ _ => true
  | .softwareReset req _ _ => decide (req < requesterCount)
  | .bootWatchdogExpiry _ => true
  | .bootStageDone _ => true
  | .bootLockWrite req _ => decide (req < requesterCount)
  | .execEnWrite req _ => decide (req < requesterCount)
  | .railFault _ _ => true
  | .aonUndervoltage _ => true
  | .refclkStop => true
  | .bayMaskWrite req _ => decide (req < requesterCount)
  | .ipEntryCommit req _ => decide (req < requesterCount)
  | .eventForceWrite req _ => decide (req < requesterCount)
  | .eventStatusClear req k _ => decide (req < requesterCount) && decide (k < 12)
  | .eventEnableWrite req k _ => decide (req < requesterCount) && decide (k < 12)
  | .regPairLoRead req _ _ => decide (req < requesterCount)
  | .regPairHiRead req _ _ => decide (req < requesterCount)
  | .regPairLoWrite req _ _ => decide (req < requesterCount)
  | .regPairHiWrite req _ _ => decide (req < requesterCount)
  | .rcRegisterRead req _ _ => decide (req < requesterCount)
  | .registerWrite req _ _ _ => decide (req < requesterCount)
  | .keepAlive qp => decide (qp < qpCount)
  | .connectionRequest lport => decide (lport < 8)
  | .ackTimeout qp => decide (qp < qpCount)
  | .ethernetLinkChange lport _ => decide (lport < 8)
  | .pcieLinkUp _ _ _ => true
  | .deleteIoQueue slot => decide (slot < slotCount)
  | .forwardedCommandReceived _ => true
  | .memberCompletionReceived slot _ => decide (slot < slotCount)
  | .memberPowerCommand target _ => decide (target < 4)
  | .memberTenantRecord _ => true
  | .endpointIdAssignment _ => true

end Sys2Proof
end

