-- ==== Sys2Proof/Decode.lean ====
section
/-! DEFINITION. Words of the table. The rows of spec/opcode_table.json are operations and events of a block; no row gives
its command any bits, so no word spells a command. -/

namespace Sys2Proof

/-- The command that a word spells by the table's bits: none, because the table gives bits to no row. -/
def decodeTableWord (_nbits _w : Nat) : Option Instr := none

end Sys2Proof
end

