-- ==== Sys2Proof/Config.lean ====
section
/-! DEFINITION. What an implementation fixes and the spec does not give (fuses, straps, silicon), and the free values:
constants without a body, so that no proof can see a value of one (log entries 3, 5 and 6). -/

namespace Sys2Proof.Config

/-- The 256-bit device secret in the fuses, as 32 bytes (R265). -/
opaque deviceSecret : List Byte

/-- The SHA-256 of the root public key in the fuses (R296). -/
opaque rootKeyHash : List Byte

/-- Temperature grade fuse: false ZK7640-XA, true ZK7640-CA (Table 20.3). -/
opaque gradeCA : Bool

/-- The device secret is programmed (GLB_FUSE_INFO). -/
opaque secretOk : Bool

/-- The root key hash is programmed (GLB_FUSE_INFO). -/
opaque rootOk : Bool

/-- Silicon stepping (GLB_REVISION). -/
opaque stepping : Byte

/-- Boot ROM version (GLB_REVISION). -/
opaque romVersion : Byte

/-- Unit serial number (GLB_SERIAL). -/
opaque serial : W64

/-- The MAC address of a logical port, read from fuses (R210). -/
opaque macAddress : Nat → BitVec 48

/-- The security fuses that the security configuration record holds (R299). -/
opaque securityFuses : List Byte

/-- SLH-DSA key generation from three seeds: the public key (R299, FIPS 205). -/
opaque slhPublic : List Byte → List Byte

/-- An SLH-DSA signature by the key of the seeds over a message; the number makes a fresh one each time (FIPS 205). -/
opaque slhSign : Nat → List Byte → List Byte → List Byte

/-- SLH-DSA verification: public key, message, signature (FIPS 205). -/
opaque slhVerify : List Byte → List Byte → List Byte → Bool

/-- ML-KEM-1024 encapsulation to a key: the shared secret and the ciphertext; the number makes a fresh one (FIPS 203). -/
opaque kemEncaps : Nat → List Byte → List Byte × List Byte

/-- Free values: the n-th value of 64 bits that the spec leaves open. -/
opaque freeValue : Nat → W64

/-- Whether firmware writes a checkpoint of the media structures at the n-th strike: the spec gives no times (R143, R147). -/
opaque checkpoint : Nat → Bool

/-- The Cornerstone byte address of the ring slot that a SEQ takes: the spec does not give the Cornerstone's layout (R380, Table
17.2). -/
opaque ringAddress : Nat → BitVec 32

/-- A fresh 96-bit IV (R304). -/
opaque freshIv : Nat → List Byte

/-- Bytes that the spec leaves open in an answer (a log page or data structure whose layout another standard gives): the
n-th free byte string of a given length. -/
opaque freeBytes : Nat → Nat → List Byte

/-- The word inside a device pattern that a fault names, for the pattern and the model's own count of its words (R109, log
entry 9). -/
opaque devicePosition : Nat → Nat → Nat

end Sys2Proof.Config
end

