-- ==== Sys2Proof/Machine/RegMap.lean ====
section
/-! DEFINITION. The register map (R5 to R8, R426, Tables 20.1 and the register tables of every chapter): one constant
per field, with its address, place, width, access code and reset value, and one entry per register. An array of like
registers is one entry with a stride. -/

namespace Sys2Proof.Machine

/-- The access codes of Table 0.3 (R8). -/
inductive Acc where
  | rw | ro | wo | w1c | rc | rwl
  deriving DecidableEq, Repr

/-- What a register's address further depends on (R428): nothing, the requester itself, or the entry the requester last
selected. -/
inductive Sel where
  | none | req | bay | lport | ip | tenant | kek | slot | arb | dom | hkp | route
  deriving DecidableEq, Repr

/-- One field of a register. -/
structure Fld where
  addr : Nat
  lsb : Nat
  width : Nat
  acc : Acc
  rst : Nat
  deriving DecidableEq, Repr

/-- One register, or an array of `count` registers `stride` bytes apart. -/
structure RegDesc where
  base : Nat
  stride : Nat
  count : Nat
  sel : Sel
  flds : List Fld
  deriving DecidableEq, Repr

namespace R

/-! Table 2.5 and its field tables (02_strike.md, R45). -/
def STK_PERIOD_PER_Q : Fld := ⟨0x00200000, 0, 5, .rw, 0x4⟩
def STK_STATUS_PER_PEND : Fld := ⟨0x00200004, 0, 1, .ro, 0x0⟩
def STK_STATUS_PER_REFUSED : Fld := ⟨0x00200004, 1, 1, .w1c, 0x0⟩
def STK_STATUS_FOLLOWER : Fld := ⟨0x00200004, 2, 1, .ro, 0x0⟩
def STK_STATUS_PER_ACTIVE : Fld := ⟨0x00200004, 4, 5, .ro, 0x4⟩
def STK_STATUS_MIN_OP : Fld := ⟨0x00200004, 9, 3, .ro, 0x2⟩
def STK_COUNT_LO_COUNT : Fld := ⟨0x00200008, 0, 32, .ro, 0x0⟩
def STK_COUNT_HI_COUNT : Fld := ⟨0x0020000C, 0, 32, .ro, 0x0⟩
def STK_SUSP_RUN_MIN : Fld := ⟨0x00200010, 0, 12, .rw, 0x64⟩
def STK_SUSP_N_SW : Fld := ⟨0x00200010, 12, 4, .rw, 0x4⟩
def STK_SUSP_PROG_AGE : Fld := ⟨0x00200010, 16, 16, .rw, 0xC8⟩
def STK_BUS_WR_FLOOR : Fld := ⟨0x00200014, 0, 4, .rw, 0x3⟩
def STK_RA_CTRL_RA_EN : Fld := ⟨0x00200018, 0, 1, .rw, 0x1⟩
def STK_RA_CTRL_RA_SHARE : Fld := ⟨0x00200018, 1, 4, .rw, 0x5⟩
def STK_RA_CTRL_GAIN : Fld := ⟨0x00200018, 8, 8, .rw, 0x8⟩
def STK_RA_CTRL_MAX_INFLIGHT : Fld := ⟨0x00200018, 16, 12, .rw, 0x400⟩
def STK_RA_CTRL_PX_FLOOR : Fld := ⟨0x00200018, 28, 4, .rw, 0x4⟩
def STK_TIM_READ_T_R : Fld := ⟨0x00200020, 0, 12, .rwl, 0x186⟩
def STK_TIM_PROG_T_LOOP : Fld := ⟨0x00200024, 0, 8, .rwl, 0x1E⟩
def STK_TIM_PROG_T_SUS : Fld := ⟨0x00200024, 8, 8, .rwl, 0xF⟩
def STK_TIM_PROG_MAX_SUSP : Fld := ⟨0x00200024, 16, 8, .rwl, 0x20⟩
def STK_TIM_ERASE_T_ESEG : Fld := ⟨0x00200028, 0, 8, .rwl, 0x1E⟩
def STK_TIM_ERASE_T_ESUS : Fld := ⟨0x00200028, 8, 8, .rwl, 0xF⟩
def STK_TIM_ERASE_MAX_ESUSP : Fld := ⟨0x00200028, 16, 8, .rwl, 0x20⟩
def STK_TIM_LONG_T_PROG : Fld := ⟨0x0020002C, 0, 16, .rwl, 0x960⟩
def STK_TIM_LONG_T_ERS : Fld := ⟨0x0020002C, 16, 16, .rwl, 0xBB8⟩
def STK_BREACH_CNT_BREACH : Fld := ⟨0x00200030, 0, 32, .rc, 0x0⟩
def STK_LATE_CNT_LATE : Fld := ⟨0x00200034, 0, 32, .rc, 0x0⟩
def STK_MEDIA_LATE_CNT_MEDIA_LATE : Fld := ⟨0x00200038, 0, 32, .rc, 0x0⟩
def STK_RA_CNT_RA : Fld := ⟨0x0020003C, 0, 32, .rc, 0x0⟩
/-! Table 3.9 and its field tables (03_work_orders.md, R80). -/
def SMT_CTRL_EXEC_EN : Fld := ⟨0x00300000, 0, 1, .rw, 0x0⟩
def SMT_CTRL_HANDLER_ALLOW : Fld := ⟨0x00300000, 8, 8, .rwl, 0x10⟩
def SMT_SLOT_FREE_FREE : Fld := ⟨0x00300004, 0, 19, .ro, 0x40000⟩
def SMT_SLOT_MIN_MIN : Fld := ⟨0x00300008, 0, 19, .rc, 0x40000⟩
def SMT_CTX_MISS_MISS : Fld := ⟨0x0030000C, 0, 32, .rc, 0x0⟩
def SMT_FAULT_CNT_FAULT : Fld := ⟨0x00300010, 0, 32, .rc, 0x0⟩
def SMT_RUNAWAY_CNT_RUNAWAY : Fld := ⟨0x00300014, 0, 32, .rc, 0x0⟩
def SMT_LENGTH_CNT_LENGTH : Fld := ⟨0x00300018, 0, 32, .rc, 0x0⟩
def SMT_PAT_FREE_PAGES : Fld := ⟨0x0030001C, 0, 18, .ro, 0x20000⟩
def SMT_CLU_STAT_SMITH_ON : Fld := ⟨0x00300040, 0, 8, .ro, 0x0⟩
def SMT_CLU_STAT_RUNNABLE : Fld := ⟨0x00300040, 16, 16, .ro, 0x0⟩
/-! Table 5.7 and its field tables (05_zones.md, R137). -/
def MED_STATUS_RO_LATCH : Fld := ⟨0x00400000, 0, 1, .ro, 0x0⟩
def MED_STATUS_SPARE_LOW : Fld := ⟨0x00400000, 1, 1, .ro, 0x0⟩
def MED_STATUS_SPARE_FLOOR : Fld := ⟨0x00400000, 2, 1, .ro, 0x0⟩
def MED_STATUS_BAY_REFUSED : Fld := ⟨0x00400000, 3, 1, .w1c, 0x0⟩
def MED_ZONE_ACTIVE_ACTIVE : Fld := ⟨0x00400004, 0, 13, .ro, 0x0⟩
def MED_ZONE_OPEN_OPEN : Fld := ⟨0x00400008, 0, 13, .ro, 0x0⟩
def MED_OPEN_CAP_CAP : Fld := ⟨0x0040000C, 0, 13, .ro, 0x0⟩
def MED_SPARE_SPARE : Fld := ⟨0x00400010, 0, 24, .ro, 0x0⟩
def MED_SPARE_TH_LOW : Fld := ⟨0x00400014, 0, 16, .rw, 0x64⟩
def MED_SPARE_TH_FLOOR : Fld := ⟨0x00400014, 16, 16, .rw, 0x19⟩
def MED_BAY_SEL_BAY : Fld := ⟨0x00400018, 0, 8, .rw, 0x0⟩
def MED_BAY_MASK_LO_MASK : Fld := ⟨0x0040001C, 0, 32, .rw, 0x0⟩
def MED_BAY_MASK_HI_MASK : Fld := ⟨0x00400020, 0, 32, .rw, 0x0⟩
def MED_RELOC_CNT_RELOC : Fld := ⟨0x00400024, 0, 32, .rc, 0x0⟩
def MED_MEND_CNT_MEND : Fld := ⟨0x00400028, 0, 32, .rc, 0x0⟩
/-! Table 6.8 and its field tables (06_media_management.md, R165). -/
def MED_GEOM_PLANES : Fld := ⟨0x00400030, 0, 3, .ro, 0x0⟩
def MED_GEOM_CELL : Fld := ⟨0x00400030, 3, 2, .ro, 0x0⟩
def MED_GEOM_PAIR_FREE : Fld := ⟨0x00400030, 5, 1, .ro, 0x0⟩
def MED_GEOM_BLK_MIB : Fld := ⟨0x00400030, 16, 9, .ro, 0x0⟩
def MED_SLAB_GOOD_GOOD : Fld := ⟨0x00400034, 0, 24, .ro, 0x0⟩
def MED_SLAB_RETIRED_RETIRED : Fld := ⟨0x00400038, 0, 24, .ro, 0x0⟩
def MED_SPARE_FACTORY_FACTORY : Fld := ⟨0x0040003C, 0, 24, .ro, 0x0⟩
def MED_SYS_SIZE_FRAC : Fld := ⟨0x00400040, 0, 16, .rwl, 0x32⟩
def MED_MAP_POOL_GIB : Fld := ⟨0x00400044, 0, 16, .rwl, 0x0⟩
def MED_CONV_OPEN_MAX : Fld := ⟨0x00400048, 0, 9, .rw, 0x100⟩
def MED_CONV_OPEN_IN_USE : Fld := ⟨0x00400048, 16, 9, .ro, 0x0⟩
def MED_GC_CTRL_START : Fld := ⟨0x0040004C, 0, 8, .rw, 0x2⟩
def MED_GC_CTRL_URGENT : Fld := ⟨0x0040004C, 8, 8, .rw, 0x1⟩
def MED_GC_CTRL_PARALLEL : Fld := ⟨0x0040004C, 16, 7, .rw, 0x40⟩
def MED_WL_SPREAD_SPREAD : Fld := ⟨0x00400050, 0, 16, .rw, 0x96⟩
def MED_WL_SPREAD_MAX_MOVE : Fld := ⟨0x00400050, 16, 8, .rw, 0x4⟩
def MED_LADDER_SOFT_EN : Fld := ⟨0x00400054, 0, 1, .rw, 0x1⟩
def MED_LADDER_RETRY_MAX : Fld := ⟨0x00400054, 1, 4, .rw, 0x8⟩
def MED_LADDER_REFRESH_TH : Fld := ⟨0x00400054, 8, 8, .rw, 0x78⟩
def MED_LADDER_REFAIL_PE : Fld := ⟨0x00400054, 16, 8, .rw, 0x40⟩
def MED_PE_RATED_RATED : Fld := ⟨0x00400058, 0, 16, .rwl, 0x5DC⟩
def MED_PE_STAT_MAX : Fld := ⟨0x0040005C, 0, 16, .ro, 0x0⟩
def MED_PE_STAT_AVG : Fld := ⟨0x0040005C, 16, 16, .ro, 0x0⟩
def MED_PROG_FAIL_CNT_PROG_FAIL : Fld := ⟨0x00400060, 0, 32, .rc, 0x0⟩
def MED_ERASE_FAIL_CNT_ERASE_FAIL : Fld := ⟨0x00400064, 0, 32, .rc, 0x0⟩
def MED_GC_CNT_GC : Fld := ⟨0x00400068, 0, 32, .rc, 0x0⟩
def MED_SOFT_CNT_SOFT : Fld := ⟨0x0040006C, 0, 32, .rc, 0x0⟩
def MED_RETRY_CNT_RETRY : Fld := ⟨0x00400070, 0, 32, .rc, 0x0⟩
def MED_REBUILD_CNT_REBUILD : Fld := ⟨0x00400074, 0, 32, .rc, 0x0⟩
def MED_UNREC_CNT_UNREC : Fld := ⟨0x00400078, 0, 32, .rc, 0x0⟩
/-! Table 7.6 and its field tables (07_parity.md, R190). -/
def MED_PAR_CTRL_CRU_SETS : Fld := ⟨0x00400080, 0, 8, .rwl, 0x20⟩
def MED_PAR_CTRL_BG_MAX : Fld := ⟨0x00400080, 16, 4, .rw, 0x2⟩
def MED_PAR_STAT_SETS : Fld := ⟨0x00400084, 0, 13, .ro, 0x0⟩
def MED_PAR_STAT_CRU_IN_USE : Fld := ⟨0x00400084, 16, 8, .ro, 0x0⟩
def MED_PAR_VFY_FAIL_CNT_VFY_FAIL : Fld := ⟨0x00400088, 0, 32, .rc, 0x0⟩
def MED_PAR_MORTAR_CNT_MORTAR : Fld := ⟨0x0040008C, 0, 32, .rc, 0x0⟩
def MED_PAR_KEYSTONE_CNT_KEYSTONE : Fld := ⟨0x00400090, 0, 32, .rc, 0x0⟩
def MED_PAR_DEFER_CNT_DEFER : Fld := ⟨0x00400094, 0, 32, .rc, 0x0⟩
/-! Table 8.7 and its field tables (08_flash_channels.md, R207). -/
def FCH_CTRL_EN : Fld := ⟨0x00500000, 0, 1, .rwl, 0x0⟩
def FCH_CTRL_RATE_CAP : Fld := ⟨0x00500000, 1, 2, .rwl, 0x0⟩
def FCH_STATUS_STATE : Fld := ⟨0x00500004, 0, 3, .ro, 0x0⟩
def FCH_STATUS_RATE : Fld := ⟨0x00500004, 3, 2, .ro, 0x0⟩
def FCH_STATUS_TRAIN_FAIL : Fld := ⟨0x00500004, 5, 1, .w1c, 0x0⟩
def FCH_STATUS_EYE_LOW : Fld := ⟨0x00500004, 6, 1, .w1c, 0x0⟩
def FCH_STATUS_PAD_SUPPLY : Fld := ⟨0x00500004, 7, 1, .ro, 0x0⟩
def FCH_DIE_PRESENT_PRESENT : Fld := ⟨0x00500008, 0, 32, .ro, 0x0⟩
def FCH_DIE_LOST_LOST : Fld := ⟨0x0050000C, 0, 32, .ro, 0x0⟩
def FCH_TRAIN_DRIFT_C : Fld := ⟨0x00500010, 0, 8, .rw, 0xA⟩
def FCH_TRAIN_SENSOR : Fld := ⟨0x00500010, 8, 5, .rw, 0x0⟩
def FCH_CORR_CNT_CORR : Fld := ⟨0x00500020, 0, 32, .rc, 0x0⟩
def FCH_HARD_FAIL_CNT_HARD_FAIL : Fld := ⟨0x00500024, 0, 32, .rc, 0x0⟩
def FCH_TIMEOUT_CNT_TIMEOUT : Fld := ⟨0x00500028, 0, 32, .rc, 0x0⟩
def FCH_RETRAIN_CNT_RETRAIN : Fld := ⟨0x0050002C, 0, 32, .rc, 0x0⟩
def FCH_TIMEOUT_OP_MS : Fld := ⟨0x00540000, 0, 8, .rwl, 0xA⟩
def FCH_PAD_RAMP_RAMP_US : Fld := ⟨0x00540004, 0, 8, .rwl, 0x32⟩
def FCH_FAM_WORD : Fld := ⟨0x00541000, 0, 32, .rwl, 0x0⟩
/-! Table 9.6 and its field tables (09_host_ports.md, R238/R239). -/
def ETH_PORT_CFG_EN : Fld := ⟨0x00F00000, 0, 1, .rw, 0x0⟩
def ETH_PORT_CFG_MODE : Fld := ⟨0x00F00000, 1, 2, .rw, 0x0⟩
def ETH_PORT_CFG_AN_EN : Fld := ⟨0x00F00000, 3, 1, .rw, 0x1⟩
def ETH_LINK_STAT_UP : Fld := ⟨0x00F00008, 0, 8, .ro, 0x0⟩
def ETH_LPORT_SEL_LPORT : Fld := ⟨0x00F00010, 0, 3, .rw, 0x0⟩
def ETH_LPORT_SEL_IP : Fld := ⟨0x00F00010, 3, 2, .rw, 0x0⟩
def ETH_LPORT_CFG_PRIO : Fld := ⟨0x00F00014, 0, 3, .rw, 0x3⟩
def ETH_LPORT_CFG_PFC_EN : Fld := ⟨0x00F00014, 3, 1, .rw, 0x1⟩
def ETH_LPORT_CFG_DSCP : Fld := ⟨0x00F00014, 4, 6, .rw, 0x1A⟩
def ETH_LPORT_CFG_CNP_DSCP : Fld := ⟨0x00F00014, 10, 6, .rw, 0x30⟩
def ETH_LPORT_CFG_VLAN : Fld := ⟨0x00F00014, 16, 12, .rw, 0x0⟩
def ETH_LPORT_CFG_VLAN_EN : Fld := ⟨0x00F00014, 28, 1, .rw, 0x0⟩
def ETH_LPORT_MTU_MTU : Fld := ⟨0x00F00018, 0, 14, .rw, 0x2400⟩
def ETH_MAC_LO_MAC : Fld := ⟨0x00F0001C, 0, 32, .ro, 0x0⟩
def ETH_MAC_HI_MAC : Fld := ⟨0x00F00020, 0, 16, .ro, 0x0⟩
def ETH_IP_ADDR_ADDR : Fld := ⟨0x00F00024, 0, 32, .rw, 0x0⟩
def ETH_IP_CTRL_VALID : Fld := ⟨0x00F00034, 0, 1, .rw, 0x0⟩
def ETH_IP_CTRL_V6 : Fld := ⟨0x00F00034, 1, 1, .rw, 0x0⟩
def ETH_IP_CTRL_PREFIX : Fld := ⟨0x00F00034, 2, 8, .rw, 0x0⟩
def ETH_RT_CTRL_RT_EN : Fld := ⟨0x00F00040, 0, 1, .rw, 0x0⟩
def ETH_RT_CTRL_RNR_TMR : Fld := ⟨0x00F00040, 1, 5, .rw, 0x1⟩
def ETH_RT_CTRL_RNR_RETRY : Fld := ⟨0x00F00040, 6, 3, .rw, 0x7⟩
def ETH_RT_CTRL_ACK_TMO : Fld := ⟨0x00F00040, 9, 5, .rw, 0xE⟩
def ETH_RT_CTRL_RETRY_CNT : Fld := ⟨0x00F00040, 14, 3, .rw, 0x7⟩
def ETH_RT_CTRL_READ_DEPTH : Fld := ⟨0x00F00040, 17, 5, .rw, 0x10⟩
def ETH_RT_QP_USED_USED : Fld := ⟨0x00F00044, 0, 15, .ro, 0x0⟩
def ETH_RT_CREDITS_CREDITS : Fld := ⟨0x00F00048, 0, 19, .ro, 0x0⟩
def ETH_CC_NP_INTERVAL : Fld := ⟨0x00F00050, 0, 8, .rw, 0x32⟩
def ETH_CC_NP_NP_EN : Fld := ⟨0x00F00050, 8, 1, .rw, 0x1⟩
def ETH_CC_NP_RP_EN : Fld := ⟨0x00F00050, 9, 1, .rw, 0x1⟩
def ETH_CC_RP_G_SHIFT : Fld := ⟨0x00F00054, 0, 4, .rw, 0x8⟩
def ETH_CC_RP_T_INC : Fld := ⟨0x00F00054, 8, 8, .rw, 0x37⟩
def ETH_CC_RP_K : Fld := ⟨0x00F00054, 16, 8, .rw, 0x37⟩
def ETH_CC_AI_AI_MBPS : Fld := ⟨0x00F00058, 0, 16, .rw, 0x28⟩
def ETH_CC_AI_MIN_MBPS : Fld := ⟨0x00F00058, 16, 16, .rw, 0x64⟩
def ETH_RNR_CNT_RNR : Fld := ⟨0x00F00060, 0, 32, .rc, 0x0⟩
def ETH_QP_ERR_CNT_QP_ERR : Fld := ⟨0x00F00064, 0, 32, .rc, 0x0⟩
def ETH_CNP_RX_CNT_CNP_RX : Fld := ⟨0x00F00068, 0, 32, .rc, 0x0⟩
def ETH_CNP_TX_CNT_CNP_TX : Fld := ⟨0x00F0006C, 0, 32, .rc, 0x0⟩
def ETH_DROP_CNT_DROP : Fld := ⟨0x00F00070, 0, 32, .rc, 0x0⟩
def ETH_LEN_CNT_LEN : Fld := ⟨0x00F00074, 0, 32, .rc, 0x0⟩
/-! Table 9.12 and its field tables (09_host_ports.md, R238/R239). -/
def PCI_LINK_CAP_MAX_SPEED : Fld := ⟨0x01000000, 0, 3, .rwl, 0x6⟩
def PCI_LINK_CAP_MAX_WIDTH : Fld := ⟨0x01000000, 3, 4, .rwl, 0x8⟩
def PCI_LINK_STAT_SPEED : Fld := ⟨0x01000004, 0, 3, .ro, 0x0⟩
def PCI_LINK_STAT_WIDTH : Fld := ⟨0x01000004, 3, 4, .ro, 0x0⟩
def PCI_LINK_STAT_FLIT : Fld := ⟨0x01000004, 7, 1, .ro, 0x0⟩
def PCI_LINK_STAT_LINK_UP : Fld := ⟨0x01000004, 8, 1, .ro, 0x0⟩
def PCI_SRIOV_NUM_VFS : Fld := ⟨0x01000008, 0, 11, .ro, 0x0⟩
def PCI_SRIOV_VF_EN : Fld := ⟨0x01000008, 16, 1, .ro, 0x0⟩
def PCI_MI_CTRL_SMB_ADDR : Fld := ⟨0x0100000C, 0, 7, .rwl, 0x1D⟩
def PCI_MI_CTRL_SMB_1MHZ : Fld := ⟨0x0100000C, 7, 1, .rw, 0x0⟩
def PCI_MI_CTRL_VDM_EN : Fld := ⟨0x0100000C, 8, 1, .rw, 0x1⟩
def PCI_MI_CTRL_ADMIN_WR : Fld := ⟨0x0100000C, 9, 1, .rw, 0x0⟩
def PCI_DMA_ERR_CNT_DMA_ERR : Fld := ⟨0x01000010, 0, 32, .rc, 0x0⟩
def PCI_DBL_ERR_CNT_DBL_ERR : Fld := ⟨0x01000014, 0, 32, .rc, 0x0⟩
def PCI_FLR_CNT_FLR : Fld := ⟨0x01000018, 0, 32, .rc, 0x0⟩
/-! Table 10.8 and its field tables (10_tenants.md, R263). -/
def TEN_SEL_TENANT : Fld := ⟨0x00600000, 0, 10, .rw, 0x0⟩
def TEN_STAT_STATE : Fld := ⟨0x00600004, 0, 2, .ro, 0x0⟩
def TEN_STAT_BINDING : Fld := ⟨0x00600004, 2, 1, .ro, 0x0⟩
def TEN_STAT_RESET_MODE : Fld := ⟨0x00600004, 3, 1, .ro, 0x0⟩
def TEN_STAT_GEN : Fld := ⟨0x00600004, 16, 16, .ro, 0x0⟩
def TEN_SLOTS_USED_USED : Fld := ⟨0x00600008, 0, 19, .ro, 0x0⟩
def TEN_STALE_CNT_STALE : Fld := ⟨0x0060000C, 0, 32, .rc, 0x0⟩
def TEN_POOL_SLOTS_FREE : Fld := ⟨0x00600010, 0, 19, .ro, 0x0⟩
def TEN_POOL_QUEUES_PCIE : Fld := ⟨0x00600014, 0, 15, .ro, 0x0⟩
def TEN_POOL_QUEUES_RC : Fld := ⟨0x00600014, 16, 15, .ro, 0x0⟩
def TEN_POOL_MISC_ACTIVE : Fld := ⟨0x00600018, 0, 13, .ro, 0x0⟩
def TEN_POOL_MISC_ASSAY : Fld := ⟨0x00600018, 16, 9, .ro, 0x0⟩
def TEN_POOL_CRU_MIB : Fld := ⟨0x0060001C, 0, 16, .ro, 0x0⟩
def TEN_POOL_BEDROCK_COURSES : Fld := ⟨0x00600020, 0, 24, .ro, 0x0⟩
def TEN_DIRTY_CTRL_EN : Fld := ⟨0x00600030, 0, 1, .rw, 0x0⟩
def TEN_DIRTY_CTRL_SWAP : Fld := ⟨0x00600030, 1, 1, .wo, 0x0⟩
def TEN_DIRTY_CTRL_BUSY : Fld := ⟨0x00600030, 2, 1, .ro, 0x0⟩
def TEN_DIRTY_CTRL_OUT_RANGE : Fld := ⟨0x00600030, 3, 1, .w1c, 0x0⟩
def TEN_DIRTY_PAGES_PAGES : Fld := ⟨0x00600034, 0, 28, .rw, 0x0⟩
def TEN_DIRTY_NEXT_LO_ADDR : Fld := ⟨0x00600038, 0, 32, .rw, 0x0⟩
def TEN_DIRTY_NEXT_HI_ADDR : Fld := ⟨0x0060003C, 0, 32, .rw, 0x0⟩
def TEN_DIRTY_CUR_LO_ADDR : Fld := ⟨0x00600040, 0, 32, .ro, 0x0⟩
def TEN_DIRTY_CUR_HI_ADDR : Fld := ⟨0x00600044, 0, 32, .ro, 0x0⟩
def TEN_DIRTY_OLD_LO_ADDR : Fld := ⟨0x00600048, 0, 32, .ro, 0x0⟩
def TEN_DIRTY_OLD_HI_ADDR : Fld := ⟨0x0060004C, 0, 32, .ro, 0x0⟩
/-! Table 11.4 and its field tables (11_cipher.md, R282). -/
def CPH_CTRL_DUMMY : Fld := ⟨0x00700000, 0, 1, .rwl, 0x1⟩
def CPH_STATUS_LANE_ON : Fld := ⟨0x00700004, 0, 24, .ro, 0x0⟩
def CPH_STATUS_EPOCH_REFUSED : Fld := ⟨0x00700004, 24, 1, .w1c, 0x0⟩
def CPH_KEK_SEL_TENANT : Fld := ⟨0x00700008, 0, 10, .rw, 0x0⟩
def CPH_KEK_EPOCH_EPOCH : Fld := ⟨0x0070000C, 0, 32, .rw, 0x0⟩
def CPH_SLOT_SEL_SLOT : Fld := ⟨0x00700010, 0, 13, .rw, 0x0⟩
def CPH_SLOT_INFO_KTYPE : Fld := ⟨0x00700014, 0, 2, .ro, 0x0⟩
def CPH_SLOT_INFO_USAGE : Fld := ⟨0x00700014, 2, 7, .ro, 0x0⟩
def CPH_SLOT_INFO_TENANT : Fld := ⟨0x00700014, 9, 10, .ro, 0x0⟩
def CPH_SLOT_KEYID_KEY_ID : Fld := ⟨0x00700018, 0, 32, .ro, 0x0⟩
def CPH_TAG_FAIL_CNT_TAG_FAIL : Fld := ⟨0x00700020, 0, 32, .rc, 0x0⟩
def CPH_ZEROED_CNT_ZEROED : Fld := ⟨0x00700024, 0, 32, .rc, 0x0⟩
def CPH_BLOB_FAIL_CNT_BLOB_FAIL : Fld := ⟨0x00700028, 0, 32, .rc, 0x0⟩
def CPH_ZERO_FAIL_CNT_ZERO_FAIL : Fld := ⟨0x0070002C, 0, 32, .rc, 0x0⟩
/-! Table 12.5 and its field tables (12_assay_and_trust.md, R305). -/
def DG_CTRL_CMD : Fld := ⟨0x00800000, 0, 2, .wo, 0x0⟩
def DG_CTRL_ALGO : Fld := ⟨0x00800000, 2, 1, .rw, 0x0⟩
def DG_STATUS_BUSY : Fld := ⟨0x00800004, 0, 1, .ro, 0x0⟩
def DG_STATUS_VALID : Fld := ⟨0x00800004, 1, 1, .ro, 0x0⟩
def DG_STATUS_OVR : Fld := ⟨0x00800004, 2, 1, .ro, 0x0⟩
def DG_STATUS_ERR : Fld := ⟨0x00800004, 3, 1, .ro, 0x0⟩
def DG_STATUS_CMD_REFUSED : Fld := ⟨0x00800004, 4, 1, .w1c, 0x0⟩
def DG_STATUS_OWNER : Fld := ⟨0x00800004, 5, 2, .ro, 0x0⟩
def DG_STATUS_ALGO_ACT : Fld := ⟨0x00800004, 7, 1, .ro, 0x0⟩
def DG_STATUS_HOME : Fld := ⟨0x00800004, 8, 3, .ro, 0x0⟩
def DG_DATA_WORD : Fld := ⟨0x00800008, 0, 32, .wo, 0x0⟩
def DG_LAST_CNT_BYTES : Fld := ⟨0x0080000C, 0, 3, .rw, 0x4⟩
def DG_LAST_WORD : Fld := ⟨0x00800010, 0, 32, .wo, 0x0⟩
def DG_COUNT_LO_COUNT : Fld := ⟨0x00800018, 0, 32, .ro, 0x0⟩
def DG_COUNT_HI_COUNT : Fld := ⟨0x0080001C, 0, 32, .ro, 0x0⟩
def DG_RESULT0_DIGEST : Fld := ⟨0x00800040, 0, 32, .ro, 0x0⟩
def DG_RESULT1_DIGEST : Fld := ⟨0x00800044, 0, 32, .ro, 0x0⟩
def DG_RESULT2_DIGEST : Fld := ⟨0x00800048, 0, 32, .ro, 0x0⟩
def DG_RESULT3_DIGEST : Fld := ⟨0x0080004C, 0, 32, .ro, 0x0⟩
def DG_RESULT4_DIGEST : Fld := ⟨0x00800050, 0, 32, .ro, 0x0⟩
def DG_RESULT5_DIGEST : Fld := ⟨0x00800054, 0, 32, .ro, 0x0⟩
def DG_RESULT6_DIGEST : Fld := ⟨0x00800058, 0, 32, .ro, 0x0⟩
def DG_RESULT7_DIGEST : Fld := ⟨0x0080005C, 0, 32, .ro, 0x0⟩
def DG_RESULT8_DIGEST : Fld := ⟨0x00800060, 0, 32, .ro, 0x0⟩
def DG_RESULT9_DIGEST : Fld := ⟨0x00800064, 0, 32, .ro, 0x0⟩
def DG_RESULT10_DIGEST : Fld := ⟨0x00800068, 0, 32, .ro, 0x0⟩
def DG_RESULT11_DIGEST : Fld := ⟨0x0080006C, 0, 32, .ro, 0x0⟩
def DG_RESULT12_DIGEST : Fld := ⟨0x00800070, 0, 32, .ro, 0x0⟩
def DG_RESULT13_DIGEST : Fld := ⟨0x00800074, 0, 32, .ro, 0x0⟩
def DG_RESULT14_DIGEST : Fld := ⟨0x00800078, 0, 32, .ro, 0x0⟩
def DG_RESULT15_DIGEST : Fld := ⟨0x0080007C, 0, 32, .ro, 0x0⟩
def DG_STATE0_RECORD : Fld := ⟨0x00800080, 0, 32, .rw, 0x0⟩
def DG_STATE1_RECORD : Fld := ⟨0x00800084, 0, 32, .rw, 0x0⟩
def DG_STATE2_RECORD : Fld := ⟨0x00800088, 0, 32, .rw, 0x0⟩
def DG_STATE3_RECORD : Fld := ⟨0x0080008C, 0, 32, .rw, 0x0⟩
def DG_STATE4_RECORD : Fld := ⟨0x00800090, 0, 32, .rw, 0x0⟩
def DG_STATE5_RECORD : Fld := ⟨0x00800094, 0, 32, .rw, 0x0⟩
def DG_STATE6_RECORD : Fld := ⟨0x00800098, 0, 32, .rw, 0x0⟩
def DG_STATE7_RECORD : Fld := ⟨0x0080009C, 0, 32, .rw, 0x0⟩
def DG_STATE8_RECORD : Fld := ⟨0x008000A0, 0, 32, .rw, 0x0⟩
def DG_STATE9_RECORD : Fld := ⟨0x008000A4, 0, 32, .rw, 0x0⟩
def DG_STATE10_RECORD : Fld := ⟨0x008000A8, 0, 32, .rw, 0x0⟩
def DG_STATE11_RECORD : Fld := ⟨0x008000AC, 0, 32, .rw, 0x0⟩
def DG_STATE12_RECORD : Fld := ⟨0x008000B0, 0, 32, .rw, 0x0⟩
def DG_STATE13_RECORD : Fld := ⟨0x008000B4, 0, 32, .rw, 0x0⟩
def DG_STATE14_RECORD : Fld := ⟨0x008000B8, 0, 32, .rw, 0x0⟩
def DG_STATE15_RECORD : Fld := ⟨0x008000BC, 0, 32, .rw, 0x0⟩
def DG_STATE16_RECORD : Fld := ⟨0x008000C0, 0, 32, .rw, 0x0⟩
def DG_STATE17_RECORD : Fld := ⟨0x008000C4, 0, 32, .rw, 0x0⟩
def DG_STATE18_RECORD : Fld := ⟨0x008000C8, 0, 32, .rw, 0x0⟩
def DG_STATE19_RECORD : Fld := ⟨0x008000CC, 0, 32, .rw, 0x0⟩
def DG_STATE20_RECORD : Fld := ⟨0x008000D0, 0, 32, .rw, 0x0⟩
def DG_STATE21_RECORD : Fld := ⟨0x008000D4, 0, 32, .rw, 0x0⟩
def DG_STATE22_RECORD : Fld := ⟨0x008000D8, 0, 32, .rw, 0x0⟩
def DG_STATE23_RECORD : Fld := ⟨0x008000DC, 0, 32, .rw, 0x0⟩
def DG_ALLOC_ALGO : Fld := ⟨0x00810000, 0, 1, .wo, 0x0⟩
def DG_ALLOC_REQ : Fld := ⟨0x00810000, 31, 1, .wo, 0x0⟩
def DG_ALLOC_RES_CTX : Fld := ⟨0x00810004, 0, 8, .ro, 0x0⟩
def DG_ALLOC_RES_FAIL : Fld := ⟨0x00810004, 8, 1, .ro, 0x0⟩
def DG_FREE_CTX : Fld := ⟨0x00810008, 0, 8, .wo, 0x0⟩
def DG_POOL_FREE : Fld := ⟨0x0081000C, 0, 9, .ro, 0x100⟩
def DG_OVR_CNT_OVR : Fld := ⟨0x00810010, 0, 32, .rc, 0x0⟩
def CRS_ARB_SEL_INDEX : Fld := ⟨0x00E00100, 0, 4, .rw, 0x0⟩
def CRS_ARB_VAL_VALUE : Fld := ⟨0x00E00104, 0, 32, .ro, 0x0⟩
def CRS_TRUST_STAT_KM_ENROLLED : Fld := ⟨0x00E00108, 0, 1, .ro, 0x0⟩
def CRS_TRUST_STAT_CHAIN_NEW : Fld := ⟨0x00E00108, 1, 1, .ro, 0x0⟩
def CRS_TRUST_STAT_ARB_MAC_FAIL : Fld := ⟨0x00E00108, 2, 1, .w1c, 0x0⟩
def CRS_TRUST_STAT_FLOOR0 : Fld := ⟨0x00E00108, 3, 7, .ro, 0x0⟩
def CRS_TRUST_STAT_FLOOR1 : Fld := ⟨0x00E00108, 10, 7, .ro, 0x0⟩
/-! Table 13.7 and its field tables (13_memory.md, R325). -/
def DRM_CTRL_EN : Fld := ⟨0x00900000, 0, 1, .rwl, 0x0⟩
def DRM_STATUS_SR : Fld := ⟨0x00900004, 0, 4, .ro, 0x0⟩
def DRM_STATUS_GATED : Fld := ⟨0x00900004, 4, 4, .ro, 0x0⟩
def DRM_STATUS_INIT_DONE : Fld := ⟨0x00900004, 8, 4, .ro, 0x0⟩
def DRM_POP_CAP : Fld := ⟨0x00900008, 0, 2, .rwl, 0x0⟩
def DRM_POP_X4 : Fld := ⟨0x00900008, 2, 1, .rwl, 0x0⟩
def DRM_POP_RANKS2 : Fld := ⟨0x00900008, 3, 1, .rwl, 0x0⟩
def DRM_POP_D32 : Fld := ⟨0x00900008, 4, 1, .rwl, 0x0⟩
def DRM_PRIO_LEVEL : Fld := ⟨0x0090000C, 0, 24, .rw, 0x156AAF⟩
def DRM_AGE_NS : Fld := ⟨0x00900010, 0, 16, .rw, 0x7D0⟩
def DRM_PAGE_TIMEOUT : Fld := ⟨0x00900014, 0, 8, .rw, 0x14⟩
def DRM_PAGE_HIT_MAX : Fld := ⟨0x00900014, 8, 4, .rw, 0x4⟩
def DRM_TIM_REF_TREFI : Fld := ⟨0x00900018, 0, 12, .rwl, 0x186⟩
def DRM_TIM_REF_TRFC1 : Fld := ⟨0x00900018, 12, 10, .rwl, 0x19A⟩
def DRM_TIM_REF_TRFCSB : Fld := ⟨0x00900018, 22, 10, .rwl, 0xBE⟩
def DRM_TIM_SR_T_RES : Fld := ⟨0x0090001C, 0, 8, .rwl, 0xF⟩
def DRM_TIM_SR_T_RESUME : Fld := ⟨0x0090001C, 8, 8, .rwl, 0x2D⟩
def DRM_TIM_SR_T_PHY : Fld := ⟨0x0090001C, 16, 8, .rwl, 0x19⟩
def DRM_SR_CTRL_SR_EN : Fld := ⟨0x00900020, 0, 1, .rw, 0x1⟩
def DRM_SR_CTRL_GATE_EN : Fld := ⟨0x00900020, 1, 1, .rw, 0x1⟩
def DRM_SR_CTRL_IDLE : Fld := ⟨0x00900020, 4, 12, .rw, 0x40⟩
def DRM_SR_CTRL_GATE_IDLE : Fld := ⟨0x00900020, 16, 13, .rw, 0x1000⟩
def DRM_SCRUB_HOURS : Fld := ⟨0x00900024, 0, 8, .rw, 0x18⟩
def DRM_BUF_FREE_MIB : Fld := ⟨0x00900028, 0, 24, .ro, 0x0⟩
def DRM_CE_CNT_CE : Fld := ⟨0x00900030, 0, 32, .rc, 0x0⟩
def DRM_UE_CNT_UE : Fld := ⟨0x00900034, 0, 32, .rc, 0x0⟩
def DRM_SR_ABANDON_CNT_ABANDON : Fld := ⟨0x00900038, 0, 32, .rc, 0x0⟩
def DRM_SR_WAIT_CNT_WAIT : Fld := ⟨0x0090003C, 0, 32, .rc, 0x0⟩
def CRU_CTRL_IDLE : Fld := ⟨0x00A00000, 0, 12, .rw, 0x100⟩
def CRU_ON_ON : Fld := ⟨0x00A00004, 0, 32, .ro, 0xFFFFFFFF⟩
def CRU_FREE_GRANULES : Fld := ⟨0x00A00008, 0, 15, .ro, 0x0⟩
def CRU_CE_CNT_CE : Fld := ⟨0x00A0000C, 0, 32, .rc, 0x0⟩
def CRU_UE_CNT_UE : Fld := ⟨0x00A00010, 0, 32, .rc, 0x0⟩
/-! Table 14.9 and its field tables (14_power.md, R347). -/
def PWR_STATE_STATE : Fld := ⟨0x00100000, 0, 2, .ro, 0x0⟩
def PWR_STATE_ENTERING : Fld := ⟨0x00100000, 2, 1, .ro, 0x0⟩
def PWR_STATE_TARGET : Fld := ⟨0x00100000, 3, 2, .ro, 0x0⟩
def PWR_STATE_STEP : Fld := ⟨0x00100000, 5, 3, .ro, 0x0⟩
def PWR_DRAIN_LIMIT_STRIKES : Fld := ⟨0x00100004, 0, 16, .rw, 0x1000⟩
def PWR_AUTO_EN : Fld := ⟨0x00100008, 0, 1, .rw, 0x1⟩
def PWR_AUTO_IDLE : Fld := ⟨0x00100008, 8, 16, .rw, 0x40⟩
def PWR_DOM_SEL_DOMAIN : Fld := ⟨0x0010000C, 0, 8, .rw, 0x0⟩
def PWR_DOM_CTRL_REQ : Fld := ⟨0x00100010, 0, 2, .wo, 0x0⟩
def PWR_DOM_STAT_STATE : Fld := ⟨0x00100014, 0, 3, .ro, 0x0⟩
def PWR_DOM_STAT_BUSY : Fld := ⟨0x00100014, 3, 1, .ro, 0x0⟩
def PWR_DOM_STAT_RESULT : Fld := ⟨0x00100014, 16, 16, .ro, 0x0⟩
def PWR_DOM_ON_ON : Fld := ⟨0x00100020, 0, 32, .ro, 0xFFFFFFFF⟩
def PWR_RETAIN_GROUPS : Fld := ⟨0x00100040, 0, 32, .rw, 0xFFFF0000⟩
def PWR_EMBER_NEED_GROUPS : Fld := ⟨0x00100044, 0, 6, .ro, 0x0⟩
def PWR_WAKE_EN_EN : Fld := ⟨0x00100048, 0, 6, .rw, 0x3F⟩
def PWR_WAKE_TIMER_MS : Fld := ⟨0x0010004C, 0, 32, .rw, 0x0⟩
def PWR_WAKE_CAUSE_CAUSE : Fld := ⟨0x00100050, 0, 6, .ro, 0x0⟩
def PWR_OP_CUR : Fld := ⟨0x00100060, 0, 3, .ro, 0x2⟩
def PWR_OP_TGT : Fld := ⟨0x00100060, 3, 3, .ro, 0x2⟩
def PWR_OP_BUSY : Fld := ⟨0x00100060, 6, 1, .ro, 0x0⟩
def PWR_AVS_SETTLE_US : Fld := ⟨0x00100064, 0, 8, .rwl, 0x64⟩
def PWR_EN_STAT_EN : Fld := ⟨0x00100068, 0, 16, .ro, 0xFFFF⟩
def PWR_DRAIN_FAIL_CNT_FAIL : Fld := ⟨0x00100070, 0, 32, .rc, 0x0⟩
/-! Table 15.5 and its field tables (15_holdup.md, R363). -/
def BLW_CTRL_ARM : Fld := ⟨0x00B00000, 0, 1, .rw, 0x0⟩
def BLW_CTRL_TEST_REQ : Fld := ⟨0x00B00000, 1, 1, .wo, 0x0⟩
def BLW_CTRL_FAULT_CLR : Fld := ⟨0x00B00000, 2, 1, .wo, 0x0⟩
def BLW_STATUS_ARMED : Fld := ⟨0x00B00004, 0, 1, .ro, 0x0⟩
def BLW_STATUS_CHARGING : Fld := ⟨0x00B00004, 1, 1, .ro, 0x0⟩
def BLW_STATUS_ON_BANK : Fld := ⟨0x00B00004, 2, 1, .ro, 0x0⟩
def BLW_STATUS_TEST_PASSED : Fld := ⟨0x00B00004, 3, 1, .ro, 0x0⟩
def BLW_STATUS_TEST_RUNNING : Fld := ⟨0x00B00004, 4, 1, .ro, 0x0⟩
def BLW_STATUS_CAP_LOW : Fld := ⟨0x00B00004, 5, 1, .ro, 0x0⟩
def BLW_STATUS_BLEEDING : Fld := ⟨0x00B00004, 6, 1, .ro, 0x0⟩
def BLW_STATUS_BANK_FAULT : Fld := ⟨0x00B00004, 7, 1, .ro, 0x0⟩
def BLW_STATUS_UNCOVERED : Fld := ⟨0x00B00004, 8, 1, .ro, 0x0⟩
def BLW_STATUS_CHG_SLOW : Fld := ⟨0x00B00004, 9, 1, .w1c, 0x0⟩
def BLW_STATUS_VHV_OV : Fld := ⟨0x00B00004, 10, 1, .w1c, 0x0⟩
def BLW_STATUS_RECOVERED : Fld := ⟨0x00B00004, 11, 1, .ro, 0x0⟩
def BLW_STATUS_FLUSH_INCOMPLETE : Fld := ⟨0x00B00004, 12, 1, .w1c, 0x0⟩
def BLW_LOSS_TH_TH : Fld := ⟨0x00B00008, 0, 9, .rwl, 0x64⟩
def BLW_LOSS_TH_FILT : Fld := ⟨0x00B00008, 9, 4, .rwl, 0x5⟩
def BLW_CHG_TARGET : Fld := ⟨0x00B0000C, 0, 9, .rwl, 0x15E⟩
def BLW_CHG_HYST : Fld := ⟨0x00B0000C, 9, 4, .rwl, 0x5⟩
def BLW_CHG_TIMEOUT_S : Fld := ⟨0x00B0000C, 13, 8, .rwl, 0xA⟩
def BLW_MODEL_V_MIN : Fld := ⟨0x00B00010, 0, 9, .rwl, 0x50⟩
def BLW_MODEL_EFF_PCT : Fld := ⟨0x00B00010, 9, 7, .rwl, 0x5A⟩
def BLW_FLUSH_E_BASE : Fld := ⟨0x00B00014, 0, 16, .rwl, 0x3E8⟩
def BLW_FLUSH_E_BYTE : Fld := ⟨0x00B00014, 16, 16, .rwl, 0x960⟩
def BLW_BLEED_OHM : Fld := ⟨0x00B00018, 0, 16, .rwl, 0x3E8⟩
def BLW_TEST_DV : Fld := ⟨0x00B0001C, 0, 8, .rw, 0xA⟩
def BLW_TEST_PERIOD_H : Fld := ⟨0x00B0001C, 8, 8, .rw, 0x18⟩
def BLW_CAP_MIN_UF : Fld := ⟨0x00B00020, 0, 20, .rwl, 0x0⟩
def BLW_CAP_UF : Fld := ⟨0x00B00024, 0, 20, .ro, 0x0⟩
def BLW_GATE_DIRTY_RES : Fld := ⟨0x00B00028, 0, 12, .rw, 0xC00⟩
def BLW_VOLT_VBANK : Fld := ⟨0x00B0002C, 0, 9, .ro, 0x0⟩
def BLW_VOLT_VHV : Fld := ⟨0x00B0002C, 16, 9, .ro, 0x0⟩
def BLW_ENERGY_AVAIL : Fld := ⟨0x00B00030, 0, 16, .ro, 0x0⟩
def BLW_ENERGY_NEED : Fld := ⟨0x00B00030, 16, 16, .ro, 0x0⟩
def BLW_RISK_MIB : Fld := ⟨0x00B00034, 0, 13, .ro, 0x0⟩
def BLW_LOSS_CNT_LOSS : Fld := ⟨0x00B00038, 0, 32, .ro, 0x0⟩
def BLW_OV_CNT_OV : Fld := ⟨0x00B0003C, 0, 32, .rc, 0x0⟩
/-! Table 16.3 and its field tables (16_thermal.md, R375). -/
def HKP_EN_EN : Fld := ⟨0x00C00000, 0, 32, .rw, 0xFF000000⟩
def HKP_STATUS_THERM_SD : Fld := ⟨0x00C00004, 0, 1, .w1c, 0x0⟩
def HKP_STATUS_ANY_BROKEN : Fld := ⟨0x00C00004, 1, 1, .ro, 0x0⟩
def HKP_STATUS_MAX_LVL : Fld := ⟨0x00C00004, 2, 3, .ro, 0x0⟩
def HKP_STATUS_SUPPLY : Fld := ⟨0x00C00004, 5, 4, .ro, 0x0⟩
def HKP_SEL_INPUT : Fld := ⟨0x00C00008, 0, 5, .rw, 0x0⟩
def HKP_DIODE_NFACT : Fld := ⟨0x00C0000C, 0, 11, .rwl, 0x3F4⟩
def HKP_DIODE_OFFSET : Fld := ⟨0x00C0000C, 11, 8, .rwl, 0x0⟩
def HKP_THERM_NOM : Fld := ⟨0x00C00010, 0, 16, .rwl, 0x64⟩
def HKP_THERM_BETA : Fld := ⟨0x00C00010, 16, 16, .rwl, 0xD7A⟩
def HKP_LIM_BASE : Fld := ⟨0x00C00014, 0, 8, .rw, 0x5F⟩
def HKP_LIM_STEP : Fld := ⟨0x00C00014, 8, 4, .rw, 0x3⟩
def HKP_LIM_HYST : Fld := ⟨0x00C00014, 12, 4, .rw, 0x2⟩
def HKP_MAP_LO_MAP : Fld := ⟨0x00C00018, 0, 32, .rw, 0x0⟩
def HKP_MAP_HI_MAP : Fld := ⟨0x00C0001C, 0, 32, .rw, 0x0⟩
def HKP_READ_VALUE : Fld := ⟨0x00C00020, 0, 12, .ro, 0x0⟩
def HKP_READ_OPEN : Fld := ⟨0x00C00020, 12, 1, .ro, 0x0⟩
def HKP_READ_SHORT : Fld := ⟨0x00C00020, 13, 1, .ro, 0x0⟩
def HKP_READ_LEVEL : Fld := ⟨0x00C00020, 14, 3, .ro, 0x0⟩
def HKP_SUP_LIM_UV : Fld := ⟨0x00C00024, 0, 16, .rw, 0x0⟩
def HKP_SUP_LIM_OV : Fld := ⟨0x00C00024, 16, 16, .rw, 0x0⟩
def HKP_CRIT_RESTART : Fld := ⟨0x00C00028, 0, 8, .rw, 0x55⟩
def HKP_FC_LVL_LVL0 : Fld := ⟨0x00C00040, 0, 3, .ro, 0x0⟩
def HKP_FC_LVL_LVL1 : Fld := ⟨0x00C00040, 4, 3, .ro, 0x0⟩
def HKP_FC_LVL_LVL2 : Fld := ⟨0x00C00040, 8, 3, .ro, 0x0⟩
def HKP_FC_LVL_LVL3 : Fld := ⟨0x00C00040, 12, 3, .ro, 0x0⟩
def HKP_FC_LVL_LVL4 : Fld := ⟨0x00C00040, 16, 3, .ro, 0x0⟩
def HKP_FC_LVL_LVL5 : Fld := ⟨0x00C00040, 20, 3, .ro, 0x0⟩
def HKP_FC_LVL_LVL6 : Fld := ⟨0x00C00040, 24, 3, .ro, 0x0⟩
def HKP_FC_LVL_LVL7 : Fld := ⟨0x00C00040, 28, 3, .ro, 0x0⟩
def HKP_BROKEN_CNT_BROKEN : Fld := ⟨0x00C00060, 0, 32, .rc, 0x0⟩
def HKP_THROTTLE_CNT_THROTTLE : Fld := ⟨0x00C00064, 0, 32, .rc, 0x0⟩
/-! Table 17.3 and its field tables (17_hallmark.md, R390). -/
def HM_STATUS_DEGRADED : Fld := ⟨0x00D00000, 0, 1, .ro, 0x0⟩
def HM_STATUS_FB_USED : Fld := ⟨0x00D00000, 1, 5, .ro, 0x0⟩
def HM_STATUS_LOST_PEND : Fld := ⟨0x00D00000, 6, 1, .ro, 0x0⟩
def HM_STATUS_FIFO : Fld := ⟨0x00D00000, 7, 7, .ro, 0x0⟩
def HM_HEAD_SEQ : Fld := ⟨0x00D00004, 0, 32, .ro, 0x0⟩
def HM_TAIL_SEQ : Fld := ⟨0x00D00008, 0, 32, .ro, 0x0⟩
def HM_RD_SEQ_SEQ : Fld := ⟨0x00D0000C, 0, 32, .rw, 0x0⟩
def HM_RD_STAT_VALID : Fld := ⟨0x00D00010, 0, 1, .ro, 0x0⟩
def HM_RD_STAT_FALLBACK : Fld := ⟨0x00D00010, 1, 1, .ro, 0x0⟩
def HM_RD_STAT_BUSY : Fld := ⟨0x00D00010, 2, 1, .ro, 0x0⟩
def HM_RD_DATA_DATA : Fld := ⟨0x00D00020, 0, 32, .ro, 0x0⟩
def HM_CYCLE_CYCLE : Fld := ⟨0x00D00040, 0, 32, .ro, 0x0⟩
def HM_OPTIME_LO_MS : Fld := ⟨0x00D00044, 0, 32, .ro, 0x0⟩
def HM_OPTIME_HI_MS : Fld := ⟨0x00D00048, 0, 16, .ro, 0x0⟩
def HM_LOST_CNT_LOST : Fld := ⟨0x00D00050, 0, 32, .rc, 0x0⟩
def HM_FIFO_MAX_MAX : Fld := ⟨0x00D00054, 0, 7, .rc, 0x0⟩
/-! Table 18.4 and its field tables (18_wall.md, R409). -/
def GLB_WALL_CFG_SIZE : Fld := ⟨0x00008000, 0, 7, .rwl, 0x10⟩
def GLB_WALL_CFG_SKIP : Fld := ⟨0x00008000, 7, 6, .rwl, 0x8⟩
def GLB_WALL_STAT_ROLE : Fld := ⟨0x00008004, 0, 2, .ro, 0x0⟩
def GLB_WALL_STAT_MEMBER : Fld := ⟨0x00008004, 2, 6, .ro, 0x0⟩
def GLB_WALL_STAT_FORMED : Fld := ⟨0x00008004, 8, 1, .ro, 0x0⟩
def GLB_WALL_STAT_LIVE : Fld := ⟨0x00008004, 9, 7, .ro, 0x0⟩
def GLB_WALL_LIVE_LO_LIVE : Fld := ⟨0x00008008, 0, 32, .ro, 0x0⟩
def GLB_WALL_LIVE_HI_LIVE : Fld := ⟨0x0000800C, 0, 32, .ro, 0x0⟩
def GLB_CK_STAT_STATE : Fld := ⟨0x00008010, 0, 3, .ro, 0x0⟩
def GLB_CK_STAT_PEER : Fld := ⟨0x00008010, 3, 6, .ro, 0x0⟩
def GLB_CK_STAT_DELAY : Fld := ⟨0x00008010, 12, 12, .ro, 0x0⟩
def GLB_CK_RETRY_CNT_RETRY : Fld := ⟨0x00008020, 0, 32, .rc, 0x0⟩
def GLB_CK_DOWN_CNT_DOWN : Fld := ⟨0x00008024, 0, 32, .rc, 0x0⟩
def GLB_WALL_RESEND_CNT_RESEND : Fld := ⟨0x00008028, 0, 32, .rc, 0x0⟩
def GLB_WALL_FAIL_CNT_FAIL : Fld := ⟨0x0000802C, 0, 32, .rc, 0x0⟩
def GLB_ROUTE_SEL_DEST : Fld := ⟨0x00008030, 0, 6, .rw, 0x0⟩
def GLB_ROUTE_PORT : Fld := ⟨0x00008034, 0, 2, .ro, 0x0⟩
def GLB_ROUTE_HOPS : Fld := ⟨0x00008034, 2, 4, .ro, 0x0⟩
def GLB_ROUTE_VALID : Fld := ⟨0x00008034, 6, 1, .ro, 0x0⟩
def STK_ALIGN_STAT_LOCKED : Fld := ⟨0x00200040, 0, 1, .ro, 0x0⟩
def STK_ALIGN_STAT_HOLDOVER : Fld := ⟨0x00200040, 1, 1, .ro, 0x0⟩
def STK_ALIGN_STAT_FAR : Fld := ⟨0x00200040, 2, 1, .ro, 0x0⟩
def STK_ALIGN_STAT_ERR : Fld := ⟨0x00200040, 8, 8, .ro, 0x0⟩
def STK_ALIGN_STAT_HOPS : Fld := ⟨0x00200040, 16, 4, .ro, 0x0⟩
def STK_ALIGN_MAX_MAX : Fld := ⟨0x00200044, 0, 8, .rc, 0x0⟩
/-! Table 19.6 and its field tables (19_boot_reset.md, R425). -/
def GLB_RESET_CAUSE_CAUSE : Fld := ⟨0x00000100, 0, 6, .ro, 0x0⟩
def GLB_BOOT_STATUS_STAGE : Fld := ⟨0x00000104, 0, 4, .ro, 0x0⟩
def GLB_BOOT_STATUS_FAULT : Fld := ⟨0x00000104, 4, 4, .ro, 0x0⟩
def GLB_BOOT_STATUS_SLOT : Fld := ⟨0x00000104, 8, 1, .ro, 0x0⟩
def GLB_BOOT_STATUS_FALLBACK : Fld := ⟨0x00000104, 9, 1, .ro, 0x0⟩
def GLB_BOOT_STATUS_BOARD_BAD : Fld := ⟨0x00000104, 10, 1, .ro, 0x0⟩
def GLB_BOOT_STATUS_BOARD_SKIP : Fld := ⟨0x00000104, 11, 1, .ro, 0x0⟩
def GLB_BOOT_STATUS_FIRST_BOOT : Fld := ⟨0x00000104, 12, 1, .ro, 0x0⟩
def GLB_STRAP_CFG_MODE : Fld := ⟨0x00000108, 0, 2, .ro, 0x0⟩
def GLB_STRAP_MEMBER_ID : Fld := ⟨0x00000108, 2, 6, .ro, 0x0⟩
def GLB_BOOT_LOCK_LOCK : Fld := ⟨0x0000010C, 0, 1, .rw, 0x0⟩
def GLB_BOOT_WDT_SEC : Fld := ⟨0x00000110, 0, 8, .rwl, 0x3C⟩
def GLB_BOOT_WDT_RUNNING : Fld := ⟨0x00000110, 8, 1, .ro, 0x0⟩
def GLB_SW_RESET_KEY : Fld := ⟨0x00000114, 0, 16, .wo, 0x0⟩
def GLB_FW_SLOT_ACTIVE : Fld := ⟨0x00000118, 0, 1, .ro, 0x0⟩
def GLB_FW_SLOT_PENDING : Fld := ⟨0x00000118, 1, 2, .ro, 0x0⟩
def GLB_FW_SLOT_TRIES : Fld := ⟨0x00000118, 3, 2, .ro, 0x0⟩
def GLB_FW_SLOT_COMMIT_BUSY : Fld := ⟨0x00000118, 5, 1, .ro, 0x0⟩
/-! Table 20.2 and its field tables (20_registers.md, R431). -/
def GLB_ID_PART : Fld := ⟨0x00000000, 0, 16, .ro, 0x7640⟩
def GLB_ID_VENDOR : Fld := ⟨0x00000000, 16, 16, .ro, 0x5E97⟩
def GLB_REVISION_STEPPING : Fld := ⟨0x00000004, 0, 8, .ro, 0x0⟩
def GLB_REVISION_ROM : Fld := ⟨0x00000004, 8, 8, .ro, 0x0⟩
def GLB_FUSE_INFO_GRADE : Fld := ⟨0x00000008, 0, 1, .ro, 0x0⟩
def GLB_FUSE_INFO_SECRET_OK : Fld := ⟨0x00000008, 1, 1, .ro, 0x0⟩
def GLB_FUSE_INFO_ROOT_OK : Fld := ⟨0x00000008, 2, 1, .ro, 0x0⟩
def GLB_SERIAL_LO_SERIAL : Fld := ⟨0x0000000C, 0, 32, .ro, 0x0⟩
def GLB_SERIAL_HI_SERIAL : Fld := ⟨0x00000010, 0, 32, .ro, 0x0⟩
def GLB_STATUS_IO_READY : Fld := ⟨0x00000014, 0, 1, .ro, 0x0⟩
def GLB_STATUS_LOCKED : Fld := ⟨0x00000014, 1, 1, .ro, 0x0⟩
def GLB_STATUS_RO_LATCH : Fld := ⟨0x00000014, 2, 1, .ro, 0x0⟩
def GLB_STATUS_HM_DEGRADED : Fld := ⟨0x00000014, 3, 1, .ro, 0x0⟩
def GLB_STATUS_ON_BANK : Fld := ⟨0x00000014, 4, 1, .ro, 0x0⟩
def GLB_CRIT_WARN_WARN : Fld := ⟨0x00000018, 0, 8, .ro, 0x0⟩
def GLB_INT_CTRL_MSIX_EN : Fld := ⟨0x00000020, 0, 16, .rw, 0x0⟩
def GLB_INT_CTRL_MC_EN : Fld := ⟨0x00000020, 16, 16, .rw, 0xFFFF⟩
def GLB_INT_PEND_LINE : Fld := ⟨0x00000024, 0, 16, .ro, 0x0⟩
def GLB_EVT_STAT_STAT : Fld := ⟨0x00000200, 0, 32, .w1c, 0x0⟩
def GLB_EVT_EN_EN : Fld := ⟨0x00000240, 0, 32, .rw, 0x0⟩
def GLB_EVT_LINE_LINE : Fld := ⟨0x00000300, 0, 32, .rw, 0x0⟩
def GLB_EVT_FORCE_SOURCE : Fld := ⟨0x00000400, 0, 9, .wo, 0x0⟩

end R

/-- Registers of 02_strike.md. -/
def regMap02a : List RegDesc :=
  [ ⟨0x00200000, 0x4, 1, .none, [R.STK_PERIOD_PER_Q]⟩,
    ⟨0x00200004, 0x4, 1, .none, [R.STK_STATUS_PER_PEND, R.STK_STATUS_PER_REFUSED, R.STK_STATUS_FOLLOWER, R.STK_STATUS_PER_ACTIVE, R.STK_STATUS_MIN_OP]⟩,
    ⟨0x00200008, 0x4, 1, .none, [R.STK_COUNT_LO_COUNT]⟩,
    ⟨0x0020000C, 0x4, 1, .none, [R.STK_COUNT_HI_COUNT]⟩,
    ⟨0x00200010, 0x4, 1, .none, [R.STK_SUSP_RUN_MIN, R.STK_SUSP_N_SW, R.STK_SUSP_PROG_AGE]⟩,
    ⟨0x00200014, 0x4, 1, .none, [R.STK_BUS_WR_FLOOR]⟩,
    ⟨0x00200018, 0x4, 1, .none, [R.STK_RA_CTRL_RA_EN, R.STK_RA_CTRL_RA_SHARE, R.STK_RA_CTRL_GAIN, R.STK_RA_CTRL_MAX_INFLIGHT, R.STK_RA_CTRL_PX_FLOOR]⟩,
    ⟨0x00200020, 0x4, 1, .none, [R.STK_TIM_READ_T_R]⟩,
    ⟨0x00200024, 0x4, 1, .none, [R.STK_TIM_PROG_T_LOOP, R.STK_TIM_PROG_T_SUS, R.STK_TIM_PROG_MAX_SUSP]⟩,
    ⟨0x00200028, 0x4, 1, .none, [R.STK_TIM_ERASE_T_ESEG, R.STK_TIM_ERASE_T_ESUS, R.STK_TIM_ERASE_MAX_ESUSP]⟩,
    ⟨0x0020002C, 0x4, 1, .none, [R.STK_TIM_LONG_T_PROG, R.STK_TIM_LONG_T_ERS]⟩,
    ⟨0x00200030, 0x4, 1, .none, [R.STK_BREACH_CNT_BREACH]⟩,
    ⟨0x00200034, 0x4, 1, .none, [R.STK_LATE_CNT_LATE]⟩,
    ⟨0x00200038, 0x4, 1, .none, [R.STK_MEDIA_LATE_CNT_MEDIA_LATE]⟩,
    ⟨0x0020003C, 0x4, 1, .none, [R.STK_RA_CNT_RA]⟩ ]

/-- Registers of 03_work_orders.md. -/
def regMap03a : List RegDesc :=
  [ ⟨0x00300000, 0x4, 1, .none, [R.SMT_CTRL_EXEC_EN, R.SMT_CTRL_HANDLER_ALLOW]⟩,
    ⟨0x00300004, 0x4, 1, .none, [R.SMT_SLOT_FREE_FREE]⟩,
    ⟨0x00300008, 0x4, 1, .none, [R.SMT_SLOT_MIN_MIN]⟩,
    ⟨0x0030000C, 0x4, 1, .none, [R.SMT_CTX_MISS_MISS]⟩,
    ⟨0x00300010, 0x4, 1, .none, [R.SMT_FAULT_CNT_FAULT]⟩,
    ⟨0x00300014, 0x4, 1, .none, [R.SMT_RUNAWAY_CNT_RUNAWAY]⟩,
    ⟨0x00300018, 0x4, 1, .none, [R.SMT_LENGTH_CNT_LENGTH]⟩,
    ⟨0x0030001C, 0x4, 1, .none, [R.SMT_PAT_FREE_PAGES]⟩,
    ⟨0x00300040, 0x4, 16, .none, [R.SMT_CLU_STAT_SMITH_ON, R.SMT_CLU_STAT_RUNNABLE]⟩ ]

/-- Registers of 05_zones.md. -/
def regMap05a : List RegDesc :=
  [ ⟨0x00400000, 0x4, 1, .none, [R.MED_STATUS_RO_LATCH, R.MED_STATUS_SPARE_LOW, R.MED_STATUS_SPARE_FLOOR, R.MED_STATUS_BAY_REFUSED]⟩,
    ⟨0x00400004, 0x4, 1, .none, [R.MED_ZONE_ACTIVE_ACTIVE]⟩,
    ⟨0x00400008, 0x4, 1, .none, [R.MED_ZONE_OPEN_OPEN]⟩,
    ⟨0x0040000C, 0x4, 1, .none, [R.MED_OPEN_CAP_CAP]⟩,
    ⟨0x00400010, 0x4, 1, .none, [R.MED_SPARE_SPARE]⟩,
    ⟨0x00400014, 0x4, 1, .none, [R.MED_SPARE_TH_LOW, R.MED_SPARE_TH_FLOOR]⟩,
    ⟨0x00400018, 0x4, 1, .req, [R.MED_BAY_SEL_BAY]⟩,
    ⟨0x0040001C, 0x4, 1, .bay, [R.MED_BAY_MASK_LO_MASK]⟩,
    ⟨0x00400020, 0x4, 1, .bay, [R.MED_BAY_MASK_HI_MASK]⟩,
    ⟨0x00400024, 0x4, 1, .none, [R.MED_RELOC_CNT_RELOC]⟩,
    ⟨0x00400028, 0x4, 1, .none, [R.MED_MEND_CNT_MEND]⟩ ]

/-- Registers of 06_media_management.md. -/
def regMap06a : List RegDesc :=
  [ ⟨0x00400030, 0x4, 1, .none, [R.MED_GEOM_PLANES, R.MED_GEOM_CELL, R.MED_GEOM_PAIR_FREE, R.MED_GEOM_BLK_MIB]⟩,
    ⟨0x00400034, 0x4, 1, .none, [R.MED_SLAB_GOOD_GOOD]⟩,
    ⟨0x00400038, 0x4, 1, .none, [R.MED_SLAB_RETIRED_RETIRED]⟩,
    ⟨0x0040003C, 0x4, 1, .none, [R.MED_SPARE_FACTORY_FACTORY]⟩,
    ⟨0x00400040, 0x4, 1, .none, [R.MED_SYS_SIZE_FRAC]⟩,
    ⟨0x00400044, 0x4, 1, .none, [R.MED_MAP_POOL_GIB]⟩,
    ⟨0x00400048, 0x4, 1, .none, [R.MED_CONV_OPEN_MAX, R.MED_CONV_OPEN_IN_USE]⟩,
    ⟨0x0040004C, 0x4, 1, .none, [R.MED_GC_CTRL_START, R.MED_GC_CTRL_URGENT, R.MED_GC_CTRL_PARALLEL]⟩,
    ⟨0x00400050, 0x4, 1, .none, [R.MED_WL_SPREAD_SPREAD, R.MED_WL_SPREAD_MAX_MOVE]⟩,
    ⟨0x00400054, 0x4, 1, .none, [R.MED_LADDER_SOFT_EN, R.MED_LADDER_RETRY_MAX, R.MED_LADDER_REFRESH_TH, R.MED_LADDER_REFAIL_PE]⟩,
    ⟨0x00400058, 0x4, 1, .none, [R.MED_PE_RATED_RATED]⟩,
    ⟨0x0040005C, 0x4, 1, .none, [R.MED_PE_STAT_MAX, R.MED_PE_STAT_AVG]⟩,
    ⟨0x00400060, 0x4, 1, .none, [R.MED_PROG_FAIL_CNT_PROG_FAIL]⟩,
    ⟨0x00400064, 0x4, 1, .none, [R.MED_ERASE_FAIL_CNT_ERASE_FAIL]⟩,
    ⟨0x00400068, 0x4, 1, .none, [R.MED_GC_CNT_GC]⟩,
    ⟨0x0040006C, 0x4, 1, .none, [R.MED_SOFT_CNT_SOFT]⟩,
    ⟨0x00400070, 0x4, 1, .none, [R.MED_RETRY_CNT_RETRY]⟩,
    ⟨0x00400074, 0x4, 1, .none, [R.MED_REBUILD_CNT_REBUILD]⟩,
    ⟨0x00400078, 0x4, 1, .none, [R.MED_UNREC_CNT_UNREC]⟩ ]

/-- Registers of 07_parity.md. -/
def regMap07a : List RegDesc :=
  [ ⟨0x00400080, 0x4, 1, .none, [R.MED_PAR_CTRL_CRU_SETS, R.MED_PAR_CTRL_BG_MAX]⟩,
    ⟨0x00400084, 0x4, 1, .none, [R.MED_PAR_STAT_SETS, R.MED_PAR_STAT_CRU_IN_USE]⟩,
    ⟨0x00400088, 0x4, 1, .none, [R.MED_PAR_VFY_FAIL_CNT_VFY_FAIL]⟩,
    ⟨0x0040008C, 0x4, 1, .none, [R.MED_PAR_MORTAR_CNT_MORTAR]⟩,
    ⟨0x00400090, 0x4, 1, .none, [R.MED_PAR_KEYSTONE_CNT_KEYSTONE]⟩,
    ⟨0x00400094, 0x4, 1, .none, [R.MED_PAR_DEFER_CNT_DEFER]⟩ ]

/-- Registers of 08_flash_channels.md. -/
def regMap08a : List RegDesc :=
  [ ⟨0x00500000, 0x1000, 64, .none, [R.FCH_CTRL_EN, R.FCH_CTRL_RATE_CAP]⟩,
    ⟨0x00500004, 0x1000, 64, .none, [R.FCH_STATUS_STATE, R.FCH_STATUS_RATE, R.FCH_STATUS_TRAIN_FAIL, R.FCH_STATUS_EYE_LOW, R.FCH_STATUS_PAD_SUPPLY]⟩,
    ⟨0x00500008, 0x1000, 64, .none, [R.FCH_DIE_PRESENT_PRESENT]⟩,
    ⟨0x0050000C, 0x1000, 64, .none, [R.FCH_DIE_LOST_LOST]⟩,
    ⟨0x00500010, 0x1000, 64, .none, [R.FCH_TRAIN_DRIFT_C, R.FCH_TRAIN_SENSOR]⟩,
    ⟨0x00500020, 0x1000, 64, .none, [R.FCH_CORR_CNT_CORR]⟩,
    ⟨0x00500024, 0x1000, 64, .none, [R.FCH_HARD_FAIL_CNT_HARD_FAIL]⟩,
    ⟨0x00500028, 0x1000, 64, .none, [R.FCH_TIMEOUT_CNT_TIMEOUT]⟩,
    ⟨0x0050002C, 0x1000, 64, .none, [R.FCH_RETRAIN_CNT_RETRAIN]⟩,
    ⟨0x00540000, 0x4, 1, .none, [R.FCH_TIMEOUT_OP_MS]⟩,
    ⟨0x00540004, 0x4, 1, .none, [R.FCH_PAD_RAMP_RAMP_US]⟩,
    ⟨0x00541000, 0x4, 136, .none, [R.FCH_FAM_WORD]⟩ ]

/-- Registers of 09_host_ports.md. -/
def regMap09a : List RegDesc :=
  [ ⟨0x00F00000, 0x4, 2, .none, [R.ETH_PORT_CFG_EN, R.ETH_PORT_CFG_MODE, R.ETH_PORT_CFG_AN_EN]⟩,
    ⟨0x00F00008, 0x4, 1, .none, [R.ETH_LINK_STAT_UP]⟩,
    ⟨0x00F00010, 0x4, 1, .req, [R.ETH_LPORT_SEL_LPORT, R.ETH_LPORT_SEL_IP]⟩,
    ⟨0x00F00014, 0x4, 1, .lport, [R.ETH_LPORT_CFG_PRIO, R.ETH_LPORT_CFG_PFC_EN, R.ETH_LPORT_CFG_DSCP, R.ETH_LPORT_CFG_CNP_DSCP, R.ETH_LPORT_CFG_VLAN, R.ETH_LPORT_CFG_VLAN_EN]⟩,
    ⟨0x00F00018, 0x4, 1, .lport, [R.ETH_LPORT_MTU_MTU]⟩,
    ⟨0x00F0001C, 0x4, 1, .lport, [R.ETH_MAC_LO_MAC]⟩,
    ⟨0x00F00020, 0x4, 1, .lport, [R.ETH_MAC_HI_MAC]⟩,
    ⟨0x00F00024, 0x4, 4, .ip, [R.ETH_IP_ADDR_ADDR]⟩,
    ⟨0x00F00034, 0x4, 1, .ip, [R.ETH_IP_CTRL_VALID, R.ETH_IP_CTRL_V6, R.ETH_IP_CTRL_PREFIX]⟩,
    ⟨0x00F00040, 0x4, 1, .none, [R.ETH_RT_CTRL_RT_EN, R.ETH_RT_CTRL_RNR_TMR, R.ETH_RT_CTRL_RNR_RETRY, R.ETH_RT_CTRL_ACK_TMO, R.ETH_RT_CTRL_RETRY_CNT, R.ETH_RT_CTRL_READ_DEPTH]⟩,
    ⟨0x00F00044, 0x4, 1, .none, [R.ETH_RT_QP_USED_USED]⟩,
    ⟨0x00F00048, 0x4, 1, .none, [R.ETH_RT_CREDITS_CREDITS]⟩,
    ⟨0x00F00050, 0x4, 1, .none, [R.ETH_CC_NP_INTERVAL, R.ETH_CC_NP_NP_EN, R.ETH_CC_NP_RP_EN]⟩,
    ⟨0x00F00054, 0x4, 1, .none, [R.ETH_CC_RP_G_SHIFT, R.ETH_CC_RP_T_INC, R.ETH_CC_RP_K]⟩,
    ⟨0x00F00058, 0x4, 1, .none, [R.ETH_CC_AI_AI_MBPS, R.ETH_CC_AI_MIN_MBPS]⟩,
    ⟨0x00F00060, 0x4, 1, .none, [R.ETH_RNR_CNT_RNR]⟩,
    ⟨0x00F00064, 0x4, 1, .none, [R.ETH_QP_ERR_CNT_QP_ERR]⟩,
    ⟨0x00F00068, 0x4, 1, .none, [R.ETH_CNP_RX_CNT_CNP_RX]⟩,
    ⟨0x00F0006C, 0x4, 1, .none, [R.ETH_CNP_TX_CNT_CNP_TX]⟩,
    ⟨0x00F00070, 0x4, 1, .none, [R.ETH_DROP_CNT_DROP]⟩,
    ⟨0x00F00074, 0x4, 1, .none, [R.ETH_LEN_CNT_LEN]⟩,
    ⟨0x01000000, 0x4, 1, .none, [R.PCI_LINK_CAP_MAX_SPEED, R.PCI_LINK_CAP_MAX_WIDTH]⟩,
    ⟨0x01000004, 0x4, 1, .none, [R.PCI_LINK_STAT_SPEED, R.PCI_LINK_STAT_WIDTH, R.PCI_LINK_STAT_FLIT, R.PCI_LINK_STAT_LINK_UP]⟩,
    ⟨0x01000008, 0x4, 1, .none, [R.PCI_SRIOV_NUM_VFS, R.PCI_SRIOV_VF_EN]⟩,
    ⟨0x0100000C, 0x4, 1, .none, [R.PCI_MI_CTRL_SMB_ADDR, R.PCI_MI_CTRL_SMB_1MHZ, R.PCI_MI_CTRL_VDM_EN, R.PCI_MI_CTRL_ADMIN_WR]⟩ ]

/-- Registers of 09_host_ports.md. -/
def regMap09b : List RegDesc :=
  [ ⟨0x01000010, 0x4, 1, .none, [R.PCI_DMA_ERR_CNT_DMA_ERR]⟩,
    ⟨0x01000014, 0x4, 1, .none, [R.PCI_DBL_ERR_CNT_DBL_ERR]⟩,
    ⟨0x01000018, 0x4, 1, .none, [R.PCI_FLR_CNT_FLR]⟩ ]

/-- Registers of 10_tenants.md. -/
def regMap10a : List RegDesc :=
  [ ⟨0x00600000, 0x4, 1, .req, [R.TEN_SEL_TENANT]⟩,
    ⟨0x00600004, 0x4, 1, .tenant, [R.TEN_STAT_STATE, R.TEN_STAT_BINDING, R.TEN_STAT_RESET_MODE, R.TEN_STAT_GEN]⟩,
    ⟨0x00600008, 0x4, 1, .tenant, [R.TEN_SLOTS_USED_USED]⟩,
    ⟨0x0060000C, 0x4, 1, .tenant, [R.TEN_STALE_CNT_STALE]⟩,
    ⟨0x00600010, 0x4, 1, .none, [R.TEN_POOL_SLOTS_FREE]⟩,
    ⟨0x00600014, 0x4, 1, .none, [R.TEN_POOL_QUEUES_PCIE, R.TEN_POOL_QUEUES_RC]⟩,
    ⟨0x00600018, 0x4, 1, .none, [R.TEN_POOL_MISC_ACTIVE, R.TEN_POOL_MISC_ASSAY]⟩,
    ⟨0x0060001C, 0x4, 1, .none, [R.TEN_POOL_CRU_MIB]⟩,
    ⟨0x00600020, 0x4, 1, .none, [R.TEN_POOL_BEDROCK_COURSES]⟩,
    ⟨0x00600030, 0x4, 1, .tenant, [R.TEN_DIRTY_CTRL_EN, R.TEN_DIRTY_CTRL_SWAP, R.TEN_DIRTY_CTRL_BUSY, R.TEN_DIRTY_CTRL_OUT_RANGE]⟩,
    ⟨0x00600034, 0x4, 1, .tenant, [R.TEN_DIRTY_PAGES_PAGES]⟩,
    ⟨0x00600038, 0x4, 1, .tenant, [R.TEN_DIRTY_NEXT_LO_ADDR]⟩,
    ⟨0x0060003C, 0x4, 1, .tenant, [R.TEN_DIRTY_NEXT_HI_ADDR]⟩,
    ⟨0x00600040, 0x4, 1, .tenant, [R.TEN_DIRTY_CUR_LO_ADDR]⟩,
    ⟨0x00600044, 0x4, 1, .tenant, [R.TEN_DIRTY_CUR_HI_ADDR]⟩,
    ⟨0x00600048, 0x4, 1, .tenant, [R.TEN_DIRTY_OLD_LO_ADDR]⟩,
    ⟨0x0060004C, 0x4, 1, .tenant, [R.TEN_DIRTY_OLD_HI_ADDR]⟩ ]

/-- Registers of 11_cipher.md. -/
def regMap11a : List RegDesc :=
  [ ⟨0x00700000, 0x4, 1, .none, [R.CPH_CTRL_DUMMY]⟩,
    ⟨0x00700004, 0x4, 1, .none, [R.CPH_STATUS_LANE_ON, R.CPH_STATUS_EPOCH_REFUSED]⟩,
    ⟨0x00700008, 0x4, 1, .req, [R.CPH_KEK_SEL_TENANT]⟩,
    ⟨0x0070000C, 0x4, 1, .kek, [R.CPH_KEK_EPOCH_EPOCH]⟩,
    ⟨0x00700010, 0x4, 1, .req, [R.CPH_SLOT_SEL_SLOT]⟩,
    ⟨0x00700014, 0x4, 1, .slot, [R.CPH_SLOT_INFO_KTYPE, R.CPH_SLOT_INFO_USAGE, R.CPH_SLOT_INFO_TENANT]⟩,
    ⟨0x00700018, 0x4, 1, .slot, [R.CPH_SLOT_KEYID_KEY_ID]⟩,
    ⟨0x00700020, 0x4, 1, .none, [R.CPH_TAG_FAIL_CNT_TAG_FAIL]⟩,
    ⟨0x00700024, 0x4, 1, .none, [R.CPH_ZEROED_CNT_ZEROED]⟩,
    ⟨0x00700028, 0x4, 1, .none, [R.CPH_BLOB_FAIL_CNT_BLOB_FAIL]⟩,
    ⟨0x0070002C, 0x4, 1, .none, [R.CPH_ZERO_FAIL_CNT_ZERO_FAIL]⟩ ]

/-- Registers of 12_assay_and_trust.md. -/
def regMap12a : List RegDesc :=
  [ ⟨0x00800000, 0x100, 256, .none, [R.DG_CTRL_CMD, R.DG_CTRL_ALGO]⟩,
    ⟨0x00800004, 0x100, 256, .none, [R.DG_STATUS_BUSY, R.DG_STATUS_VALID, R.DG_STATUS_OVR, R.DG_STATUS_ERR, R.DG_STATUS_CMD_REFUSED, R.DG_STATUS_OWNER, R.DG_STATUS_ALGO_ACT, R.DG_STATUS_HOME]⟩,
    ⟨0x00800008, 0x100, 256, .none, [R.DG_DATA_WORD]⟩,
    ⟨0x0080000C, 0x100, 256, .none, [R.DG_LAST_CNT_BYTES]⟩,
    ⟨0x00800010, 0x100, 256, .none, [R.DG_LAST_WORD]⟩,
    ⟨0x00800018, 0x100, 256, .none, [R.DG_COUNT_LO_COUNT]⟩,
    ⟨0x0080001C, 0x100, 256, .none, [R.DG_COUNT_HI_COUNT]⟩,
    ⟨0x00800040, 0x100, 256, .none, [R.DG_RESULT0_DIGEST]⟩,
    ⟨0x00800044, 0x100, 256, .none, [R.DG_RESULT1_DIGEST]⟩,
    ⟨0x00800048, 0x100, 256, .none, [R.DG_RESULT2_DIGEST]⟩,
    ⟨0x0080004C, 0x100, 256, .none, [R.DG_RESULT3_DIGEST]⟩,
    ⟨0x00800050, 0x100, 256, .none, [R.DG_RESULT4_DIGEST]⟩,
    ⟨0x00800054, 0x100, 256, .none, [R.DG_RESULT5_DIGEST]⟩,
    ⟨0x00800058, 0x100, 256, .none, [R.DG_RESULT6_DIGEST]⟩,
    ⟨0x0080005C, 0x100, 256, .none, [R.DG_RESULT7_DIGEST]⟩,
    ⟨0x00800060, 0x100, 256, .none, [R.DG_RESULT8_DIGEST]⟩,
    ⟨0x00800064, 0x100, 256, .none, [R.DG_RESULT9_DIGEST]⟩,
    ⟨0x00800068, 0x100, 256, .none, [R.DG_RESULT10_DIGEST]⟩,
    ⟨0x0080006C, 0x100, 256, .none, [R.DG_RESULT11_DIGEST]⟩,
    ⟨0x00800070, 0x100, 256, .none, [R.DG_RESULT12_DIGEST]⟩,
    ⟨0x00800074, 0x100, 256, .none, [R.DG_RESULT13_DIGEST]⟩,
    ⟨0x00800078, 0x100, 256, .none, [R.DG_RESULT14_DIGEST]⟩,
    ⟨0x0080007C, 0x100, 256, .none, [R.DG_RESULT15_DIGEST]⟩,
    ⟨0x00800080, 0x100, 256, .none, [R.DG_STATE0_RECORD]⟩,
    ⟨0x00800084, 0x100, 256, .none, [R.DG_STATE1_RECORD]⟩ ]

/-- Registers of 12_assay_and_trust.md. -/
def regMap12b : List RegDesc :=
  [ ⟨0x00800088, 0x100, 256, .none, [R.DG_STATE2_RECORD]⟩,
    ⟨0x0080008C, 0x100, 256, .none, [R.DG_STATE3_RECORD]⟩,
    ⟨0x00800090, 0x100, 256, .none, [R.DG_STATE4_RECORD]⟩,
    ⟨0x00800094, 0x100, 256, .none, [R.DG_STATE5_RECORD]⟩,
    ⟨0x00800098, 0x100, 256, .none, [R.DG_STATE6_RECORD]⟩,
    ⟨0x0080009C, 0x100, 256, .none, [R.DG_STATE7_RECORD]⟩,
    ⟨0x008000A0, 0x100, 256, .none, [R.DG_STATE8_RECORD]⟩,
    ⟨0x008000A4, 0x100, 256, .none, [R.DG_STATE9_RECORD]⟩,
    ⟨0x008000A8, 0x100, 256, .none, [R.DG_STATE10_RECORD]⟩,
    ⟨0x008000AC, 0x100, 256, .none, [R.DG_STATE11_RECORD]⟩,
    ⟨0x008000B0, 0x100, 256, .none, [R.DG_STATE12_RECORD]⟩,
    ⟨0x008000B4, 0x100, 256, .none, [R.DG_STATE13_RECORD]⟩,
    ⟨0x008000B8, 0x100, 256, .none, [R.DG_STATE14_RECORD]⟩,
    ⟨0x008000BC, 0x100, 256, .none, [R.DG_STATE15_RECORD]⟩,
    ⟨0x008000C0, 0x100, 256, .none, [R.DG_STATE16_RECORD]⟩,
    ⟨0x008000C4, 0x100, 256, .none, [R.DG_STATE17_RECORD]⟩,
    ⟨0x008000C8, 0x100, 256, .none, [R.DG_STATE18_RECORD]⟩,
    ⟨0x008000CC, 0x100, 256, .none, [R.DG_STATE19_RECORD]⟩,
    ⟨0x008000D0, 0x100, 256, .none, [R.DG_STATE20_RECORD]⟩,
    ⟨0x008000D4, 0x100, 256, .none, [R.DG_STATE21_RECORD]⟩,
    ⟨0x008000D8, 0x100, 256, .none, [R.DG_STATE22_RECORD]⟩,
    ⟨0x008000DC, 0x100, 256, .none, [R.DG_STATE23_RECORD]⟩,
    ⟨0x00810000, 0x4, 1, .none, [R.DG_ALLOC_ALGO, R.DG_ALLOC_REQ]⟩,
    ⟨0x00810004, 0x4, 1, .none, [R.DG_ALLOC_RES_CTX, R.DG_ALLOC_RES_FAIL]⟩,
    ⟨0x00810008, 0x4, 1, .none, [R.DG_FREE_CTX]⟩ ]

/-- Registers of 12_assay_and_trust.md. -/
def regMap12c : List RegDesc :=
  [ ⟨0x0081000C, 0x4, 1, .none, [R.DG_POOL_FREE]⟩,
    ⟨0x00810010, 0x4, 1, .none, [R.DG_OVR_CNT_OVR]⟩,
    ⟨0x00E00100, 0x4, 1, .req, [R.CRS_ARB_SEL_INDEX]⟩,
    ⟨0x00E00104, 0x4, 1, .arb, [R.CRS_ARB_VAL_VALUE]⟩,
    ⟨0x00E00108, 0x4, 1, .none, [R.CRS_TRUST_STAT_KM_ENROLLED, R.CRS_TRUST_STAT_CHAIN_NEW, R.CRS_TRUST_STAT_ARB_MAC_FAIL, R.CRS_TRUST_STAT_FLOOR0, R.CRS_TRUST_STAT_FLOOR1]⟩ ]

/-- Registers of 13_memory.md. -/
def regMap13a : List RegDesc :=
  [ ⟨0x00900000, 0x4, 1, .none, [R.DRM_CTRL_EN]⟩,
    ⟨0x00900004, 0x4, 1, .none, [R.DRM_STATUS_SR, R.DRM_STATUS_GATED, R.DRM_STATUS_INIT_DONE]⟩,
    ⟨0x00900008, 0x4, 1, .none, [R.DRM_POP_CAP, R.DRM_POP_X4, R.DRM_POP_RANKS2, R.DRM_POP_D32]⟩,
    ⟨0x0090000C, 0x4, 1, .none, [R.DRM_PRIO_LEVEL]⟩,
    ⟨0x00900010, 0x4, 1, .none, [R.DRM_AGE_NS]⟩,
    ⟨0x00900014, 0x4, 1, .none, [R.DRM_PAGE_TIMEOUT, R.DRM_PAGE_HIT_MAX]⟩,
    ⟨0x00900018, 0x4, 1, .none, [R.DRM_TIM_REF_TREFI, R.DRM_TIM_REF_TRFC1, R.DRM_TIM_REF_TRFCSB]⟩,
    ⟨0x0090001C, 0x4, 1, .none, [R.DRM_TIM_SR_T_RES, R.DRM_TIM_SR_T_RESUME, R.DRM_TIM_SR_T_PHY]⟩,
    ⟨0x00900020, 0x4, 1, .none, [R.DRM_SR_CTRL_SR_EN, R.DRM_SR_CTRL_GATE_EN, R.DRM_SR_CTRL_IDLE, R.DRM_SR_CTRL_GATE_IDLE]⟩,
    ⟨0x00900024, 0x4, 1, .none, [R.DRM_SCRUB_HOURS]⟩,
    ⟨0x00900028, 0x4, 1, .none, [R.DRM_BUF_FREE_MIB]⟩,
    ⟨0x00900030, 0x4, 1, .none, [R.DRM_CE_CNT_CE]⟩,
    ⟨0x00900034, 0x4, 1, .none, [R.DRM_UE_CNT_UE]⟩,
    ⟨0x00900038, 0x4, 1, .none, [R.DRM_SR_ABANDON_CNT_ABANDON]⟩,
    ⟨0x0090003C, 0x4, 1, .none, [R.DRM_SR_WAIT_CNT_WAIT]⟩,
    ⟨0x00A00000, 0x4, 1, .none, [R.CRU_CTRL_IDLE]⟩,
    ⟨0x00A00004, 0x4, 1, .none, [R.CRU_ON_ON]⟩,
    ⟨0x00A00008, 0x4, 1, .none, [R.CRU_FREE_GRANULES]⟩,
    ⟨0x00A0000C, 0x4, 1, .none, [R.CRU_CE_CNT_CE]⟩,
    ⟨0x00A00010, 0x4, 1, .none, [R.CRU_UE_CNT_UE]⟩ ]

/-- Registers of 14_power.md. -/
def regMap14a : List RegDesc :=
  [ ⟨0x00100000, 0x4, 1, .none, [R.PWR_STATE_STATE, R.PWR_STATE_ENTERING, R.PWR_STATE_TARGET, R.PWR_STATE_STEP]⟩,
    ⟨0x00100004, 0x4, 1, .none, [R.PWR_DRAIN_LIMIT_STRIKES]⟩,
    ⟨0x00100008, 0x4, 1, .none, [R.PWR_AUTO_EN, R.PWR_AUTO_IDLE]⟩,
    ⟨0x0010000C, 0x4, 1, .req, [R.PWR_DOM_SEL_DOMAIN]⟩,
    ⟨0x00100010, 0x4, 1, .dom, [R.PWR_DOM_CTRL_REQ]⟩,
    ⟨0x00100014, 0x4, 1, .dom, [R.PWR_DOM_STAT_STATE, R.PWR_DOM_STAT_BUSY, R.PWR_DOM_STAT_RESULT]⟩,
    ⟨0x00100020, 0x4, 6, .none, [R.PWR_DOM_ON_ON]⟩,
    ⟨0x00100040, 0x4, 1, .none, [R.PWR_RETAIN_GROUPS]⟩,
    ⟨0x00100044, 0x4, 1, .none, [R.PWR_EMBER_NEED_GROUPS]⟩,
    ⟨0x00100048, 0x4, 1, .none, [R.PWR_WAKE_EN_EN]⟩,
    ⟨0x0010004C, 0x4, 1, .none, [R.PWR_WAKE_TIMER_MS]⟩,
    ⟨0x00100050, 0x4, 1, .none, [R.PWR_WAKE_CAUSE_CAUSE]⟩,
    ⟨0x00100060, 0x4, 1, .none, [R.PWR_OP_CUR, R.PWR_OP_TGT, R.PWR_OP_BUSY]⟩,
    ⟨0x00100064, 0x4, 1, .none, [R.PWR_AVS_SETTLE_US]⟩,
    ⟨0x00100068, 0x4, 1, .none, [R.PWR_EN_STAT_EN]⟩,
    ⟨0x00100070, 0x4, 1, .none, [R.PWR_DRAIN_FAIL_CNT_FAIL]⟩ ]

/-- Registers of 15_holdup.md. -/
def regMap15a : List RegDesc :=
  [ ⟨0x00B00000, 0x4, 1, .none, [R.BLW_CTRL_ARM, R.BLW_CTRL_TEST_REQ, R.BLW_CTRL_FAULT_CLR]⟩,
    ⟨0x00B00004, 0x4, 1, .none, [R.BLW_STATUS_ARMED, R.BLW_STATUS_CHARGING, R.BLW_STATUS_ON_BANK, R.BLW_STATUS_TEST_PASSED, R.BLW_STATUS_TEST_RUNNING, R.BLW_STATUS_CAP_LOW, R.BLW_STATUS_BLEEDING, R.BLW_STATUS_BANK_FAULT, R.BLW_STATUS_UNCOVERED, R.BLW_STATUS_CHG_SLOW, R.BLW_STATUS_VHV_OV, R.BLW_STATUS_RECOVERED, R.BLW_STATUS_FLUSH_INCOMPLETE]⟩,
    ⟨0x00B00008, 0x4, 1, .none, [R.BLW_LOSS_TH_TH, R.BLW_LOSS_TH_FILT]⟩,
    ⟨0x00B0000C, 0x4, 1, .none, [R.BLW_CHG_TARGET, R.BLW_CHG_HYST, R.BLW_CHG_TIMEOUT_S]⟩,
    ⟨0x00B00010, 0x4, 1, .none, [R.BLW_MODEL_V_MIN, R.BLW_MODEL_EFF_PCT]⟩,
    ⟨0x00B00014, 0x4, 1, .none, [R.BLW_FLUSH_E_BASE, R.BLW_FLUSH_E_BYTE]⟩,
    ⟨0x00B00018, 0x4, 1, .none, [R.BLW_BLEED_OHM]⟩,
    ⟨0x00B0001C, 0x4, 1, .none, [R.BLW_TEST_DV, R.BLW_TEST_PERIOD_H]⟩,
    ⟨0x00B00020, 0x4, 1, .none, [R.BLW_CAP_MIN_UF]⟩,
    ⟨0x00B00024, 0x4, 1, .none, [R.BLW_CAP_UF]⟩,
    ⟨0x00B00028, 0x4, 1, .none, [R.BLW_GATE_DIRTY_RES]⟩,
    ⟨0x00B0002C, 0x4, 1, .none, [R.BLW_VOLT_VBANK, R.BLW_VOLT_VHV]⟩,
    ⟨0x00B00030, 0x4, 1, .none, [R.BLW_ENERGY_AVAIL, R.BLW_ENERGY_NEED]⟩,
    ⟨0x00B00034, 0x4, 1, .none, [R.BLW_RISK_MIB]⟩,
    ⟨0x00B00038, 0x4, 1, .none, [R.BLW_LOSS_CNT_LOSS]⟩,
    ⟨0x00B0003C, 0x4, 1, .none, [R.BLW_OV_CNT_OV]⟩ ]

/-- Registers of 16_thermal.md. -/
def regMap16a : List RegDesc :=
  [ ⟨0x00C00000, 0x4, 1, .none, [R.HKP_EN_EN]⟩,
    ⟨0x00C00004, 0x4, 1, .none, [R.HKP_STATUS_THERM_SD, R.HKP_STATUS_ANY_BROKEN, R.HKP_STATUS_MAX_LVL, R.HKP_STATUS_SUPPLY]⟩,
    ⟨0x00C00008, 0x4, 1, .req, [R.HKP_SEL_INPUT]⟩,
    ⟨0x00C0000C, 0x4, 1, .hkp, [R.HKP_DIODE_NFACT, R.HKP_DIODE_OFFSET]⟩,
    ⟨0x00C00010, 0x4, 1, .hkp, [R.HKP_THERM_NOM, R.HKP_THERM_BETA]⟩,
    ⟨0x00C00014, 0x4, 1, .hkp, [R.HKP_LIM_BASE, R.HKP_LIM_STEP, R.HKP_LIM_HYST]⟩,
    ⟨0x00C00018, 0x4, 1, .hkp, [R.HKP_MAP_LO_MAP]⟩,
    ⟨0x00C0001C, 0x4, 1, .hkp, [R.HKP_MAP_HI_MAP]⟩,
    ⟨0x00C00020, 0x4, 1, .hkp, [R.HKP_READ_VALUE, R.HKP_READ_OPEN, R.HKP_READ_SHORT, R.HKP_READ_LEVEL]⟩,
    ⟨0x00C00024, 0x4, 1, .hkp, [R.HKP_SUP_LIM_UV, R.HKP_SUP_LIM_OV]⟩,
    ⟨0x00C00028, 0x4, 1, .none, [R.HKP_CRIT_RESTART]⟩,
    ⟨0x00C00040, 0x4, 8, .none, [R.HKP_FC_LVL_LVL0, R.HKP_FC_LVL_LVL1, R.HKP_FC_LVL_LVL2, R.HKP_FC_LVL_LVL3, R.HKP_FC_LVL_LVL4, R.HKP_FC_LVL_LVL5, R.HKP_FC_LVL_LVL6, R.HKP_FC_LVL_LVL7]⟩,
    ⟨0x00C00060, 0x4, 1, .none, [R.HKP_BROKEN_CNT_BROKEN]⟩,
    ⟨0x00C00064, 0x4, 1, .none, [R.HKP_THROTTLE_CNT_THROTTLE]⟩ ]

/-- Registers of 17_hallmark.md. -/
def regMap17a : List RegDesc :=
  [ ⟨0x00D00000, 0x4, 1, .none, [R.HM_STATUS_DEGRADED, R.HM_STATUS_FB_USED, R.HM_STATUS_LOST_PEND, R.HM_STATUS_FIFO]⟩,
    ⟨0x00D00004, 0x4, 1, .none, [R.HM_HEAD_SEQ]⟩,
    ⟨0x00D00008, 0x4, 1, .none, [R.HM_TAIL_SEQ]⟩,
    ⟨0x00D0000C, 0x4, 1, .req, [R.HM_RD_SEQ_SEQ]⟩,
    ⟨0x00D00010, 0x4, 1, .req, [R.HM_RD_STAT_VALID, R.HM_RD_STAT_FALLBACK, R.HM_RD_STAT_BUSY]⟩,
    ⟨0x00D00020, 0x4, 8, .req, [R.HM_RD_DATA_DATA]⟩,
    ⟨0x00D00040, 0x4, 1, .none, [R.HM_CYCLE_CYCLE]⟩,
    ⟨0x00D00044, 0x4, 1, .none, [R.HM_OPTIME_LO_MS]⟩,
    ⟨0x00D00048, 0x4, 1, .none, [R.HM_OPTIME_HI_MS]⟩,
    ⟨0x00D00050, 0x4, 1, .none, [R.HM_LOST_CNT_LOST]⟩,
    ⟨0x00D00054, 0x4, 1, .none, [R.HM_FIFO_MAX_MAX]⟩ ]

/-- Registers of 18_wall.md. -/
def regMap18a : List RegDesc :=
  [ ⟨0x00008000, 0x4, 1, .none, [R.GLB_WALL_CFG_SIZE, R.GLB_WALL_CFG_SKIP]⟩,
    ⟨0x00008004, 0x4, 1, .none, [R.GLB_WALL_STAT_ROLE, R.GLB_WALL_STAT_MEMBER, R.GLB_WALL_STAT_FORMED, R.GLB_WALL_STAT_LIVE]⟩,
    ⟨0x00008008, 0x4, 1, .none, [R.GLB_WALL_LIVE_LO_LIVE]⟩,
    ⟨0x0000800C, 0x4, 1, .none, [R.GLB_WALL_LIVE_HI_LIVE]⟩,
    ⟨0x00008010, 0x4, 4, .none, [R.GLB_CK_STAT_STATE, R.GLB_CK_STAT_PEER, R.GLB_CK_STAT_DELAY]⟩,
    ⟨0x00008020, 0x4, 1, .none, [R.GLB_CK_RETRY_CNT_RETRY]⟩,
    ⟨0x00008024, 0x4, 1, .none, [R.GLB_CK_DOWN_CNT_DOWN]⟩,
    ⟨0x00008028, 0x4, 1, .none, [R.GLB_WALL_RESEND_CNT_RESEND]⟩,
    ⟨0x0000802C, 0x4, 1, .none, [R.GLB_WALL_FAIL_CNT_FAIL]⟩,
    ⟨0x00008030, 0x4, 1, .req, [R.GLB_ROUTE_SEL_DEST]⟩,
    ⟨0x00008034, 0x4, 1, .route, [R.GLB_ROUTE_PORT, R.GLB_ROUTE_HOPS, R.GLB_ROUTE_VALID]⟩,
    ⟨0x00200040, 0x4, 1, .none, [R.STK_ALIGN_STAT_LOCKED, R.STK_ALIGN_STAT_HOLDOVER, R.STK_ALIGN_STAT_FAR, R.STK_ALIGN_STAT_ERR, R.STK_ALIGN_STAT_HOPS]⟩,
    ⟨0x00200044, 0x4, 1, .none, [R.STK_ALIGN_MAX_MAX]⟩ ]

/-- Registers of 19_boot_reset.md. -/
def regMap19a : List RegDesc :=
  [ ⟨0x00000100, 0x4, 1, .none, [R.GLB_RESET_CAUSE_CAUSE]⟩,
    ⟨0x00000104, 0x4, 1, .none, [R.GLB_BOOT_STATUS_STAGE, R.GLB_BOOT_STATUS_FAULT, R.GLB_BOOT_STATUS_SLOT, R.GLB_BOOT_STATUS_FALLBACK, R.GLB_BOOT_STATUS_BOARD_BAD, R.GLB_BOOT_STATUS_BOARD_SKIP, R.GLB_BOOT_STATUS_FIRST_BOOT]⟩,
    ⟨0x00000108, 0x4, 1, .none, [R.GLB_STRAP_CFG_MODE, R.GLB_STRAP_MEMBER_ID]⟩,
    ⟨0x0000010C, 0x4, 1, .none, [R.GLB_BOOT_LOCK_LOCK]⟩,
    ⟨0x00000110, 0x4, 1, .none, [R.GLB_BOOT_WDT_SEC, R.GLB_BOOT_WDT_RUNNING]⟩,
    ⟨0x00000114, 0x4, 1, .none, [R.GLB_SW_RESET_KEY]⟩,
    ⟨0x00000118, 0x4, 1, .none, [R.GLB_FW_SLOT_ACTIVE, R.GLB_FW_SLOT_PENDING, R.GLB_FW_SLOT_TRIES, R.GLB_FW_SLOT_COMMIT_BUSY]⟩ ]

/-- Registers of 20_registers.md. -/
def regMap20a : List RegDesc :=
  [ ⟨0x00000000, 0x4, 1, .none, [R.GLB_ID_PART, R.GLB_ID_VENDOR]⟩,
    ⟨0x00000004, 0x4, 1, .none, [R.GLB_REVISION_STEPPING, R.GLB_REVISION_ROM]⟩,
    ⟨0x00000008, 0x4, 1, .none, [R.GLB_FUSE_INFO_GRADE, R.GLB_FUSE_INFO_SECRET_OK, R.GLB_FUSE_INFO_ROOT_OK]⟩,
    ⟨0x0000000C, 0x4, 1, .none, [R.GLB_SERIAL_LO_SERIAL]⟩,
    ⟨0x00000010, 0x4, 1, .none, [R.GLB_SERIAL_HI_SERIAL]⟩,
    ⟨0x00000014, 0x4, 1, .none, [R.GLB_STATUS_IO_READY, R.GLB_STATUS_LOCKED, R.GLB_STATUS_RO_LATCH, R.GLB_STATUS_HM_DEGRADED, R.GLB_STATUS_ON_BANK]⟩,
    ⟨0x00000018, 0x4, 1, .none, [R.GLB_CRIT_WARN_WARN]⟩,
    ⟨0x00000020, 0x4, 1, .none, [R.GLB_INT_CTRL_MSIX_EN, R.GLB_INT_CTRL_MC_EN]⟩,
    ⟨0x00000024, 0x4, 1, .none, [R.GLB_INT_PEND_LINE]⟩,
    ⟨0x00000200, 0x4, 12, .none, [R.GLB_EVT_STAT_STAT]⟩,
    ⟨0x00000240, 0x4, 12, .none, [R.GLB_EVT_EN_EN]⟩,
    ⟨0x00000300, 0x4, 48, .none, [R.GLB_EVT_LINE_LINE]⟩,
    ⟨0x00000400, 0x4, 1, .none, [R.GLB_EVT_FORCE_SOURCE]⟩ ]

/-- Every register of the window (Table 20.1). -/
def regMap : List RegDesc :=
  regMap02a ++ regMap03a ++ regMap05a ++ regMap06a ++ regMap07a ++ regMap08a ++ regMap09a ++ regMap09b ++ regMap10a ++ regMap11a ++ regMap12a ++ regMap12b ++ regMap12c ++ regMap13a ++ regMap14a ++ regMap15a ++ regMap16a ++ regMap17a ++ regMap18a ++ regMap19a ++ regMap20a

/-- The lower halves of the register pairs (R7), each with its entry; the upper half lies four bytes above. -/
def pairLows : List Nat :=
  [0x00200008, 0x0040001C, 0x00F0001C, 0x00600038, 0x00600040, 0x00600048, 0x00800018, 0x00C00018, 0x00D00044, 0x00008008, 0x0000000C]

end Sys2Proof.Machine
end

