-- ==== Sys2Proof/Machine/Tbl.lean ====
section
/-! DEFINITION. Sparse tables in one canonical form: keys strictly rising, and no entry equal to what an unlisted key
reads as. Every large array of the device (dies, slots, zones, slabs, registers, bytes of a buffer) is held so; what an
unlisted key reads as is the function `d` handed to the operations. -/

namespace Sys2Proof.Machine

/-- A table from numbers to values, as its list of entries that differ from what an unlisted key reads as. -/
abbrev Tbl (α : Type) := List (Nat × α)

/-- Read one key. -/
def Tbl.get {α : Type} (d : Nat → α) : Tbl α → Nat → α
  | [], k => d k
  | (a, v) :: m, k => if a = k then v else Tbl.get d m k

/-- Drop every entry of a key. -/
def Tbl.erase {α : Type} : Tbl α → Nat → Tbl α
  | [], _ => []
  | (a, v) :: m, k => if a = k then Tbl.erase m k else (a, v) :: Tbl.erase m k

/-- Place an entry at its key's place among rising keys. -/
def Tbl.insert {α : Type} : Tbl α → Nat → α → Tbl α
  | [], k, v => [(k, v)]
  | (a, w) :: m, k, v =>
    if a = k then (k, v) :: m
    else if k < a then (k, v) :: (a, w) :: m
    else (a, w) :: Tbl.insert m k v

/-- Write one key; writing what an unlisted key reads as removes the entry. -/
def Tbl.set {α : Type} [DecidableEq α] (d : Nat → α) (m : Tbl α) (k : Nat) (v : α) : Tbl α :=
  if v = d k then Tbl.erase m k else Tbl.insert m k v

/-- Change one key by a function. -/
def Tbl.upd {α : Type} [DecidableEq α] (d : Nat → α) (m : Tbl α) (k : Nat) (f : α → α) : Tbl α :=
  Tbl.set d m k (f (Tbl.get d m k))

/-- Change every listed key by a function of the key and the value. -/
def Tbl.mapAll {α : Type} [DecidableEq α] (d : Nat → α) (m : Tbl α) (f : Nat → α → α) : Tbl α :=
  (m.map fun e => (e.1, f e.1 e.2)).filter fun e => decide (e.2 ≠ d e.1)

/-- Remove the listed keys that a test picks out. -/
def Tbl.drop {α : Type} (m : Tbl α) (p : Nat → α → Bool) : Tbl α :=
  m.filter fun e => !p e.1 e.2

/-- The entries of a list of values that stand at keys from k on. -/
def Tbl.entries {α : Type} [DecidableEq α] (d : Nat → α) : Nat → List α → Tbl α
  | _, [] => []
  | k, v :: l => if v = d k then Tbl.entries d (k + 1) l else (k, v) :: Tbl.entries d (k + 1) l

/-- Write a list of values to the keys from k on. -/
def Tbl.setRange {α : Type} [DecidableEq α] (d : Nat → α) (m : Tbl α) (k : Nat) (l : List α) : Tbl α :=
  (m.filter fun e => decide (e.1 < k)) ++ (Tbl.entries d k l ++ m.filter fun e => decide (k + l.length ≤ e.1))

/-- Read n keys from k on, of a table none of whose keys lies below k. -/
def Tbl.walk {α : Type} (d : Nat → α) : Nat → Nat → Tbl α → List α
  | 0, _, _ => []
  | n + 1, k, [] => d k :: Tbl.walk d n (k + 1) []
  | n + 1, k, (a, v) :: m => if a = k then v :: Tbl.walk d n (k + 1) m else d k :: Tbl.walk d n (k + 1) ((a, v) :: m)

/-- Read n keys from k on. -/
def Tbl.range {α : Type} (d : Nat → α) (m : Tbl α) (k n : Nat) : List α :=
  Tbl.walk d n k (m.filter fun e => decide (k ≤ e.1))

/-- The keys strictly rise. -/
def Tbl.sorted {α : Type} : Tbl α → Bool
  | [] => true
  | [_] => true
  | (a, _) :: (b, w) :: m => decide (a < b) && Tbl.sorted ((b, w) :: m)

/-- The canonical form. -/
def Tbl.wf {α : Type} [DecidableEq α] (d : Nat → α) (m : Tbl α) : Bool :=
  Tbl.sorted m && m.all fun e => decide (e.2 ≠ d e.1)

/-- What an unlisted key of a table of optional records reads as. -/
def Tbl.absent {α : Type} : Nat → Option α := fun _ => none

/-- The canonical table of a list of pairs. -/
def Tbl.ofList {α : Type} [DecidableEq α] (d : Nat → α) (l : List (Nat × α)) : Tbl α :=
  l.foldl (fun m e => Tbl.set d m e.1 e.2) []

end Sys2Proof.Machine
end

