-- ==== Sys2Proof/Machine/State.lean ====
section
/-! DEFINITION. Everything the spec gives the device, as plain data: one structure per chapter, and `State` over them.
Fields that a register shows are kept once: a field of access RW, RWL, W1C or RC lives in the register file, a field of
access RO is computed from the structures here. Large arrays are canonical tables (Machine/Tbl.lean). -/

namespace Sys2Proof.Machine

/-! ## Registers (00_scope.md, 20_registers.md) -/

/-- The register file and what each requester holds of it (R7, R428). Requester 0 is the physical function, 1 to 8 are
MC0 to MC7, 9 the security cores (R427). -/
structure RegState where
  /-- Register words that differ from their reset words, by cell key: the address, plus 2^28 for each step of the entry
  that the register's selector names. -/
  file : Tbl W32
  /-- The words in force since the last strike, for the fields that a chapter says apply from the next strike (R430). -/
  inForce : Tbl W32
  /-- Captured upper halves, by requester * 2^28 + address of the lower half (R7). -/
  capture : Tbl (Option W32)
  /-- Staged lower halves, by the same key (R7). -/
  staging : Tbl (Option W32)
  /-- The value that the last register access of each requester returned (the model's own, log entry 1). -/
  rdData : Tbl W32
  deriving DecidableEq, Repr

/-! ## Timebase and scheduler (02_strike.md) -/

/-- The strike timebase (R21 to R25). Periods count 0.25 µs. -/
structure Timebase where
  count : Nat
  perActive : Nat
  perPend : Option Nat
  perNext : Option Nat
  /-- Strikes do not fire: before stage 5 of the boot, in BANKED, EMBER and COLD, and after a halt. -/
  stopped : Bool
  /-- Number of strikes since the budgets were last set (R26). -/
  sinceSet : Nat
  deriving DecidableEq, Repr

/-- The states of a die (R29). -/
inductive DieState where
  | idle | reading | programming | erasing | suspended
  deriving DecidableEq, Repr

/-- What a program on a die writes: a unit of a course, a unit of the slab that replaces a course's at a position, or a page
of the media journal (R147, R157, R171). -/
inductive ProgTarget where
  | unit (course pos row : Nat)
  | mend (course pos row : Nat)
  | journal
  deriving DecidableEq, Repr

/-- A step planned on a die for a read: the reader, its part, and the strikes of issue and of the end of the sense. -/
structure PlanStep where
  who : Reader
  part : Nat
  si : Nat
  sd : Nat
  deriving DecidableEq, Repr

/-- A planned suspension of a die's operation (R32, Table 2.4): the strike of the suspend, the strike at which reads are
accepted, the reads planned in it and the end of its last sense. -/
structure Window where
  sus : Nat
  ready : Nat
  reads : Nat
  sd : Nat
  deriving DecidableEq, Repr

/-- A sense that the device issues on a die with an empty read sequence: for the read-back of a course's unit at a position
(R172) or of its replacement there (R132), or for a part of a copy read (R131, R150). -/
inductive BgSense where
  | verify (course pos : Nat)
  | mendVerify (course pos : Nat)
  | copy (id part : Nat)
  deriving DecidableEq, Repr

/-- One die (R29 to R33, R194, R196). Times run in quarter microseconds. -/
structure Die where
  present : Bool
  lost : Bool
  st : DieState
  /-- The operation that runs, or that the suspended die holds, is an erase of this slab, or a program of the target. -/
  erasing : Bool
  slab : Nat
  target : Option ProgTarget
  run : Nat
  runTotal : Nat
  suspends : Nat
  /-- Suspensions planned, the present one first. -/
  wins : List Window
  /-- Reads served in the present suspension. -/
  served : Nat
  /-- A suspend sent and not yet taken by the die. -/
  susSent : Bool
  /-- The read sequence, and the reads planned in suspensions. -/
  seq : List PlanStep
  winSeq : List PlanStep
  sensing : Option PlanStep
  /-- A sense of the device in progress that was not planned: it is issued when the read sequence is empty. -/
  bg : Option BgSense
  /-- End of the last planned sense, and last planned burst. -/
  tailSd : Nat
  tailSl : Nat
  erases : List Nat
  /-- Slabs to erase that wait for room in the operation queue (R194). -/
  eraseWait : List Nat
  /-- Programs whose data-in is complete, with the strike since which each waits. -/
  progs : List (ProgTarget × Nat)
  aged : Bool
  resetting : Bool
  /-- A status poll of the last strike reached the die (R195). -/
  polled : Bool
  /-- Marked for wear levelling (R154). -/
  levelling : Bool
  deriving DecidableEq, Repr

/-- Where a codeword stands on the recovery ladder (R162): the step of Table 6.7, 0 while none; SOFT_EN and RETRY_MAX as
they were when it started; the retry entry, and whether its soft decode has begun; the senses that the present step still
needs, and whether they are still to be planned. -/
structure Ladder where
  step : Nat
  soft : Bool
  retry : Nat
  entry : Nat
  inSoft : Bool
  senses : Nat
  due : Bool
  deriving DecidableEq, Repr

/-- One codeword of a read, direct or a companion of a read-around, with its reservations (R35, R39). -/
structure RdPart where
  die : Nat
  slab : Nat
  /-- The course, the page position (stripe * 16 + slab position) and the codeword of the page. -/
  course : Nat
  page : Nat
  cw : Nat
  si : Nat
  sd : Nat
  slast : Nat
  /-- Bursts reserved by strike. -/
  bursts : List (Nat × Nat)
  need : Nat
  moved : Nat
  /-- The data is in the die's cache register, since which strike. -/
  sensed : Option Nat
  decoded : Bool
  ladder : Ladder
  companion : Bool
  /-- The parity segment of a companion: engine and strike, and whether it has run (R39, R40). -/
  seg : Option (Nat × Nat)
  segRun : Bool
  deriving DecidableEq, Repr

/-- The admission of a read (R34 to R39). -/
structure ReadPlan where
  s0 : Nat
  promise : Nat
  deadline : Nat
  parts : List RdPart
  /-- The number of its admission, which orders the reads of a channel (R28, R456). -/
  adm : Nat
  /-- Segments reserved for companions that a buffer serves: engine, strike, count. -/
  segs : List (Nat × Nat × Nat)
  around : Bool
  voided : Bool
  /-- The strike in which the result posts, once every part is in. -/
  postAt : Nat
  /-- The tokens were counted with a period longer than the pending one (R24). -/
  period : Nat
  /-- What the read returns, as admitted (R124, R151). -/
  data : List Byte
  unrec : Bool
  /-- The cause of a breach that is already certain: its die timed out while P passed (R196). -/
  cause : Option Nat
  deriving DecidableEq, Repr

/-! ## Orders (03_work_orders.md, 04_clapex_reference.md) -/

/-- A handle (R83): a window of a buffer. -/
structure Hdl where
  buf : Nat
  off : Nat
  len : Nat
  deriving DecidableEq, Repr

/-- A buffer: Crucible or DRAM, its granules, its bytes, who holds it, and its progress in Quench. -/
structure Buf where
  dram : Bool
  granules : Nat
  bytes : Tbl Byte
  tenant : Nat
  slot : Nat
  /-- Freed by its order but still written by a stale request (R253). -/
  orphan : Bool
  /-- A device pattern's buffer in the device staging, outside every pool (R245). -/
  staged : Bool
  /-- The 4 KiB granules Quench still has to zero, once the buffer waits for Quench. -/
  quench : Option Nat
  /-- Crucible bank groups that hold its granules, with counts (R321). -/
  groups : List (Nat × Nat)
  /-- Offsets of its poisoned 64-byte lines (R322). -/
  poison : List Nat
  deriving DecidableEq, Repr

/-- Slot states (Table 3.5). -/
inductive SlotState where
  | free | arriving | runnable | running | suspended | posting | quench
  deriving DecidableEq, Repr

/-- How the command came (Table 3.1, R73, R400). -/
inductive OrderKind where
  | inline | byPointer | patternOnly | standard | management
  deriving DecidableEq, Repr

/-- What the order waits for in SUSPENDED (Table 3.5, R61, R88, R97). -/
inductive WaitFor where
  | nothing
  | attached (rid : Nat)
  | tickets (mask : BitVec 4)
  | ticketFree
  | strike (n : Nat)
  deriving DecidableEq, Repr

/-- The ticket of a detached instruction (R87): waiting for its request, or in, with its status. -/
inductive Ticket where
  | free
  | out (rid : Nat)
  | inn (status : W16) (pos : W16)
  deriving DecidableEq, Repr

/-- A place to return to (R64): in the order's text, or in a pattern of a tenant, with the body's identity. -/
structure CodePos where
  pat : Option Nat
  body : Nat
  word : Nat
  deriving DecidableEq, Repr

/-- The four flags (R81). -/
structure Flags where
  z : Bool
  c : Bool
  n : Bool
  f : Bool
  deriving DecidableEq, Repr

/-- A work-order header (Table 3.2). -/
structure Header where
  nWords : Nat
  early : Bool
  handlerValid : Bool
  callPattern : Bool
  pattern : Nat
  handler : Nat
  dataLen : Nat
  runLimit : Nat
  args : List W64
  bay : Option (Nat × Nat)
  deriving DecidableEq, Repr

/-- One command slot with its work-order context and text record (Tables 3.4 and 4.1). -/
structure Slot where
  st : SlotState
  tenant : Nat
  gen : Nat
  kind : OrderKind
  cmd : NvmeCmd
  /-- The port: a PCIe function with its submission queue, or a queue pair. -/
  pcie : Option (Nat × Nat)
  qp : Option Nat
  arrival : Nat
  hdr : Header
  text : List W64
  v : Vector W64 16
  h : Vector (Option Hdl) 8
  /-- The private buffers of a device pattern that reads or writes through some; its words name them as 8 and 9 (R109). -/
  p0 : Option Hdl
  p1 : Option Hdl
  flags : Flags
  pc : CodePos
  stack : List CodePos
  executed : Nat
  handlerUsed : Nat
  inHandler : Bool
  /-- The call depth at which the handler started (R66, R67). -/
  hdepth : Nat
  tickets : Vector Ticket 4
  waiting : WaitFor
  status : W16
  faultPos : W16
  faulted : Bool
  original : W16
  notices : Nat
  /-- Runnable from this strike, and since which strike. -/
  from_ : Nat
  /-- The strike of its last slice, and what is left of it. -/
  sliceAt : Nat
  sliceLeft : Nat
  smith : Nat
  /-- Its context is in the cache of the Crucible; one that was fetched may run from this strike (R54). -/
  cached : Bool
  elig : Nat
  /-- The stage of a standard command, or of a device pattern that an order has called. -/
  stage : Nat
  /-- In a Wall head the member that runs the command; in a member the head's slot that holds it (R400, R401). -/
  member : Option Nat
  /-- In a member: the head received the command over RDMA (R95, R402). -/
  viaRdma : Bool
  /-- The NVMe status (SCT, SC, DNR) of a completion that is not the conversion of a Clapex status (R73, R76). -/
  reply : Option (Nat × Nat × Bool)
  /-- The posting is handed over, waiting for the host to take it (R221, R230). -/
  handed : Bool
  quenchAt : Nat
  /-- Bytes that the order's data came with, kept until they are placed (R47). -/
  data : List Byte
  deriving DecidableEq, Repr

/-- Where a request stands: presented to its unit, held (R37), pending on tokens or a full die queue (R97), admitted,
waiting in the energy gate, waiting for the reads of a merge (R146), placed, queued at a lane, a group or a memory unit, served, its plaintext on the way out, being zeroed, waiting for its action, or done. -/
inductive ReqPhase where
  | presented | held | pending | admitted | gate | merging | placed | queued | readWait | serving | releasing | zeroing | waitAction | effect | done
  deriving DecidableEq, Repr

/-- What a ZAPPEND, ZWRITE, CWRITE or zone action asks of the media manager (R100, R123, R129): the namespace, the zone
(none: all), the LBA, the blocks, the Bay, hint and class as the instruction and the order name them, the data, and how
far it has come: admitted by the gate, merged, and placed. -/
structure WritePlan where
  nsid : Nat
  zone : Option Nat
  lba : Nat
  blocks : Nat
  bay : Option (Nat × Nat)
  cls : Option Bool
  bytes : List Byte
  gated : Bool
  placed : Bool
  /-- The rest of the units that it covers in part has been read (R146). -/
  merged : Bool
  /-- The reference tags of a Zone Append rise with the blocks' places (R111, log entry 66). -/
  remap : Bool
  deriving DecidableEq, Repr

/-- One outstanding request of an order (R61, R85, R252): the instruction's word and captured operands, and its plan. -/
structure Req where
  slot : Nat
  tenant : Nat
  gen : Nat
  issued : Nat
  ticket : Option Nat
  pos : W16
  op : Nat
  mod : BitVec 4
  imm : BitVec 40
  va : W64
  vb : W64
  vc : W64
  /-- The fields a and b, and the handles that they name. -/
  fa : BitVec 4
  fb : BitVec 4
  ha : Option Hdl
  hb : Option Hdl
  phase : ReqPhase
  reads : List Nat
  writes : List Nat
  ctx : Option Nat
  read : Option ReadPlan
  write : Option WritePlan
  /-- Engine work still to do (units, blocks, granules), and the key version bound (R268). -/
  work : Nat
  key : Option (Nat × Nat)
  result : W16
  value : Option W64
  /-- Bytes produced and not yet delivered. -/
  bytes : List Byte
  delivered : Nat
  /-- The cipher lane that serves it, and the strike of its last unit. -/
  lane : Nat
  doneAt : Nat
  deriving DecidableEq, Repr

/-- A pattern body (R77 to R79). -/
structure Pattern where
  words : List W64
  handler : Option Nat
  pages : Nat
  retired : Bool
  number : Nat
  tenant : Nat
  quench : Option Nat
  deriving DecidableEq, Repr

/-- A mailbox entry (R76). -/
structure MailEntry where
  reqId : Nat
  slot : Nat
  tenant : Nat
  gen : Nat
  action : Nat
  target : Nat
  data : List Byte
  arrival : Nat
  deriving DecidableEq, Repr

/-- Orders, their requests, buffers, patterns and the mailbox. -/
structure Orders where
  slots : Tbl Slot
  reqs : Tbl (Option Req)
  nextReq : Nat
  bufs : Tbl (Option Buf)
  nextBuf : Nat
  /-- Order in which buffers and pattern bodies entered Quench (R257). -/
  quenchQ : List (Bool × Nat)
  /-- Pattern bodies by identity, and the body loaded under tenant * 1024 + number. -/
  bodies : Tbl (Option Pattern)
  loaded : Tbl (Option Nat)
  nextBody : Nat
  mailbox : List MailEntry
  nextMail : Nat
  /-- FCLK cycles left in this strike, by Smith (R26, R59). -/
  cycles : Tbl Nat
  /-- Slices each Smith may still start in this strike. -/
  slices : Tbl Nat
  /-- The tenant served last in each cluster (R59). -/
  lastTenant : Tbl Nat
  /-- The free slots at the last read of SMT_SLOT_MIN, until the count is noted again (Table 3.11). -/
  minFrom : Option Nat
  deriving DecidableEq, Repr

/-! ## Media (05_zones.md, 06_media_management.md, 07_parity.md) -/

/-- Zone states (Table 5.4). -/
inductive ZState where
  | empty | implOpen | explOpen | closed | full | readOnly | offline
  deriving DecidableEq, Repr

/-- Hidden zone states (Table 5.6). -/
inductive Hidden where
  | steady | migrating | mending
  deriving DecidableEq, Repr

/-- One zone (R121, R126, R130). The write pointer counts blocks from the zone start. -/
structure Zone where
  st : ZState
  wp : Nat
  bay : Nat
  hint : Nat
  bedrock : Bool
  classSet : Bool
  ext : Option (List Byte)
  course : Option Nat
  hidden : Hidden
  moveTo : Option Nat
  /-- The strike at which a recorded cut-over takes effect (R131). -/
  cutAt : Option Nat
  deriving DecidableEq, Repr

/-- A namespace (R110 to R114, R146). -/
structure Namespace where
  zoned : Bool
  lbaf : Nat
  blocks : Nat
  zones : Nat
  iu : Nat
  bedrock : Bool
  bay : Nat
  op : Nat
  /-- The type of protection information, 1 or 3; 0 without (R111). -/
  pi : Nat
  committed : Nat
  tenant : Option Nat
  ready : Bool
  deriving DecidableEq, Repr

/-- Slab states (Table 6.2). -/
inductive SlabState where
  | erased | erasePending | inCourse | relocDest | slcReserve | system | retired
  deriving DecidableEq, Repr

/-- One slab of the slab table (Table 6.5, R140, R154, R161): its state, its block on each plane, its P/E count, the strike
of its last erase, its course, whether it is failing (0 no; 1, 3 or 4: it retires with that cause of Table 17.2; 5: it is
erased and kept), and the count at which it was last failing. -/
structure Slab where
  st : SlabState
  blocks : List Nat
  pe : Nat
  erasedAt : Nat
  course : Option Nat
  fail : Nat
  failedPe : Option Nat
  deriving DecidableEq, Repr

/-- Unit states of a Mortar descriptor (R169, R171). -/
inductive UnitState where
  | none | sending | programmed | verifying
  deriving DecidableEq, Repr

/-- One entry of a Mortar descriptor (R169), with the bursts of its data-in or read-back that have moved and the pages
sensed for read-back. -/
structure UnitEntry where
  row : Nat
  bitmap : W64
  st : UnitState
  moved : Nat
  sensed : Nat
  deriving DecidableEq, Repr

/-- What a course carries (R118, R131, R148, R150). -/
inductive CourseKind where
  | zone | conv | collect | dest
  deriving DecidableEq, Repr

/-- How far a mend has come with its present row (R132, R181): between rows; its pages are read; the companions of those
that could not be read are read; the parity engines rebuild them; the row goes to the new slab. -/
inductive MendPhase where
  | between | reading | companions | rebuilding | sending
  deriving DecidableEq, Repr

/-- A slab of a course that is being replaced (R132, R157): its position, the new slab, the cause of Table 17.2 for which
the old one retires, 0 when it does not, the rows that the new slab holds verified, the row on its way, and the pages of
that row that could not be read. -/
structure Mend where
  pos : Nat
  slab : Nat
  retire : Nat
  row : Nat
  unit : UnitEntry
  phase : MendPhase
  lost : List Nat
  deriving DecidableEq, Repr

/-- A course: 16 slabs, its owner, and how far its rows have come (R118, R140, R166 to R172). -/
structure Course where
  kind : CourseKind
  nsid : Nat
  /-- Zone number, or domain. -/
  owner : Nat
  slabs : List Nat
  bedrock : Bool
  bay : Nat
  hint : Nat
  isOpen : Bool
  /-- Data bytes placed; no more come once it is finished (R168). -/
  fill : Nat
  finished : Bool
  /-- Rows whose data-in has begun, and Keystone segments of the last of them still to compute. -/
  sent : Nat
  keyLeft : Nat
  /-- Rows back at NONE at each position. -/
  done : List Nat
  units : Vector UnitEntry 16
  /-- The Mortar set number (R170, R175). -/
  set : Option Nat
  mends : List Mend
  closeStrike : Nat
  lastWrite : Nat
  /-- Marked for collection ahead of the order of R149, and whether as a wear move (R155). -/
  marked : Bool
  wear : Bool
  /-- Stripes copied into a migration's destination (R131). -/
  copied : Nat
  /-- Positions whose slab was replaced without its earlier rows, with the first row that the new slab holds, and the failed
  slab while units in it are still to be moved (R158). -/
  holes : List (Nat × Nat × Option Nat)
  deriving DecidableEq, Repr

/-- Where the data of a conventional unit stands: its course and position (R146). -/
structure UnitAt where
  course : Nat
  pos : Nat
  deriving DecidableEq, Repr

/-- A unit that a collection has copied and not yet journalled (R150): source, destination, and whether the map names the
destination. -/
structure Copy where
  unit : Nat
  src : UnitAt
  dest : UnitAt
  mapped : Bool
  deriving DecidableEq, Repr

/-- A collection in progress (R150, R152, R165): the victim, its valid units at selection, URGENT at its start, units copied
and host units placed since, the next stripe to read, and the copies not yet journalled. -/
structure Collection where
  victim : Nat
  valid : Nat
  urgent : Nat
  copied : Nat
  host : Nat
  stripe : Nat
  copies : List Copy
  deriving DecidableEq, Repr

/-- A domain of a conventional namespace (R146 to R152): its committed courses, its collection and the collection's
course, whether that course is borrowed, and the victim's slabs whose erase returns it. -/
structure Domain where
  courses : Nat
  run : Option Collection
  dest : Option Nat
  borrowed : Bool
  repay : List Nat
  deriving DecidableEq, Repr

/-- Slabs that wait for reads admitted on them (R124): the slabs, the last promised strike among those reads, and the cause
of Table 17.2 for which they retire, 0 when they are erased. -/
structure Release where
  slabs : List Nat
  until_ : Nat
  retire : Nat
  deriving DecidableEq, Repr

/-- A record of the media journal (R147): a zone, a slab, a course or a map entry as it now is. -/
inductive JRec where
  | zone (key : Nat) (z : Zone)
  | slab (a : Nat) (x : Slab)
  | course (id : Nat) (c : Option Course)
  | unit (key : Nat) (u : Option UnitAt)
  deriving DecidableEq, Repr

/-- The structures that the journal and its checkpoints keep (R143, R147). -/
structure Image where
  zones : Tbl Zone
  slabs : Tbl Slab
  courses : Tbl (Option Course)
  map : Tbl (Option UnitAt)
  deriving DecidableEq, Repr

/-- One slab of the journal's ring (R153): its address, the programs it has taken, and the records in it by number. -/
structure JSlab where
  slab : Nat
  progs : Nat
  recs : List (Nat × JRec)
  deriving DecidableEq, Repr

/-- The media journal (R143, R147, R153). -/
structure Journal where
  /-- The slabs of the system area that the ring may use, and those of them that wait for an erase. -/
  slabs : List Nat
  dirty : List Nat
  /-- The ring, the head last; the slab that is being collected. -/
  ring : List JSlab
  victim : Option Nat
  /-- The number of the next record; records staged in DRAM, and those of the program in progress. -/
  next : Nat
  staged : List (Nat × JRec)
  going : List (Nat × JRec)
  /-- What the records made so far amount to, what the records in flash do with the first record that they do not contain,
  and the last checkpoint with its own first record. -/
  now : Image
  flash : Image
  flashAt : Nat
  ckpt : Image
  ckptAt : Nat
  deriving DecidableEq, Repr

/-- The media manager. -/
structure Media where
  formatted : Bool
  ns : Tbl (Option Namespace)
  /-- Zones by nsid * 2^32 + number. -/
  zones : Tbl Zone
  bays : Tbl (BitVec 64)
  slabs : Tbl Slab
  courses : Tbl (Option Course)
  nextCourse : Nat
  domains : Tbl (Option Domain)
  /-- Conventional maps by nsid * 2^48 + unit (R146). -/
  map : Tbl (Option UnitAt)
  /-- Blocks with their metadata where they stand, by course * 2^64 + first data byte in the course (R14, R111, R167). -/
  data : Tbl (Option (List Byte))
  /-- Keystone pages as computed, by course * 2^64 + stripe (R177). -/
  keys : Tbl (List Byte)
  /-- The reverse records of conventional courses: the unit whose data stands at a position, plus 1, by course * 2^64 +
  position (R150). -/
  rev : Tbl Nat
  /-- Blocks that read MEDIA_UNRECOVERED (R132, R163), and blocks deallocated within a mapped unit (R125), by nsid * 2^64 +
  LBA. -/
  unrec : List Nat
  gone : List Nat
  /-- The accumulator pages of the Mortar sets, by set * 16 + accumulator (R169). -/
  accs : Tbl (List Byte)
  jrn : Journal
  /-- Mortar sets held: the course of each set number, and the sets resident in the Crucible (R174, R175). -/
  sets : Tbl (Option Nat)
  resident : List Nat
  releases : Tbl (Option Release)
  nextRel : Nat
  /-- Courses that hold restored rows, and how far they were restored (R335, R362). -/
  restored : List (Nat × Nat)
  /-- Host bytes in the order in which they were placed: course, first byte and count (R359); dropped once verified. -/
  ledger : List (Nat × Nat × Nat)
  /-- Bytes of DRAM region 4, fixed at format (R145, R310). -/
  region4 : Nat
  good : Nat
  retiredCnt : Nat
  factory : Nat
  slcReserve : Nat
  systemArea : Nat
  dataCourses : Nat
  mapPool : Nat
  /-- The slabs of the flush areas A and B, and which is armed (R142). -/
  areaA : List Nat
  areaB : List Nat
  armedB : Bool
  /-- Parked rows or a recovered flush keep the used area (R335, R362). -/
  areaHeld : Bool
  roLatch : Bool
  lowReported : Bool
  floorReported : Bool
  /-- Critical warning bits 2 and 4 (R160, R163, R353, R362). -/
  degraded : Bool
  lossWarn : Bool
  bringupFault : Bool
  deriving DecidableEq, Repr

/-! ## Channels (08_flash_channels.md) -/

/-- Channel states (Table 8.9). -/
inductive ChState where
  | off | training | ready | draining | fault
  deriving DecidableEq, Repr

/-- One flash channel (R198 to R205). -/
structure Chan where
  st : ChState
  rate : Nat
  retained : Bool
  tempAt : Int
  /-- Steps of a re-centre still to do (R201). -/
  recentre : Nat
  wpHigh : Bool
  /-- Bursts reserved by admitted reads, and by read-around among them, by strike (R28). -/
  cal : Tbl Nat
  calRa : Tbl Nat
  /-- Command cycles spent in the present strike, and the die of the channel polled last (R195). -/
  cyc : Nat
  lastPoll : Nat
  deriving DecidableEq, Repr

/-- What a read of the device serves: a collection's copy of its victim, or of units that its own course lost (R150, R158); a
migration, by its destination (R131); a mend, by course and position: a page of the slab that is replaced, or a companion
of one (R132, R181); the rest of a unit that a write covers in part (R146); the companions of a rebuild in the ladder
(R162 step 4). -/
inductive DevUse where
  | collect (nsid dom : Nat)
  | recopy (nsid dom : Nat)
  | migrate (dest : Nat)
  | mend (course pos : Nat)
  | mendStripe (course pos : Nat)
  | merge (rid : Nat)
  | ladder (who : Reader) (part : Nat)
  deriving DecidableEq, Repr

/-- A read of the device itself, with D = 0: a page of a course, its codewords, and whether one of them is not
recovered. -/
structure DevRead where
  use : DevUse
  course : Nat
  page : Nat
  parts : List RdPart
  unrec : Bool
  deriving DecidableEq, Repr

/-- A page that a parity engine rebuilds (R185, R186): for step 4 of the ladder, or in a mend, there from Keystone or from
Mortar; the engine, and the segments still to run. -/
inductive RebuildOf where
  | ladder (who : Reader) (part : Nat)
  | mend (course pos page : Nat) (keystone : Bool)
  deriving DecidableEq, Repr

structure Rebuild where
  what : RebuildOf
  engine : Nat
  left : Nat
  deriving DecidableEq, Repr

/-- A soft decode that waits or runs: the codeword, the pool whose decoder has it, and the iterations it has run (R163). -/
structure SoftJob where
  who : Reader
  part : Nat
  pool : Option Nat
  ran : Nat
  deriving DecidableEq, Repr

/-- Channels, parity engines and soft decoders. -/
structure Flash where
  dies : Tbl Die
  chans : Tbl Chan
  /-- Segments that admitted reads reserved on each parity engine, by engine * 2^64 + strike (R40, R186). -/
  engines : Tbl Nat
  /-- Codewords in the ladder that wait for a soft decoder, in arrival order, each with the iterations it has been granted
  (R26, R163). -/
  softQ : List SoftJob
  /-- The reads of the device itself. -/
  devs : Tbl (Option DevRead)
  nextDev : Nat
  /-- Rebuilds on the parity engines, in arrival order (R186). -/
  rebuilds : List Rebuild
  /-- The number of the next admission. -/
  nextAdm : Nat
  deriving DecidableEq, Repr

/-! ## Host ports (09_host_ports.md) -/

/-- A logical port (R208 to R212). -/
structure LPort where
  up : Bool
  mode : Nat
  /-- Quanta of the last pause frame on the RoCE priority (R211). -/
  paused : Nat
  wakeBuf : Nat
  deriving DecidableEq, Repr

/-- Queue pair states. -/
inductive QpState where
  | idle | connected | live | error
  deriving DecidableEq, Repr

/-- An RC queue pair (R213 to R225). Rates run in units of 2^-16 Mb/s, alpha in units of 2^-32; the last four words are
ETH_RT_CTRL, ETH_CC_NP, ETH_CC_RP and ETH_CC_AI as they stood when it was connected. -/
structure QPair where
  st : QpState
  tenant : Nat
  assoc : Nat
  admin : Bool
  discovery : Bool
  lport : Nat
  sqsize : Nat
  credit : Nat
  rnrTries : Nat
  ackTries : Nat
  rc : Nat
  rt : Nat
  alpha : Nat
  steps : Nat
  lastCnpUs : Option Nat
  rtWord : W32
  npWord : W32
  rpWord : W32
  aiWord : W32
  deriving DecidableEq, Repr

/-- An NVMe queue on PCIe (R229 to R231), with the host address of a completion queue. -/
structure NvmeQueue where
  base : W64
  size : Nat
  head : Nat
  tail : Nat
  cqid : Nat
  deriving DecidableEq, Repr

/-- A PCIe function (R226 to R232). -/
structure PFunc where
  en : Bool
  rdy : Bool
  sqs : Tbl (Option NvmeQueue)
  cqs : Tbl (Option NvmeQueue)
  /-- Completions that wait for room: the completion queue and the slot (R230). -/
  backlog : List (Nat × Nat)
  /-- The submission queue fetched last (R230). -/
  lastSq : Nat
  deriving DecidableEq, Repr

/-- The host ports. -/
structure Ports where
  lports : Tbl LPort
  qps : Tbl QPair
  lastQp : Nat
  /-- The strike at which the keep-alive timer of each association was last restarted (R222). -/
  keepAlive : Tbl Nat
  funcs : Tbl PFunc
  /-- The function fetched from last (R230). -/
  lastFn : Nat
  linkUp : Bool
  linkSpeed : Nat
  linkWidth : Nat
  linkFlit : Bool
  perstHigh : Bool
  heldTlps : Nat
  eid : Byte
  /-- NVMe-MI configuration values that a Configuration Set has given, by identifier (R237). -/
  miCfg : Tbl (Option Nat)
  /-- IP addresses in force, by logical port * 4 + index. -/
  ips : Tbl (Option (IpAddr × Nat))
  deriving DecidableEq, Repr

/-! ## Tenants (10_tenants.md) -/

/-- Tenant states (R240). -/
inductive TState where
  | none | active | resetting | destroying
  deriving DecidableEq, Repr

/-- The parameter block (Table 10.1). -/
structure TBlock where
  fabric : Bool
  quiesce : Bool
  cluster : Nat
  nqns : List (List Byte)
  queues : Nat
  activeZones : Nat
  slots : Nat
  bedrock : Nat
  keyBase : Nat
  keyCount : Nat
  assay : Nat
  cruMib : Nat
  patterns : Nat
  rdRate : Nat
  wrRate : Nat
  rdDepth : Nat
  wrDepth : Nat
  wakeStk : Nat
  defaultBay : Nat
  bays : BitVec 256
  deriving DecidableEq, Repr

/-- The dirty-page log of a tenant (R260 to R262). -/
structure DirtyLog where
  en : Bool
  pages : Nat
  cur : W64
  old : W64
  /-- The bitmap being flushed, and the strike at which it went out of use. -/
  was : W64
  busy : Bool
  swapNext : Bool
  swapAt : Nat
  outRange : Bool
  /-- Pages marked in the bitmap in use and in the bitmap being flushed. -/
  marked : List Nat
  flushing : List Nat
  deriving DecidableEq, Repr

/-- One tenant (R240 to R256). Buckets count tokens. -/
structure Tenant where
  st : TState
  gen : Nat
  blk : TBlock
  /-- Groups of a modify that apply at the next strike (R250). -/
  mods : Option (BitVec 16 × TBlock)
  rd : Nat
  wr : Nat
  /-- Strikes since its share was last set (R26). -/
  since : Nat
  resetAt : Option Nat
  flrWaiting : Bool
  dirty : DirtyLog
  deriving DecidableEq, Repr

/-! ## Cipher and Assay (11_cipher.md, 12_assay_and_trust.md) -/

/-- A key in a slot or a retired version of one (R264, R268). -/
structure KeyRec where
  ktype : Nat
  usage : BitVec 16
  tenant : Nat
  keyId : W32
  version : Nat
  key : List Byte
  deriving DecidableEq, Repr

/-- One cipher lane (R273 to R277). -/
structure Lane where
  queue : List Nat
  serving : Option Nat
  left : Nat
  holdFull : Bool
  releasing : Option Nat
  unreleased : Nat
  /-- Requests whose last unit is done and whose tag is yet to be checked. -/
  finished : List Nat
  deriving DecidableEq, Repr

/-- The cipher lanes and key slots. -/
structure Cipher where
  slots : Tbl (Option KeyRec)
  retired : List (Nat × KeyRec)
  nextVersion : Nat
  epochs : Tbl W32
  lanes : Tbl Lane
  /-- KEYLOADs whose contents come into force at the next strike. -/
  loads : List (Nat × Option KeyRec)
  /-- Strikes since the lane budget was last set (R26). -/
  sinceSet : Nat
  deriving DecidableEq, Repr

/-- Who holds an Assay context (R283). -/
inductive CtxOwner where
  | free | order (slot tenant : Nat) | register | quench (tenant : Nat)
  deriving DecidableEq, Repr

/-- An Assay context (R283 to R293). -/
structure AssayCtx where
  owner : CtxOwner
  sha512 : Bool
  chain : List W64
  /-- Bytes accepted and not yet compressed. -/
  buf : List Byte
  count : Nat
  valid : Bool
  ovr : Bool
  err : Bool
  cmdRefused : Bool
  /-- A finish is in progress, and it will end with ERR. -/
  finishing : Bool
  finErr : Bool
  /-- OVR was set during the finish in progress and belongs to the next message (R291). -/
  ovrNext : Bool
  /-- A block is ready, and since which strike. -/
  busy : Bool
  readyAt : Nat
  result : List Byte
  /-- The state record registers DG_STATE0 to DG_STATE23. -/
  record : Tbl W32
  /-- The DGFEED or DGFIN that the context serves, with bytes still to feed. -/
  feed : Option Nat
  rest : List Byte
  /-- The order has left with a block in compression (R104). -/
  dying : Bool
  deriving DecidableEq, Repr

/-- What a Security Send asks for (Table 12.4). -/
inductive SecReq where
  | identity
  | quote (nonce : List Byte)
  | enrol (key sig : List Byte)
  | kek (r : KekRequest)
  deriving DecidableEq, Repr

/-- A security operation that SEC core 1 holds (R301): done or not, its status and answer, and a
Receive that waits, by its slot and generation. -/
structure SecOp where
  req : SecReq
  fin : Bool
  status : Nat × Nat
  answer : List Byte
  asked : Option (Nat × Nat)
  deriving DecidableEq, Repr

/-- The Assay and the trust state. -/
structure Assay where
  ctxs : Tbl AssayCtx
  /-- The result of the last DG_ALLOC (DG_ALLOC_RES). -/
  allocRes : W32
  /-- Compression time that each hash group has left in this strike, in tenths of a nanosecond, and the context it served
  last (R284). -/
  left : Tbl Nat
  lastCtx : Tbl Nat
  secOps : List SecOp
  /-- The SHA-256 of the enrolled key manager's key, and the key itself, which checks the next enrolment (R303). -/
  kmHash : Option (List Byte)
  kmKey : List Byte
  identity : Option (List Byte)
  mSec : List Byte
  mMgmt : List Byte
  mCfg : List Byte
  stored : List Byte
  cert : List Byte
  chainNew : Bool
  arb : Tbl W32
  arbBad : List Nat
  floor0 : Nat
  floor1 : Nat
  deriving DecidableEq, Repr

/-! ## Memories (13_memory.md) -/

/-- A request that waits for a DRAM channel (R313): its port, the bank and row of its address, the strike since which it
waits, and the level with which it joined its bank queue. -/
structure DramReq where
  port : Nat
  bank : Nat
  row : Nat
  since : Nat
  level : Nat
  deriving DecidableEq, Repr

/-- A DRAM channel (R313 to R319). -/
structure DramCh where
  sr : Bool
  entering : Bool
  exiting : Bool
  gated : Bool
  idle : Nat
  /-- The banks with a row open, and the row. -/
  openRows : List Nat
  rows : Tbl Nat
  owed : Tbl Nat
  uninit : Nat
  /-- Requests at the ports and in the bank queues, and the port and the bank taken last (R313). -/
  ports : Tbl (List DramReq)
  banks : Tbl (List DramReq)
  lastPort : Nat
  lastBank : Nat
  deriving DecidableEq, Repr

/-- A Crucible bank group (R320 to R324). -/
structure BankGroup where
  retention : Bool
  idle : Nat
  used : Nat
  deriving DecidableEq, Repr

/-- The memories. -/
structure Memories where
  dram : Tbl DramCh
  groups : Tbl BankGroup
  dramFree : Nat
  poison : List (Bool × Nat)
  deriving DecidableEq, Repr

/-! ## Power, hold-up, thermal (14_power.md, 15_holdup.md, 16_thermal.md) -/

/-- Device power states (Table 14.1). -/
inductive PState where
  | hot | banked | ember | cold
  deriving DecidableEq, Repr

/-- Domain states (R337). -/
inductive DomState where
  | on | draining | autoOff | mgrOff | waking
  deriving DecidableEq, Repr

/-- One switched domain (R337 to R340). -/
structure Dom where
  st : DomState
  mgr : Bool
  busy : Bool
  result : W16
  drainAt : Nat
  idle : Nat
  /-- Work has ended a drain for automatic gating: the state reads ON from the next strike (R43). -/
  back : Bool
  deriving DecidableEq, Repr

/-- Who asked for a power entry (R327). -/
inductive PowerReq where
  | order (rid : Nat)
  | feature (slot gen : Nat)
  | wall
  deriving DecidableEq, Repr

/-- An entry in progress (Table 14.3). -/
structure Entry where
  target : PState
  step : Nat
  startAt : Nat
  by_ : PowerReq
  /-- Requests for HOT that abort the entry at its next safe point, and those that step 6 holds (R332). -/
  abort : List PowerReq
  heldHot : List PowerReq
  failing : Bool
  deriving DecidableEq, Repr

/-- Phases of an OPSET (R343). -/
inductive OpPhase where
  | waitStart | voltage | switch | lockPll | lowering
  deriving DecidableEq, Repr

/-- The operating-point sequencer (R342 to R345). -/
structure OpSeq where
  rid : Nat
  target : Nat
  up : Bool
  phase : OpPhase
  deriving DecidableEq, Repr

/-- Power. -/
structure Power where
  st : PState
  entry : Option Entry
  wakeCause : BitVec 6
  doms : Tbl Dom
  cur : Nat
  seq : Option OpSeq
  opAtEntry : Nat
  emberNeed : Nat
  imageHash : List Byte
  parked : Bool
  padEn : W16
  thermHeld : Option (BitVec 6)
  /-- Strike at which fetching and crediting resume after an entry was abandoned (R330, R332). -/
  resumeAt : Nat
  halted : Bool
  deriving DecidableEq, Repr

/-- Phases of a capacitance test (R352, R354). -/
inductive TestPhase where
  | none | charging | waiting | bleeding | recharging
  deriving DecidableEq, Repr

/-- The flush in progress (R358 to R360, R371, R322): whether a thermal shutdown or a supply loss started it, whether
strike s1 has passed, the bytes of the recovery records, the bytes to write and those written. -/
structure FlushRun where
  thermal : Bool
  supply : Bool
  started : Bool
  recs : Nat
  total : Nat
  written : Nat
  deriving DecidableEq, Repr

/-- A Mortar set as the flush wrote it, with its descriptor (R169, R183). -/
structure SetImage where
  set : Nat
  course : Nat
  units : Vector UnitEntry 16
  accs : List (List Byte)
  deriving DecidableEq, Repr

/-- What a flush writes to the armed area, in this order (R183, R359): the staged records of the journal, the dirty codewords
(course, data offset and bytes, oldest admission first), and the Mortar sets. -/
structure FlushImage where
  recs : List (Nat × JRec)
  data : List (Nat × Nat × List Byte)
  sets : List SetImage
  deriving DecidableEq, Repr

/-- The Bellows. Voltages in 0.1 V. -/
structure Bellows where
  armed : Bool
  chgEn : Bool
  chgFet : Bool
  bankSw : Bool
  bleedEn : Bool
  vhv : Nat
  vbank : Nat
  /-- The first sample of an overvoltage, whether its bleed has been checked, and the first sample of a test. -/
  bleedFrom : Nat
  bleedChecked : Bool
  v1 : Nat
  test : TestPhase
  periodic : Bool
  passed : Bool
  capLow : Bool
  bleeding : Bool
  bankFault : Bool
  uncovered : Bool
  capUf : Nat
  recovered : Bool
  eAvail : Nat
  eNeed : Nat
  openCap : Nat
  flush : Option FlushRun
  lossCnt : Nat
  /-- The Cornerstone's flush records: open, final, bytes written at the last progress record, bytes of the recovery
  records, and whether a supply loss started the flush. -/
  recOpen : Bool
  recFinal : Bool
  recBytes : Nat
  recRecs : Nat
  recSupply : Bool
  /-- What the flush area in use holds, once a flush has begun. -/
  image : Option FlushImage
  deriving DecidableEq, Repr

/-- One housekeeping input (R365 to R369). -/
structure HkInput where
  reading : Int
  faultRun : Nat
  goodRun : Nat
  brokenOpen : Bool
  brokenShort : Bool
  level : Nat
  /-- The FC domains that it governs, as of its last sample. -/
  map : Nat
  outside : Bool
  deriving DecidableEq, Repr

/-- Housekeeping. -/
structure House where
  inputs : Tbl HkInput
  /-- Levels in force, by channel (R369). -/
  fcLvl : Tbl Nat
  thermSd : Bool
  /-- Critical warning bit 1 held by a thermal shutdown until the next reset. -/
  thermWarn : Bool
  shutdown : Bool
  deriving DecidableEq, Repr

/-! ## Hallmark (17_hallmark.md) -/

/-- A record (Table 17.1) without its CRC, which is a function of the rest. -/
structure HmRecord where
  seq : Nat
  code : W16
  repeat_ : Nat
  cycle : W32
  opMs : Nat
  param : List Byte
  deriving DecidableEq, Repr

/-- The recorder (R376 to R389). -/
structure Hall where
  /-- Records in the ring by SEQ. -/
  ring : Tbl (Option HmRecord)
  head : Nat
  tail : Nat
  fallback : List HmRecord
  degraded : Bool
  committing : Option HmRecord
  rewriting : Bool
  pendingRep : Nat
  fifo : List HmRecord
  /-- An EVENTS_LOST entry waits: the first lost code, its time, and the count. -/
  lost : Option HmRecord
  cycle : W32
  opMs : Nat
  opMsStored : Nat
  /-- Log-page captures by controller (R387). -/
  captures : Tbl (Option Nat)
  /-- HM_RD results by requester: valid, fallback, record. -/
  rd : Tbl (Option (Bool × HmRecord))
  /-- Interrupt lines asserted at their last message. -/
  lines : W16
  deriving DecidableEq, Repr

/-! ## Wall (18_wall.md) -/

/-- Link states (Table 18.5). -/
inductive LinkState where
  | off | training | up | down | miswired
  deriving DecidableEq, Repr

/-- A Course link port. -/
structure CkPort where
  st : LinkState
  peer : Nat
  delay : Nat
  replays : Nat
  deriving DecidableEq, Repr

/-- A route: port and hops. -/
structure Route where
  port : Nat
  hops : Nat
  deriving DecidableEq, Repr

/-- A packet sent and not yet acknowledged end to end (R396). -/
structure Packet where
  dest : Nat
  seq : Nat
  sentAt : Nat
  slot : Option Nat
  deriving DecidableEq, Repr

/-- The Wall. -/
structure Wall where
  formed : Bool
  live : BitVec 64
  size : Nat
  skip : Nat
  ports : Tbl CkPort
  routes : Tbl (Option Route)
  /-- A link or a member has changed since the tables in force were computed (R395). -/
  recompute : Bool
  /-- The ports on which a member forwards the strike markers (R403). -/
  markOut : List Nat
  packets : Tbl (Option Packet)
  nextPkt : Nat
  credits : Tbl Nat
  /-- Sequence numbers of the packets received, by the member that sent them (R396). -/
  seen : Tbl (List W32)
  /-- Command credits that a member has granted the head (R401). -/
  granted : Nat
  /-- Members whose failure the head learns of in this strike, and those that sent a DOWN notice and whose links have not
  been down since (R397). -/
  failedAt : List Nat
  noticed : List Nat
  locked : Bool
  holdover : Bool
  far : Bool
  err : Int
  hops : Nat
  noMarker : Nat
  announced : Option (Nat × Nat)
  deriving DecidableEq, Repr

/-! ## Boot (19_boot_reset.md) -/

/-- Reset, boot and firmware slots (R410 to R424). -/
structure Boot where
  cause : BitVec 6
  stage : Nat
  fault : Nat
  slotB : Bool
  fallback : Bool
  boardBad : Bool
  boardSkip : Bool
  firstBoot : Bool
  cfgMode : BitVec 2
  memberId : BitVec 6
  locked : Bool
  wdtRunning : Bool
  flash : BootFlash
  activeB : Bool
  pendingSlot : Nat
  tries : Nat
  /-- The downloaded package, in order, and a commit being written: slot, images, action. -/
  package : List Byte
  commit : Option (Bool × SlotImages × Nat)
  /-- The slot and the generation of the command that commits. -/
  commitSlot : Option (Nat × Nat)
  ioReady : Bool
  mapsLoaded : Bool
  pins : ResetPins
  deriving DecidableEq, Repr

/-! ## What leaves the device -/

/-- How a command over the management endpoint ends (R237). -/
inductive MiStatus where
  | success | controllerNotReady | invalidOpcode
  deriving DecidableEq, Repr

/-- What the device hands to the outside, in order (the model's own record, log entry 1). -/
inductive Output where
  | completion (slot : Nat) (cid : W16) (dw0 dw1 : W32) (sct sc : Nat) (dnr : Bool)
  | capsuleNak (qp : Nat)
  | rnrNak (qp : Nat)
  | hostWrite (slot mode : Nat) (rkey : W32) (addr : W64) (data : List Byte)
  | hostRead (rid : Nat)
  | textRead (slot : Nat)
  | memberRead (slot mode : Nat) (rkey : W32) (addr : W64)
  | dataIn (rid : Nat)
  | notice (slot mode : Nat) (rkey : W32) (addr : W64) (data : List Byte)
  | credit (qp credit : Nat)
  /-- A CNP with the priority and the DSCP of its logical port (R211, R224). -/
  | cnp (qp prio dscp : Nat)
  | nakAccess (qp : Nat)
  | arpReply (lport : Nat) (target : IpAddr)
  | echoReply (lport : Nat) (target : IpAddr) (payload : List Byte)
  | connectReply (qp sct sc : Nat)
  | cmReject (lport : Nat)
  /-- A connection is accepted with this path MTU (R213). -/
  | cmAccept (lport qp pmtu : Nat)
  | disconnect (qp : Nat)
  | adminData (slot : Nat) (data : List Byte)
  | miReply (status : MiStatus) (data : List Byte)
  | mgmtInterrupt (line : Nat)
  | msix (line : Nat)
  | asyncEvent (fn info : Nat)
  | avsWrite (mv : Nat)
  | lunReset (die : Nat)
  | program (die slab : Nat) (planes : List Nat) (places : List (Nat × Nat × Nat))
  | marker (port : Nat) (strike : Nat)
  | periodAnnounce (period strike : Nat)
  | forward (member slot : Nat)
  /-- A member has granted the head these command credits in all (R401). -/
  | memberCredit (n : Nat)
  | packetAgain (member seq : Nat)
  | formMessage (size skip : Nat) (strike : Nat)
  | downNotice
  | wallReset
  | wakePulse
  | memberReply (slot : Nat) (status pos : W16) (value : W64) (sct sc : Nat) (dnr : Bool)
  | memberEntry (status : W16)
  | powerCommand (target : Nat) (abandon : Bool)
  | tenantRecord (tenant gen : Nat)
  | zeroWrite (slot : Nat) (len : Nat)
  | pauseFrame (lport : Nat)
  | pauseRelease (lport : Nat)
  deriving DecidableEq, Repr

/-! ## The device -/

/-- The whole device, with the queue of commands that wait. -/
structure State where
  pending : List Instr
  out : List Output
  freeCtr : Nat
  reg : RegState
  tb : Timebase
  fl : Flash
  ord : Orders
  med : Media
  port : Ports
  ten : Tbl Tenant
  cph : Cipher
  asy : Assay
  mem : Memories
  pwr : Power
  blw : Bellows
  hkp : House
  hm : Hall
  wall : Wall
  boot : Boot
  deriving DecidableEq, Repr

/-! ## The device right after reset

A device as it leaves the factory (R421, R454): the Cornerstone and the boot flash blank, the media not formatted. Every
register that the spec gives a reset value has it, because a register that is not listed in the file reads as its reset
word; every other value is named in log entry 2. -/

/-- MF's parameter block on a blank device (last column of Table 10.1). -/
def mfBlock : TBlock :=
  { fabric := false, quiesce := false, cluster := 0, nqns := [], queues := 64, activeZones := 64, slots := 4096,
    bedrock := 0, keyBase := 0, keyCount := 64, assay := 8, cruMib := 4, patterns := 768, rdRate := 0, wrRate := 0,
    rdDepth := 65535, wrDepth := 65535, wakeStk := 65535, defaultBay := 0, bays := BitVec.allOnes 256 }

/-- A log that is off. -/
def dirtyOff : DirtyLog :=
  { en := false, pages := 0, cur := 0, old := 0, was := 0, busy := false, swapNext := false, swapAt := 0,
    outRange := false, marked := [], flushing := [] }

/-- MF on a blank device: ACTIVE at generation 1, both buckets full (R240, R247). -/
def mfTenant : Tenant :=
  { st := .active, gen := 1, blk := mfBlock, mods := none, rd := 65535, wr := 65535, since := 0, resetAt := none,
    flrWaiting := false, dirty := dirtyOff }

/-- An erased image place of the boot flash. -/
def noImage : FwImage := { header := [], sigOk := false, payloadHash := [], complete := false }

/-- An erased boot flash. -/
def blankFlash : BootFlash :=
  { slotA := ⟨noImage, noImage⟩, slotB := ⟨noImage, noImage⟩,
    board := { formatOk := false, crcOk := false, entries := [] } }

/-- The pins of a device in the Single configuration. -/
def singlePins : ResetPins :=
  { cfgMode := 0, memberId := 0, fusesOk := true, flashAnswers := true, reflash := none, ringOk := true, badMacs := [] }

/-- The journal before the first format. -/
def noImageOf : Image := { zones := [], slabs := [], courses := [], map := [] }
def emptyJournal : Journal :=
  { slabs := [], dirty := [], ring := [], victim := none, next := 0, staged := [], going := [], now := noImageOf
    flash := noImageOf, flashAt := 0, ckpt := noImageOf, ckptAt := 0 }

/-- The device right after reset. -/
def State.reset : State :=
  { pending := [], out := [], freeCtr := 0
    reg := { file := [], inForce := [], capture := [], staging := [], rdData := [] }
    tb := { count := 0, perActive := 4, perPend := none, perNext := none, stopped := true, sinceSet := 0 }
    fl := { dies := [], chans := [], engines := [], softQ := [], devs := [], nextDev := 0, rebuilds := [], nextAdm := 0 }
    ord := { slots := [], reqs := [], nextReq := 0, bufs := [], nextBuf := 0, quenchQ := [], bodies := [], loaded := [],
             nextBody := 0, mailbox := [], nextMail := 1, cycles := [], slices := [], lastTenant := [], minFrom := none }
    med := { formatted := false, ns := [], zones := [], bays := [], slabs := [], courses := [], nextCourse := 0,
             domains := [], map := [], data := [], keys := [], rev := [], unrec := [], gone := [], accs := [], jrn := emptyJournal,
             sets := [], resident := [], releases := [], nextRel := 0, restored := [], ledger := [], region4 := 0, good := 0, retiredCnt := 0, factory := 0, slcReserve := 0, systemArea := 0,
             dataCourses := 0, mapPool := 0, areaA := [], areaB := [], armedB := false, areaHeld := false,
             roLatch := false, lowReported := false, floorReported := false, degraded := false, lossWarn := false,
             bringupFault := false }
    port := { lports := [], qps := [], lastQp := 0, keepAlive := [], funcs := [], lastFn := 0, linkUp := false, linkSpeed := 0, linkWidth := 0,
              linkFlit := false, perstHigh := false, heldTlps := 0, eid := 0, miCfg := [], ips := [] }
    ten := [(0, mfTenant)]
    cph := { slots := [], retired := [], nextVersion := 0, epochs := [], lanes := [], loads := [], sinceSet := 0 }
    asy := { ctxs := [], allocRes := 0, left := [], lastCtx := [], secOps := [], kmHash := none, kmKey := [], identity := none, mSec := [], mMgmt := [],
             mCfg := [], stored := [], cert := [], chainNew := false, arb := [], arbBad := [], floor0 := 0, floor1 := 0 }
    mem := { dram := [], groups := [], dramFree := 0, poison := [] }
    pwr := { st := .hot, entry := none, wakeCause := 0, doms := [], cur := 2, seq := none, opAtEntry := 2,
             emberNeed := 0, imageHash := [], parked := false, padEn := 0xFFFF, thermHeld := none, resumeAt := 0, halted := false }
    blw := { armed := false, chgEn := false, chgFet := false, bankSw := false, bleedEn := false, vhv := 0, vbank := 0,
             bleedFrom := 0, bleedChecked := false, v1 := 0, test := .none, periodic := false, passed := false, capLow := false,
             bleeding := false, bankFault := false, uncovered := false, capUf := 0, recovered := false, eAvail := 0,
             eNeed := 0, openCap := 0, flush := none, lossCnt := 0, recOpen := false, recFinal := false, recBytes := 0,
             recRecs := 0, recSupply := false, image := none }
    hkp := { inputs := [], fcLvl := [], thermSd := false, thermWarn := false, shutdown := false }
    hm := { ring := [], head := 1, tail := 1, fallback := [], degraded := false, committing := none, rewriting := false,
            pendingRep := 0, fifo := [], lost := none, cycle := 0, opMs := 0, opMsStored := 0, captures := [], rd := [],
            lines := 0 }
    wall := { formed := false, live := 0, size := 16, skip := 8, ports := [], routes := [], recompute := false, markOut := [],
              packets := [], nextPkt := 0, credits := [], seen := [], granted := 0, failedAt := [], noticed := [], locked := false, holdover := false,
              far := false, err := 0, hops := 0, noMarker := 0, announced := none }
    boot := { cause := 0, stage := 0, fault := 0, slotB := false, fallback := false, boardBad := false,
              boardSkip := false, firstBoot := false, cfgMode := 0, memberId := 0, locked := false, wdtRunning := false,
              flash := blankFlash, activeB := false, pendingSlot := 0, tries := 0, package := [], commit := none,
              commitSlot := none, ioReady := false, mapsLoaded := false, pins := singlePins } }

/-- Why a command stops: no meaning does. Every command is answered with a next state, which is the present one where
nothing in the device takes the command (log entry 7). -/
inductive Fault where
  deriving DecidableEq, Repr

/-- Why a command is refused. -/
inductive Refusal where
  /-- The command has no meaning yet; no arm of the finished model answers so. Safe: nothing is claimed of it. -/
  | notModelled (mnemonic : String)
  deriving DecidableEq, Repr

end Sys2Proof.Machine
end

