-- ==== Sys2Proof/Machine/Access.lean ====
section
/-! DEFINITION. Access to the state: the outcome of a command, the register file, and one reader and one writer for each
table, with what an unlisted entry reads as. -/

namespace Sys2Proof.Machine

/-- What a command answers. -/
abbrev Answer := Host.Outcome State Fault Refusal

/-- A step that occurs only under its own premise. Where the premise fails the spec gives the command no effect: nothing
takes it, or the event cannot happen, and the state stays as it is (log entry 7). -/
def stepIf (s : State) (premise : Bool) (t : State) : Answer := .next (if premise then t else s)

/-! ## The register file (R5 to R8, R428) -/

/-- Distance between the cells of one selected register for neighbouring entries. -/
def selStride : Nat := 2 ^ 28

/-- Whether an address falls on a register or on an element of an array of registers. -/
def RegDesc.holds (r : RegDesc) (addr : Nat) : Bool :=
  decide (r.base ≤ addr) && decide ((addr - r.base) % r.stride = 0) && decide ((addr - r.base) / r.stride < r.count)

/-- The register at an address (R426). -/
def regAt (addr : Nat) : Option RegDesc := regMap.find? (·.holds addr)

/-- The bits of a field's place. -/
def Fld.mask (f : Fld) : Nat := (2 ^ f.width - 1) * 2 ^ f.lsb

/-- The bits of a register under a test of the access code. -/
def RegDesc.maskOf (r : RegDesc) (p : Acc → Bool) : Nat :=
  r.flds.foldl (fun m f => if p f.acc then m ||| f.mask else m) 0

/-- Fields whose bits live in the register file. -/
def Acc.stored : Acc → Bool
  | .rw | .rwl | .w1c | .rc => true
  | .ro | .wo => false

/-- Reset words that differ from entry to entry (Tables 16.5, 16.6, 20.5). -/
def resetSpecial (addr sel : Nat) : Option Nat :=
  if addr = R.HKP_LIM_BASE.addr ∧ 24 ≤ sel ∧ sel ≤ 27 then some 0x236E
  else if (addr = R.HKP_MAP_LO_MAP.addr ∨ addr = R.HKP_MAP_HI_MAP.addr) then
    some (if 24 ≤ sel ∧ sel ≤ 27 then 0xFFFFFFFF else 0)
  else if addr = R.HKP_SUP_LIM_UV.addr then
    some (if sel = 29 then 788 * 65536 + 712 else if sel = 30 then 1155 * 65536 + 1045
          else if sel = 31 then 1260 * 65536 + 1140 else 0)
  else if 0x300 ≤ addr ∧ addr < 0x3C0 then
    let k := (addr - 0x300) / 4
    some (if k < 8 then 0x22222222 else if k < 20 then 0x33333333 else if k < 27 then 0x11111111
          else if k = 27 then 0x44441111 else if k = 28 then 4 else 0)
  else none

/-- The reset word of a cell: its stored fields at the reset values of their tables. -/
def resetWord (key : Nat) : W32 :=
  let addr := key % selStride
  match resetSpecial addr (key / selStride) with
  | some w => BitVec.ofNat 32 w
  | none =>
    match regAt addr with
    | none => 0
    | some r => BitVec.ofNat 32 (r.flds.foldl (fun m f => if f.acc.stored then m + f.rst * 2 ^ f.lsb else m) 0)

/-- The key of a field's cell at an array offset in bytes and a selected entry. -/
def Fld.key (f : Fld) (off sel : Nat) : Nat := f.addr + off + sel * selStride

/-- The word of a cell. -/
def regWord (s : State) (key : Nat) : W32 := Tbl.get resetWord s.reg.file key

/-- The word of a cell as it stood at the last strike (R430). -/
def forceWord (s : State) (key : Nat) : W32 := Tbl.get resetWord s.reg.inForce key

/-- A field of a word. -/
def Fld.of (f : Fld) (w : W32) : Nat := w.toNat / 2 ^ f.lsb % 2 ^ f.width

/-- A word with a field replaced. -/
def Fld.put (f : Fld) (w : W32) (v : Nat) : W32 :=
  BitVec.ofNat 32 (w.toNat - f.of w * 2 ^ f.lsb + v % 2 ^ f.width * 2 ^ f.lsb)

/-- Read a stored field. -/
def rd (s : State) (f : Fld) : Nat := f.of (regWord s f.addr)

/-- Read a stored field of an array element and a selected entry. -/
def rdAt (s : State) (f : Fld) (off sel : Nat) : Nat := f.of (regWord s (f.key off sel))

/-- Read a stored field as it has been in force since the last strike. -/
def rdForce (s : State) (f : Fld) : Nat := f.of (forceWord s f.addr)

/-- The same, of an array element and a selected entry. -/
def rdForceAt (s : State) (f : Fld) (off sel : Nat) : Nat := f.of (forceWord s (f.key off sel))

/-- The entry that a requester last selected (R428). -/
def selOf (s : State) (req : Nat) (f : Fld) : Nat := rdAt s f 0 req

/-- Replace a cell's word. -/
def setWord (s : State) (key : Nat) (w : W32) : State :=
  { s with reg := { s.reg with file := Tbl.set resetWord s.reg.file key w } }

/-- Replace a stored field. -/
def wrAt (s : State) (f : Fld) (off sel : Nat) (v : Nat) : State :=
  setWord s (f.key off sel) (f.put (regWord s (f.key off sel)) v)

/-- Replace a stored field of a single register. -/
def wr (s : State) (f : Fld) (v : Nat) : State := wrAt s f 0 0 v

/-- Add to a counter, which saturates at the largest value of its field. -/
def bumpAt (s : State) (f : Fld) (off sel n : Nat) : State :=
  wrAt s f off sel (min (rdAt s f off sel + n) (2 ^ f.width - 1))

/-- Count one. -/
def bump (s : State) (f : Fld) : State := bumpAt s f 0 0 1

/-- Raise a highest-level counter. -/
def raiseTo (s : State) (f : Fld) (v : Nat) : State := wr s f (max (rd s f) (min v (2 ^ f.width - 1)))

/-- Whether a one-bit field is set. -/
def flag (s : State) (f : Fld) : Bool := rd s f != 0

/-! ## Output -/

/-- Record what leaves the device. -/
def emit (s : State) (o : Output) : State := { s with out := s.out ++ [o] }

/-- A fresh free value: the opaque constant at the counter, and the state with the counter advanced. -/
def fresh (s : State) : W64 × State := (Config.freeValue s.freeCtr, { s with freeCtr := s.freeCtr + 1 })

/-- Whether register accesses and admin commands are answered: the device is in HOT (R429). -/
def windowOpen (s : State) : Bool := s.pwr.st == .hot && !s.pwr.halted

/-- Whether commands over the management endpoint are answered in full: in HOT and BANKED (R237). -/
def endpointOpen (s : State) : Bool := (s.pwr.st == .hot || s.pwr.st == .banked) && !s.pwr.halted

/-! ## What unlisted entries read as -/

def die0 : Nat → Die := fun _ =>
  { present := false, lost := false, st := .idle, erasing := false, slab := 0, target := none, run := 0, runTotal := 0,
    suspends := 0, wins := [], served := 0, susSent := false, seq := [], winSeq := [], sensing := none,
    bg := none, tailSd := 0, tailSl := 0, erases := [], eraseWait := [], progs := [], aged := false, resetting := false, polled := false,
    levelling := false }

def chan0 : Nat → Chan := fun _ =>
  { st := .off, rate := 0, retained := false, tempAt := 0, recentre := 0, wpHigh := false, cal := [], calRa := [], cyc := 0,
    lastPoll := 0 }

def nvme0 : NvmeCmd :=
  { cid := 0, opcode := 0, nsid := 0, dw10 := 0, dw11 := 0, dw12 := 0, dw13 := 0, dw14 := 0, dw15 := 0, ptr := .none }

def hdr0 : Header :=
  { nWords := 0, early := false, handlerValid := false, callPattern := false, pattern := 0, handler := 0, dataLen := 0,
    runLimit := 65536, args := [], bay := none }

/-- A codeword that is not on the ladder. -/
def noLadder : Ladder := { step := 0, soft := false, retry := 0, entry := 0, inSoft := false, senses := 0, due := false }

/-- A free slot: Quench has zeroed it (R56). -/
def slot0 : Nat → Slot := fun _ =>
  { st := .free, tenant := 0, gen := 0, kind := .inline, cmd := nvme0, pcie := none, qp := none, arrival := 0,
    hdr := hdr0, text := [], v := Vector.replicate 16 0, h := Vector.replicate 8 none, p0 := none, p1 := none,
    flags := { z := false, c := false, n := false, f := false }, pc := { pat := none, body := 0, word := 0 },
    stack := [], executed := 0, handlerUsed := 0, inHandler := false, hdepth := 0, tickets := Vector.replicate 4 .free,
    waiting := .nothing, status := 0, faultPos := 0xFFFF, faulted := false, original := 0, notices := 0, from_ := 0,
    sliceAt := 0, sliceLeft := 0, smith := 0, cached := false, elig := 0, stage := 0, member := none, viaRdma := false, reply := none, handed := false,
    quenchAt := 0, data := [] }

def zone0 : Nat → Zone := fun _ =>
  { st := .empty, wp := 0, bay := 0, hint := 0, bedrock := false, classSet := false, ext := none,
    course := none, hidden := .steady, moveTo := none, cutAt := none }

/-- Bay 0 is all channels on a blank device, every other Bay is empty (R117). -/
def bay0 : Nat → BitVec 64 := fun k => if k = 0 then BitVec.allOnes 64 else 0

def slab0 : Nat → Slab := fun _ =>
  { st := .retired, blocks := [], pe := 0, erasedAt := 0, course := none, fail := 0, failedPe := none }

def lport0 : Nat → LPort := fun _ => { up := false, mode := 0, paused := 0, wakeBuf := 0 }

def qp0 : Nat → QPair := fun _ =>
  { st := .idle, tenant := 0, assoc := 0, admin := false, discovery := false, lport := 0, sqsize := 0, credit := 0,
    rnrTries := 0, ackTries := 0, rc := 0, rt := 0, alpha := 0, steps := 0, lastCnpUs := none,
    rtWord := 0, npWord := 0, rpWord := 0, aiWord := 0 }

def func0 : Nat → PFunc := fun _ => { en := false, rdy := false, sqs := [], cqs := [], backlog := [], lastSq := 0 }

def tblock0 : TBlock :=
  { fabric := false, quiesce := false, cluster := 0, nqns := [], queues := 0, activeZones := 0, slots := 0, bedrock := 0,
    keyBase := 0, keyCount := 0, assay := 0, cruMib := 0, patterns := 0, rdRate := 0, wrRate := 0, rdDepth := 0,
    wrDepth := 0, wakeStk := 0, defaultBay := 0, bays := 0 }

def ten0 : Nat → Tenant := fun _ =>
  { st := .none, gen := 0, blk := tblock0, mods := none, rd := 0, wr := 0, since := 0, resetAt := none, flrWaiting := false,
    dirty := dirtyOff }

def lane0 : Nat → Lane := fun _ =>
  { queue := [], serving := none, left := 0, holdFull := false, releasing := none, unreleased := 0, finished := [] }

def ctx0 : Nat → AssayCtx := fun _ =>
  { owner := .free, sha512 := false, chain := [], buf := [], count := 0, valid := false, ovr := false, err := false,
    cmdRefused := false, finishing := false, finErr := false, ovrNext := false, busy := false, readyAt := 0,
    result := [], record := [], feed := none, rest := [], dying := false }

def dram0 : Nat → DramCh := fun _ =>
  { sr := false, entering := false, exiting := false, gated := false, idle := 0, openRows := [], rows := [], owed := [], uninit := 0,
    ports := [], banks := [], lastPort := 11, lastBank := 63 }

def group0 : Nat → BankGroup := fun _ => { retention := false, idle := 0, used := 0 }

def input0 : Nat → HkInput := fun _ =>
  { reading := 0, faultRun := 0, goodRun := 0, brokenOpen := false, brokenShort := false, level := 0, map := 0, outside := false }

def port0 : Nat → CkPort := fun _ => { st := .off, peer := 0, delay := 0, replays := 0 }

def nat0 : Nat → Nat := fun _ => 0
def w32z : Nat → W32 := fun _ => 0
def byte0 : Nat → Byte := fun _ => 0

/-! ## Readers and writers of the tables -/

def getDie (s : State) (d : Nat) : Die := Tbl.get die0 s.fl.dies d
def setDie (s : State) (d : Nat) (x : Die) : State := { s with fl := { s.fl with dies := Tbl.set die0 s.fl.dies d x } }
def getChan (s : State) (c : Nat) : Chan := Tbl.get chan0 s.fl.chans c
def setChan (s : State) (c : Nat) (x : Chan) : State :=
  { s with fl := { s.fl with chans := Tbl.set chan0 s.fl.chans c x } }
def getSlot (s : State) (k : Nat) : Slot := Tbl.get slot0 s.ord.slots k
def setSlot (s : State) (k : Nat) (x : Slot) : State :=
  { s with ord := { s.ord with slots := Tbl.set slot0 s.ord.slots k x } }
def updSlot (s : State) (k : Nat) (f : Slot → Slot) : State := setSlot s k (f (getSlot s k))
def getReq (s : State) (r : Nat) : Option Req := Tbl.get Tbl.absent s.ord.reqs r
def setReq (s : State) (r : Nat) (x : Option Req) : State :=
  { s with ord := { s.ord with reqs := Tbl.set Tbl.absent s.ord.reqs r x } }
def updReq (s : State) (r : Nat) (f : Req → Req) : State := setReq s r ((getReq s r).map f)
def getBuf (s : State) (b : Nat) : Option Buf := Tbl.get Tbl.absent s.ord.bufs b
def setBuf (s : State) (b : Nat) (x : Option Buf) : State :=
  { s with ord := { s.ord with bufs := Tbl.set Tbl.absent s.ord.bufs b x } }
def getBody (s : State) (b : Nat) : Option Pattern := Tbl.get Tbl.absent s.ord.bodies b
def setBody (s : State) (b : Nat) (x : Option Pattern) : State :=
  { s with ord := { s.ord with bodies := Tbl.set Tbl.absent s.ord.bodies b x } }

def getNs (s : State) (n : Nat) : Option Namespace := Tbl.get Tbl.absent s.med.ns n
def setNs (s : State) (n : Nat) (x : Option Namespace) : State :=
  { s with med := { s.med with ns := Tbl.set Tbl.absent s.med.ns n x } }
/-- The key of zone k of a namespace. -/
def zoneKey (nsid k : Nat) : Nat := nsid * 2 ^ 32 + k
def getZone (s : State) (nsid k : Nat) : Zone := Tbl.get zone0 s.med.zones (zoneKey nsid k)
def setZone (s : State) (nsid k : Nat) (x : Zone) : State :=
  { s with med := { s.med with zones := Tbl.set zone0 s.med.zones (zoneKey nsid k) x } }
def getSlab (s : State) (a : Nat) : Slab := Tbl.get slab0 s.med.slabs a
def setSlab (s : State) (a : Nat) (x : Slab) : State :=
  { s with med := { s.med with slabs := Tbl.set slab0 s.med.slabs a x } }
def getCourse (s : State) (c : Nat) : Option Course := Tbl.get Tbl.absent s.med.courses c
def setCourse (s : State) (c : Nat) (x : Option Course) : State :=
  { s with med := { s.med with courses := Tbl.set Tbl.absent s.med.courses c x } }
def updCourse (s : State) (c : Nat) (f : Course → Course) : State := setCourse s c ((getCourse s c).map f)
/-- The key of domain k of a conventional namespace. -/
def domKey (nsid k : Nat) : Nat := nsid * 2 ^ 16 + k
def getDomain (s : State) (nsid k : Nat) : Option Domain := Tbl.get Tbl.absent s.med.domains (domKey nsid k)
def setDomain (s : State) (nsid k : Nat) (x : Option Domain) : State :=
  { s with med := { s.med with domains := Tbl.set Tbl.absent s.med.domains (domKey nsid k) x } }
def getDev (s : State) (i : Nat) : Option DevRead := Tbl.get Tbl.absent s.fl.devs i
def setDev (s : State) (i : Nat) (x : Option DevRead) : State :=
  { s with fl := { s.fl with devs := Tbl.set Tbl.absent s.fl.devs i x } }
/-- The key of something at a place of a course: a data byte, a stripe or a position. -/
def placeKey (course k : Nat) : Nat := course * 2 ^ 64 + k
/-- The key of a logical block. -/
def blockKey (nsid lba : Nat) : Nat := nsid * 2 ^ 64 + lba
def bayMask (s : State) (b : Nat) : BitVec 64 := Tbl.get bay0 s.med.bays b

def getLPort (s : State) (p : Nat) : LPort := Tbl.get lport0 s.port.lports p
def setLPort (s : State) (p : Nat) (x : LPort) : State :=
  { s with port := { s.port with lports := Tbl.set lport0 s.port.lports p x } }
def getQp (s : State) (q : Nat) : QPair := Tbl.get qp0 s.port.qps q
def setQp (s : State) (q : Nat) (x : QPair) : State := { s with port := { s.port with qps := Tbl.set qp0 s.port.qps q x } }
def getFunc (s : State) (f : Nat) : PFunc := Tbl.get func0 s.port.funcs f
def setFunc (s : State) (f : Nat) (x : PFunc) : State :=
  { s with port := { s.port with funcs := Tbl.set func0 s.port.funcs f x } }

def getTen (s : State) (t : Nat) : Tenant := Tbl.get ten0 s.ten t
def setTen (s : State) (t : Nat) (x : Tenant) : State := { s with ten := Tbl.set ten0 s.ten t x }
def updTen (s : State) (t : Nat) (f : Tenant → Tenant) : State := setTen s t (f (getTen s t))

def getLane (s : State) (l : Nat) : Lane := Tbl.get lane0 s.cph.lanes l
def setLane (s : State) (l : Nat) (x : Lane) : State := { s with cph := { s.cph with lanes := Tbl.set lane0 s.cph.lanes l x } }
def getKey (s : State) (k : Nat) : Option KeyRec := Tbl.get Tbl.absent s.cph.slots k
def setKey (s : State) (k : Nat) (x : Option KeyRec) : State :=
  { s with cph := { s.cph with slots := Tbl.set Tbl.absent s.cph.slots k x } }
def epochOf (s : State) (t : Nat) : W32 := Tbl.get w32z s.cph.epochs t
def setEpoch (s : State) (t : Nat) (e : W32) : State :=
  { s with cph := { s.cph with epochs := Tbl.set w32z s.cph.epochs t e } }
def getCtx (s : State) (c : Nat) : AssayCtx := Tbl.get ctx0 s.asy.ctxs c
def setCtx (s : State) (c : Nat) (x : AssayCtx) : State := { s with asy := { s.asy with ctxs := Tbl.set ctx0 s.asy.ctxs c x } }

def getDram (s : State) (c : Nat) : DramCh := Tbl.get dram0 s.mem.dram c
def setDram (s : State) (c : Nat) (x : DramCh) : State := { s with mem := { s.mem with dram := Tbl.set dram0 s.mem.dram c x } }
def getGroup (s : State) (g : Nat) : BankGroup := Tbl.get group0 s.mem.groups g
def setGroup (s : State) (g : Nat) (x : BankGroup) : State :=
  { s with mem := { s.mem with groups := Tbl.set group0 s.mem.groups g x } }

/-- Whether the sampled straps make the device a Wall member, a Wall head or neither (Table 0.2). -/
def isMember (s : State) : Bool := s.boot.cfgMode == 2
def isHead (s : State) : Bool := s.boot.cfgMode == 1

/-- The member number: a Wall head is member 0, and MEMBER_ID counts in a Wall member alone (Table 0.2). -/
def memberNumber (s : State) : Nat := if isMember s then s.boot.memberId.toNat else 0

/-- Whether a device is a member that no route joins to its head (R397). -/
def headLost (s : State) : Bool := isMember s && !s.wall.live.getLsbD (memberNumber s)

/-- A domain that was never ordered off is ON; CK0 to CK3 are off in Single, and EP0, EP1, RT and PE in a Wall member
(R235, R337). -/
def dom0 (cfgMode : BitVec 2) : Nat → Dom := fun d =>
  let off := (cfgMode == 0 && decide (133 ≤ d ∧ d ≤ 136)) || (cfgMode == 2 && decide (129 ≤ d ∧ d ≤ 132))
  { st := if off then .mgrOff else .on, mgr := off, busy := false, result := 0, drainAt := 0, idle := 0, back := false }

def getDom (s : State) (d : Nat) : Dom := Tbl.get (dom0 s.boot.cfgMode) s.pwr.doms d
def setDom (s : State) (d : Nat) (x : Dom) : State :=
  { s with pwr := { s.pwr with doms := Tbl.set (dom0 s.boot.cfgMode) s.pwr.doms d x } }

def getInput (s : State) (k : Nat) : HkInput := Tbl.get input0 s.hkp.inputs k
def setInput (s : State) (k : Nat) (x : HkInput) : State :=
  { s with hkp := { s.hkp with inputs := Tbl.set input0 s.hkp.inputs k x } }
def fcLevel (s : State) (c : Nat) : Nat := Tbl.get nat0 s.hkp.fcLvl c
def getCk (s : State) (p : Nat) : CkPort := Tbl.get port0 s.wall.ports p
def setCk (s : State) (p : Nat) (x : CkPort) : State := { s with wall := { s.wall with ports := Tbl.set port0 s.wall.ports p x } }

end Sys2Proof.Machine
end

