-- ==== Sys2Proof/Machine/Bytes.lean ====
section
/-! DEFINITION. Byte order and bit fields: multi-byte fields are little-endian unless a table states otherwise
(00_scope.md), digests and lengths of the hash standards are big-endian. -/

namespace Sys2Proof.Machine

/-- The n bytes of a number, least significant first. -/
def leBytes : Nat → Nat → List Byte
  | 0, _ => []
  | n + 1, v => BitVec.ofNat 8 v :: leBytes n (v / 256)

/-- The number of a list of bytes, least significant first. -/
def ofLe : List Byte → Nat
  | [] => 0
  | b :: l => b.toNat + 256 * ofLe l

/-- The n bytes of a number, most significant first. -/
def beBytes (n v : Nat) : List Byte := (leBytes n v).reverse

/-- The number of a list of bytes, most significant first. -/
def ofBe (l : List Byte) : Nat := ofLe l.reverse

/-- `len` bytes of a list from an offset; bytes past the end read as zero. -/
def sub (l : List Byte) (off len : Nat) : List Byte :=
  let t := (l.drop off).take len
  t ++ List.replicate (len - t.length) 0

/-- A little-endian field of a byte string. -/
def leAt (l : List Byte) (off len : Nat) : Nat := ofLe (sub l off len)

/-- Bits hi down to lo of a number. -/
def bits (v hi lo : Nat) : Nat := v / 2 ^ lo % 2 ^ (hi + 1 - lo)

/-- Whether every byte of a range is zero. -/
def zeros (l : List Byte) (off len : Nat) : Bool := (sub l off len).all (· == 0)

/-- Bytes combined by exclusive or, up to the shorter length. -/
def xorBytes (a b : List Byte) : List Byte := List.zipWith (· ^^^ ·) a b

/-- Little-endian 64-bit words of a byte string. -/
def words64 : Nat → List Byte → List W64
  | 0, _ => []
  | n + 1, l => BitVec.ofNat 64 (ofLe (l.take 8)) :: words64 n (l.drop 8)

/-- One step of CRC-16/CCITT-FALSE. -/
def crcStep (crc : Nat) (b : Byte) : Nat :=
  (List.range 8).foldl (fun c _ => if c ≥ 32768 then (c * 2 % 65536) ^^^ 0x1021 else c * 2) (crc ^^^ (b.toNat * 256))

/-- CRC-16/CCITT-FALSE (Table 17.1). -/
def crc16 (l : List Byte) : Nat := l.foldl crcStep 0xFFFF

/-- One step of CRC-16/T10-DIF. -/
def difStep (crc : Nat) (b : Byte) : Nat :=
  (List.range 8).foldl (fun c _ => if c ≥ 32768 then (c * 2 % 65536) ^^^ 0x8BB7 else c * 2) (crc ^^^ (b.toNat * 256))

/-- CRC-16/T10-DIF, the 16-bit guard of protection information (Table 5.1, log entry 66). -/
def dif16 (l : List Byte) : Nat := l.foldl difStep 0

end Sys2Proof.Machine
end

