-- ==== Sys2Proof/Machine/Events.lean ====
section
/-! DEFINITION. The event sources, the interrupt lines and the Hallmark recorder (17_hallmark.md, R432 to R434). -/

namespace Sys2Proof.Machine

/-! ## Sources and lines (R432 to R434) -/

/-- Sources above this number are reserved (R432). -/
def lastSource : Nat := 242

/-- The cell of GLB_EVT_STATk, GLB_EVT_ENk and GLB_EVT_LINEk. -/
def statKey (k : Nat) : Nat := R.GLB_EVT_STAT_STAT.key (4 * k) 0
def enKey (k : Nat) : Nat := R.GLB_EVT_EN_EN.key (4 * k) 0
def lineKey (k : Nat) : Nat := R.GLB_EVT_LINE_LINE.key (4 * k) 0

/-- Whether a source's status bit is set. -/
def statBit (s : State) (src : Nat) : Bool := (regWord s (statKey (src / 32))).getLsbD (src % 32)

/-- Whether a source may assert its line. -/
def enBit (s : State) (src : Nat) : Bool := (regWord s (enKey (src / 32))).getLsbD (src % 32)

/-- The line of a source (R434). -/
def sourceLine (s : State) (src : Nat) : Nat :=
  bits (regWord s (lineKey (src / 8))).toNat (4 * (src % 8) + 3) (4 * (src % 8))

/-- Whether line L is asserted (R434). -/
def lineAsserted (s : State) (l : Nat) : Bool :=
  (List.range (lastSource + 1)).any fun src => statBit s src && enBit s src && sourceLine s src == l

/-- The asserted lines (GLB_INT_PEND). -/
def assertedLines (s : State) : W16 :=
  (List.range 16).foldl (fun w l => if lineAsserted s l then w ||| (1#16 <<< l) else w) 0

/-- One message of a line (R434): to the management cores and by MSI-X, as enabled; a Wall member uses its own cores
alone. -/
def lineMessage (s : State) (l : Nat) : State :=
  let s1 := if (regWord s R.GLB_INT_CTRL_MC_EN.addr).getLsbD (16 + l) then emit s (.mgmtInterrupt l) else s
  if (regWord s R.GLB_INT_CTRL_MC_EN.addr).getLsbD l && !isMember s then emit s1 (.msix l) else s1

/-- Send the messages that are due: for every line newly asserted, or for every line asserted after a write to a status
or enable register (R434). -/
def sendLines (s : State) (all : Bool) : State :=
  let now := assertedLines s
  let due := (List.range 16).filter fun l => now.getLsbD l && (all || !s.hm.lines.getLsbD l)
  let s1 := due.foldl lineMessage s
  { s1 with hm := { s1.hm with lines := now } }

/-- Set a source's status bit (R433). -/
def setStat (s : State) (src : Nat) : State :=
  if src ≤ lastSource then
    let k := statKey (src / 32)
    sendLines (setWord s k (regWord s k ||| (1#32 <<< (src % 32)))) false
  else s

/-! ## The recorder (R376 to R389) -/

/-- The sequence number after n; zero is never used (R377). -/
def nextSeq (n : Nat) : Nat := if n ≥ 0xFFFFFFFF then 1 else n + 1

/-- Records held at most in the ring (R380). -/
def ringSlots : Nat := 131072

/-- The 32 bytes of a record (Table 17.1). -/
def HmRecord.bytes (r : HmRecord) : List Byte :=
  let front := leBytes 4 r.seq ++ leBytes 2 r.code.toNat ++ leBytes 2 r.repeat_ ++ leBytes 4 r.cycle.toNat
    ++ leBytes 6 r.opMs
  let tail := sub r.param 0 12
  front ++ leBytes 2 (crc16 (front ++ tail)) ++ tail

/-- Two events are identical when code and parameters agree (R381). -/
def HmRecord.same (r : HmRecord) (code : W16) (param : List Byte) : Bool :=
  r.code == code && sub r.param 0 12 == sub param 0 12

/-- A record of an event at this moment, before it has a sequence number. -/
def freshRecord (h : Hall) (code : W16) (param : List Byte) : HmRecord :=
  { seq := 0, code := code, repeat_ := 1, cycle := h.cycle, opMs := h.opMs, param := sub param 0 12 }

/-- Begin the commit of a record with the next sequence number. -/
def Hall.begin (h : Hall) (r : HmRecord) : Hall :=
  { h with committing := some { r with seq := h.head }, rewriting := false, pendingRep := 0 }

/-- Count one more lost event in a record of EVENTS_LOST. -/
def countLoss (r : HmRecord) : HmRecord :=
  { r with param := leBytes 4 (min (leAt r.param 0 4 + 1) 0xFFFFFFFF) ++ sub r.param 4 8 }

/-- An event that finds the FIFO full (R383). -/
def Hall.lose (h : Hall) (code : W16) : Hall :=
  if h.fifo.any (·.code == 0x0001) then
    { h with fifo := h.fifo.map fun r => if r.code == 0x0001 then countLoss r else r }
  else match h.lost with
    | some r => { h with lost := some (countLoss r) }
    | none => { h with lost := some (freshRecord h 0x0001 (leBytes 4 1 ++ leBytes 2 code.toNat)) }

/-- An event that differs from the record being committed joins the FIFO, counts in its entry there, or is lost (R382,
R383). -/
def Hall.queue (h : Hall) (code : W16) (param : List Byte) : Hall :=
  if h.fifo.any (·.same code param) then
    { h with fifo := h.fifo.map fun r => if r.same code param then { r with repeat_ := min (r.repeat_ + 1) 65535 } else r }
  else if h.fifo.length + b2n h.lost.isSome < 64 then { h with fifo := h.fifo ++ [freshRecord h code param] }
  else h.lose code

/-- What the recorder does with an event (R381 to R383). -/
def Hall.arrive (h : Hall) (code : W16) (param : List Byte) : Hall :=
  match h.committing with
  | none => h.begin (freshRecord h code param)
  | some r => if r.same code param then { h with pendingRep := h.pendingRep + 1 } else h.queue code param

/-- Whether an event is lost on arrival (R383). -/
def Hall.full (h : Hall) (code : W16) (param : List Byte) : Bool :=
  match h.committing with
  | none => false
  | some r => !r.same code param && !h.fifo.any (·.same code param) && decide (64 ≤ h.fifo.length + b2n h.lost.isSome)

/-- An event reaches the recorder: its record and its source bit (R382, R433); a loss counts and raises source 225. -/
def raise (s : State) (e : Event) : State :=
  let lost := s.hm.full e.code e.param
  let s1 := { s with hm := s.hm.arrive e.code e.param }
  let s2 := if lost then setStat (bump s1 R.HM_LOST_CNT_LOST) 225 else s1
  let s3 := raiseTo s2 R.HM_FIFO_MAX_MAX s2.hm.fifo.length
  setStat s3 e.source

/-- An event with its parameters given as little-endian fields (size, value). -/
def event (src : Nat) (code : W16) (ps : List (Nat × Nat)) : Event :=
  { source := src, code := code, param := sub (ps.flatMap fun p => leBytes p.1 p.2) 0 12 }

/-- The oldest record of a ring after the one with a SEQ, in the order of the SEQ counted from there (R377). -/
def oldestAfter (ring : Tbl (Option HmRecord)) (seq : Nat) : Nat :=
  (((ring.find? fun e => decide (seq < e.1)).orElse fun _ => ring.head?).map (·.1)).getD (nextSeq seq)

/-- Place a record in the ring; when the ring is full the slot of HM_TAIL is overwritten, and HM_TAIL advances to the oldest
record that is then held (R380, Table 17.4). -/
def Hall.place (h : Hall) (r : HmRecord) : Hall :=
  if (Tbl.get Tbl.absent h.ring r.seq).isSome then { h with ring := Tbl.set Tbl.absent h.ring r.seq (some r) }
  else
    let h1 := if h.ring.length ≥ ringSlots then
        let left := Tbl.set Tbl.absent h.ring h.tail none
        { h with ring := left, tail := oldestAfter left h.tail }
      else if h.ring.isEmpty then { h with tail := r.seq } else h
    { h1 with ring := Tbl.set Tbl.absent h1.ring r.seq (some r), head := nextSeq r.seq }

/-- Place a record in the fallback: entry 0 is never overwritten, then the lowest SEQ gives way (R388). -/
def Hall.placeFallback (h : Hall) (r : HmRecord) : Hall :=
  if h.fallback.any (·.seq == r.seq) then
    { h with fallback := h.fallback.map fun x => if x.seq == r.seq then r else x }
  else if h.fallback.length < 16 then { h with fallback := h.fallback ++ [r], head := nextSeq r.seq }
  else
    let rest := h.fallback.drop 1
    let low := rest.foldl (fun m x => min m x.seq) 0xFFFFFFFF
    { h with fallback := h.fallback.take 1 ++ rest.map fun x => if x.seq == low then r else x
             head := nextSeq r.seq }

/-- Store the record where the recorder commits now. -/
def Hall.store (h : Hall) (r : HmRecord) : Hall := if h.degraded then h.placeFallback r else h.place r

/-- The next entry of the FIFO begins its commit; the entry that frees takes a waiting EVENTS_LOST (R382, R383). -/
def Hall.next (h : Hall) : Hall :=
  match h.fifo with
  | [] => { h with committing := none, rewriting := false, pendingRep := 0 }
  | r :: rest =>
    let fifo := match h.lost with
      | some l => rest ++ [l]
      | none => rest
    { h with fifo := fifo, lost := none }.begin r

/-- A commit or a rewrite ends: pending repeats are rewritten in place first (R381, R382). -/
def Hall.finish (h : Hall) (r : HmRecord) : Hall :=
  let h1 := h.store r
  if h.pendingRep > 0 then
    { h1 with committing := some { r with repeat_ := min (r.repeat_ + h.pendingRep) 65535 }, rewriting := true
              pendingRep := 0 }
  else h1.next

/-- The read-back fails (R388): DEGRADED, a STORE_FAIL record as fallback entry 0, the record as entry 1 under a new
SEQ. -/
def Hall.degrade (h : Hall) (r : HmRecord) : Hall :=
  let seq1 := nextSeq r.seq
  let addr := (Config.ringAddress r.seq).toNat
  let fail := { freshRecord h 0x0002 (leBytes 4 addr ++ leBytes 4 r.seq) with seq := seq1 }
  { h with degraded := true, fallback := [fail], head := nextSeq seq1 }.begin
    { r with repeat_ := min (r.repeat_ + h.pendingRep) 65535 }

/-- Commit everything that waits, as a reset that leaves AON powered lets the recorder do (R384). -/
def Hall.drain (h : Hall) : Hall :=
  let h1 := match h.committing with
    | some r => h.store { r with repeat_ := min (r.repeat_ + h.pendingRep) 65535 }
    | none => h
  let all := h1.fifo ++ h1.lost.toList
  let h2 := all.foldl (fun g r => g.store { r with seq := g.head }) { h1 with fifo := [], lost := none }
  { h2 with committing := none, rewriting := false, pendingRep := 0 }

/-- The record with a SEQ, and whether the fallback holds it (R385, R386). -/
def Hall.find (h : Hall) (seq : Nat) : Option (Bool × HmRecord) :=
  match Tbl.get Tbl.absent h.ring seq with
  | some r => some (false, r)
  | none => (h.fallback.find? (·.seq == seq)).map fun r => (true, r)

/-- The records that are held. -/
def Hall.records (h : Hall) : List HmRecord := h.ring.filterMap (·.2) ++ h.fallback

/-- HM_TAIL: the oldest record in the ring; HM_HEAD while the ring holds none (R380). -/
def Hall.tailNow (h : Hall) : Nat := if h.ring.isEmpty then h.head else h.tail

/-- How many numbers lie from a SEQ to another, in the order in which they are given (R377). -/
def seqSpan (from_ to_ : Nat) : Nat := (to_ + 0xFFFFFFFF - from_) % 0xFFFFFFFF

/-- Boot of the recorder (R378, R380, R388, R389): the counters, the test of the ring, the fallback copied back. -/
def Hall.boot (h : Hall) (ringOk : Bool) : Hall × Option Nat :=
  let newest := h.records.foldl (fun (m : Nat × Nat) r => if m.1 < r.seq then (r.seq, r.opMs) else m) (0, 0)
  let h1 := { h with cycle := h.cycle + 1, opMs := max h.opMsStored newest.2, captures := [], rd := [], lines := 0 }
  if h.degraded then
    if ringOk then
      let n := h1.fallback.length
      let h2 := (h1.fallback.mergeSort fun a b => decide (a.seq ≤ b.seq)).foldl (fun g r => g.place r)
        { h1 with fallback := [], degraded := false }
      ({ h2 with head := h1.head }, some n)
    else (h1, none)
  else (h1, none)

/-! ## The commands of the recorder -/

/-- EVENT_ARRIVAL. -/
def execEventArrival (e : Event) (s : State) : Answer :=
  stepIf s (decide (e.source ≤ lastSource)) (raise s e)

/-- RECORD_COMMIT_DONE: the 32 bytes are written and read back unchanged. -/
def execRecordCommitDone (s : State) : Answer :=
  match s.hm.committing with
  | none => .next s
  | some r => stepIf s (!s.hm.rewriting) { s with hm := s.hm.finish r }

/-- REPEAT_REWRITE_DONE. -/
def execRepeatRewriteDone (s : State) : Answer :=
  match s.hm.committing with
  | none => .next s
  | some r => stepIf s s.hm.rewriting { s with hm := s.hm.finish r }

/-- COMMIT_READBACK_FAIL (R388): the dedicated source HM_DEGRADED sets as well. -/
def execCommitReadbackFail (s : State) : Answer :=
  match s.hm.committing with
  | none => .next s
  | some r => stepIf s (!s.hm.degraded) (setStat { s with hm := s.hm.degrade r } 226)

/-- OP_MS_PERSIST_TIMER (R378): the milliseconds that passed in HOT, BANKED or EMBER are counted and stored. -/
def execOpMsPersistTimer (elapsedMs : Nat) (s : State) : Answer :=
  stepIf s (s.pwr.st != .cold)
    { s with hm := { s.hm with opMs := (s.hm.opMs + elapsedMs) % 2 ^ 48
                               opMsStored := (s.hm.opMs + elapsedMs) % 2 ^ 48 } }

/-- Whether a controller may read the vendor log page: the PF, the cores and the endpoint do, by their own captures
(R387). The answer holds the header, and the bytes asked for. -/
def hallmarkPage (h : Hall) (status base : Nat) : List Byte :=
  leBytes 4 h.head ++ leBytes 4 base ++ leBytes 4 status ++ leBytes 4 h.cycle.toNat ++ leBytes 8 h.opMs ++ leBytes 8 0

/-- HM_STATUS (Table 17.4). -/
def hmStatus (h : Hall) : Nat :=
  b2n h.degraded + h.fallback.length * 2 + b2n (h.lost.isSome || h.fifo.any (·.code == 0x0001)) * 64
    + h.fifo.length * 128

/-- Bytes of the log page from an offset (R387): the header, then the record of SEQ BASE + k at 32 + 32k. -/
def hallmarkBytes (h : Hall) (base off : Nat) : Nat → List Byte
  | 0 => []
  | len + 1 =>
    let b : Byte := if off < 32 then (sub (hallmarkPage h (hmStatus h) base) off 1).headD 0
      else
        let k := (off - 32) / 32
        let seq := (base + k - 1) % 0xFFFFFFFF + 1
        match h.find seq with
        | some (_, r) => if k < seqSpan base h.head then (sub r.bytes ((off - 32) % 32) 1).headD 0 else 0
        | none => 0
    b :: hallmarkBytes h base (off + 1) len

/-- BASE of a command of a controller: an offset of 0, or a first command after a reset, captures HM_TAIL for it. -/
def captureBase (s : State) (ctl offset : Nat) : Nat :=
  if offset = 0 then s.hm.tailNow else (Tbl.get Tbl.absent s.hm.captures ctl).getD s.hm.tailNow
def setCapture (s : State) (ctl base : Nat) : State :=
  { s with hm := { s.hm with captures := Tbl.set Tbl.absent s.hm.captures ctl (some base) } }

end Sys2Proof.Machine
end

