-- ==== Sys2Proof/Machine/Status.lean ====
section
/-! DEFINITION. The Clapex status codes and their NVMe status (R72, R108, Tables 3.6 and 4.14). -/

namespace Sys2Proof.Machine.St

def ok : W16 := 0x0000
def mediaParity : W16 := 0x1001
def mediaUnrecovered : W16 := 0x1003
def zoneFull : W16 := 0x2001
def activeLimit : W16 := 0x2002
def openLimit : W16 := 0x2003
def zoneTransition : W16 := 0x2004
def readOnly : W16 := 0x2005
def wpMismatch : W16 := 0x2006
def zoneBoundary : W16 := 0x2007
def opRefused : W16 := 0x2008
def notIdle : W16 := 0x2010
def inProgress : W16 := 0x2011
def noSlot : W16 := 0x3001
def noBuffer : W16 := 0x3002
def noKeySlot : W16 := 0x3003
def noContext : W16 := 0x3004
def patternStore : W16 := 0x3005
def patternQuota : W16 := 0x3006
def bedrockQuota : W16 := 0x3007
def tenantPool : W16 := 0x3008
def tagFail : W16 := 0x4001
def tagFailZeroed : W16 := 0x4002
def keyDenied : W16 := 0x4003
def blobInvalid : W16 := 0x4004
def releaseRefused : W16 := 0x4005
def staleGen : W16 := 0x5001
def bayDenied : W16 := 0x5002
def nsDenied : W16 := 0x5003
def noTenant : W16 := 0x5004
def illegalOp : W16 := 0x6001
def runaway : W16 := 0x6002
def lengthMismatch : W16 := 0x6003
def callDepth : W16 := 0x6004
def noPattern : W16 := 0x6005
def badHandle : W16 := 0x6006
def bufferSize : W16 := 0x6007
def lbaRange : W16 := 0x6008
def plumbLate : W16 := 0x7001

/-- The class of a status: its top four bits. -/
def cls (st : W16) : Nat := st.toNat / 4096

/-- A status that an order raises or posts for itself; class 0xF is reserved (R91, R106). -/
def posted (st : W16) : W16 := if cls st = 15 then illegalOp else st

/-- A status that FAULT raises: 0 and class 0xF raise PROG_ILLEGAL_OP (R91). -/
def raised (st : W16) : W16 := if st = 0 ∨ cls st = 15 then illegalOp else st

/-- SCT, SC and DNR of a status (Table 3.6); `conv` says that the command's namespace is conventional, `opcode` that the
refusal is of the NVMe opcode itself. -/
def nvme (st : W16) (conv opcode : Bool) : Nat × Nat × Bool :=
  if st = ok then (0, 0x00, false)
  else if st = mediaUnrecovered then (2, 0x81, true)
  else if st = zoneFull then (1, 0xB9, true)
  else if st = activeLimit then (1, 0xBD, false)
  else if st = openLimit then (1, 0xBE, false)
  else if st = zoneTransition then (1, 0xBF, true)
  else if st = readOnly then (if conv then (0, 0x20, true) else (1, 0xBA, true))
  else if st = notIdle then (0, 0x82, false)
  else if st = inProgress then (0, 0x0C, false)
  else if st = tagFail ∨ st = tagFailZeroed then (2, 0x86, true)
  else if st = illegalOp then (if opcode then (0, 0x01, true) else (0, 0x02, true))
  else if st = lengthMismatch then (0, 0x0F, true)
  else if st = lbaRange then (0, 0x80, true)
  else if st = plumbLate then (7, 0x80, false)
  else (7, 0x80, true)

end Sys2Proof.Machine.St
end

