-- ==== Sys2Proof/Machine/Operands.lean ====
section
/-! DEFINITION. What the operand fields of a Clapex word name: value registers, handles and their windows, the immediate
(R81 to R85, Tables 4.1 and 4.2). -/

namespace Sys2Proof

/-- A mod bit. -/
def Fields.m (f : Fields) (i : Nat) : Bool := f.mod.getLsbD i

/-- A field of the immediate. -/
def Fields.i (f : Fields) (hi lo : Nat) : Nat := Machine.bits f.imm.toNat hi lo

end Sys2Proof

namespace Sys2Proof.Machine

/-- The 64-bit word of an opcode and its fields (R84). -/
def instrWord (op : Nat) (f : Fields) : W64 :=
  BitVec.ofNat 64 (op * 2 ^ 56 + f.a.toNat * 2 ^ 52 + f.b.toNat * 2 ^ 48 + f.c.toNat * 2 ^ 44 + f.mod.toNat * 2 ^ 40
    + f.imm.toNat)

/-- The opcode of a word. -/
def wordOp (w : W64) : Nat := bits w.toNat 63 56

/-- The fields of a word (R84). -/
def wordFields (w : W64) : Fields :=
  { a := BitVec.ofNat 4 (bits w.toNat 55 52), b := BitVec.ofNat 4 (bits w.toNat 51 48),
    c := BitVec.ofNat 4 (bits w.toNat 47 44), mod := BitVec.ofNat 4 (bits w.toNat 43 40),
    imm := BitVec.ofNat 40 (bits w.toNat 39 0) }

/-- Read a value register: v0 reads as 0 (R81). -/
def Slot.val (x : Slot) (i : BitVec 4) : W64 := if i = 0 then 0 else x.v[i.toNat]

/-- Write a value register: writes to v0 are ignored (R81). -/
def Slot.setVal (x : Slot) (i : BitVec 4) (w : W64) : Slot := if i = 0 then x else { x with v := x.v.set i.toNat w }

/-- The handle a field names: none where it is empty or the field is 8 to 15 (Table 4.2). Fields 8 and 9 name the private
buffers of a device pattern, which only its own stages fill and which are gone when it is left. -/
def Slot.hdl (x : Slot) (i : BitVec 4) : Option Hdl :=
  if h : i.toNat < 8 then x.h[i.toNat] else if i = 8 then x.p0 else if i = 9 then x.p1 else none

/-- Aim a handle; fields 10 to 15 name none. -/
def Slot.setHdl (x : Slot) (i : BitVec 4) (d : Option Hdl) : Slot :=
  if h : i.toNat < 8 then { x with h := x.h.set i.toNat d }
  else if i = 8 then { x with p0 := d }
  else if i = 9 then { x with p1 := d }
  else x

/-- The second operand s of the arithmetic instructions (R90). -/
def operandS (x : Slot) (f : Fields) : W64 :=
  if f.m 0 then (if f.m 1 then f.imm.signExtend 64 else f.imm.zeroExtend 64) else x.val f.c

/-- The status that the word names: imm[15:0], or v[a][15:0] with mod[0] (R91, R106). -/
def statusOperand (x : Slot) (f : Fields) : W16 :=
  if f.m 0 then BitVec.ofNat 16 (x.val f.a).toNat else BitVec.ofNat 16 (f.i 15 0)

/-! ## Unused places (R84) -/

/-- The unused operand fields of a word are 0: the flags say which of a, b, c are used, the mask which bits of the
immediate, and `mod` which mod bits. -/
def unusedZero (f : Fields) (ua ub uc : Bool) (modMask : BitVec 4) (immBits : Nat) : Bool :=
  (ua || f.a == 0) && (ub || f.b == 0) && (uc || f.c == 0) && (f.mod &&& ~~~modMask == 0)
    && decide (f.imm.toNat < 2 ^ immBits)

/-- The unused places of an ALU word with two operands (R84, R90): with mod[0] = 0 the immediate and mod[1] are unused,
with mod[0] = 1 the field c is; mod[2] belongs to SHR alone. -/
def aluUnused (f : Fields) (shr : Bool) : Bool :=
  (!f.m 3) && (shr || !f.m 2) && (if f.m 0 then f.c == 0 else f.imm == 0 && !f.m 1)

/-! ## Windows of buffers (R83) -/

/-- Bytes of a buffer's allocation (R93). -/
def Buf.size (b : Buf) : Nat := b.granules * 4096

/-- Bytes of a window. -/
def Buf.window (b : Buf) (off len : Nat) : List Byte := Tbl.range byte0 b.bytes off len

/-- The bytes that a handle names. -/
def hdlBytes (s : State) (d : Hdl) : List Byte :=
  match getBuf s d.buf with
  | some b => b.window d.off d.len
  | none => List.replicate d.len 0

/-- Whether a window touches a poisoned line (R322). -/
def hdlPoison (s : State) (d : Hdl) : Bool :=
  match getBuf s d.buf with
  | some b => b.poison.any fun l => decide (l < d.off + d.len) && decide (d.off < l + 64)
  | none => false

/-- Write bytes into a window; a poisoned line that is written again is poisoned no more (R322). -/
def Buf.write (b : Buf) (off : Nat) (l : List Byte) : Buf :=
  { b with bytes := Tbl.setRange byte0 b.bytes off l
           poison := b.poison.filter fun k => !(decide (k < off + l.length) && decide (off < k + 64)) }

/-- Write bytes into a buffer. -/
def writeBuf (s : State) (buf off : Nat) (l : List Byte) : State := setBuf s buf ((getBuf s buf).map (·.write off l))

/-- Whether the allocation behind a handle, counted from its offset, holds so many bytes (Table 4.2). -/
def hdlHolds (s : State) (d : Hdl) (len : Nat) : Bool :=
  match getBuf s d.buf with
  | some b => decide (d.off + len ≤ b.size)
  | none => false

end Sys2Proof.Machine
end

