-- ==== Sys2Proof/Machine/Flags.lean ====
section
/-! DEFINITION. The arithmetic of Table 4.4 with its flags (R90). F is never touched by an instruction (R81). -/

namespace Sys2Proof.Machine

/-- Z and N of a result, with the given carry; F is kept. -/
def flagsOf (fl : Flags) (r : W64) (c : Bool) : Flags := { z := r == 0, c := c, n := r.msb, f := fl.f }

/-- ADD: C is the carry out. -/
def aluAdd (b t : W64) : W64 × Bool := (b + t, decide (2 ^ 64 ≤ b.toNat + t.toNat))

/-- SUB: C is 1 when v[b] < s unsigned. -/
def aluSub (b t : W64) : W64 × Bool := (b - t, b.ult t)

/-- AND, OR, XOR: C becomes 0. -/
def aluAnd (b t : W64) : W64 × Bool := (b &&& t, false)
def aluOr (b t : W64) : W64 × Bool := (b ||| t, false)
def aluXor (b t : W64) : W64 × Bool := (b ^^^ t, false)

/-- SHL: C is the last bit shifted out, 0 for a shift of 0. -/
def aluShl (b t : W64) : W64 × Bool :=
  let n := t.toNat % 64
  (b <<< n, if n = 0 then false else b.getLsbD (64 - n))

/-- SHR: logical, or arithmetic with mod[2]; C as SHL. -/
def aluShr (arith : Bool) (b t : W64) : W64 × Bool :=
  let n := t.toNat % 64
  (if arith then b.sshiftRight n else b >>> n, if n = 0 then false else b.getLsbD (n - 1))

/-- CMP: Z equal, C less unsigned, N less signed. -/
def cmpFlags (fl : Flags) (b t : W64) : Flags := { z := b == t, c := b.ult t, n := b.slt t, f := fl.f }

/-- The flag that SEL names by mod[1:0]. -/
def selFlag (fl : Flags) (m : BitVec 4) : Bool :=
  match m.toNat % 4 with
  | 0 => fl.z
  | 1 => fl.c
  | 2 => fl.n
  | _ => fl.f

/-- Whether the source that BZ and BNZ name by mod[2:0] is zero (Table 4.5). -/
def sourceZero (fl : Flags) (va : W64) (m : BitVec 4) : Bool :=
  match m.toNat % 8 with
  | 0 => va == 0
  | 1 => !fl.z
  | 2 => !fl.c
  | 3 => !fl.n
  | _ => !fl.f

end Sys2Proof.Machine
end

