-- ==== Sys2Proof/Machine/Ops.lean ====
section
/-! DEFINITION. Operations that every chapter uses: the period and the clock, the budgets of a strike (R26), the switched
domains as their users see them (R338, R43), and slots in use (R52, R53). -/

namespace Sys2Proof.Machine

/-! ## Time -/

/-- The strike period in quarter microseconds. -/
def perQ (s : State) : Nat := s.tb.perActive

/-- Strikes that a time of so many quarter microseconds takes, rounded up. -/
def strikesOf (s : State) (quarters : Nat) : Nat := ceilDiv quarters (perQ s)

/-- The budget of the n-th strike since it was last set (R26): a rate of `num` units of work in each strike, divided by
`den`. -/
def grantOf (num den n : Nat) : Nat := n * num / den - (n - 1) * num / den

/-- FCLK in MHz at an operating point (Table 14.7). -/
def fclkMhz (op : Nat) : Nat :=
  match op with
  | 0 => 400
  | 1 => 800
  | 2 => 1000
  | 3 => 1200
  | 4 => 1400
  | _ => 1600

/-- FCLK cycles in a strike: the period counts quarter microseconds. -/
def fclkCycles (s : State) : Nat := fclkMhz s.pwr.cur * s.tb.perActive / 4

/-- Whether a domain has power and serves work: ON, or draining for automatic gating (R338). -/
def domServes (s : State) (d : Nat) : Bool :=
  match (getDom s d).st with
  | .on => true
  | .draining => !(getDom s d).mgr
  | _ => false

/-- Domain of a Smith cluster (R337). -/
def scDom (c : Nat) : Nat := 67 + c

/-- Smiths of a cluster (Table 1.1). -/
def smithsPer : Nat := 8

/-- Whether I/O queues are fetched and credits granted: no entry has stopped it, and an abandoned entry has let it go on
again (R329, R330, R332). -/
def fetchOpen (s : State) : Bool :=
  match s.pwr.entry with
  | some e => decide (s.tb.count < e.startAt)
  | none => decide (s.pwr.resumeAt ≤ s.tb.count)

/-- From s1 of the power-loss sequence all work but the flush stands still (Table 15.3). -/
def flushing (s : State) : Bool := (s.blw.flush.map (·.started)).getD false

/-- Strikes fire, and the device works in them (Tables 3.10, 14.1 and 15.3). -/
def strikesRun (s : State) : Bool := !s.tb.stopped && !s.pwr.halted && !flushing s

/-! ## Domains (R337, R338) -/

/-- First domain of each group (R337). -/
def fcDom (c : Nat) : Nat := 3 + c
def clDom (l : Nat) : Nat := 83 + l
def asDom (g : Nat) : Nat := 107 + g
def pxDom (k : Nat) : Nat := 115 + k
def ldDom (k : Nat) : Nat := 123 + k
def dmDom (c : Nat) : Nat := 125 + c
def sbDom (g : Nat) : Nat := 137 + g

/-- Whether the manager has ordered a domain off, or drains it for that. -/
def mgrOff (s : State) (d : Nat) : Bool :=
  let x := getDom s d
  x.st == .mgrOff || (x.st == .draining && x.mgr)

/-! ## Pads (R203, R204, R341) -/

/-- Whether a domain is off. -/
def domOff (s : State) (d : Nat) : Bool := let x := getDom s d; x.st == .mgrOff || x.st == .autoOff

/-- Whether a channel asks for the supply of its pad bank: media bring-up has powered it, or its domain wakes. -/
def padWanted (s : State) (c : Nat) : Bool :=
  !domOff s (fcDom c) && ((getDom s (fcDom c)).st == .waking || (getChan s c).st != .off)

/-- PWR_EN of every flash pad bank. In the Single configuration it never switches. In a Wall it is low from reset until media
bring-up powers a channel of the bank (R3, R198, R204), and falls once all four FC domains of the bank are off. -/
def padLevels (s : State) : W16 :=
  BitVec.ofNat 16 ((List.range 16).foldl (fun w k =>
    if s.boot.cfgMode == 0
        || (List.range 4).any (fun i => padWanted s (4 * k + i) || (s.pwr.padEn.getLsbD k && !domOff s (fcDom (4 * k + i))))
    then w + 2 ^ k else w) 0)

/-- PWR_EN of the pad banks from reset until media bring-up. -/
def padsAtReset (s : State) : State := { s with pwr := { s.pwr with padEn := if s.boot.cfgMode = 0 then 0xFFFF else 0 } }
def setPads (s : State) : State := { s with pwr := { s.pwr with padEn := padLevels s } }

/-- Work reaches a domain: a drain for automatic gating ends, from the next strike on (R43), a gated domain wakes, and its
idle count restarts (R338). -/
def useDomain (s : State) (d : Nat) : State :=
  let x := getDom s d
  match x.st with
  | .on => setDom s d { x with idle := 0 }
  | .draining => if x.mgr then s else setDom s d { x with back := true, idle := 0 }
  | .autoOff => setPads (setDom s d { x with st := .waking, idle := 0 })
  | _ => s

/-! ## Slots (R52, R53) -/

/-- Whether a slot is in use by a tenant. -/
def slotUsedBy (t : Nat) (x : Slot) : Bool := x.st != .free && x.tenant == t

/-- Slots in use by a tenant (TEN_SLOTS_USED). -/
def slotsUsed (s : State) (t : Nat) : Nat := (s.ord.slots.filter fun e => slotUsedBy t e.2).length

/-- Free slots (SMT_SLOT_FREE). -/
def slotsFree (s : State) : Nat := slotCount - (s.ord.slots.filter fun e => e.2.st != .free).length

/-- Credits of all queue pairs, and of one tenant's (R218). -/
def creditSum (s : State) : Nat := s.port.qps.foldl (fun n e => n + e.2.credit) 0
def tenantCredits (s : State) (t : Nat) : Nat :=
  s.port.qps.foldl (fun n e => if e.2.tenant == t then n + e.2.credit else n) 0

/-- A free slot: the lowest. -/
def findSlot (s : State) : Option Nat :=
  (List.range (min (s.ord.slots.length + 1) slotCount)).find? fun k => (getSlot s k).st == .free

/-! ## Admin commands in their slots (R52, R73)

The status codes are those of the NVM Express Base Specification, which the spec names by their titles, and the opcodes
those of its admin commands (PRESUMED, log entry 21). -/

def nvOk : Nat × Nat := (0, 0x00)
def nvInvalidOpcode : Nat × Nat := (0, 0x01)
def nvInvalidField : Nat × Nat := (0, 0x02)
def nvSequenceError : Nat × Nat := (0, 0x0C)

/-- Whether a slot holds an admin command of an opcode that the firmware has not taken up. -/
def adminAt (s : State) (k : Nat) (op : Byte) : Bool :=
  let x := getSlot s k
  x.st == .arriving && x.kind == .management && x.cmd.opcode == op

/-- The fields of Get Log Page: the identifier, the Log Specific Identifier, the bytes asked for and the offset (PRESUMED,
log entry 21). -/
def logId (c : NvmeCmd) : Nat := c.dw10.toNat % 256
def logSpecific (c : NvmeCmd) : Nat := c.dw11.toNat / 65536
def logBytes (c : NvmeCmd) : Nat := 4 * (c.dw11.toNat % 65536 * 65536 + c.dw10.toNat / 65536 + 1)
def logOffset (c : NvmeCmd) : Nat := c.dw13.toNat * 2 ^ 32 + c.dw12.toNat

/-- Whether a slot holds a Get Log Page of an identifier. -/
def logPageAt (s : State) (k id : Nat) : Bool := adminAt s k 0x02 && logId (getSlot s k).cmd == id

/-- Fields of other admin commands: Select of Namespace Management and Attachment, Commit Action and Firmware Slot, the
security protocol and its SP Specific value, and a queue's identifier and size (PRESUMED, log entry 21). -/
def cmdSel (c : NvmeCmd) : Nat := c.dw10.toNat % 16
def commitAction (c : NvmeCmd) : Nat := c.dw10.toNat / 8 % 8
def commitSlotOf (c : NvmeCmd) : Nat := c.dw10.toNat % 8
def secProtocol (c : NvmeCmd) : Nat := c.dw10.toNat / 2 ^ 24
def secOperation (c : NvmeCmd) : Nat := c.dw10.toNat / 256 % 65536
def queueId (c : NvmeCmd) : Nat := c.dw10.toNat % 65536
def queueSize (c : NvmeCmd) : Nat := c.dw10.toNat / 65536 + 1

/-- Whether the admin command of a generation still waits in its slot. -/
def adminWaits (s : State) (k gen : Nat) : Bool :=
  let x := getSlot s k
  x.st == .suspended && x.kind == .management && x.gen == gen

/-- The tenant whose function sent the command of a slot; MF is tenant 0. -/
def senderOf (s : State) (k : Nat) : Nat := (getSlot s k).tenant

/-- End an admin command in its slot with an NVMe status of its own: its completion waits to be posted. -/
def endAdmin (s : State) (k : Nat) (st : Nat × Nat × Bool) : State :=
  updSlot s k fun x => { x with st := .posting, reply := some st }

/-- Answer an admin command: its data goes to the host, and its completion carries the status. Do Not Retry is 1 but for
success and Command Sequence Error, as Table 3.6 has them (log entry 21). -/
def admin (s : State) (k : Nat) (st : Nat × Nat) (data : List Byte) : State :=
  endAdmin (if data.isEmpty then s else emit s (.adminData k data)) k (st.1, st.2, st != nvOk && st != nvSequenceError)

/-- Complete an admin command with success and a value in DW0. -/
def adminDw0 (s : State) (k v : Nat) : State := admin (updSlot s k (·.setVal 1 (BitVec.ofNat 64 v))) k nvOk []

/-- An admin command whose answer comes later waits in its slot. -/
def adminHold (s : State) (k : Nat) : State := updSlot s k fun x => { x with st := .suspended, waiting := .nothing }

end Sys2Proof.Machine
end

