-- ==== Sys2Proof/Machine/Orders.lean ====
section
/-! DEFINITION. Running orders: slices and Smiths (R58 to R60), suspension and results (R61 to R63, R86, R87), faults and
handlers (R66 to R69), buffers and patterns as an order holds them (R79, R93, R94, R257), and the one way in which an
instruction word is executed (R65, R84, R88). -/

namespace Sys2Proof.Machine

/-! ## Slices (R58 to R60) -/

/-- The cluster that runs a slot's orders (R58). -/
def clusterOf (s : State) (x : Slot) : Nat := (getTen s x.tenant).blk.cluster

/-! ## The cache of contexts and texts (R54) -/

/-- Contexts, and text records, that the cache holds. -/
def cacheContexts : Nat := 32768
def cacheTexts : Nat := 16384

/-- Whether a slot's context is in the cache, and with it a text record. -/
def Slot.inCache (x : Slot) : Bool := x.cached && x.st != .free && x.st != .quench
def Slot.hasText (x : Slot) : Bool := x.kind == .inline || x.kind == .byPointer

/-- Room in the cache for a context: while it is full, a SUSPENDED context is written back, the one in the lowest slot;
where none is SUSPENDED there is no room (the choice of the context is the model's, log entry 45). -/
def cacheRoom (s : State) (text : Bool) : State × Bool :=
  let texts := text && decide (cacheTexts ≤ (s.ord.slots.filter fun e => e.2.inCache && e.2.hasText).length)
  if !texts && decide ((s.ord.slots.filter fun e => e.2.inCache).length < cacheContexts) then (s, true)
  else match s.ord.slots.find? fun e => e.2.inCache && e.2.st == .suspended && (!texts || e.2.hasText) with
    | some e => (updSlot s e.1 fun x => { x with cached := false }, true)
    | none => (s, false)

/-! ## Slices -/

/-- A context that may take a slice now: runnable, in the cache, and with its one slice of this strike unused. -/
def mayRun (s : State) (c : Nat) (x : Slot) : Bool :=
  x.st == .runnable && decide (x.from_ ≤ s.tb.count) && decide (x.elig ≤ s.tb.count) && x.cached && x.sliceAt != s.tb.count + 1 && clusterOf s x == c

/-- The order of R59: tenants in rotation after the last one served, then the context that has been runnable longest; of two
that are runnable since the same strike the earlier arrival, then the lower slot (DESIGN CHOICE, log entry 48). -/
def before (last : Nat) (a b : Nat × Slot) : Bool :=
  let key := fun (e : Nat × Slot) => (e.2.tenant + 1024 - last) % 1024
  if key a ≠ key b then decide (key a < key b)
  else if a.2.from_ ≠ b.2.from_ then decide (a.2.from_ < b.2.from_)
  else if a.2.arrival ≠ b.2.arrival then decide (a.2.arrival < b.2.arrival)
  else decide (a.1 < b.1)

/-- The context that a Smith of the cluster takes next. -/
def pick (s : State) (c : Nat) : Option Nat :=
  let last := Tbl.get nat0 s.ord.lastTenant c
  ((s.ord.slots.filter fun e => mayRun s c e.2).foldl (fun (m : Option (Nat × Slot)) e =>
    match m with
    | none => some e
    | some b => if before last e b then some e else some b) none).map (·.1)

/-- A context begins a slice of so many instructions on a Smith. -/
def grant (s : State) (m k n : Nat) : State :=
  let x := getSlot s k
  let s1 := setSlot s k { x with st := .running, smith := m, sliceAt := s.tb.count + 1, sliceLeft := n }
  { s1 with ord := { s1.ord with
      lastTenant := Tbl.set nat0 s1.ord.lastTenant (m / smithsPer) ((x.tenant + 1) % 1024) } }

/-- FCLK cycles and slices that a Smith has left in this strike. -/
def cyclesLeft (s : State) (m : Nat) : Nat := Tbl.get nat0 s.ord.cycles m
def slicesLeft (s : State) (m : Nat) : Nat := Tbl.get nat0 s.ord.slices m

/-- Whether a Smith runs a context. -/
def smithBusy (s : State) (m : Nat) : Bool := s.ord.slots.any fun e => e.2.st == .running && e.2.smith == m

/-- A Smith that is free starts its next slice, while its grant and the strike allow one (R59, Table 2.2). -/
def startSlice (s : State) (m : Nat) : State :=
  if smithBusy s m || slicesLeft s m == 0 || decide (cyclesLeft s m < 512) || !domServes s (scDom (m / smithsPer))
      || !strikesRun s || !flag s R.SMT_CTRL_EXEC_EN then s
  else match pick s (m / smithsPer) with
    | none => s
    | some k =>
      let s1 := grant s m k 32
      { s1 with ord := { s1.ord with slices := Tbl.set nat0 s1.ord.slices m (slicesLeft s m - 1) } }

/-- A runnable context is work that reaches its cluster's domain (R338, Table 14.5). -/
def reachCluster (s : State) (c : Nat) : State :=
  let st := (getDom s (scDom c)).st
  let work := s.ord.slots.any fun e => e.2.st == .runnable && decide (e.2.from_ ≤ s.tb.count) && clusterOf s e.2 == c
  if (st == .autoOff || st == .draining) && work then useDomain s (scDom c) else s

/-- Every Smith of a cluster that is free starts a slice: a context has become runnable in this strike (R59). -/
def startCluster (s : State) (c : Nat) : State :=
  (List.range smithsPer).foldl (fun t i => startSlice t (c * smithsPer + i)) (reachCluster s c)

/-- The remainder of a suspended slice goes to the next context, or lapses when too little of the strike is left (R60). -/
def passOn (s : State) (m left : Nat) : State :=
  if left = 0 ∨ cyclesLeft s m < 16 * left then startSlice s m
  else match pick s (m / smithsPer) with
    | none => startSlice s m
    | some k => grant s m k left

/-- A running context leaves its Smith for a state that is no suspension. -/
def leave (s : State) (k : Nat) (st : SlotState) : State :=
  let x := getSlot s k
  let s1 := setSlot s k { x with st := st, sliceLeft := 0 }
  if x.st == .running then startSlice s1 x.smith else s1

/-- A running context suspends. -/
def suspend (s : State) (k : Nat) (w : WaitFor) : State :=
  let x := getSlot s k
  let s1 := setSlot s k { x with st := .suspended, waiting := w, sliceLeft := 0 }
  if x.st == .running then passOn s1 x.smith x.sliceLeft else s1

/-! ## Patterns in use (R64, R79) -/

/-- Device patterns that exist: those of Table 3.8 and Table 4.15. -/
def devicePattern (n : Nat) : Bool :=
  [0x00, 0x01, 0x02, 0x05, 0x08, 0x09, 0x0C, 0x79, 0x7A, 0x7D, 0x80, 0x81, 0x82].contains n

/-- The key of a tenant's pattern number. -/
def patKey (t n : Nat) : Nat := t * 1024 + n

/-- The body loaded under a tenant's number. -/
def loadedBody (s : State) (t n : Nat) : Option Nat := Tbl.get Tbl.absent s.ord.loaded (patKey t n)

/-- Whether an order of the tenant may call the number now (R64). -/
def callable (s : State) (t n : Nat) : Bool := if n < 0x100 then devicePattern n else (loadedBody s t n).isSome

/-- The place at which a pattern starts. -/
def patStart (s : State) (t n : Nat) : CodePos := { pat := some n, body := (loadedBody s t n).getD 0, word := 0 }

/-- Whether a code position lies in a body of a tenant's pattern. -/
def CodePos.inBody (p : CodePos) (b : Nat) : Bool :=
  match p.pat with
  | some n => decide (0x100 ≤ n) && p.body == b
  | none => false

/-- Whether an order that still runs is inside a body. -/
def bodyInUse (s : State) (b : Nat) : Bool :=
  s.ord.slots.any fun e =>
    (e.2.st == .runnable || e.2.st == .running || e.2.st == .suspended)
      && (e.2.pc.inBody b || e.2.stack.any (·.inBody b))

/-- Replaced bodies that no order is inside any more enter Quench (R79). -/
def reapBodies (s : State) : State :=
  s.ord.bodies.foldl (fun t e =>
    match e.2 with
    | some p =>
      if p.retired && p.quench.isNone && !bodyInUse t e.1 then
        let t1 := setBody t e.1 (some { p with quench := some p.pages })
        { t1 with ord := { t1.ord with quenchQ := t1.ord.quenchQ ++ [(true, e.1)] } }
      else t
    | none => t) s

/-- The words of the library patterns HMAC_SHA256 and HMAC_SHA512, one word for each thing that Table 4.15 says they do:
the record in h1 is imported and its context kept in v8, h0 is fed and the digest finished into h3; then the same with h2
and the inner digest in h3 (R109, log entry 9). -/
def hmacWords : List W64 :=
  let f := fun (a b c mod : Nat) => ({ a := BitVec.ofNat 4 a, b := BitVec.ofNat 4 b, c := BitVec.ofNat 4 c, mod := BitVec.ofNat 4 mod, imm := 0 } : Fields)
  let half := fun (record message : Nat) =>
    [instrWord 0x75 (f 0 record 0 1), instrWord 0x03 (f 8 15 0 0), instrWord 0x73 (f 8 message 0 0), instrWord 0x74 (f 8 3 0 0)]
  half 1 0 ++ half 2 3 ++ [instrWord 0x24 (f 0 0 0 0)]

/-- The words of the text or pattern body at a place: none for a device pattern that goes in stages (log entry 9). -/
def codeAt (s : State) (x : Slot) : Option (List W64) :=
  match x.pc.pat with
  | none => some x.text
  | some n =>
    if n = 0x80 ∨ n = 0x81 then some hmacWords
    else if n < 0x100 then none
    else some (((getBody s x.pc.body).map (·.words)).getD [])

/-- The fault position of the present word, as v14 gives it (R66); which word of a device pattern a fault names is free
(log entry 9). -/
def Slot.position (x : Slot) : W16 :=
  match x.pc.pat with
  | none => BitVec.ofNat 16 x.pc.word
  | some n => BitVec.ofNat 16 (0x8000 + (if n < 0x100 then Config.devicePosition n x.pc.word % 1024 else x.pc.word))

/-! ## Buffers (R93, R94, R253, R257, R321) -/

/-- Granules that a size takes. -/
def granulesOf (size : Nat) : Nat := ceilDiv size 4096

/-- First byte of the tenant buffer pool in the Crucible (Table 13.5). -/
def poolBase (s : State) : Nat := 54 * 2 ^ 20 + 2 ^ 18 * min 128 (rd s R.MED_PAR_CTRL_CRU_SETS)

/-- Pool granules that lie in a bank group. -/
def groupGranules (s : State) (g : Nat) : Nat := ((g + 1) * 2 ^ 22 - max (poolBase s) (g * 2 ^ 22)) / 4096

/-- Bank groups that allocation may use: not switched off by the manager (Table 14.6). -/
def groupUsable (s : State) (g : Nat) : Bool := (getDom s (137 + g)).st != .mgrOff

/-- Free granules of the pool in a bank group. -/
def groupFree (s : State) (g : Nat) : Nat :=
  if groupUsable s g then groupGranules s g - (getGroup s g).used else 0

/-- Free granules of the tenant buffer pool (CRU_FREE). -/
def cruFree (s : State) : Nat := (List.range 32).foldl (fun n g => n + groupFree s g) 0

/-- Crucible granules that a tenant holds, with those that wait for Quench (Table 10.5). -/
def cruHeld (s : State) (t : Nat) : Nat :=
  s.ord.bufs.foldl (fun n e => match e.2 with
    | some b => if b.tenant == t && !b.dram && !b.staged then n + b.granules else n
    | none => n) 0

/-- Take granules from the lowest bank groups that have any (R321). -/
def takeGroups (s : State) : List Nat → Nat → State × List (Nat × Nat)
  | [], _ => (s, [])
  | g :: gs, need =>
    if need = 0 then (s, [])
    else
      let n := min need (groupFree s g)
      if n = 0 then takeGroups s gs need
      else
        let x := getGroup s g
        let r := takeGroups (setGroup s g { x with used := x.used + n, idle := 0, retention := false }) gs (need - n)
        (r.1, (g, n) :: r.2)

/-- Whether a buffer of a size can be granted to a tenant (Table 4.6, R311). -/
def bufferFits (s : State) (t size : Nat) (dram : Bool) : Bool :=
  if dram then decide (granulesOf size ≤ s.mem.dramFree)
  else decide (granulesOf size ≤ cruFree s) && decide (cruHeld s t + granulesOf size ≤ (getTen s t).blk.cruMib * 256)

/-- A new buffer, which reads as zeros: its number and the state. -/
def allocBuf (s : State) (k t size : Nat) (dram : Bool) : State × Nat :=
  let n := granulesOf size
  let r := if dram then ({ s with mem := { s.mem with dramFree := s.mem.dramFree - n } }, [])
    else takeGroups s (List.range 32) n
  let id := s.ord.nextBuf
  let b : Buf := { dram := dram, granules := n, bytes := [], tenant := t, slot := k, orphan := false, staged := false, quench := none,
                   groups := r.2, poison := [] }
  let s1 := setBuf r.1 id (some b)
  ({ s1 with ord := { s1.ord with nextBuf := id + 1 } }, id)

/-- Whether an outstanding request writes into a buffer. -/
def bufWritten (s : State) (b : Nat) : Bool := s.ord.reqs.any fun e =>
  match e.2 with
  | some q => q.writes.contains b
  | none => false

/-- A freed buffer enters Quench, or waits as an orphan for the result that still writes into it (R253, R257). -/
def freeBuf (s : State) (b : Nat) : State :=
  match getBuf s b with
  | none => s
  | some x =>
    if x.quench.isSome then s
    else if bufWritten s b then setBuf s b (some { x with orphan := true })
    else
      let s1 := setBuf s b (some { x with orphan := false, quench := some x.granules })
      { s1 with ord := { s1.ord with quenchQ := s1.ord.quenchQ ++ [(false, b)] } }

/-- Buffers that the handles of a slot name. -/
def slotBufs (x : Slot) : List Nat := ((x.h.toList ++ [x.p0, x.p1]).filterMap fun o => o.map (·.buf)).eraseDups

/-- Every buffer of an order is freed, and its handles are empty (R57, R69). -/
def freeAll (s : State) (k : Nat) : State :=
  let x := getSlot s k
  let s1 := setSlot s k { x with h := Vector.replicate 8 none, p0 := none, p1 := none }
  (slotBufs x).foldl freeBuf s1

/-- A device pattern is left: its private buffers are freed. -/
def dropPrivate (s : State) (k : Nat) : State :=
  let x := getSlot s k
  (([x.p0, x.p1].filterMap fun o => o.map (·.buf)).eraseDups).foldl freeBuf (setSlot s k { x with p0 := none, p1 := none })

/-- Orphans whose last writer is gone enter Quench (R253). -/
def releaseOrphans (s : State) (bs : List Nat) : State :=
  bs.foldl (fun t b => match getBuf t b with
    | some x => if x.orphan then freeBuf t b else t
    | none => t) s

/-! ## The end of an order, faults and handlers (R51, R66 to R69, R71) -/

/-- The order ends: it waits in POSTING for its host writes (R52, R56). -/
def finishOrder (s : State) (k : Nat) (st : W16) : State :=
  reapBodies (leave (updSlot s k fun x => { x with status := st, waiting := .nothing }) k .posting)

/-- Count a fault (Table 3.11). -/
def countFault (s : State) (k : Nat) (st : W16) : State :=
  let s1 := if (getSlot s k).faulted then s else bump s R.SMT_FAULT_CNT_FAULT
  if st = St.runaway then bump s1 R.SMT_RUNAWAY_CNT_RUNAWAY
  else if st = St.lengthMismatch then bump s1 R.SMT_LENGTH_CNT_LENGTH
  else s1

/-- Whether the order is in the device pattern of a standard command, whose own handler posts the status (R75). -/
def Slot.inStandard (x : Slot) : Bool :=
  match x.pc.pat with
  | some n => decide (n < 0x80)
  | none => false

/-- The handler that answers a fault: the faulting pattern's own, else the order's (R66). A library pattern has none of its
own (log entry 9). A detached fault raised in another pattern than the one that issued it is answered by the handler of the
place where it is raised (DESIGN CHOICE, log entry 52). -/
def handlerOf (s : State) (x : Slot) : Option CodePos :=
  let own := match x.pc.pat with
    | some n => if n < 0x100 then none
      else ((getBody s x.pc.body).bind (·.handler)).map fun w => { x.pc with word := w }
    | none => none
  match own with
  | some p => some p
  | none => if x.hdr.handlerValid && !x.inStandard then some { pat := none, body := 0, word := x.hdr.handler } else none

/-- The handler starts with the status in v13, the position in v14 and flag F set (R66), from the next slice. -/
def enterHandler (s : State) (k : Nat) (st pos : W16) (p : CodePos) : State :=
  let s1 := updSlot (dropPrivate s k) k fun x =>
    let y := (x.setVal 13 (st.zeroExtend 64)).setVal 14 (pos.zeroExtend 64)
    { y with flags := { y.flags with f := true }, inHandler := true, hdepth := x.stack.length, original := st, pc := p,
             waiting := .nothing, from_ := s.tb.count + 1 }
  leave s1 k .runnable

/-- A fault is counted and noted in the order. -/
def noteFault (s : State) (k : Nat) (st pos : W16) : State :=
  let x := getSlot s k
  updSlot (countFault s k st) k fun y => { y with faulted := true, faultPos := if x.faulted then y.faultPos else pos }

/-- A host transfer ends in PROG_LENGTH_MISMATCH: the order's buffers are freed and it posts at once (R68, R69). Inside a
handler it posts the original status, as R67 has it of every fault there (DESIGN CHOICE, log entry 46). -/
def transferFault (s : State) (k : Nat) (pos : W16) : State :=
  let x := getSlot s k
  let s1 := freeAll (noteFault s k St.lengthMismatch pos) k
  finishOrder s1 k (if x.inHandler then x.original else St.lengthMismatch)

/-- An order faults with a status at a position (R66, R67). The length mismatch of a host transfer is transferFault's (log
entry 46). -/
def orderFault (s : State) (k : Nat) (st pos : W16) : State :=
  let x := getSlot s k
  let s1 := noteFault s k st pos
  if x.inHandler then finishOrder s1 k x.original
  else match handlerOf s x with
    | some p => enterHandler s1 k st pos p
    | none => finishOrder s1 k st

/-- Whether a slot's place lies past the last word of its text or pattern. -/
def pastEnd (s : State) (x : Slot) : Bool :=
  match codeAt s x with
  | some ws => decide (ws.length ≤ x.pc.word)
  | none => false

/-- The order becomes runnable from a strike; with no word left to run it faults (log entry 10). -/
def runnableAt (s : State) (k n : Nat) : State :=
  let x := getSlot s k
  if pastEnd s x then orderFault s k St.illegalOp x.position
  else setSlot s k { x with st := .runnable, waiting := .nothing, from_ := n }

/-- An awaited result has arrived in this strike (R63). -/
def resume (s : State) (k : Nat) : State := runnableAt s k (s.tb.count + 1)

/-! ## Tickets and results (R61, R62, R86, R87) -/

/-- The lowest free ticket (R87). -/
def freeTicket (x : Slot) : Option Nat := (List.range 4).find? fun i => x.tickets.toList.getD i .free == Ticket.free

/-- Replace a ticket. -/
def Slot.setTicket (x : Slot) (i : Nat) (t : Ticket) : Slot :=
  if h : i < 4 then { x with tickets := x.tickets.set i t } else x

/-- Read a ticket. -/
def Slot.ticket (x : Slot) (i : Nat) : Ticket := x.tickets.toList.getD i .free

/-- Whether a ticket's result is still out. -/
def Ticket.isOut : Ticket → Bool
  | .out _ => true
  | _ => false

/-- Whether some ticket of a mask is still out. -/
def outIn (x : Slot) (mask : BitVec 4) : Bool := (List.range 4).any fun i => mask.getLsbD i && (x.ticket i).isOut

/-- The lowest ticket of a mask that holds a failure, with status and position (R62). -/
def failedIn (x : Slot) (mask : BitVec 4) : Option (Nat × W16 × W16) :=
  (List.range 4).findSome? fun i => match mask.getLsbD i, x.ticket i with
    | true, .inn st pos => some (i, st, pos)
    | _, _ => none

/-- Whether what a suspended order waits for is in. -/
def waitOver (x : Slot) : Bool :=
  match x.waiting with
  | .tickets m => !outIn x m
  | .ticketFree => (freeTicket x).isSome
  | _ => false

/-- A suspended order whose tickets are in becomes runnable. -/
def wake (s : State) (k : Nat) : State :=
  let x := getSlot s k
  if x.st == .suspended && waitOver x then resume s k else s

/-- Zero what a discarded result wrote into device buffers (R252). -/
def zeroWrites (s : State) (q : Req) : State :=
  match q.ha with
  | some d => if q.writes.contains d.buf then writeBuf s d.buf d.off (List.replicate d.len 0) else s
  | none => s

/-- A result that nobody awaits any more is discarded; one of an old generation counts as stale (R252, R253). -/
def discardResult (s : State) (rid : Nat) : State :=
  match getReq s rid with
  | none => s
  | some q =>
    let s1 := zeroWrites (setReq s rid none) q
    let s2 := if (getTen s q.tenant).gen == q.gen then s1 else bumpAt s1 R.TEN_STALE_CNT_STALE 0 q.tenant 1
    releaseOrphans s2 q.writes

/-- Whether the slot still awaits a request: attached, or by its ticket. -/
def awaited (s : State) (rid : Nat) (q : Req) : Bool :=
  let x := getSlot s q.slot
  match q.ticket with
  | none => x.st == .suspended && x.waiting == .attached rid
  | some i => x.ticket i == .out rid && x.st != .free && x.st != .quench

/-- A result arrives for its order: attached, it writes v15 and resumes or faults (R63, R86); detached, it goes to its
ticket (R62, R87). A host transfer that ends in PROG_LENGTH_MISMATCH ends its order at once, detached too: R68 names no WAIT, FENCE,
END or POST that would first raise it (DESIGN CHOICE, log entry 47). -/
def deliver (s : State) (rid : Nat) (st : W16) (value : Option W64) : State :=
  match getReq s rid with
  | none => s
  | some q =>
    if (getTen s q.tenant).gen != q.gen || !awaited s rid q then discardResult s rid
    else
      let s1 := releaseOrphans (setReq s rid none) q.writes
      match q.ticket with
      | none =>
        if st = St.ok then
          let s2 := match value with
            | some w => updSlot s1 q.slot (·.setVal 15 w)
            | none => s1
          resume s2 q.slot
        else if st = St.lengthMismatch then transferFault s1 q.slot q.pos
        else orderFault s1 q.slot st q.pos
      | some i =>
        let s2 := updSlot s1 q.slot (·.setTicket i (if st = St.ok then .free else .inn st q.pos))
        if st = St.lengthMismatch then transferFault (updSlot s2 q.slot (·.setTicket i .free)) q.slot q.pos
        else wake s2 q.slot

/-! ## Executing one word (R65, R84, R88, R91) -/

/-- A running slot whose present word is this one; a device pattern that goes in stages has none (log entry 9). -/
def atWord (s : State) (k op : Nat) (f : Fields) : Bool :=
  let x := getSlot s k
  x.st == .running && decide (0 < x.sliceLeft) && x.kind != .standard && strikesRun s
    && (match codeAt s x with
        | none => false
        | some ws => ws[x.pc.word]? == some (instrWord op f))

/-- Instructions that a handler may run: SMT_CTRL.HANDLER_ALLOW in units of 64, 0 taken as 1 (Table 3.10). -/
def handlerAllow (s : State) : Nat := max 1 (rd s R.SMT_CTRL_HANDLER_ALLOW) * 64

/-- Count an instruction against its limit and its slice, and move past its word (R59, R65). -/
def countWord (s : State) (k cost : Nat) : State :=
  let x := getSlot s k
  let s1 := setSlot s k { x with
    executed := if x.inHandler then x.executed else x.executed + 1
    handlerUsed := if x.inHandler then x.handlerUsed + 1 else x.handlerUsed
    sliceLeft := x.sliceLeft - 1
    pc := { x.pc with word := x.pc.word + 1 } }
  { s1 with ord := { s1.ord with cycles := Tbl.set nat0 s1.ord.cycles x.smith (cyclesLeft s x.smith - cost) } }

/-- A text or body whose last word has been passed without END faults (log entry 10); a slice of 32 instructions ends
(R59). -/
def afterWord (s : State) (k : Nat) : State :=
  let x := getSlot s k
  if x.st == .running then
    if pastEnd s x then orderFault s k St.illegalOp x.position
    else if x.sliceLeft = 0 then leave (updSlot s k fun y => { y with from_ := s.tb.count + 1 }) k .runnable
    else s
  else s

/-- Execute a word: the limits first, then its form, then what it does (R65, R84). `body` receives the state with the
word counted and passed, and the word's position. -/
def runWord (s : State) (k cost : Nat) (wellUsed : Bool) (body : State → W16 → State) : State :=
  let x := getSlot s k
  if x.inHandler && decide (handlerAllow s ≤ x.handlerUsed) then finishOrder s k x.original
  else if !x.inHandler && decide (x.hdr.runLimit ≤ x.executed) then orderFault s k St.runaway x.position
  else if wellUsed then afterWord (body (countWord s k cost) x.position) k
  else orderFault (countWord s k cost) k St.illegalOp x.position

/-- Tickets of outstanding detached instructions that clash with an instruction's buffers or context (R88). -/
def hazards (s : State) (x : Slot) (reads writes : List Nat) (ctx : Option Nat) : BitVec 4 :=
  (List.range 4).foldl (fun m i => match x.ticket i with
    | .out rid => match getReq s rid with
      | some q =>
        if reads.any q.writes.contains || writes.any q.writes.contains || writes.any q.reads.contains
            || (ctx.isSome && q.ctx == ctx)
        then m ||| (1#4 <<< i) else m
      | none => m
    | _ => m) 0

/-- The limits of R65 come before a wait: a word that may not execute does not wait. -/
def overLimit (s : State) (k : Nat) : Bool :=
  let x := getSlot s k
  (x.inHandler && decide (handlerAllow s ≤ x.handlerUsed))
    || (!x.inHandler && decide (x.hdr.runLimit ≤ x.executed))

/-- A synchronous word that must first wait for tickets: it suspends uncounted, or executes (R88, R89). -/
def waitWord (s : State) (k cost : Nat) (wellUsed : Bool) (mask : BitVec 4) (body : State → W16 → State) : State :=
  if !overLimit s k && wellUsed && outIn (getSlot s k) mask then suspend s k (.tickets mask)
  else runWord s k cost wellUsed body

/-- Raise the lowest failure among the tickets of a mask, or go on (R62). -/
def raiseTickets (s : State) (k : Nat) (mask : BitVec 4) (go : State → State) : State :=
  match failedIn (getSlot s k) mask with
  | some (i, st, pos) => orderFault (updSlot s k (·.setTicket i .free)) k st pos
  | none => go s

/-- What an asynchronous instruction asks for: the buffers and context it uses (R88), its fault at issue, and how its
request starts. -/
structure AsyncOp where
  wellUsed : Bool
  reads : List Nat
  writes : List Nat
  ctx : Option Nat
  check : State → W16
  start : State → Nat → State

/-- The request of the present word, with its operands captured (R85). -/
def newReq (s : State) (k : Nat) (op : Nat) (f : Fields) (o : AsyncOp) (pos : W16) (t : Option Nat) : Req :=
  let x := getSlot s k
  { slot := k, tenant := x.tenant, gen := x.gen, issued := s.tb.count, ticket := t, pos := pos, op := op, mod := f.mod,
    imm := f.imm, va := x.val f.a, vb := x.val f.b, vc := x.val f.c, fa := f.a, fb := f.b, ha := x.hdl f.a, hb := x.hdl f.b,
    phase := .presented, reads := o.reads, writes := o.writes, ctx := o.ctx, read := none, write := none, work := 0,
    key := none, result := St.ok, value := none, bytes := [], delivered := 0, lane := 0,
    doneAt := 0 }

/-- The request of an asynchronous instruction is sent: recorded under the next number with its operands captured (R85),
with the order suspended on it or its ticket out (R61, R87), and its unit starts on it. -/
def sendReq (s : State) (k op : Nat) (f : Fields) (o : AsyncOp) (pos : W16) (t : Option Nat) : State :=
  let rid := s.ord.nextReq
  let s1 := setReq s rid (some (newReq s k op f o pos t))
  let s2 := { s1 with ord := { s1.ord with nextReq := rid + 1 } }
  let s3 := match t with
    | some i => updSlot s2 k (·.setTicket i (.out rid))
    | none => suspend s2 k (.attached rid)
  o.start s3 rid

/-- The body of an asynchronous instruction: it faults at issue, or its request is sent, attached or detached (R61). A
detached instruction's fault at issue goes to its ticket (R62). -/
def issue (s : State) (k op : Nat) (f : Fields) (o : AsyncOp) (pos : W16) : State :=
  let st := o.check s
  let t := if f.m 3 then freeTicket (getSlot s k) else none
  if st ≠ St.ok then
    match t with
    | some i => updSlot s k (·.setTicket i (.inn st pos))
    | none => orderFault s k st pos
  else sendReq s k op f o pos t

/-- Whether a clash with an outstanding detached instruction, or a fifth ticket, holds an asynchronous word. -/
def wordHeld (s : State) (k : Nat) (f : Fields) (o : AsyncOp) : Bool :=
  let x := getSlot s k
  !overLimit s k && o.wellUsed && (hazards s x o.reads o.writes o.ctx != 0 || (f.m 3 && (freeTicket x).isNone))

/-- Execute an asynchronous word: a clash with an outstanding detached instruction, or a fifth ticket, holds it (R61,
R88). -/
def asyncWord (s : State) (k op : Nat) (f : Fields) (o : AsyncOp) : State :=
  let x := getSlot s k
  let clash := hazards s x o.reads o.writes o.ctx
  if !overLimit s k && o.wellUsed && clash != 0 then suspend s k (.tickets clash)
  else if !overLimit s k && o.wellUsed && f.m 3 && (freeTicket x).isNone then suspend s k .ticketFree
  else runWord s k 8 o.wellUsed fun t pos => issue t k op f o pos

/-- The buffers behind handles, for R88. -/
def bufsOf (l : List (Option Hdl)) : List Nat := l.filterMap fun o => o.map (·.buf)

/-- A handle that an instruction needs and that is empty faults (Table 4.2); a poisoned line that it reads faults
(R322). -/
def needHandles (s : State) (used readIn : List (Option Hdl)) : W16 :=
  if used.any (·.isNone) then St.badHandle
  else if readIn.any (fun o => (o.map (hdlPoison s)).getD false) then St.mediaUnrecovered
  else St.ok

/-- The first status that is not OK. -/
def firstFault (l : List W16) : W16 := (l.find? (· != St.ok)).getD St.ok

/-- A request is complete: its result arrives in the present strike, at its end unless a row delivers it before (R63). -/
def complete (s : State) (rid : Nat) (st : W16) (value : Option W64) : State :=
  updReq s rid fun q => { q with phase := .done, result := st, value := value }

/-- Deliver the result of a request that is complete. -/
def deliverDone (s : State) (rid : Nat) : State :=
  match getReq s rid with
  | some q => if q.phase == .done then deliver s rid q.result q.value else s
  | none => s

/-- At the end of a strike every result that has become complete in it is in (R63). -/
def deliverAll (s : State) : State := (s.ord.reqs.map (·.1)).foldl deliverDone s

end Sys2Proof.Machine
end

