-- ==== Sys2Proof/Machine/Buffers.lean ====
section
/-! DEFINITION. The buffer instructions (R93, R94, Table 4.6). -/

namespace Sys2Proof.Machine

/-- Bytes that BFILL and BCOPY move in a strike (Table 4.6). -/
def copyRate : Nat := 256 * 1024

/-- Size operand of BALLOC. -/
def ballocSize (x : Slot) (f : Fields) : Nat := if f.m 1 then f.i 21 0 else (x.val f.b).toNat

/-- BALLOC as an asynchronous instruction: the buffer is taken and h[a] aimed at issue, and the result is in within the
strike of issue. -/
def ballocOp (s : State) (k : Nat) (f : Fields) : AsyncOp :=
  let x := getSlot s k
  let size := ballocSize x f
  { wellUsed := unusedZero f true (!f.m 1) false 0xB (if f.m 1 then 22 else 0), reads := [], writes := [], ctx := none
    check := fun t =>
      if decide (8 ≤ f.a.toNat) || (x.hdl f.a).isSome then St.badHandle
      else if size = 0 ∨ 2097152 < size then St.bufferSize
      else if bufferFits t x.tenant size (f.m 0) then St.ok
      else St.noBuffer
    start := fun t rid =>
      let r := allocBuf t k x.tenant size (f.m 0)
      let t1 := updSlot r.1 k (·.setHdl f.a (some { buf := r.2, off := 0, len := size }))
      complete (updReq t1 rid fun q => { q with writes := [r.2], ha := some { buf := r.2, off := 0, len := size } })
        rid St.ok none }

/-- BALLOC. -/
def execBalloc (slot : Nat) (f : Fields) (s : State) : Answer :=
  stepIf s (atWord s slot 0x30 f) (asyncWord s slot 0x30 f (ballocOp s slot f))

/-- Empty every handle of an order that names a buffer, and free it (R94). -/
def bfree (s : State) (k b : Nat) : State :=
  freeBuf (updSlot s k fun x => { x with h := x.h.map fun o => if o.map (·.buf) == some b then none else o }) b

/-- BFREE: an empty handle has no effect, a field of 8 to 15 faults; it counts as a write of the buffer (R88). -/
def execBfree (slot : Nat) (f : Fields) (s : State) : Answer :=
  let x := getSlot s slot
  let clash := hazards s x [] (bufsOf [x.hdl f.a]) none
  stepIf s (atWord s slot 0x31 f)
    (waitWord s slot 4 (unusedZero f true false false 0 0) clash fun t pos =>
      if 8 ≤ f.a.toNat then orderFault t slot St.badHandle pos
      else match (getSlot t slot).hdl f.a with
        | some d => bfree t slot d.buf
        | none => t)

/-- A value repeated over a length, the last copy cut short (Table 4.6). -/
def fillBytes (v : W64) (len : Nat) : List Byte := (List.range len).map fun i => BitVec.ofNat 8 (v.toNat / 256 ^ (i % 8))

/-- BFILL as an asynchronous instruction. -/
def bfillOp (s : State) (k : Nat) (f : Fields) : AsyncOp :=
  let x := getSlot s k
  { wellUsed := unusedZero f true true false 8 0, reads := [], writes := bufsOf [x.hdl f.a], ctx := none
    check := fun t => needHandles t [x.hdl f.a] []
    start := fun t rid => updReq t rid fun q => { q with phase := .serving, work := ((x.hdl f.a).map (·.len)).getD 0 } }

/-- BFILL. -/
def execBfill (slot : Nat) (f : Fields) (s : State) : Answer :=
  stepIf s (atWord s slot 0x32 f) (asyncWord s slot 0x32 f (bfillOp s slot f))

/-- BCOPY as an asynchronous instruction: a copy, or a load of up to 8 bytes with mod[0]. -/
def bcopyOp (s : State) (k : Nat) (f : Fields) : AsyncOp :=
  let x := getSlot s k
  let load := f.m 0
  let len := ((x.hdl f.b).map (·.len)).getD 0
  { wellUsed := unusedZero f (!load) true false 9 0
    reads := bufsOf [x.hdl f.b], writes := if load then [] else bufsOf [x.hdl f.a], ctx := none
    check := fun t =>
      firstFault [needHandles t (if load then [x.hdl f.b] else [x.hdl f.a, x.hdl f.b]) [x.hdl f.b],
        if load || ((x.hdl f.a).map (hdlHolds t · len)).getD false then St.ok else St.bufferSize]
    start := fun t rid => updReq t rid fun q => { q with phase := .serving, work := if load then min 8 len else len } }

/-- BCOPY. -/
def execBcopy (slot : Nat) (f : Fields) (s : State) : Answer :=
  stepIf s (atWord s slot 0x33 f) (asyncWord s slot 0x33 f (bcopyOp s slot f))

/-- Set the length of the handle that an instruction produced into (Table 4.2). -/
def setLen (s : State) (q : Req) (len : Nat) : State :=
  match q.ha with
  | some d => updSlot s q.slot fun x =>
      if x.hdl q.fa == some d then x.setHdl q.fa (some { d with len := len }) else x
  | none => s

/-- Output into h[a]: the bytes, and the handle's new length (Table 4.2). -/
def produce (s : State) (q : Req) (l : List Byte) : State :=
  match q.ha with
  | some d => setLen (writeBuf s d.buf d.off l) q l.length
  | none => s

/-- The end of a fill or a copy. -/
def finishCopy (s : State) (rid : Nat) (q : Req) : State :=
  if q.op = 0x32 then
    match q.ha with
    | some d => complete (writeBuf s d.buf d.off (fillBytes q.vb d.len)) rid St.ok none
    | none => s
  else match q.hb with
    | some e =>
      if q.mod.getLsbD 0 then complete s rid St.ok (some (BitVec.ofNat 64 (ofLe ((hdlBytes s e).take 8))))
      else complete (produce s q (hdlBytes s e)) rid St.ok none
    | none => s

/-- The share of one strike of the fills and copies in progress, issued before it. -/
def copyStrike (s : State) (rid : Nat) : State :=
  match getReq s rid with
  | some q =>
    if (q.op = 0x32 ∨ q.op = 0x33) ∧ q.phase = .serving then
      let left := q.work - copyRate
      let s1 := updReq s rid fun y => { y with work := left }
      if left = 0 then finishCopy s1 rid { q with work := 0 } else s1
    else s
  | none => s

/-- BSLICE: the window's offset and length. -/
def sliceWindow (x : Slot) (f : Fields) : Nat × Nat :=
  if f.m 0 then (f.i 19 0, f.i 39 20) else (bits (x.val f.c).toNat 31 0, bits (x.val f.c).toNat 63 32)

/-- BSLICE: h[a] must be empty or name the buffer of h[b]; the window lies inside the allocation (Table 4.6). -/
def bslice (s : State) (k : Nat) (f : Fields) (pos : W16) : State :=
  let x := getSlot s k
  match x.hdl f.b with
  | none => orderFault s k St.badHandle pos
  | some d =>
    let w := sliceWindow x f
    if decide (8 ≤ f.a.toNat) || ((x.hdl f.a).map fun e => e.buf != d.buf).getD false then
      orderFault s k St.badHandle pos
    else if w.2 = 0 ∨ 2097152 < w.2 then orderFault s k St.bufferSize pos
    else
      let e : Hdl := { buf := d.buf, off := d.off + w.1, len := w.2 }
      if hdlHolds s e w.2 then updSlot s k (·.setHdl f.a (some e)) else orderFault s k St.bufferSize pos

/-- BSLICE; it counts as a write of the buffer (R88). -/
def execBslice (slot : Nat) (f : Fields) (s : State) : Answer :=
  let x := getSlot s slot
  let clash := hazards s x [] (bufsOf [x.hdl f.b]) none
  stepIf s (atWord s slot 0x34 f)
    (waitWord s slot 4 (unusedZero f true true (!f.m 0) 1 (if f.m 0 then 40 else 0)) clash fun t pos =>
      bslice t slot f pos)

end Sys2Proof.Machine
end

