-- ==== Sys2Proof/Machine/HostMem.lean ====
section
/-! DEFINITION. Transfers between the device and host memory: HGET, HPUT and NOTE (R95, R96, R106), the dirty-page log of
their writes (R260, R261), and the failure of a queue pair (R222, R233). -/

namespace Sys2Proof.Machine

/-! ## Queue pairs in error (R222) -/

/-- Whether the slot's command came over a queue pair that is in error, or from a head that no route reaches (R397). -/
def qpBroken (s : State) (x : Slot) : Bool :=
  match x.qp with
  | some q => (getQp s q).st == .error
  | none => x.pcie.isNone && headLost s

/-- A request that moves bytes to or from the host: HGET, HPUT, NOTE. -/
def Req.isHost (q : Req) : Bool := q.op == 0x40 || q.op == 0x41 || q.op == 0x91

/-- A host transfer ends in PROG_LENGTH_MISMATCH: what had arrived is zeroed in place (R69, R233). -/
def failTransfer (s : State) (rid : Nat) : State :=
  match getReq s rid with
  | some q => deliver (zeroWrites s q) rid St.lengthMismatch none
  | none => s

/-- Whether a request waits for the host: a transfer on its way, or an OPEN whose plaintext or zeros are (R277, R278). -/
def Req.onWire (q : Req) : Bool :=
  (q.isHost && (q.phase == .queued || q.phase == .readWait)) || (q.op == 0x71 && q.mod.getLsbD 2 && (q.phase == .releasing || q.phase == .zeroing))

/-- Outstanding host transfers on a queue pair. -/
def transfersOn (s : State) (qp : Nat) : List Nat :=
  s.ord.reqs.filterMap fun e => match e.2 with
    | some q => if q.onWire && (getSlot s q.slot).qp == some qp then some e.1 else none
    | none => none

/-- A zeroing that can no longer complete is counted and recorded (R279). -/
def zeroFail (s : State) (rid : Nat) : State :=
  match getReq s rid with
  | some q =>
    if q.phase == .zeroing then
      raise (bump s R.CPH_ZERO_FAIL_CNT_ZERO_FAIL)
        (event (196 + q.lane) 0x0701 [(2, q.tenant), (2, (getSlot s q.slot).cmd.cid.toNat), (4, q.delivered)])
    else s
  | none => s

/-- One queue pair enters error: no packet is sent on it, and its outstanding transfers end (R222). -/
def oneQpError (s : State) (qp : Nat) : State :=
  let x := getQp s qp
  if x.st == .error || x.st == .idle then s
  else
    let s1 := bump (setQp s qp { x with st := .error }) R.ETH_QP_ERR_CNT_QP_ERR
    (transfersOn s1 qp).foldl (fun t r => failTransfer (zeroFail t r) r) s1

/-- The queue pairs of an association. -/
def assocQps (s : State) (a : Nat) : List Nat :=
  (s.port.qps.filter fun e => e.2.assoc == a && e.2.st != .idle).map (·.1)

/-- A queue pair fails; an admin queue pair takes its whole association with it (R222). -/
def qpError (s : State) (qp : Nat) : State :=
  let x := getQp s qp
  if x.admin then (assocQps s x.assoc).foldl oneQpError (oneQpError s qp) else oneQpError s qp

/-! ## The dirty-page log (R260, R261) -/

/-- Mark pages of a PCIe-bound tenant's DMA space; a page beyond the covered range sets OUT_RANGE. -/
def markPages (s : State) (t : Nat) (pages : List Nat) : State :=
  let x := getTen s t
  if x.dirty.en && !x.blk.fabric then
    let inside := pages.filter fun p => decide (p < x.dirty.pages)
    setTen s t { x with dirty := { x.dirty with
      marked := (x.dirty.marked ++ inside).eraseDups
      outRange := x.dirty.outRange || decide (inside.length < pages.length) } }
  else s

/-- The pages that a write of some bytes at an address touches. -/
def pagesOf (addr len : Nat) : List Nat :=
  if len = 0 then [] else (List.range ((addr + len - 1) / 4096 - addr / 4096 + 1)).map (· + addr / 4096)

/-! ## Transfer modes (R95, Table 4.7) -/

/-- Whether the order's command arrived over RDMA: at this device, or at the head that forwarded it (R402). -/
def Slot.overRdma (x : Slot) : Bool := x.qp.isSome || (x.pcie.isNone && x.viaRdma)

/-- Whether a mode is allowed for the order's command. -/
def modeAllowed (x : Slot) (m : Nat) : Bool :=
  match m with
  | 0 => x.kind == .standard || x.kind == .patternOnly
  | 1 | 2 => !x.overRdma
  | 3 => x.overRdma
  | _ => false

/-- The rkey of a transfer: v[c][31:0] in mode 3. -/
def rkeyOf (x : Slot) (m : Nat) (f : Fields) : W32 := if m = 3 then (x.val f.c).truncate 32 else 0

/-- The unused places of HGET and HPUT by mode. -/
def transferUnused (f : Fields) : Bool :=
  match f.mod.toNat % 8 with
  | 0 => unusedZero f true false false 0xF 32
  | 3 => unusedZero f true true true 0xF 0
  | 1 | 2 => unusedZero f true true false 0xF 0
  | _ => false

/-- Bytes that the command's data pointer describes from an offset; PRP entries name pages and no length (DEDUCED, log entry
151). -/
def describedFrom (x : Slot) (off : Nat) : Option Nat :=
  match x.cmd.ptr with
  | .prp => none
  | .host len => some (len - off)
  | .inCapsule _ len => some (len - off)
  | .keyed _ len _ _ => some (len - off)
  | _ => some 0

/-- Whether mode 0 describes a length other than the handle's (R96). A device pattern moves a long transfer in pieces,
so a piece only may not be too long for what is described (R109, log entry 13). -/
def mode0MismatchAt (x : Slot) (off len : Nat) : Bool :=
  match describedFrom x off with
  | some n => if x.kind == .standard || ((x.pc.pat.map fun n => decide (n < 0x100)).getD false) then decide (n < len) else n != len
  | none => false

/-- The same for the offset that an HGET or HPUT names. -/
def mode0Mismatch (x : Slot) (f : Fields) (len : Nat) : Bool := mode0MismatchAt x (f.i 31 0) len

/-- The host address of a transfer, as its operands give it. -/
def hostAddr (x : Slot) (f : Fields) : W64 :=
  if f.mod.toNat % 8 = 0 then BitVec.ofNat 64 (f.i 31 0) else x.val f.b

/-- Count the cause of a failed transfer by the port of its command (R233). -/
def countTransferFail (s : State) (x : Slot) : State :=
  if x.pcie.isSome then bump s R.PCI_DMA_ERR_CNT_DMA_ERR else bump s R.ETH_LEN_CNT_LEN

/-- The bytes of in-capsule data that mode 0 reads. -/
def capsuleBytes (x : Slot) (f : Fields) (len : Nat) : List Byte :=
  match x.cmd.ptr with
  | .inCapsule off _ => sub x.data (off + f.i 31 0) len
  | _ => []

/-- Whether mode 0 names in-capsule data. -/
def dataInCapsule (x : Slot) : Bool := match x.cmd.ptr with
  | .inCapsule _ _ => true
  | _ => false

/-- The same for a transfer of mode 0. -/
def inCapsule (x : Slot) (f : Fields) : Bool := f.mod.toNat % 8 == 0 && dataInCapsule x

/-! ## RDMA READ requests (R213) -/

/-- RDMA READ requests of a queue pair that are outstanding: those of its HGETs, and those of order texts. -/
def readsOut (s : State) (qp : Nat) : Nat :=
  (s.ord.reqs.filter fun e => match e.2 with
    | some q => q.op == 0x40 && q.phase == .queued && (getSlot s q.slot).qp == some qp
    | none => false).length
    + (s.ord.slots.filter fun e => e.2.st == .arriving && e.2.kind == .byPointer && e.2.stage == 1 && e.2.qp == some qp).length

/-- The outstanding requests that a queue pair may have: READ_DEPTH as it stood when it was connected; a value outside 1
to 16 counts as the nearest of them (DESIGN CHOICE, log entry 67). -/
def readDepth (s : State) (qp : Nat) : Nat := min 16 (max 1 (R.ETH_RT_CTRL_READ_DEPTH.of (getQp s qp).rtWord))

/-- Whether a command's port can send one more read: a queue pair within its depth, or PCIe. -/
def readRoom (s : State) (x : Slot) : Bool := match x.qp with
  | some qp => decide (readsOut s qp < readDepth s qp)
  | none => true

/-- Ask the host for the text of a by-pointer order, when its port can send the read. -/
def readText (s : State) (k : Nat) : State :=
  if readRoom s (getSlot s k) then emit (updSlot s k fun x => { x with stage := 1 }) (.textRead k) else s

/-- Ask the host for the bytes of an HGET, when its port can send the read; else the request waits. -/
def readData (s : State) (x : Slot) (rid : Nat) : State :=
  if readRoom s x then emit (updReq s rid fun q => { q with phase := .queued }) (.hostRead rid)
  else updReq s rid fun q => { q with phase := .readWait }

/-- Once a read of a queue pair has ended, the next that waits is sent: order texts by slot, then HGETs by request. -/
def nextRead (s : State) (x : Slot) : State :=
  match x.qp with
  | none => s
  | some qp =>
    match s.ord.slots.find? fun e => e.2.st == .arriving && e.2.kind == .byPointer && e.2.stage == 0 && e.2.qp == some qp with
    | some e => readText s e.1
    | none =>
      match s.ord.reqs.find? fun e => match e.2 with
          | some q => q.phase == .readWait && (getSlot s q.slot).qp == some qp
          | none => false with
      | some e => readData s (getSlot s ((e.2.map (·.slot)).getD 0)) e.1
      | none => s

/-- HGET starts: data in the capsule is at hand; a queue pair in error or a wrong length ends it at once; else the
bytes are asked of the host. -/
def hgetStart (x : Slot) (f : Fields) (len : Nat) (s : State) (rid : Nat) : State :=
  if qpBroken s x then failTransfer s rid
  else if f.mod.toNat % 8 = 0 ∧ mode0Mismatch x f len = true then failTransfer (countTransferFail s x) rid
  else if inCapsule x f then
    match getReq s rid with
    | some q => complete (produce s q (capsuleBytes x f len)) rid St.ok none
    | none => s
  else readData s x rid

/-- HGET as an asynchronous instruction. -/
def hgetOp (s : State) (k : Nat) (f : Fields) : AsyncOp :=
  let x := getSlot s k
  { wellUsed := transferUnused f, reads := [], writes := bufsOf [x.hdl f.a], ctx := none
    check := fun t => if modeAllowed x (f.mod.toNat % 8) then needHandles t [x.hdl f.a] [] else St.illegalOp
    start := fun t rid => hgetStart x f (((x.hdl f.a).map (·.len)).getD 0) t rid }

/-- HGET. -/
def execHget (slot : Nat) (f : Fields) (s : State) : Answer :=
  stepIf s (atWord s slot 0x40 f) (asyncWord s slot 0x40 f (hgetOp s slot f))

/-- The pages that a write at a known contiguous address marks (R261). -/
def markWrite (s : State) (x : Slot) (f : Fields) (len : Nat) : State :=
  if f.mod.toNat % 8 = 1 then markPages s x.tenant (pagesOf (x.val f.b).toNat len) else s

/-- HPUT starts: its bytes leave for the host; in-capsule data cannot be written (log entry 13). -/
def hputStart (x : Slot) (f : Fields) (d : Option Hdl) (s : State) (rid : Nat) : State :=
  let len := (d.map (·.len)).getD 0
  if qpBroken s x then failTransfer s rid
  else if f.mod.toNat % 8 = 0 ∧ (mode0Mismatch x f len || inCapsule x f) = true then
    failTransfer (countTransferFail s x) rid
  else
    let s1 := updReq s rid fun q => { q with phase := .queued }
    let m := f.mod.toNat % 8
    markWrite (emit s1 (.hostWrite (match getReq s rid with
      | some q => q.slot
      | none => 0) m (rkeyOf x m f) (hostAddr x f) ((d.map (hdlBytes s)).getD []))) x f len

/-- HPUT as an asynchronous instruction. -/
def hputOp (s : State) (k : Nat) (f : Fields) : AsyncOp :=
  let x := getSlot s k
  { wellUsed := transferUnused f, reads := bufsOf [x.hdl f.a], writes := [], ctx := none
    check := fun t =>
      if modeAllowed x (f.mod.toNat % 8) then needHandles t [x.hdl f.a] [x.hdl f.a] else St.illegalOp
    start := fun t rid => hputStart x f (x.hdl f.a) t rid }

/-- HPUT. -/
def execHput (slot : Nat) (f : Fields) (s : State) : Answer :=
  stepIf s (atWord s slot 0x41 f) (asyncWord s slot 0x41 f (hputOp s slot f))

/-! ## NOTE (R106, Table 4.12) -/

/-- The notice record. -/
def noticeBytes (s : State) (x : Slot) (f : Fields) : List Byte :=
  leBytes 8 (x.val f.a).toNat ++ leBytes 2 x.cmd.cid.toNat ++ leBytes 2 (x.notices + 1) ++ leBytes 4 s.tb.count

/-- NOTE starts: the notice leaves, and its number is used. -/
def noteStart (x : Slot) (k : Nat) (f : Fields) (s : State) (rid : Nat) : State :=
  let s0 := updSlot s k fun y => { y with notices := y.notices + 1 }
  if qpBroken s x then failTransfer s0 rid
  else
    let m := if f.m 0 then 3 else 1
    let s1 := emit (updReq s0 rid fun q => { q with phase := .queued })
      (.notice k m (rkeyOf x m f) (x.val f.b) (noticeBytes s x f))
    if f.m 0 then s1 else markPages s1 x.tenant (pagesOf (x.val f.b).toNat 16)

/-- NOTE as an asynchronous instruction. -/
def noteOp (s : State) (k : Nat) (f : Fields) : AsyncOp :=
  let x := getSlot s k
  { wellUsed := unusedZero f true true (f.m 0) 9 0, reads := [], writes := [], ctx := none
    check := fun _ => if modeAllowed x (if f.m 0 then 3 else 1) then St.ok else St.illegalOp
    start := fun t rid => noteStart x k f t rid }

/-- NOTE. -/
def execNote (slot : Nat) (f : Fields) (s : State) : Answer :=
  stepIf s (atWord s slot 0x91 f) (asyncWord s slot 0x91 f (noteOp s slot f))

/-! ## What the host answers -/

/-- The answer to an HGET, HPUT or NOTE (R96, R233): the whole length, or a failure under R69; a remote access error
also puts the queue pair in error. -/
def hostAnswer (s : State) (rid : Nat) (q : Req) (r : HostReply) : State :=
  let x := getSlot s q.slot
  let fail := failTransfer (countTransferFail s x) rid
  match r with
  | .done data pages =>
    if q.op = 0x40 then
      match q.ha with
      | some d => if data.length = d.len then deliver (produce s q data) rid St.ok none else fail
      | none => fail
    else deliver (markPages s q.tenant pages) rid St.ok none
  | .accessError => match x.qp with
    | some qp => qpError fail qp
    | none => fail
  | _ => fail

end Sys2Proof.Machine
end

