-- ==== Sys2Proof/Machine/Sha2.lean ====
section
/-! DEFINITION. SHA-256, SHA-512 and HMAC-SHA-256 as FIPS 180-4 and FIPS 198-1 define them, with the KDF of R265
(SP 800-108r1 in counter mode). The standards are cited by the spec and their text is not in it (log entry 8). -/

namespace Sys2Proof.Machine

/-- The first 40 round constants of SHA-512; the upper halves of the first 64 are those of SHA-256. -/
def shaKA : List Nat :=
  [0x428A2F98D728AE22, 0x7137449123EF65CD, 0xB5C0FBCFEC4D3B2F, 0xE9B5DBA58189DBBC,
   0x3956C25BF348B538, 0x59F111F1B605D019, 0x923F82A4AF194F9B, 0xAB1C5ED5DA6D8118,
   0xD807AA98A3030242, 0x12835B0145706FBE, 0x243185BE4EE4B28C, 0x550C7DC3D5FFB4E2,
   0x72BE5D74F27B896F, 0x80DEB1FE3B1696B1, 0x9BDC06A725C71235, 0xC19BF174CF692694,
   0xE49B69C19EF14AD2, 0xEFBE4786384F25E3, 0x0FC19DC68B8CD5B5, 0x240CA1CC77AC9C65,
   0x2DE92C6F592B0275, 0x4A7484AA6EA6E483, 0x5CB0A9DCBD41FBD4, 0x76F988DA831153B5,
   0x983E5152EE66DFAB, 0xA831C66D2DB43210, 0xB00327C898FB213F, 0xBF597FC7BEEF0EE4,
   0xC6E00BF33DA88FC2, 0xD5A79147930AA725, 0x06CA6351E003826F, 0x142929670A0E6E70,
   0x27B70A8546D22FFC, 0x2E1B21385C26C926, 0x4D2C6DFC5AC42AED, 0x53380D139D95B3DF,
   0x650A73548BAF63DE, 0x766A0ABB3C77B2A8, 0x81C2C92E47EDAEE6, 0x92722C851482353B]

/-- The other 40 round constants of SHA-512. -/
def shaKB : List Nat :=
  [0xA2BFE8A14CF10364, 0xA81A664BBC423001, 0xC24B8B70D0F89791, 0xC76C51A30654BE30,
   0xD192E819D6EF5218, 0xD69906245565A910, 0xF40E35855771202A, 0x106AA07032BBD1B8,
   0x19A4C116B8D2D0C8, 0x1E376C085141AB53, 0x2748774CDF8EEB99, 0x34B0BCB5E19B48A8,
   0x391C0CB3C5C95A63, 0x4ED8AA4AE3418ACB, 0x5B9CCA4F7763E373, 0x682E6FF3D6B2B8A3,
   0x748F82EE5DEFB2FC, 0x78A5636F43172F60, 0x84C87814A1F0AB72, 0x8CC702081A6439EC,
   0x90BEFFFA23631E28, 0xA4506CEBDE82BDE9, 0xBEF9A3F7B2C67915, 0xC67178F2E372532B,
   0xCA273ECEEA26619C, 0xD186B8C721C0C207, 0xEADA7DD6CDE0EB1E, 0xF57D4F7FEE6ED178,
   0x06F067AA72176FBA, 0x0A637DC5A2C898A6, 0x113F9804BEF90DAE, 0x1B710B35131C471B,
   0x28DB77F523047D84, 0x32CAAB7B40C72493, 0x3C9EBE0A15C9BEBC, 0x431D67C49C100D4C,
   0x4CC5D4BECB3E42B6, 0x597F299CFC657E2A, 0x5FCB6FAB3AD6FAEC, 0x6C44198C4A475817]

/-- Initial hash values of SHA-512; their upper halves are those of SHA-256. -/
def shaH : List Nat :=
  [0x6A09E667F3BCC908, 0xBB67AE8584CAA73B, 0x3C6EF372FE94F82B, 0xA54FF53A5F1D36F1,
   0x510E527FADE682D1, 0x9B05688C2B3E6C1F, 0x1F83D9ABFB41BD6B, 0x5BE0CD19137E2179]

/-- Word size in bytes. -/
def shaWord (big : Bool) : Nat := if big then 8 else 4

/-- Block size in bytes: 64 for SHA-256, 128 for SHA-512 (Table 2.2). -/
def shaBlock (big : Bool) : Nat := if big then 128 else 64

/-- Digest size in bytes. -/
def shaDigestLen (big : Bool) : Nat := if big then 64 else 32

/-- A word cut to the algorithm's width. -/
def shaCut (big : Bool) (x : Nat) : Nat := if big then x % 2 ^ 64 else x % 2 ^ 32

/-- Rotation to the right. -/
def shaRot (big : Bool) (x n : Nat) : Nat :=
  let w := if big then 64 else 32
  shaCut big (x / 2 ^ n ||| x * 2 ^ (w - n))

/-- The two kinds of sigma functions: two rotations and a third rotation or shift. -/
def shaSig (big : Bool) (x a b c : Nat) (shift : Bool) : Nat :=
  shaRot big x a ^^^ shaRot big x b ^^^ (if shift then x / 2 ^ c else shaRot big x c)

def shaS0 (big : Bool) (x : Nat) : Nat := if big then shaSig big x 28 34 39 false else shaSig big x 2 13 22 false
def shaS1 (big : Bool) (x : Nat) : Nat := if big then shaSig big x 14 18 41 false else shaSig big x 6 11 25 false
def shaT0 (big : Bool) (x : Nat) : Nat := if big then shaSig big x 1 8 7 true else shaSig big x 7 18 3 true
def shaT1 (big : Bool) (x : Nat) : Nat := if big then shaSig big x 19 61 6 true else shaSig big x 17 19 10 true

/-- One round: the eight working words, a schedule word and a constant. -/
def shaRound (big : Bool) (v : List Nat) (wk : Nat) : List Nat :=
  match v with
  | [a, b, c, d, e, f, g, h] =>
    let m := if big then 2 ^ 64 - 1 else 2 ^ 32 - 1
    let ch := (e &&& f) ^^^ ((m ^^^ e) &&& g)
    let maj := (a &&& b) ^^^ (a &&& c) ^^^ (b &&& c)
    let t1 := h + shaS1 big e + ch + wk
    let t2 := shaS0 big a + maj
    [shaCut big (t1 + t2), a, b, c, shaCut big (d + t1), e, f, g]
  | other => other

/-- Run the rounds over the constants, with a sliding window of the last sixteen schedule words. -/
def shaRounds (big : Bool) : List Nat → List Nat → List Nat → List Nat
  | [], _, v => v
  | k :: ks, win, v =>
    let w := win.headD 0
    let nw := shaCut big (shaT1 big (win.getD 14 0) + win.getD 9 0 + shaT0 big (win.getD 1 0) + w)
    shaRounds big ks (win.drop 1 ++ [nw]) (shaRound big v (w + k))

/-- The constants of an algorithm. -/
def shaK (big : Bool) : List Nat :=
  if big then shaKA ++ shaKB else ((shaKA ++ shaKB).take 64).map (· / 2 ^ 32)

/-- Big-endian words of a block. -/
def shaWords (big : Bool) : Nat → List Byte → List Nat
  | 0, _ => []
  | n + 1, l => ofBe (sub l 0 (shaWord big)) :: shaWords big n (l.drop (shaWord big))

/-- Compress one block into the chain. -/
def shaCompress (big : Bool) (chain : List W64) (block : List Byte) : List W64 :=
  let v := chain.map (·.toNat)
  (List.zipWith (fun a b => BitVec.ofNat 64 (shaCut big (a + b))) v (shaRounds big (shaK big) (shaWords big 16 block) v))

/-- The initial chain. -/
def shaInit (big : Bool) : List W64 := shaH.map fun h => BitVec.ofNat 64 (if big then h else h / 2 ^ 32)

/-- The digest bytes of a chain. -/
def shaDigest (big : Bool) (chain : List W64) : List Byte := chain.flatMap fun w => beBytes (shaWord big) w.toNat

/-- The padding of a message of `count` bytes (FIPS 180-4). -/
def shaPad (big : Bool) (count : Nat) : List Byte :=
  let lenBytes := 2 * shaWord big
  let used := (count + 1 + lenBytes) % shaBlock big
  0x80 :: List.replicate (if used = 0 then 0 else shaBlock big - used) 0 ++ beBytes lenBytes (8 * count)

/-- Compress the whole blocks of a byte string. -/
def shaBlocks (big : Bool) : Nat → List W64 → List Byte → List W64
  | 0, ch, _ => ch
  | n + 1, ch, l => shaBlocks big n (shaCompress big ch (l.take (shaBlock big))) (l.drop (shaBlock big))

/-- The digest of a message. -/
def sha (big : Bool) (msg : List Byte) : List Byte :=
  let all := msg ++ shaPad big msg.length
  shaDigest big (shaBlocks big (all.length / shaBlock big) (shaInit big) all)

/-- HMAC-SHA-256 (FIPS 198-1). -/
def hmac256 (key msg : List Byte) : List Byte :=
  let k0 := sub (if key.length > 64 then sha false key else key) 0 64
  sha false (k0.map (· ^^^ 0x5C) ++ sha false (k0.map (· ^^^ 0x36) ++ msg))

/-- The counter-mode KDF (R265): `len` bytes from a key, a label and a context. -/
def kdf (key label ctx : List Byte) (len : Nat) : List Byte :=
  let n := ceilDiv len 32
  ((List.range n).flatMap fun i =>
    hmac256 key (beBytes 4 (i + 1) ++ label ++ [0] ++ ctx ++ beBytes 4 (8 * len))).take len

/-- The bytes of an ASCII label. -/
def label (s : String) : List Byte := s.toList.map fun c => BitVec.ofNat 8 c.toNat

end Sys2Proof.Machine
end

