-- ==== Sys2Proof/Machine/AssayEngine.lean ====
section
/-! DEFINITION. The Assay digest engine: contexts, hash groups, state records (R103, R104, R283 to R293). -/

namespace Sys2Proof.Machine

/-! ## Allocation (R283) -/

/-- Home group of a context. -/
def homeGroup (c : Nat) : Nat := c % 8

/-- The tenant that an owner counts against: the registers count against MF. -/
def CtxOwner.tenant : CtxOwner → Option Nat
  | .free => none
  | .order _ t => some t
  | .register => some 0
  | .quench t => some t

/-- Contexts that a tenant holds, with those that await Quench (Table 10.5). -/
def ctxHeld (s : State) (t : Nat) : Nat := (s.asy.ctxs.filter fun e => e.2.owner.tenant == some t).length

/-- Contexts of a group that are not free. -/
def groupLoad (s : State) (g : Nat) : Nat :=
  (s.asy.ctxs.filter fun e => homeGroup e.1 == g && e.2.owner != .free).length

/-- The free context whose home group is least loaded, the lowest number among ties. -/
def freeContext (s : State) : Option Nat :=
  ((List.range ctxCount).filter fun c => (getCtx s c).owner == .free).foldl (fun m c => match m with
    | none => some c
    | some b => if groupLoad s (homeGroup c) < groupLoad s (homeGroup b) then some c else some b) none

/-- The context that an allocation for a tenant takes, if its quota and the pool allow; none before EXEC_EN (R286). -/
def allocContext (s : State) (t : Nat) : Option Nat :=
  if flag s R.SMT_CTRL_EXEC_EN && decide (ctxHeld s t < (getTen s t).blk.assay) then freeContext s else none

/-- A context at the start of a message. -/
def AssayCtx.begin (x : AssayCtx) (big : Bool) : AssayCtx :=
  { x with sha512 := big, chain := shaInit big, buf := [], count := 0, valid := false, err := false, result := [],
           busy := false, finishing := false, finErr := false, feed := none, rest := [] }

/-- A fresh context for an owner. -/
def freshCtx (o : CtxOwner) (big : Bool) : AssayCtx := { (ctx0 0).begin big with owner := o }

/-! ## State records (R293, Table 12.1) -/

/-- The state record of a context. -/
def AssayCtx.stateRecord (x : AssayCtx) : List Byte :=
  leBytes 2 1 ++ [if x.sha512 then 1 else 0] ++ List.replicate 5 0 ++ leBytes 8 x.count
    ++ sub (shaDigest x.sha512 x.chain) 0 64 ++ List.replicate 16 0

/-- Whether a record is valid. -/
def recordValid (r : List Byte) : Bool :=
  let big := leAt r 2 1 == 1
  leAt r 0 2 == 1 && decide (leAt r 2 1 ≤ 1) && zeros r 3 5 && zeros r 0x50 16 && (big || zeros r 0x30 32)
    && decide (leAt r 8 8 % shaBlock big = 0) && decide (leAt r 8 8 < 2 ^ 61)

/-- The chaining words of a record. -/
def recordChain (r : List Byte) : List W64 :=
  let big := leAt r 2 1 == 1
  (List.range 8).map fun i => BitVec.ofNat 64 (ofBe (sub r (0x10 + shaWord big * i) (shaWord big)))

/-- A context takes a record as its state. -/
def AssayCtx.load (x : AssayCtx) (r : List Byte) : AssayCtx :=
  { x.begin (leAt r 2 1 == 1) with chain := recordChain r, count := leAt r 8 8, ovr := false, ovrNext := false }

/-! ## Feeding and compressing -/

/-- A context whose buffer holds a whole block is BUSY until its group has compressed it (R288). -/
def AssayCtx.settle (x : AssayCtx) (n : Nat) : AssayCtx :=
  if shaBlock x.sha512 ≤ x.buf.length then { x with busy := true, readyAt := if x.busy then x.readyAt else n }
  else { x with busy := false }

/-- Take bytes of a feed until a block is full. -/
def AssayCtx.pull (x : AssayCtx) (n : Nat) : AssayCtx :=
  let k := min x.rest.length (shaBlock x.sha512 - x.buf.length)
  { x with buf := x.buf ++ x.rest.take k, rest := x.rest.drop k, count := x.count + k }.settle n

/-- Finish the message: the padding is appended from the context's own count (R288). -/
def AssayCtx.finish (x : AssayCtx) (n : Nat) : AssayCtx :=
  { x with buf := x.buf ++ shaPad x.sha512 x.count, finishing := true, finErr := x.ovr }.settle n

/-- Put a context back, waking its group when a block is ready (R285). -/
def placeCtx (s : State) (c : Nat) (x : AssayCtx) : State :=
  let s1 := setCtx s c x
  if x.busy then useDomain s1 (asDom (homeGroup c)) else s1

/-- A context waits for Quench. -/
def quenchCtx (s : State) (c : Nat) : State :=
  let x := getCtx s c
  setCtx s c { ctx0 0 with owner := .quench (x.owner.tenant.getD 0) }

/-- The work of a context whose slot has gone is discarded as one stale result (R104), whatever generation it carries. -/
def staleWork (s : State) (rid : Nat) : State :=
  match getReq s rid with
  | none => s
  | some q =>
    let s1 := discardResult s rid
    if (getTen s q.tenant).gen == q.gen then bumpAt s1 R.TEN_STALE_CNT_STALE 0 q.tenant 1 else s1

/-- The contexts of a slot that enters QUENCH (R104): freed at once, or, with a block in compression, once it has been
compressed and the work discarded. -/
def freeSlotCtxs (s : State) (k : Nat) : State :=
  s.asy.ctxs.foldl (fun t e => match e.2.owner with
    | .order sl _ => if sl == k then
        (if e.2.busy then setCtx t e.1 { e.2 with buf := e.2.buf.take (shaBlock e.2.sha512), rest := [], dying := true }
         else
          let t1 := match e.2.feed with
            | some r => staleWork t r
            | none => t
          quenchCtx t1 e.1)
      else t
    | _ => t) s

/-- At a strike the contexts that wait for Quench have been zeroed (Table 10.6). -/
def ctxStrike (s : State) : State :=
  s.asy.ctxs.foldl (fun t e => match e.2.owner with
    | .quench _ => setCtx t e.1 (ctx0 0)
    | _ => t) s

/-! ## The orders' instructions (R103) -/

/-- The context number in v[a], where the order holds it; one that waits for Quench is held by no order (R103, R104). -/
def ownCtx (s : State) (k : Nat) (v : W64) : Option Nat :=
  if v.toNat < ctxCount then
    match (getCtx s v.toNat).owner with
    | .order sl _ => if sl == k && !(getCtx s v.toNat).dying then some v.toNat else none
    | _ => none
  else none

/-- Output into a handle by its field and descriptor. -/
def produceAt (s : State) (k : Nat) (i : BitVec 4) (d : Option Hdl) (l : List Byte) : State :=
  match d with
  | some e =>
    let s1 := writeBuf s e.buf e.off l
    updSlot s1 k fun x => if x.hdl i == some e then x.setHdl i (some { e with len := l.length }) else x
  | none => s

/-- DGFEED starts: the bytes flow into the context, pacing themselves against BUSY. -/
def dgfeedStart (s : State) (rid c : Nat) (l : List Byte) : State :=
  let x := { getCtx s c with feed := some rid, rest := l }
  let x1 := if x.valid || x.err then { x.begin x.sha512 with feed := some rid, rest := l } else x
  let y := x1.pull s.tb.count
  if y.busy then placeCtx s c y else complete (setCtx s c { y with feed := none }) rid St.ok none

/-- DGFEED as an asynchronous instruction. -/
def dgfeedOp (s : State) (k : Nat) (f : Fields) : AsyncOp :=
  let x := getSlot s k
  let c := ownCtx s k (x.val f.a)
  { wellUsed := unusedZero f true true false 8 0, reads := bufsOf [x.hdl f.b], writes := [], ctx := c
    check := fun t => if c.isNone then St.badHandle else needHandles t [x.hdl f.b] [x.hdl f.b]
    start := fun t rid => dgfeedStart t rid (c.getD 0) (((x.hdl f.b).map (hdlBytes t)).getD []) }

/-- DGFEED. -/
def execDgfeed (slot : Nat) (f : Fields) (s : State) : Answer :=
  stepIf s (atWord s slot 0x73 f) (asyncWord s slot 0x73 f (dgfeedOp s slot f))

/-- Bytes that DGFIN writes. -/
def dgfinLen (x : AssayCtx) (f : Fields) : Nat := if f.mod.toNat % 4 = 2 then 96 else shaDigestLen x.sha512

/-- DGFIN starts: a state record is written at once and the context freed, or the message is finished. -/
def dgfinStart (s : State) (k rid c : Nat) (f : Fields) (d : Option Hdl) : State :=
  let x := getCtx s c
  if f.mod.toNat % 4 = 2 then quenchCtx (complete (produceAt s k f.b d x.stateRecord) rid St.ok none) c
  else
    let x1 := if x.valid || x.err then x.begin x.sha512 else x
    placeCtx s c { x1.finish s.tb.count with feed := some rid }

/-- DGFIN as an asynchronous instruction; mod[1:0] = 3 is undefined. -/
def dgfinOp (s : State) (k : Nat) (f : Fields) : AsyncOp :=
  let x := getSlot s k
  let c := ownCtx s k (x.val f.a)
  let y := getCtx s (c.getD 0)
  { wellUsed := unusedZero f true true false 0xB 0 && f.mod.toNat % 4 != 3
    reads := [], writes := bufsOf [x.hdl f.b], ctx := c
    check := fun t =>
      if c.isNone || (x.hdl f.b).isNone then St.badHandle
      else if !((x.hdl f.b).map (hdlHolds t · (dgfinLen y f))).getD false then St.bufferSize
      else if f.mod.toNat % 4 = 2 ∧ y.count % shaBlock y.sha512 ≠ 0 then St.bufferSize
      else St.ok
    start := fun t rid => dgfinStart t k rid (c.getD 0) f (x.hdl f.b) }

/-- DGFIN. -/
def execDgfin (slot : Nat) (f : Fields) (s : State) : Answer :=
  stepIf s (atWord s slot 0x74 f) (asyncWord s slot 0x74 f (dgfinOp s slot f))

/-- DGLOAD as an asynchronous instruction: a record is checked before any context is allocated (R293). -/
def dgloadOp (s : State) (k : Nat) (f : Fields) : AsyncOp :=
  let x := getSlot s k
  let imp := f.mod.toNat % 4 == 1
  let record := ((x.hdl f.b).map (hdlBytes s)).getD []
  { wellUsed := if imp then unusedZero f false true false 9 0
      else unusedZero f false false false 0xC 0
    reads := if imp then bufsOf [x.hdl f.b] else [], writes := [], ctx := none
    check := fun t =>
      firstFault [if imp then needHandles t [x.hdl f.b] [x.hdl f.b] else St.ok,
        if imp && decide (record.length < 96) then St.bufferSize else St.ok,
        if imp && !recordValid record then St.illegalOp else St.ok,
        if (allocContext t x.tenant).isNone then St.noContext else St.ok]
    start := fun t rid => match allocContext t x.tenant with
      | none => t
      | some c =>
        let y := freshCtx (.order k x.tenant) (f.m 2)
        complete (setCtx t c (if imp then y.load record else y)) rid St.ok (some (BitVec.ofNat 64 c)) }

/-- DGLOAD. -/
def execDgload (slot : Nat) (f : Fields) (s : State) : Answer :=
  stepIf s (atWord s slot 0x75 f) (asyncWord s slot 0x75 f (dgloadOp s slot f))

/-! ## The hash groups (R284, R288) -/

/-- Time of one block in tenths of a nanosecond. -/
def blockCost (big : Bool) : Nat := if big then 100 else 64

/-- Time that a group has left in this strike. -/
def groupLeft (s : State) (g : Nat) : Nat := Tbl.get nat0 s.asy.left g

/-- The grant of a strike: T for each group, with the remainder too small for any block carried (R26, R284). -/
def hashGrant (s : State) : State :=
  { s with asy := { s.asy with left := (List.range 8).foldl (fun m g =>
      Tbl.set nat0 m g (2500 * perQ s + (if groupLeft s g < 64 then groupLeft s g else 0))) s.asy.left } }

/-- A context whose block may be compressed now: ready since an earlier strike (R288). -/
def ctxReady (s : State) (c : Nat) : Bool :=
  let x := getCtx s c
  x.busy && decide (x.readyAt < s.tb.count)

/-- The context of a group whose turn it is: the next ready one in rotation (R284). -/
def groupTurn (s : State) (g : Nat) : Option Nat :=
  let last := Tbl.get nat0 s.asy.lastCtx g
  let key := fun (c : Nat) => (c + ctxCount - last) % ctxCount
  (((s.asy.ctxs.map (·.1)).filter fun c => homeGroup c == g && ctxReady s c).foldl (fun m c => match m with
    | none => some c
    | some b => if key c < key b then some c else some b) none)

/-- The end of a finish: the digest, or ERR (R289, R290); an order's digest goes to its handle, and mode 0 frees the
context. -/
def finishCtx (s : State) (c : Nat) (x : AssayCtx) : State :=
  let dig := shaDigest x.sha512 x.chain
  let y := { x with finishing := false, busy := false, valid := !x.finErr, err := x.finErr
                    result := if x.finErr then [] else dig, feed := none }
  match x.feed with
  | none => setCtx s c y
  | some rid => match getReq s rid with
    | none => setCtx s c y
    | some q =>
      let s1 := deliver (produceAt (setCtx s c y) q.slot q.fb q.hb dig)
        rid St.ok none
      if q.mod.toNat % 4 = 0 then quenchCtx s1 c else s1

/-- One block of a context has been compressed. -/
def compressOne (s : State) (c : Nat) : State :=
  let x := getCtx s c
  let n := shaBlock x.sha512
  let g := homeGroup c
  let s1 := { s with asy := { s.asy with
    left := Tbl.set nat0 s.asy.left g (groupLeft s g - blockCost x.sha512)
    lastCtx := Tbl.set nat0 s.asy.lastCtx g (c + 1) } }
  let y := { x with chain := shaCompress x.sha512 x.chain (x.buf.take n), buf := x.buf.drop n, busy := false }
  if x.dying then
    let s2 := match x.feed with
      | some r => staleWork s1 r
      | none => s1
    quenchCtx s2 c
  else if x.finishing then
    (if y.buf.isEmpty then finishCtx s1 c y else setCtx s1 c { y with busy := true })
  else
    let z := y.pull x.readyAt
    match x.feed with
    | some r => if z.busy then setCtx s1 c { z with readyAt := x.readyAt }
        else deliver (setCtx s1 c { z with feed := none }) r St.ok none
    | none => setCtx s1 c z

/-- BLOCK_COMPRESSED: the group takes the block whose turn it is, within its grant. -/
def execBlockCompressed (ctx : Nat) (s : State) : Answer :=
  stepIf s (groupTurn s (homeGroup ctx) == some ctx && domServes s (asDom (homeGroup ctx))
      && decide (blockCost (getCtx s ctx).sha512 ≤ groupLeft s (homeGroup ctx)) && strikesRun s)
    (compressOne s ctx)

/-! ## The register interface (R287 to R292) -/

/-- The address offset of a context's page. -/
def dgPage (c : Nat) : Nat := 0x100 * c

/-- Whether the registers own a context. -/
def regOwned (s : State) (c : Nat) : Bool := (getCtx s c).owner == .register

/-- A data write that is dropped sets OVR and is counted; during a finish it belongs to the next message (R289, R291). -/
def dropWrite (s : State) (c : Nat) : State :=
  let x := getCtx s c
  bump (setCtx s c { x with ovr := true, ovrNext := x.ovrNext || x.finishing }) R.DG_OVR_CNT_OVR

/-- A data write accepted after a finish starts a new message with the algorithm of DG_CTRL.ALGO (R291). -/
def newMessage (s : State) (c : Nat) : AssayCtx :=
  let x := getCtx s c
  if x.valid || x.err then
    { x.begin (rdAt s R.DG_CTRL_ALGO (dgPage c) 0 != 0) with ovr := x.ovrNext, ovrNext := false }
  else x

/-- Append bytes of a written word, unless BUSY or the limit of a message forbids (R288, R289). -/
def dataWrite (s : State) (c : Nat) (l : List Byte) (last : Bool) : State :=
  if !regOwned s c then s
  else if (getCtx s c).busy || decide (2 ^ 61 - 1 < (newMessage s c).count + l.length) then dropWrite s c
  else
    let x := newMessage s c
    let y := { x with buf := x.buf ++ l, count := x.count + l.length }
    placeCtx s c (if last then y.finish s.tb.count else y.settle s.tb.count)

/-- A command of DG_CTRL: ignored for a context the registers do not own; refused while BUSY or where its condition
fails (R287, R292). The write also stores ALGO. -/
def ctxCommand (s : State) (c : Nat) (algo : Bool) (cond : Bool) (act : AssayCtx → AssayCtx) : State :=
  if !regOwned s c then s
  else
    let s1 := wrAt s R.DG_CTRL_ALGO (dgPage c) 0 (b2n algo)
    let x := getCtx s c
    if x.busy || !cond then setCtx s1 c { x with cmdRefused := true } else setCtx s1 c (act x)

/-- The command INIT. -/
def dgInit (s : State) (ctx : Nat) (algo : Bool) : State :=
  ctxCommand s ctx algo true fun x => { x.begin algo with ovr := false, ovrNext := false }

/-- DG_INIT. -/
def execDgInit (ctx : Nat) (algo : Bool) (s : State) : Answer := stepIf s (windowOpen s) (dgInit s ctx algo)

/-- The words of a state record. -/
def recordWords (r : List Byte) : Tbl W32 :=
  Tbl.ofList w32z ((List.range 24).map fun i => (i, BitVec.ofNat 32 (leAt r (4 * i) 4)))

/-- The record that the DG_STATE registers hold. -/
def AssayCtx.recordBytes (x : AssayCtx) : List Byte :=
  (List.range 24).flatMap fun i => leBytes 4 (Tbl.get w32z x.record i).toNat

/-- The command EXPORT: the message continues. -/
def dgExport (s : State) (ctx : Nat) (algo : Bool) : State :=
  let x := getCtx s ctx
  ctxCommand s ctx algo (!x.valid && !x.err && !x.ovr && x.count % shaBlock x.sha512 == 0) fun y =>
    { y with record := recordWords y.stateRecord }

/-- DG_EXPORT. -/
def execDgExport (ctx : Nat) (algo : Bool) (s : State) : Answer := stepIf s (windowOpen s) (dgExport s ctx algo)

/-- The command IMPORT. -/
def dgImport (s : State) (ctx : Nat) (algo : Bool) : State :=
  ctxCommand s ctx algo (recordValid (getCtx s ctx).recordBytes) fun y => y.load y.recordBytes

/-- DG_IMPORT. -/
def execDgImport (ctx : Nat) (algo : Bool) (s : State) : Answer := stepIf s (windowOpen s) (dgImport s ctx algo)

/-- A write of DG_DATA, and of DG_LAST: the low DG_LAST_CNT.BYTES bytes end the message. -/
def dgData (s : State) (ctx : Nat) (value : W32) : State := dataWrite s ctx (leBytes 4 value.toNat) false
def dgLast (s : State) (ctx : Nat) (value : W32) : State :=
  dataWrite s ctx (leBytes (min 4 (rdAt s R.DG_LAST_CNT_BYTES (dgPage ctx) 0)) value.toNat) true

/-- DG_DATA_WRITE. -/
def execDgDataWrite (ctx : Nat) (value : W32) (s : State) : Answer :=
  stepIf s (windowOpen s) (dgData s ctx value)

/-- DG_LAST_WRITE. -/
def execDgLastWrite (ctx : Nat) (value : W32) (s : State) : Answer :=
  stepIf s (windowOpen s) (dgLast s ctx value)

/-- DG_ALLOC_REQUEST: writing REQ allocates a context to the registers, or sets FAIL (R283). -/
def dgAlloc (s : State) (value : W32) : State :=
  if value.getLsbD 31 then
    match allocContext s 0 with
    | some c =>
      let s1 := setCtx s c (freshCtx .register (value.getLsbD 0))
      { s1 with asy := { s1.asy with allocRes := BitVec.ofNat 32 c } }
    | none => { s with asy := { s.asy with allocRes := BitVec.ofNat 32 (s.asy.allocRes.toNat % 256 + 256) } }
  else s

/-- DG_ALLOC_REQUEST. -/
def execDgAllocRequest (req : Nat) (value : W32) (s : State) : Answer :=
  stepIf s (windowOpen s && decide (req < requesterCount)) (dgAlloc s value)

/-- A write of DG_FREE: a block in flight is discarded and Quench follows; other contexts are left alone (R287). -/
def dgFree (s : State) (value : W32) : State :=
  if regOwned s (value.toNat % 256) then quenchCtx s (value.toNat % 256) else s

/-- DG_FREE_WRITE. -/
def execDgFreeWrite (req : Nat) (value : W32) (s : State) : Answer :=
  stepIf s (windowOpen s && decide (req < requesterCount)) (dgFree s value)

end Sys2Proof.Machine
end

