-- ==== Sys2Proof/Machine/Aes.lean ====
section
/-! DEFINITION. AES-256 in the modes of Table 11.3: XTS (IEEE 1619), GCM (SP 800-38D) and CMAC (SP 800-38B). The
standards are cited by the spec and their text is not in it (log entry 8). -/

namespace Sys2Proof.Machine

/-- Double a byte in the field of AES. -/
def gfDouble (x : Nat) : Nat := if x ≥ 128 then (2 * x % 256) ^^^ 0x1B else 2 * x

/-- Product in the field of AES. -/
def gfMul (x y : Nat) : Nat :=
  ((List.range 8).foldl (fun (p : Nat × Nat) i => (if y.testBit i then p.1 ^^^ p.2 else p.1, gfDouble p.2)) (0, x)).1

/-- The inverse: the 254th power, zero for zero. -/
def gfInv (x : Nat) : Nat :=
  let x2 := gfMul x x
  let x4 := gfMul x2 x2
  let x8 := gfMul x4 x4
  let x16 := gfMul x8 x8
  let x32 := gfMul x16 x16
  let x64 := gfMul x32 x32
  let x128 := gfMul x64 x64
  gfMul x128 (gfMul x64 (gfMul x32 (gfMul x16 (gfMul x8 (gfMul x4 x2)))))

/-- Rotate a byte to the left. -/
def rot8 (x n : Nat) : Nat := (x * 2 ^ n ||| x / 2 ^ (8 - n)) % 256

/-- The substitution of a byte. -/
def aesSub (x : Nat) : Nat :=
  let b := gfInv x
  b ^^^ rot8 b 1 ^^^ rot8 b 2 ^^^ rot8 b 3 ^^^ rot8 b 4 ^^^ 0x63

/-- The inverse substitution. -/
def aesUnsub (x : Nat) : Nat := gfInv (rot8 x 1 ^^^ rot8 x 3 ^^^ rot8 x 6 ^^^ 0x05)

/-- Grow the key schedule by one four-byte word, newest word first. -/
def aesGrow (ws : List (List Nat)) (i : Nat) : List (List Nat) :=
  let prev := ws.headD []
  let base := ws.getD 7 []
  let t := if i % 8 = 0 then
      let s := (prev.drop 1 ++ prev.take 1).map aesSub
      (s.headD 0 ^^^ 2 ^ (i / 8 - 1)) :: s.drop 1
    else if i % 8 = 4 then prev.map aesSub else prev
  List.zipWith (· ^^^ ·) base t :: ws

/-- Groups of n entries. -/
def chunks {α : Type} (n : Nat) : Nat → List α → List (List α)
  | 0, _ => []
  | k + 1, l => l.take n :: chunks n k (l.drop n)

/-- The fifteen round keys of a 32-byte key. -/
def aesKeys (key : List Byte) : List (List Nat) :=
  let start := (chunks 4 8 ((sub key 0 32).map (·.toNat))).reverse
  let ws := ((List.range 52).foldl (fun w i => aesGrow w (i + 8)) start).reverse
  (chunks 4 15 ws).map List.flatten

/-- Shift the rows of a state kept column by column. -/
def aesShift (s : List Nat) (back : Bool) : List Nat :=
  (List.range 16).map fun i =>
    let r := i % 4
    let c := i / 4
    s.getD (4 * ((if back then c + 4 - r else c + r) % 4) + r) 0

/-- Mix one column with the four factors. -/
def aesMixCol (k : List Nat) (col : List Nat) : List Nat :=
  (List.range 4).map fun r => (List.range 4).foldl (fun a j => a ^^^ gfMul (k.getD ((j + 4 - r) % 4) 0) (col.getD j 0)) 0

def aesMix (k : List Nat) (s : List Nat) : List Nat := (chunks 4 4 s).flatMap (aesMixCol k)

/-- Encrypt one block of 16 bytes. -/
def aesEnc (key : List Byte) (blk : List Byte) : List Byte :=
  let ks := aesKeys key
  let s0 := List.zipWith (· ^^^ ·) ((sub blk 0 16).map (·.toNat)) (ks.headD [])
  let s := ((ks.drop 1).take 13).foldl (fun s k =>
    List.zipWith (· ^^^ ·) (aesMix [2, 3, 1, 1] (aesShift (s.map aesSub) false)) k) s0
  (List.zipWith (· ^^^ ·) (aesShift (s.map aesSub) false) (ks.getD 14 [])).map (BitVec.ofNat 8)

/-- Decrypt one block of 16 bytes. -/
def aesDec (key : List Byte) (blk : List Byte) : List Byte :=
  let ks := (aesKeys key).reverse
  let s0 := List.zipWith (· ^^^ ·) ((sub blk 0 16).map (·.toNat)) (ks.headD [])
  let s := ((ks.drop 1).take 13).foldl (fun s k =>
    aesMix [14, 11, 13, 9] (List.zipWith (· ^^^ ·) ((aesShift s true).map aesUnsub) k)) s0
  (List.zipWith (· ^^^ ·) ((aesShift s true).map aesUnsub) (ks.getD 14 [])).map (BitVec.ofNat 8)

/-! ## GCM -/

/-- Product in the field of GHASH, whose first bit is the most significant one. -/
def ghMul (x y : Nat) : Nat :=
  ((List.range 128).foldl (fun (p : Nat × Nat) i =>
    (if x.testBit (127 - i) then p.1 ^^^ p.2 else p.1,
     if p.2 % 2 = 1 then p.2 / 2 ^^^ (0xE1 * 2 ^ 120) else p.2 / 2)) (0, y)).1

/-- A byte string filled with zeros to whole blocks of 16. -/
def pad16 (l : List Byte) : List Byte := sub l 0 (16 * ceilDiv l.length 16)

def ghash (h : Nat) (l : List Byte) : Nat :=
  (chunks 16 (l.length / 16) l).foldl (fun a b => ghMul (a ^^^ ofBe b) h) 0

/-- Counter mode from a counter block. -/
def gcmCtr (key : List Byte) (iv : List Byte) : Nat → Nat → List Byte → List Byte
  | 0, _, _ => []
  | n + 1, c, l =>
    xorBytes (l.take 16) (aesEnc key (sub iv 0 12 ++ beBytes 4 c)) ++ gcmCtr key iv n (c + 1) (l.drop 16)

/-- The tag of associated data and ciphertext. -/
def gcmTag (key iv aad ct : List Byte) : List Byte :=
  let h := ofBe (aesEnc key (List.replicate 16 0))
  let s := ghash h (pad16 aad ++ pad16 ct ++ beBytes 8 (8 * aad.length) ++ beBytes 8 (8 * ct.length))
  xorBytes (beBytes 16 s) (aesEnc key (sub iv 0 12 ++ beBytes 4 1))

/-- Encryption and decryption are one operation. -/
def gcmCrypt (key iv text : List Byte) : List Byte := gcmCtr key iv (ceilDiv text.length 16) 2 text

/-! ## XTS and CMAC -/

/-- Double a tweak block (IEEE 1619: the first byte is the least significant). -/
def xtsDouble (t : List Byte) : List Byte :=
  let n := ofLe t * 2
  leBytes 16 (if n ≥ 2 ^ 128 then (n % 2 ^ 128) ^^^ 0x87 else n)

def xtsBlocks (k1 : List Byte) (dec : Bool) : Nat → List Byte → List Byte → List Byte
  | 0, _, _ => []
  | n + 1, t, l =>
    let x := xorBytes (sub l 0 16) t
    xorBytes (if dec then aesDec k1 x else aesEnc k1 x) t ++ xtsBlocks k1 dec n (xtsDouble t) (l.drop 16)

/-- Whole data units of `unit` bytes, the tweak rising by one for each (R101, Table 11.3). -/
def xts (key : List Byte) (dec : Bool) (unit : Nat) : Nat → Nat → List Byte → List Byte
  | 0, _, _ => []
  | n + 1, tweak, l =>
    xtsBlocks (sub key 0 32) dec (unit / 16) (aesEnc (sub key 32 32) (leBytes 16 tweak)) (l.take unit)
      ++ xts key dec unit n (tweak + 1) (l.drop unit)

/-- Double a subkey of CMAC. -/
def cmacDouble (l : List Byte) : List Byte :=
  let n := ofBe l * 2
  beBytes 16 (if n ≥ 2 ^ 128 then (n % 2 ^ 128) ^^^ 0x87 else n)

def cmac (key msg : List Byte) : List Byte :=
  let k1 := cmacDouble (aesEnc key (List.replicate 16 0))
  let n := max 1 (ceilDiv msg.length 16)
  let bs := chunks 16 n msg
  let last := bs.getLastD []
  let fin := if last.length = 16 then xorBytes last k1
    else xorBytes (sub (last ++ [0x80]) 0 16) (cmacDouble k1)
  (bs.dropLast ++ [fin]).foldl (fun a b => aesEnc key (xorBytes a b)) (List.replicate 16 0)

end Sys2Proof.Machine
end

