-- ==== Sys2Proof/Machine/Cipher.lean ====
section
/-! DEFINITION. Key slots, the cipher lanes and the release of plaintext (11_cipher.md, R101, R102). -/

namespace Sys2Proof.Machine

/-! ## Keys (R264 to R270) -/

/-- The USAGE bit of an operation (Table 11.2). -/
structure CipherUse where
  bit : Nat
  ktype : Nat
  deriving DecidableEq, Repr

/-- The key that an order may use for an operation: loaded, bound to the order's tenant, and allowed (R270). -/
def usableKey (s : State) (t slot : Nat) (u : CipherUse) : Option KeyRec :=
  match getKey s slot with
  | some k => if k.tenant == t && k.usage.getLsbD u.bit && k.ktype == u.ktype then some k else none
  | none => none

/-- The key that a request is bound to: in the slot still, or retired (R268). -/
def boundKey (s : State) (q : Req) : List Byte :=
  match q.key with
  | none => []
  | some (slot, ver) =>
    match getKey s slot with
    | some k => if k.version == ver then k.key else (((s.cph.retired.find? fun e => e.1 == ver).map (·.2.key)).getD [])
    | none => (((s.cph.retired.find? fun e => e.1 == ver).map (·.2.key)).getD [])

/-- Whether an outstanding request is bound to a key version. -/
def versionInUse (s : State) (ver : Nat) : Bool := s.ord.reqs.any fun e =>
  match e.2 with
  | some q => (q.key.map (·.2)) == some ver && q.phase != .done
  | none => false

/-- Retired versions whose last request has finished are quenched (R268). -/
def reapKeys (s : State) : State :=
  { s with cph := { s.cph with retired := s.cph.retired.filter fun e => versionInUse s e.1 } }

/-- Put a key in a slot, or empty it; a version still bound to requests is retired (R268). -/
def installKey (s : State) (slot : Nat) (k : Option KeyRec) : State :=
  let s1 := match getKey s slot with
    | some old => if versionInUse s old.version
        then { s with cph := { s.cph with retired := s.cph.retired ++ [(old.version, old)] } } else s
    | none => s
  setKey s1 slot k

/-- What a slot holds for a KEYLOAD of this strike: the loads before it have been made (R268). -/
def slotSeen (s : State) (slot : Nat) : Option KeyRec :=
  match (s.cph.loads.filter fun e => e.1 == slot).getLast? with
  | some e => e.2
  | none => getKey s slot

/-- The KEK of a tenant at its current epoch (R265). -/
def kekOf (s : State) (t : Nat) : List Byte :=
  kdf Config.deviceSecret (label "TRELON-KEK") (leBytes 2 t ++ leBytes 4 (epochOf s t).toNat) 32

/-- Key bytes of a blob's type. -/
def blobKeyLen (ktype : Nat) : Nat := if ktype = 2 then 64 else 32

/-- An unload: 16 bytes of which only VERSION and KTYPE count (R267). -/
def isUnload (b : List Byte) : Bool := b.length == 16 && leAt b 0 1 == 1 && leAt b 1 1 == 0

/-- The form of a blob (R267, step 1), which is not asked of an unload. -/
def blobForm (b : List Byte) : Bool :=
  let kt := leAt b 1 1
  let usage := leAt b 2 2
  isUnload b || (leAt b 0 1 == 1 && decide (leAt b 4 2 < 1024) && decide (leAt b 6 2 < 0x8000)
    && (if kt = 1 then b.length == 76 && decide (usage &&& 0x7C = usage)
        else if kt = 2 then b.length == 108 && decide (usage &&& 0x03 = usage)
        else false))

/-- The key in a blob, where its tag verifies under the KEK and the halves of an XTS key differ (R264, R267 step 4). -/
def unwrapBlob (kek b : List Byte) : Option (List Byte) :=
  let n := blobKeyLen (leAt b 1 1)
  let iv := sub b 0x10 12
  let ct := sub b 0x1C n
  let key := gcmCrypt kek iv ct
  if gcmTag kek iv (sub b 0 16) ct != sub b (0x1C + n) 16 then none
  else if n = 64 ∧ sub key 0 32 = sub key 32 32 then none
  else some key

/-- What a KEYLOAD finds, in the order of R267: a status, or the new contents of the slot. -/
def keyloadCheck (s : State) (b : List Byte) (slot t : Nat) : Except W16 (Option KeyRec) :=
  let x := getTen s t
  if !blobForm b then .error St.blobInvalid
  else if x.st != .active then .error St.keyDenied
  else if slot < x.blk.keyBase ∨ x.blk.keyBase + x.blk.keyCount ≤ slot then .error St.noKeySlot
  else if isUnload b then .ok none
  else if leAt b 8 4 ≠ (epochOf s t).toNat then .error St.blobInvalid
  else match unwrapBlob (kekOf s t) b with
    | none => .error St.blobInvalid
    | some key =>
      let pol := leAt b 6 2
      if leAt b 4 2 ≠ t ∨ (pol / 2 ^ 13 % 2 = 1 ∧ pol % 2 ^ 13 ≠ slot)
          ∨ (pol / 2 ^ 14 % 2 = 1 ∧ (slotSeen s slot).isSome = true) then .error St.keyDenied
      else .ok (some { ktype := leAt b 1 1, usage := BitVec.ofNat 16 (leAt b 2 2), tenant := t,
                       keyId := BitVec.ofNat 32 (leAt b 12 4), version := s.cph.nextVersion, key := key })

/-- Whether one more retired version would be needed and none is left (R268). -/
def retiredFull (s : State) (slot : Nat) : Bool :=
  decide (256 ≤ s.cph.retired.length) && ((getKey s slot).map fun k => versionInUse s k.version).getD false

/-- SEC takes a KEYLOAD: its outcome is in at the next strike (R268). -/
def keyloadRun (s : State) (rid : Nat) : State :=
  match getReq s rid with
  | none => s
  | some q =>
    let slot := q.vb.toNat
    if retiredFull s slot then updReq s rid fun y => { y with phase := .held }
    else
      match keyloadCheck s ((q.ha.map (hdlBytes s)).getD []) slot (bits q.vc.toNat 9 0) with
      | .error st => bump (updReq s rid fun y => { y with phase := .effect, result := st }) R.CPH_BLOB_FAIL_CNT_BLOB_FAIL
      | .ok k =>
        let s1 := updReq s rid fun y => { y with phase := .effect, result := St.ok }
        { s1 with cph := { s1.cph with loads := s1.cph.loads ++ [(slot, k)], nextVersion := s1.cph.nextVersion + 1 } }

/-- KEYLOAD as an asynchronous instruction; v[c][9:0] names the tenant. -/
def keyloadOp (s : State) (k : Nat) (f : Fields) : AsyncOp :=
  let x := getSlot s k
  { wellUsed := unusedZero f true true true 8 0, reads := bufsOf [x.hdl f.a], writes := [], ctx := none
    check := fun t => if x.tenant ≠ 0 then St.illegalOp else needHandles t [x.hdl f.a] [x.hdl f.a]
    start := keyloadRun }

/-- KEYLOAD. -/
def execKeyload (slot : Nat) (f : Fields) (s : State) : Answer :=
  stepIf s (atWord s slot 0xE2 f) (asyncWord s slot 0xE2 f (keyloadOp s slot f))

/-- At a strike the slot updates of the strike before come into force, and their results are in (R268). -/
def keyStrike (s : State) : State :=
  let s1 := s.cph.loads.foldl (fun t e => installKey t e.1 e.2) s
  let s2 := { s1 with cph := { s1.cph with loads := [] } }
  let s3 := (s2.ord.reqs.map (·.1)).foldl (fun t r => match getReq t r with
    | some q => if q.op = 0xE2 ∧ q.phase = .effect then complete t r q.result none else t
    | none => t) s2
  reapKeys ((s3.ord.reqs.map (·.1)).foldl (fun t r => match getReq t r with
    | some q => if q.op = 0xE2 ∧ q.phase = .held then keyloadRun t r else t
    | none => t) s3)

/-! ## The operands of SEAL, OPEN and MAC (R101, R102, R272) -/

/-- XTS mode: mod[1:0] = 0. -/
def isXts (m : BitVec 4) : Bool := m.toNat % 4 == 0

/-- The key slot in imm[12:0]. -/
def keySlot (imm : BitVec 40) : Nat := bits imm.toNat 12 0

/-- The XTS data unit (R101). -/
def xtsUnit (imm : BitVec 40) : Nat := 512 * 2 ^ bits imm.toNat 15 13

/-- AAD length of a GCM SEAL, in imm[27:16]. -/
def sealAad (imm : BitVec 40) : Nat := bits imm.toNat 27 16

/-- Bytes of IV at the head of a SEAL's input: none with IVGEN. -/
def sealIvLen (m : BitVec 4) : Nat := if m.getLsbD 2 then 0 else 12

/-- AAD and text lengths of a sealed record of a length (Table 4.9, R272). -/
def recordAad (b : List Byte) : Nat := leAt b 12 2
def recordText (b : List Byte) : Nat := b.length - 32 - recordAad b

/-- Whether a record's form is sound (R272). -/
def recordForm (b : List Byte) : Bool := decide (32 + recordAad b ≤ b.length) && leAt b 14 2 == 0

/-- 256 KiB: what the hold buffer takes (R276). -/
def holdSize : Nat := 262144

/-- The use that a SEAL, OPEN or MAC makes of its key (Table 11.2). -/
def cipherUse (op : Nat) (m : BitVec 4) : CipherUse :=
  if op = 0x72 then ⟨if m.getLsbD 0 then 5 else 4, 1⟩
  else if isXts m then ⟨if op = 0x70 then 0 else 1, 2⟩
  else ⟨if op = 0x70 then 2 else 3, 1⟩

/-- The unused places of SEAL and OPEN. -/
def cipherUnused (op : Nat) (f : Fields) : Bool :=
  let host := op == 0x71 && f.m 2
  if isXts f.mod then
    unusedZero f (!host) true true (if op = 0x71 then 0xC else 0x8) (if host then 40 else 16)
      && decide (f.i 15 13 ≤ 4)
  else if f.mod.toNat % 4 = 1 then
    (if op = 0x70 then unusedZero f true true (f.m 2) 0xD 28 else unusedZero f (!host) true true 0xD (if host then 40 else 13))
      && f.i 15 13 == 0
  else false

/-- The record checks of a GCM OPEN at issue (R272, R102, R277), after the slot check, and last the room that h[a] gives
the plaintext (Table 4.2), which an early release needs as well. -/
def openChecks (s : State) (x : Slot) (f : Fields) (k : KeyRec) (b : List Byte) : W16 :=
  if !recordForm b then St.bufferSize
  else if holdSize < recordText b ∧ x.hdr.early = false then St.releaseRefused
  else if holdSize < recordText b ∧ k.usage.getLsbD 6 = false then St.keyDenied
  else if !f.m 2 && !((x.hdl f.a).map (hdlHolds s · (recordText b))).getD false then St.bufferSize
  else St.ok

/-- Length checks of XTS, GCM SEAL and MAC (R101, R272). -/
def cipherLengths (s : State) (x : Slot) (op : Nat) (f : Fields) (len : Nat) : W16 :=
  let holds := fun n => ((x.hdl f.a).map (hdlHolds s · n)).getD false
  if op = 0x72 then
    (if f.m 0 then (if ((x.hdl f.a).map (·.len)).getD 0 < 16 then St.bufferSize else St.ok)
     else if holds 16 then St.ok else St.bufferSize)
  else if isXts f.mod then
    (if len % xtsUnit f.imm ≠ 0 then St.bufferSize
     else if op = 0x71 ∧ f.m 2 = true then St.ok else if holds len then St.ok else St.bufferSize)
  else if len < sealIvLen f.mod + sealAad f.imm then St.bufferSize
  else if holds (len - sealIvLen f.mod + 32) then St.ok
  else St.bufferSize

/-- The checks of a SEAL, OPEN or MAC at issue, in the order of R272. -/
def cipherCheck (s : State) (k op : Nat) (f : Fields) : W16 :=
  let x := getSlot s k
  let host := op = 0x71 ∧ f.m 2 = true
  let reads := if op = 0x72 ∧ f.m 0 = true then [x.hdl f.b, x.hdl f.a] else [x.hdl f.b]
  let b := ((x.hdl f.b).map (hdlBytes s)).getD []
  if host ∧ modeAllowed x 0 = false then St.illegalOp
  else if op = 0x71 ∧ isXts f.mod = false ∧ x.val f.c ≠ 0 then St.illegalOp
  else if needHandles s (if host then [x.hdl f.b] else [x.hdl f.a, x.hdl f.b]) [] ≠ St.ok then St.badHandle
  else match usableKey s x.tenant (keySlot f.imm) (cipherUse op f.mod) with
    | none => St.keyDenied
    | some key =>
      let st := if op = 0x71 ∧ isXts f.mod = false then openChecks s x f key b else cipherLengths s x op f b.length
      firstFault [st, needHandles s [] reads]

/-- Units of work n (Table 11.3). -/
def cipherUnits (op : Nat) (f : Fields) (b : List Byte) : Nat :=
  if op = 0x72 then max 1 (ceilDiv b.length 256)
  else if isXts f.mod then ceilDiv b.length 256
  else if op = 0x70 then ceilDiv (b.length - sealIvLen f.mod + 16) 256
  else ceilDiv (b.length - 16) 256

/-! ## Lanes (R273 to R275) -/

/-- Work that stands before a lane, in bytes (R273): queued and unfinished units, an unreleased hold buffer, a wake. -/
def laneLoad (s : State) (l : Nat) : Nat :=
  let x := getLane s l
  let q := x.queue.foldl (fun n r => n + ((getReq s r).map (·.work)).getD 0) 0
  let wake := match (getDom s (clDom l)).st with
    | .autoOff | .waking => ceilDiv 4 (perQ s) * 31
    | _ => 0
  (q + x.left + wake) * 256 + x.unreleased

/-- Lanes that take new requests: not off on the manager's order, and with room in the queue (R273, Table 14.6). -/
def laneOpen (s : State) (l : Nat) : Bool := !mgrOff s (clDom l) && decide ((getLane s l).queue.length < 64)

/-- The lane of least load, the lowest number among ties (R273). -/
def chooseLane (s : State) : Option Nat :=
  ((List.range laneCount).filter (laneOpen s)).foldl (fun m l => match m with
    | none => some l
    | some b => if laneLoad s l < laneLoad s b then some l else some b) none

/-- A request goes to a lane, or stays pending while every queue is full (R273). -/
def assignLane (s : State) (rid : Nat) : State :=
  match chooseLane s with
  | none => updReq s rid fun q => { q with phase := .held }
  | some l =>
    let x := getLane s l
    let s1 := setLane s l { x with queue := x.queue ++ [rid] }
    useDomain (updReq s1 rid fun q => { q with phase := .queued, lane := l, issued := s.tb.count }) (clDom l)

/-- SEAL, OPEN or MAC as an asynchronous instruction: it binds to the key in force (R268) and goes to a lane. -/
def cipherOp (s : State) (k op : Nat) (f : Fields) : AsyncOp :=
  let x := getSlot s k
  let host := op == 0x71 && f.m 2
  let verify := op == 0x72 && f.m 0
  { wellUsed := if op = 0x72 then unusedZero f true true false 9 13 else cipherUnused op f
    reads := bufsOf (if verify then [x.hdl f.a, x.hdl f.b] else [x.hdl f.b])
    writes := if host || verify then [] else bufsOf [x.hdl f.a], ctx := none
    check := fun t => cipherCheck t k op f
    start := fun t rid =>
      let b := ((x.hdl f.b).map (hdlBytes t)).getD []
      assignLane (updReq t rid fun q => { q with
        work := cipherUnits op f b, bytes := b
        key := (getKey t (keySlot f.imm)).map fun r => (keySlot f.imm, r.version) }) rid }

/-- SEAL. -/
def execSeal (slot : Nat) (f : Fields) (s : State) : Answer :=
  stepIf s (atWord s slot 0x70 f) (asyncWord s slot 0x70 f (cipherOp s slot 0x70 f))

/-- OPEN. -/
def execOpenRecord (slot : Nat) (f : Fields) (s : State) : Answer :=
  stepIf s (atWord s slot 0x71 f) (asyncWord s slot 0x71 f (cipherOp s slot 0x71 f))

/-- MAC. -/
def execMac (slot : Nat) (f : Fields) (s : State) : Answer :=
  stepIf s (atWord s slot 0x72 f) (asyncWord s slot 0x72 f (cipherOp s slot 0x72 f))

/-! ## What a request computes -/

/-- The output of a SEAL (Table 4.9). -/
def sealBytes (key : List Byte) (q : Req) : List Byte :=
  if isXts q.mod then xts key false (xtsUnit q.imm) (q.bytes.length / xtsUnit q.imm) q.vc.toNat q.bytes
  else
    let iv := if q.mod.getLsbD 2 then List.replicate 4 0 ++ leBytes 8 q.vc.toNat else sub q.bytes 0 12
    let aad := sub q.bytes (sealIvLen q.mod) (sealAad q.imm)
    let ct := gcmCrypt key iv (q.bytes.drop (sealIvLen q.mod + sealAad q.imm))
    iv ++ leBytes 2 aad.length ++ [0, 0] ++ aad ++ ct ++ gcmTag key iv aad ct

/-- The plaintext of an OPEN. -/
def openBytes (key : List Byte) (q : Req) : List Byte :=
  if isXts q.mod then xts key true (xtsUnit q.imm) (q.bytes.length / xtsUnit q.imm) q.vc.toNat q.bytes
  else gcmCrypt key (sub q.bytes 0 12) (sub q.bytes (16 + recordAad q.bytes) (recordText q.bytes))

/-- Whether the tag of a GCM record verifies. -/
def openTagOk (key : List Byte) (q : Req) : Bool :=
  let la := recordAad q.bytes
  let n := recordText q.bytes
  gcmTag key (sub q.bytes 0 12) (sub q.bytes 16 la) (sub q.bytes (16 + la) n) == sub q.bytes (16 + la + n) 16

/-- An OPEN whose plaintext waits in the hold buffer (R276). -/
def Req.held (q : Req) : Bool := q.op == 0x71 && !isXts q.mod && decide (recordText q.bytes ≤ holdSize)

/-- An OPEN whose plaintext goes to the host. -/
def Req.toHost (q : Req) : Bool := q.op == 0x71 && q.mod.getLsbD 2

/-- Where the plaintext starts in the command's data (R102). -/
def hostOffset (q : Req) : Nat := bits q.imm.toNat 39 16

/-- Plaintext bytes produced when so many units are done, for an OPEN that streams to its destination. -/
def producedBytes (q : Req) (unitsLeft : Nat) : Nat :=
  if isXts q.mod then min q.bytes.length ((q.work - unitsLeft) * 256)
  else min (recordText q.bytes) ((q.work - unitsLeft) * 256 - recordAad q.bytes)

/-- Length of an OPEN's plaintext. -/
def plainLen (q : Req) : Nat := if isXts q.mod then q.bytes.length else recordText q.bytes

/-- An OPEN to the host transfers as HPUT mode 0 does (R102): what the command describes from the offset must be what is
transferred, and data in the capsule cannot be written (R96, log entry 13). -/
def hostMisfit (s : State) (q : Req) : Bool :=
  q.toHost && (mode0MismatchAt (getSlot s q.slot) (hostOffset q) (plainLen q) || dataInCapsule (getSlot s q.slot))

/-- Such a transfer ends in PROG_LENGTH_MISMATCH (R69), counted by its port. -/
def misfit (s : State) (rid : Nat) (q : Req) : State := failTransfer (countTransferFail s (getSlot s q.slot)) rid

/-- The plaintext of the units done in this strike leaves for the host, unless its queue pair has failed (R277, R222) or
its length does not fit. -/
def streamHost (s : State) (rid unitsLeft : Nat) : State :=
  match getReq s rid with
  | none => s
  | some q =>
    if q.toHost && !q.held && !qpBroken s (getSlot s q.slot) && !hostMisfit s q && (getTen s q.tenant).gen == q.gen then
      let n := producedBytes q unitsLeft
      if q.delivered < n then
        emit (updReq s rid fun y => { y with delivered := n })
          (.hostWrite q.slot 0 0 (BitVec.ofNat 64 (hostOffset q + q.delivered))
            (sub (openBytes (boundKey s q) q) q.delivered (n - q.delivered)))
      else s
    else s

/-! ## The strikes of a lane -/

/-- The next request a lane may start: in order of assignment, but an OPEN that needs a hold buffer in use waits while
later requests pass it (R274, R276); a request starts at the first strike after its assignment. -/
def nextOnLane (s : State) (l : Nat) : Option Nat :=
  (getLane s l).queue.find? fun r => match getReq s r with
    | some q => decide (q.issued < s.tb.count) && !(q.held && (getLane s l).holdFull)
    | none => false

/-- A request begins on its lane. -/
def startOnLane (s : State) (l rid : Nat) : State :=
  match getReq s rid with
  | none => s
  | some q =>
    let x := getLane s l
    setLane (updReq s rid fun y => { y with phase := .serving }) l
      { x with queue := x.queue.filter (· != rid), serving := some rid, left := q.work, holdFull := x.holdFull || q.held }

/-- Spend units on the request in service and on those that follow it (R274). -/
def laneSpend (l : Nat) : Nat → Nat → State → State
  | 0, _, s => s
  | fuel + 1, g, s =>
    match (getLane s l).serving with
    | none => match nextOnLane s l with
      | none => s
      | some r => laneSpend l fuel g (startOnLane s l r)
    | some r =>
      let x := getLane s l
      if g < x.left then streamHost (setLane s l { x with left := x.left - g }) r (x.left - g)
      else
        let s1 := setLane (streamHost s r 0) l { x with serving := none, left := 0, finished := x.finished ++ [r] }
        laneSpend l fuel (g - x.left) (updReq s1 r fun q => { q with phase := .effect, doneAt := s.tb.count })

/-- Drop the requests of an old generation: the lane abandons them and zeroes the hold buffer (R275). -/
def laneAbandon (s : State) (l : Nat) : State :=
  let x := getLane s l
  let stale := fun r => match getReq s r with
    | some q => (getTen s q.tenant).gen != q.gen
    | none => true
  let dropped := (x.queue ++ x.serving.toList ++ x.finished ++ x.releasing.toList).filter stale
  if dropped.isEmpty then s
  else
    let heldGone := dropped.any fun r => !x.queue.contains r && ((getReq s r).map (·.held)).getD false
    let s1 := setLane s l { x with
      queue := x.queue.filter fun r => !stale r
      serving := if (x.serving.map stale).getD false then none else x.serving
      left := if (x.serving.map stale).getD false then 0 else x.left
      finished := x.finished.filter fun r => !stale r
      releasing := if (x.releasing.map stale).getD false then none else x.releasing
      unreleased := if (x.releasing.map stale).getD false then 0 else x.unreleased
      holdFull := x.holdFull && !heldGone }
    dropped.foldl (fun t r => complete t r St.ok none) s1

/-- The units that a lane receives in this strike (Table 2.2): 8,000 or 7,000 bytes per µs in units of 256. -/
def laneGrant (s : State) : Nat :=
  grantOf ((if flag s R.CPH_CTRL_DUMMY then 7000 else 8000) * perQ s) 1024 s.cph.sinceSet

/-- The strike of one lane. -/
def laneStrike (s : State) (l : Nat) : State :=
  let s1 := laneAbandon s l
  if domServes s1 (clDom l) then laneSpend l 130 (laneGrant s1) s1 else s1

/-- Requests that found every queue full are tried again in their order of issue. -/
def laneRetry (s : State) : State := (s.ord.reqs.map (·.1)).foldl (fun t r => match getReq t r with
  | some q => if (q.op = 0x70 ∨ q.op = 0x71 ∨ q.op = 0x72) ∧ q.phase = .held then assignLane t r else t
  | none => t) s

/-! ## The end of a request (R274, R276 to R279) -/

/-- A tag fails: it is counted (R278). -/
def countTagFail (s : State) : State := bump s R.CPH_TAG_FAIL_CNT_TAG_FAIL

/-- The hold buffer is free again. -/
def freeHold (s : State) (l : Nat) : State :=
  let x := getLane s l
  setLane s l { x with holdFull := false, releasing := none, unreleased := 0 }

/-- A held GCM OPEN is checked: released from the next strike, or refused with nothing written (R276). -/
def heldDone (s : State) (l rid : Nat) (q : Req) : State :=
  if openTagOk (boundKey s q) q then
    setLane (updReq s rid fun y => { y with phase := .releasing }) l
      { getLane s l with releasing := some rid, unreleased := recordText q.bytes }
  else deliver (countTagFail (freeHold s l)) rid St.tagFail none

/-- An early-release OPEN is checked (R277, R278): a failure zeroes a device buffer, or the host bytes that were issued. -/
def earlyDone (s : State) (rid : Nat) (q : Req) : State :=
  let key := boundKey s q
  if openTagOk key q then
    (if hostMisfit s q then misfit s rid q
     else if q.toHost then updReq s rid fun y => { y with phase := .releasing }
     else deliver (produce s q (openBytes key q)) rid St.ok none)
  else if q.toHost then
    (if q.delivered = 0 then deliver (countTagFail s) rid St.tagFail none
     else emit (countTagFail (updReq s rid fun y => { y with phase := .zeroing })) (.zeroWrite q.slot q.delivered))
  else
    let s1 := match q.ha with
      | some d => writeBuf s d.buf d.off (List.replicate (recordText q.bytes) 0)
      | none => s
    deliver (countTagFail s1) rid St.tagFail none

/-- The last unit of a request is done: its output, its tag, or the start of its release. -/
def requestDone (s : State) (l rid : Nat) (q : Req) : State :=
  let key := boundKey s q
  if q.op = 0x70 then deliver (produce s q (sealBytes key q)) rid St.ok none
  else if q.op = 0x72 then
    let tag := cmac key q.bytes
    if q.mod.getLsbD 0 then
      (if ((q.ha.map (hdlBytes s)).getD []).take 16 = tag then deliver s rid St.ok none
       else deliver (countTagFail s) rid St.tagFail none)
    else deliver (produce s q tag) rid St.ok none
  else if isXts q.mod then
    (if hostMisfit s q then misfit s rid q
     else if q.toHost then updReq s rid fun y => { y with phase := .releasing }
     else deliver (produce s q (openBytes key q)) rid St.ok none)
  else if q.held then heldDone s l rid q
  else earlyDone s rid q

/-- The request that a lane finished first. -/
def finishedOn (s : State) (l : Nat) : Option (Nat × Req) :=
  match (getLane s l).finished with
  | r :: _ => (getReq s r).map fun q => (r, q)
  | [] => none

/-- LANE_REQUEST_DONE. -/
def execLaneRequestDone (lane : Nat) (s : State) : Answer :=
  match finishedOn s lane with
  | none => .next s
  | some (rid, q) =>
    let x := getLane s lane
    .next (requestDone (setLane s lane { x with finished := x.finished.drop 1 }) lane rid q)

/-- The request whose plaintext a lane releases, once the strike after its last unit has come (R276). -/
def releasingOn (s : State) (l : Nat) : Option (Nat × Req) :=
  match (getLane s l).releasing with
  | some r => match getReq s r with
    | some q => if q.doneAt < s.tb.count then some (r, q) else none
    | none => none
  | none => none

/-- Verified plaintext has reached its destination, and the hold buffer is zeroed (R276); on a failed queue pair the
release ends as any host write there (R222). -/
def releaseDone (s : State) (l rid : Nat) (q : Req) (pages : List Nat) : State :=
  let s1 := freeHold s l
  let text := openBytes (boundKey s q) q
  if q.toHost then
    (if qpBroken s (getSlot s q.slot) then deliver s1 rid St.lengthMismatch none
     else if hostMisfit s q then misfit s1 rid q
     else deliver (markPages (emit s1 (.hostWrite q.slot 0 0 (BitVec.ofNat 64 (hostOffset q)) text)) q.tenant pages)
       rid St.ok none)
  else deliver (produce s1 q text) rid St.ok none

/-- HOLD_RELEASE_DONE. -/
def execHoldReleaseDone (lane : Nat) (pages : List Nat) (s : State) : Answer :=
  match releasingOn s lane with
  | none => .next s
  | some (rid, q) => .next (releaseDone s lane rid q pages)

/-- The request of a lane whose delivered bytes are being zeroed. -/
def zeroingOn (s : State) (l : Nat) : Option (Nat × Req) :=
  s.ord.reqs.findSome? fun e => match e.2 with
    | some q => if q.phase == .zeroing && q.lane == l then some (e.1, q) else none
    | none => none

/-- Every delivered byte has been overwritten and acknowledged (R278). -/
def zeroed (s : State) (rid : Nat) (q : Req) (pages : List Nat) : State :=
  deliver (bump (markPages s q.tenant pages) R.CPH_ZEROED_CNT_ZEROED) rid St.tagFailZeroed none

/-- ZEROING_DONE. -/
def execZeroingDone (lane : Nat) (pages : List Nat) (s : State) : Answer :=
  match zeroingOn s lane with
  | none => .next s
  | some (rid, q) => .next (zeroed s rid q pages)

/-- KEK_EPOCH_WRITE (R266): only a higher value is accepted, through the tenant that the requester selected. -/
def kekEpochWrite (s : State) (t : Nat) (value : W32) : State :=
  if (epochOf s t).toNat < value.toNat then setEpoch s t value else wr s R.CPH_STATUS_EPOCH_REFUSED 1

end Sys2Proof.Machine
end

