-- ==== Sys2Proof/Machine/Geometry.lean ====
section
/-! DEFINITION. The shape of the media: slabs, program units, rows and stripes (R114, R139, R166, R167), the accounts of
the slabs (R134, R135, R144), and the formation and release of courses (R118, R119, R124, R140, R141). -/

namespace Sys2Proof.Machine

/-! ## The die family (R197) and the sizes of Table 5.3 -/

/-- A little-endian field of the family descriptor. -/
def famField (s : State) (off len : Nat) : Nat :=
  (List.range len).foldl (fun n i =>
    n + bits (regWord s (R.FCH_FAM_WORD.key ((off + i) / 4 * 4) 0)).toNat (8 * ((off + i) % 4) + 7) (8 * ((off + i) % 4))
      * 256 ^ i) 0

/-- Planes per die, bits per cell, and the block of a plane in MiB. -/
def planes (s : State) : Nat := famField s 0x24 1
def cellBits (s : State) : Nat := if famField s 0x25 1 = 1 then 3 else 4
def blkMib (s : State) : Nat := famField s 0x26 2

/-- Bytes of a slab in native mode (Table 5.3). -/
def slabBytes (s : State) : Nat := planes s * blkMib s * 2 ^ 20

/-- Slab positions of a die: blocks per plane (Table 8.4). -/
def dieSlabs (s : State) : Nat := famField s 0x2A 2 + 1

/-- Data bytes of a course (Table 5.3). -/
def courseBytes (s : State) (bedrock : Bool) : Nat := (if bedrock then 15 else 16) * slabBytes s

/-- Bytes of a logical block: data alone, and as an order handles it, with the metadata of LBAF1 (R111, log entry 14). -/
def Namespace.lbaData (n : Namespace) : Nat := if n.lbaf = 2 then 512 else 4096
def Namespace.lbaSize (n : Namespace) : Nat := if n.lbaf = 1 then 4104 else n.lbaData

/-- Bytes of an indirection unit (Table 5.2). -/
def Namespace.iuBytes (n : Namespace) : Nat := if n.iu = 1 then 16384 else 4096

/-- Zone size and capacity in blocks (Table 5.3). -/
def Namespace.zsze (n : Namespace) : Nat := 2 ^ 32 / n.lbaData
def zcap (s : State) (n : Namespace) (bedrock : Bool) : Nat := min (courseBytes s bedrock) (2 ^ 32) / n.lbaData

/-- Blocks of a namespace. -/
def Namespace.size (n : Namespace) : Nat := if n.zoned then n.zones * n.zsze else n.blocks

/-! ## Rows, units and stripes (R166, R167) -/

/-- Pages of the program units of one wordline (Table 7.1). -/
def wordlineUnits (s : State) : List Nat :=
  match planes s, cellBits s with
  | 4, 3 => [12]
  | 5, 3 => [15]
  | 6, 3 => [9, 9]
  | 5, 4 => [12, 8]
  | 6, 4 => [12, 12]
  | _, _ => [16]

/-- Pages of the unit at a row. -/
def unitPages (s : State) (r : Nat) : Nat :=
  (wordlineUnits s).getD (r % (wordlineUnits s).length) 16

/-- First stripe of a row. -/
def rowStart (s : State) (r : Nat) : Nat :=
  let u := wordlineUnits s
  r / u.length * u.sum + (u.take (r % u.length)).sum

/-- The row that holds a stripe. -/
def rowOf (s : State) (stripe : Nat) : Nat :=
  let u := wordlineUnits s
  let r0 := stripe / u.sum * u.length
  r0 + ((List.range u.length).filter fun i => decide (0 < i) && decide (rowStart s (r0 + i) ≤ stripe)).length

/-- The planes that the unit at a row takes: the first unit of a split wordline has the lower-numbered ones (R166). -/
def unitPlanes (s : State) (r : Nat) : List Nat :=
  let u := r % (wordlineUnits s).length
  let of_ := fun (pages : Nat) => pages / cellBits s
  (List.range (of_ (unitPages s r))).map (· + of_ (((wordlineUnits s).take u).sum))

/-- The plane, the wordline and the bit page of the q-th page of the unit at a row, as PAGE_MAP of the family gives them
(R167, Table 8.4). -/
def pageSpot (s : State) (r q : Nat) : Nat × Nat × Nat :=
  let b := famField s (0x80 + 64 * (r % (wordlineUnits s).length) + q) 1
  (b % 16, r / (wordlineUnits s).length, b / 16)

/-- Data pages in a stripe. -/
def stripePages (bedrock : Bool) : Nat := if bedrock then 15 else 16

/-- Stripe and slab position of a data page (Table 7.2). -/
def pagePlace (bedrock : Bool) (i : Nat) : Nat × Nat :=
  if bedrock then
    let st := i / 15
    let j := i % 15
    (st, if j < st % 16 then j else j + 1)
  else (i / 16, i % 16)

/-- The data page at a stripe and position; none where Keystone lies. -/
def pageIndex (bedrock : Bool) (stripe pos : Nat) : Option Nat :=
  if bedrock then
    if pos = stripe % 16 then none else some (15 * stripe + (if pos < stripe % 16 then pos else pos - 1))
  else some (16 * stripe + pos)

/-- Rows of a course that are complete (R168). -/
def rowsReady (s : State) (c : Course) : Nat :=
  let pages := c.fill / 16384
  let full := rowOf s (pages / stripePages c.bedrock)
  if c.finished && decide (rowStart s full * stripePages c.bedrock * 16384 < c.fill) then full + 1 else full

/-- Data bytes that a course places in the unit of a row at a position. -/
def unitBytes (s : State) (c : Course) (r pos : Nat) : Nat :=
  (List.range (unitPages s r)).foldl (fun n q => match pageIndex c.bedrock (rowStart s r + q) pos with
    | some i => n + min 16384 (c.fill - i * 16384)
    | none => n) 0

/-- A position's unit, and rows that are verified there: back at NONE, or with the XOR-out still to end. -/
def Course.unit (c : Course) (pos : Nat) : UnitEntry :=
  c.units.toList.getD pos { row := 0, bitmap := 0, st := .none, moved := 0, sensed := 0 }
def Course.doneAt (c : Course) (pos : Nat) : Nat := c.done.getD pos 0
def Course.verifiedRows (c : Course) (pos : Nat) : Nat :=
  c.doneAt pos + (if (c.unit pos).st = .verifying then 1 else 0)

/-- Replace a position's unit. -/
def Course.setUnit (c : Course) (pos : Nat) (u : UnitEntry) : Course :=
  if h : pos < 16 then { c with units := c.units.set pos u } else c

/-- Bytes of a course that are placed and verified, and its dirty bytes (R355). -/
def verifiedBytes (s : State) (c : Course) : Nat :=
  (List.range 16).foldl (fun n pos =>
    (List.range (c.verifiedRows pos)).foldl (fun m r => m + unitBytes s c r pos) n) 0
def courseDirty (s : State) (c : Course) : Nat :=
  match c.kind with
  | .zone | .conv => c.fill - verifiedBytes s c
  | _ => 0

/-- Whether a data page still lies in the write buffer or in the staging buffer (R14, R150, R172). -/
def pageBuffered (s : State) (c : Course) (i : Nat) : Bool :=
  let p := pagePlace c.bedrock i
  decide (c.doneAt p.2 ≤ rowOf s p.1)

/-! ## Slab addresses (R141) and dies (R194) -/

/-- Channel, die and index of a slab address (Table 6.3). -/
def slabChan (a : Nat) : Nat := a % 64
def slabDie (a : Nat) : Nat := 32 * (a % 64) + a / 64 % 32
def slabIndex (a : Nat) : Nat := a / 2048

/-- Slab address of a die's slab. -/
def slabAddr (die idx : Nat) : Nat := die / 32 + (die % 32) * 64 + idx * 2048

/-- Channel of a die. -/
def dieChan (d : Nat) : Nat := d / 32

/-- Counts as free (Table 6.2). -/
def Slab.free (x : Slab) : Bool := x.st == .erased || x.st == .erasePending

/-! ## Accounts and thresholds (R134, R135, R144) -/

/-- Slabs in a state. -/
def slabsIn (s : State) (st : SlabState) : Nat := (s.med.slabs.filter fun e => e.2.st == st).length

/-- Courses borrowed by collections (R152). -/
def borrowedCourses (s : State) : Nat :=
  (s.med.domains.filter fun e => (e.2.map (·.borrowed)).getD false).length

/-- MED_SPARE (R144). -/
def spareCount (s : State) : Nat :=
  s.med.good - s.med.retiredCnt - s.med.slcReserve - s.med.systemArea - 16 * s.med.dataCourses
    - slabsIn s .relocDest - 16 * borrowedCourses s

/-- Slabs at a threshold in hundredths of a percent of the good slabs. -/
def spareAt (s : State) (th : Nat) : Nat := s.med.good * th / 10000
def spareLow (s : State) : Bool := s.med.formatted && decide (spareCount s ≤ spareAt s (rd s R.MED_SPARE_TH_LOW))
def spareFloor (s : State) : Bool := s.med.formatted && decide (spareCount s ≤ spareAt s (rd s R.MED_SPARE_TH_FLOOR))

/-- Record a threshold that is newly reached (R134, R135). -/
def spareCheck (s : State) : State :=
  let lo := spareLow s
  let fl := spareFloor s
  let s1 := if lo && !s.med.lowReported then raise s (event 231 0x0305 [(4, spareCount s)]) else s
  let s2 := if fl && !s.med.floorReported then raise s1 (event 232 0x0306 [(4, spareCount s)]) else s1
  { s2 with med := { s2.med with lowReported := lo, floorReported := fl } }

/-- The Read-Only latch sets: it is in the Cornerstone, and Hallmark records it (R136). -/
def setLatch (s : State) : State :=
  if s.med.roLatch then s
  else raise { s with med := { s.med with roLatch := true } } (event 233 0x0307 [(4, spareCount s)])

/-- A slab retires (R157, R159, R160, R161): the record names the slab and the cause of Table 17.2. -/
def retireSlab (s : State) (a cause : Nat) : State :=
  let x := getSlab s a
  if x.st = .retired then s
  else
    let s1 := setSlab s a { x with st := .retired, course := none }
    spareCheck (raise { s1 with med := { s1.med with retiredCnt := s1.med.retiredCnt + 1 } }
      (event (slabChan a) 0x0303 [(4, a), (1, cause)]))

/-! ## Forming courses (R118, R119, R140, R141) -/

/-- Zones that are active, and open. -/
def ZState.active (z : ZState) : Bool := z == .implOpen || z == .explOpen || z == .closed
def ZState.isOpen (z : ZState) : Bool := z == .implOpen || z == .explOpen

/-- Whether a course is active: its zone is, or it is an open host course (log entry 15). -/
def courseActive (s : State) (c : Course) : Bool :=
  match c.kind with
  | .zone => (getZone s c.nsid c.owner).st.active
  | .conv => c.isOpen
  | _ => false

/-- Active courses with a slab on a channel. -/
def channelActive (s : State) (ch : Nat) : Nat :=
  (s.med.courses.filter fun e => match e.2 with
    | some c => courseActive s c && c.slabs.any fun a => slabChan a == ch
    | none => false).length

/-- Free, and erased, slabs of a channel. -/
def chanSlabs (s : State) (ch : Nat) (p : Slab → Bool) : List Nat :=
  (s.med.slabs.filter fun e => slabChan e.1 == ch && p e.2).map (·.1)

/-- Channels of a mask that have free slabs. -/
def freeChannels (s : State) (mask : BitVec 64) : List Nat :=
  (List.range 64).filter fun c => mask.getLsbD c && !(chanSlabs s c Slab.free).isEmpty

/-- Insert into a list ordered by a key, after equal keys. -/
def insertBy (key : Nat → Nat) (x : Nat) : List Nat → List Nat
  | [] => [x]
  | y :: l => if key x < key y then x :: y :: l else y :: insertBy key x l

/-- A list ordered by a key; equal keys keep their order. -/
def sortBy (key : Nat → Nat) (l : List Nat) : List Nat := l.foldl (fun m x => insertBy key x m) []

/-- The P/E count that a hint asks for among erased slabs of a die (R119): the fewest, the most, or the middle. -/
def hintTarget (hint : Nat) (pes : List Nat) : Nat :=
  let l := sortBy id pes
  match hint with
  | 1 => l.headD 0
  | 3 => l.getLastD 0
  | _ => l.getD ((l.length - 1) / 2) 0

/-- The slab that formation takes on a channel (R141): of the dies that hold an erased slab, the one with the fewest
slabs in courses, and there a slab of the wear class. -/
def pickSlab (s : State) (ch hint : Nat) : Option Nat :=
  let erased := chanSlabs s ch fun x => x.st == .erased
  let dies := (erased.map slabDie).eraseDups
  let used := fun (d : Nat) => (s.med.slabs.filter fun e => slabDie e.1 == d && e.2.st == .inCourse).length
  match (sortBy used (sortBy id dies)).head? with
  | none => none
  | some d =>
    let mine := erased.filter fun a => slabDie a == d
    let want := hintTarget hint (mine.map fun a => (getSlab s a).pe)
    (sortBy slabIndex mine).find? fun a => (getSlab s a).pe == want

/-- The 16 slabs of a new course: none while a channel waits for an erase (R140) or too few channels have free slabs. -/
def formSlabs (s : State) (bay hint : Nat) : Option (List Nat) :=
  let chs := (sortBy (channelActive s) (freeChannels s (bayMask s bay))).take 16
  let got := chs.filterMap fun c => pickSlab s c hint
  if got.length = 16 then some got else none

/-- Whether a Bay can supply 16 free slabs on different channels (R127). -/
def bayHas (s : State) (bay : Nat) : Bool := decide (16 ≤ (freeChannels s (bayMask s bay)).length)

/-- A fresh unit table. -/
def noUnits : Vector UnitEntry 16 :=
  Vector.replicate 16 { row := 0, bitmap := 0, st := .none, moved := 0, sensed := 0 }

/-- Form a course from slabs: its number and the state. -/
def newCourse (s : State) (kind : CourseKind) (nsid owner bay hint : Nat) (bedrock : Bool) (slabs : List Nat) :
    State × Nat :=
  let id := s.med.nextCourse
  let st : SlabState := match kind with
    | .dest => .relocDest
    | _ => .inCourse
  let c : Course := { kind := kind, nsid := nsid, owner := owner, slabs := slabs, bedrock := bedrock, bay := bay,
                      hint := hint, isOpen := true, fill := 0, finished := false, sent := 0, keyLeft := 0,
                      done := List.replicate 16 0, units := noUnits, set := none, mends := [], closeStrike := 0,
                      lastWrite := s.tb.count, marked := false, wear := false, copied := 0, holes := [] }
  let s1 := slabs.foldl (fun t a => setSlab t a { getSlab t a with st := st, course := some id }) s
  let s2 := setCourse s1 id (some c)
  (spareCheck { s2 with med := { s2.med with nextCourse := id + 1 } }, id)

/-! ## Releasing slabs and sets (R124, R170) -/

/-- The last promised strike among the outstanding reads on some slabs. -/
def lastPromise (s : State) (slabs : List Nat) : Nat :=
  s.ord.reqs.foldl (fun m e => match e.2 with
    | some q => match q.read with
      | some p => if p.parts.any (fun x => slabs.contains x.slab) then max m p.promise else m
      | none => m
    | none => m) 0

/-- Slabs leave their course and wait for the reads admitted on them (R124). -/
def releaseSlabs (s : State) (slabs : List Nat) (retire : Nat) : State :=
  let id := s.med.nextRel
  { s with med := { s.med with
      releases := Tbl.set Tbl.absent s.med.releases id (some { slabs := slabs, until_ := lastPromise s slabs, retire := retire })
      nextRel := id + 1 } }

/-- A Mortar set goes, and its accumulators with it. -/
def clearSet (s : State) (n : Nat) : State :=
  { s with med := { s.med with
      sets := Tbl.set Tbl.absent s.med.sets n none
      resident := s.med.resident.filter (· != n)
      accs := s.med.accs.drop fun k _ => k / 16 == n } }

/-- Whether a row of a course has begun and is not verified at every position. -/
def Course.inRow (c : Course) : Bool :=
  c.keyLeft != 0 || (List.range 16).any fun p => (c.unit p).st != .none || decide (c.doneAt p < c.sent)

/-- A Mortar set is released, zero and unused, when its course is not open and no row is on its way (R170). A row whose
Keystone is being computed, or whose data-in is still to begin at a position, keeps it (log entry 55). -/
def releaseSet (s : State) (id : Nat) : State :=
  match getCourse s id with
  | none => s
  | some c => match c.set with
    | some n => if c.isOpen || c.inRow then s else clearSet (setCourse s id (some { c with set := none })) n
    | none => s

/-- Whether a program writes a slab of a course. -/
def ProgTarget.ofCourse (t : ProgTarget) (id : Nat) : Bool :=
  match t with
  | .unit c _ _ | .mend c _ _ => c == id
  | .journal => false

/-- Programs of a course that wait on dies are dropped; those launched run to their end. -/
def dropPrograms (s : State) (id : Nat) : State :=
  let mine := fun (t : ProgTarget) => t.ofCourse id
  s.fl.dies.foldl (fun t e => setDie t e.1 { getDie t e.1 with progs := (getDie t e.1).progs.filter fun p => !mine p.1 }) s

/-- Whether a read of the device serves the relocation of a course. -/
def DevUse.ofCourse (u : DevUse) (id : Nat) : Bool :=
  match u with
  | .migrate c | .mend c _ | .mendStripe c _ => c == id
  | _ => false

/-- The reads and the rebuilds of a course's relocation, or of one position's mend, end. -/
def dropDevs (s : State) (p : DevUse → Bool) (r : RebuildOf → Bool) : State :=
  { s with fl := { s.fl with devs := s.fl.devs.filter (fun e => !(e.2.any fun d => p d.use))
                             rebuilds := s.fl.rebuilds.filter fun x => !r x.what } }
def dropRelocation (s : State) (id : Nat) : State :=
  dropDevs s (·.ofCourse id) fun x => match x with
    | .mend c _ _ _ => c == id
    | .ladder _ _ => false

/-- A course ends: its set is gone, its slabs and those of its mends are released (R124, R133). -/
def dropCourse (s : State) (id : Nat) (retire : Nat) : State :=
  match getCourse s id with
  | none => s
  | some c =>
    let s1 := match c.set with
      | some n => clearSet s n
      | none => s
    let s2 := setCourse (dropRelocation (dropPrograms s1 id) id) id none
    releaseSlabs s2 (c.slabs ++ c.mends.map (·.slab) ++ c.holes.filterMap (·.2.2)) retire

/-- Operations that a die's queue holds, of 32 at most (R18, R194). -/
def dieQueue (x : Die) : Nat := x.seq.length + x.winSeq.length + x.erases.length + x.progs.length

/-- An erase enters the operation queue of its die, or waits for room in it. -/
def Die.queueErase (x : Die) (a : Nat) : Die :=
  if x.eraseWait.isEmpty ∧ dieQueue x < 32 then { x with erases := x.erases ++ [a] } else { x with eraseWait := x.eraseWait ++ [a] }

/-- Erases that waited for room enter the queue. -/
def Die.refill (x : Die) : Die :=
  let n := 32 - dieQueue x
  { x with erases := x.erases ++ x.eraseWait.take n, eraseWait := x.eraseWait.drop n }

/-- Whether a read of the device itself is still on some slabs. -/
def devOn (s : State) (slabs : List Nat) : Bool :=
  s.fl.devs.any fun e => e.2.any fun d => d.parts.any fun x => !x.decoded && slabs.contains x.slab

/-- SLAB_RELEASE: the reads admitted on the slabs have passed their promises; the slabs wait for their erase, or retire. -/
def slabRelease (s : State) (id : Nat) (x : Release) : State :=
  let s1 := { s with med := { s.med with releases := Tbl.set Tbl.absent s.med.releases id none } }
  x.slabs.foldl (fun t a =>
    if (getSlab t a).st = .retired then t
    else if x.retire ≠ 0 then retireSlab t a x.retire
    else if (getSlab t a).fail = 1 then retireSlab t a 1
    else
      let d := getDie t (slabDie a)
      setDie (setSlab t a { getSlab t a with st := .erasePending, course := none }) (slabDie a) (d.queueErase a)) s1

/-- SLAB_RELEASE (R124). -/
def execSlabRelease (rel : Nat) (s : State) : Answer :=
  match Tbl.get Tbl.absent s.med.releases rel with
  | some x => stepIf s (decide (x.until_ ≤ s.tb.count) && !devOn s x.slabs) (slabRelease s rel x)
  | none => .next s

end Sys2Proof.Machine
end

