-- ==== Sys2Proof/Machine/Pages.lean ====
section
/-! DEFINITION. The pages of a course and what stands in them (R111, R167), their XOR (R169, R177, R179), the accumulators
of the Mortar sets (R169, R171), and the choice of what rebuilds a lost page (R180). -/

namespace Sys2Proof.Machine

/-! ## Pages -/

/-- The XOR of two byte strings; the shorter one counts as followed by zeros. -/
def xorPage : List Byte → List Byte → List Byte
  | [], b => b
  | a, [] => a
  | x :: a, y :: b => (x ^^^ y) :: xorPage a b

/-- What a page holds before anything is written to it. -/
def page0 : Nat → List Byte := fun _ => []

/-- A block of a course, by the offset of its first data byte. -/
def blockAt (s : State) (id off : Nat) : Option (List Byte) := Tbl.get Tbl.absent s.med.data (placeKey id off)

/-- The offsets of the blocks of a data page of a course. -/
def pageOffs (size i : Nat) : List Nat := (List.range (16384 / size)).map fun j => i * 16384 + j * size

/-- Data bytes of a block in a course. -/
def courseBlock (s : State) (c : Course) : Nat := ((getNs s c.nsid).map (·.lbaData)).getD 4096

/-- The bytes of a data page: the data of its blocks, and behind it the metadata, which lies in the page's spare area (R111,
log entry 56). A page without a block is empty, which stands for zeros. -/
def dataPage (s : State) (id : Nat) (c : Course) (i : Nat) : List Byte :=
  let size := courseBlock s c
  let l := (pageOffs size i).map (blockAt s id)
  if l.all (·.isNone) then []
  else l.flatMap (fun b => (b.getD (List.replicate size 0)).take size) ++ l.flatMap fun b => (b.getD []).drop size

/-- The bytes of the page of a course at a stripe and position, data or Keystone. -/
def pageBytes (s : State) (id : Nat) (c : Course) (stripe pos : Nat) : List Byte :=
  match pageIndex c.bedrock stripe pos with
  | some i => dataPage s id c i
  | none => Tbl.get page0 s.med.keys (placeKey id stripe)

/-- The XOR of the pages of a stripe at some positions. -/
def stripeXor (s : State) (id : Nat) (c : Course) (stripe : Nat) (ps : List Nat) : List Byte :=
  ps.foldl (fun b p => xorPage b (pageBytes s id c stripe p)) []

/-- Store rebuilt bytes in a page: the blocks that it holds, or the Keystone page. -/
def storePage (s : State) (id : Nat) (c : Course) (stripe pos : Nat) (bytes : List Byte) : State :=
  match pageIndex c.bedrock stripe pos with
  | none => { s with med := { s.med with keys := Tbl.set page0 s.med.keys (placeKey id stripe) bytes } }
  | some i =>
    let size := courseBlock s c
    let put := fun (t : Tbl (Option (List Byte))) (e : Nat × Nat) => match Tbl.get Tbl.absent t (placeKey id e.1) with
      | none => t
      | some b =>
        let extra := b.length - size
        Tbl.set Tbl.absent t (placeKey id e.1) (some (sub bytes (e.2 * size) size ++ sub bytes (16384 + e.2 * extra) extra))
    { s with med := { s.med with data := ((pageOffs size i).zipIdx).foldl put s.med.data } }

/-- The Keystone page of a stripe is computed and stored: the XOR of its 15 data pages (R177). -/
def makeKeystone (s : State) (id : Nat) (c : Course) (stripe : Nat) : State :=
  let k := stripe % 16
  storePage s id c stripe k (stripeXor s id c stripe ((List.range 16).filter (· != k)))

/-- Copy the blocks of a byte range of a course to another place. -/
def copyContent (s : State) (src off dest into len size : Nat) : State :=
  let put := fun (t : Tbl (Option (List Byte))) (j : Nat) =>
    Tbl.set Tbl.absent t (placeKey dest (into + j * size)) (Tbl.get Tbl.absent t (placeKey src (off + j * size)))
  { s with med := { s.med with data := (List.range (len / size)).foldl put s.med.data } }

/-- What stands in courses that neither the media manager nor the journal in flash knows any more is forgotten. -/
def pruneContent (s : State) : State :=
  let gone := fun (k : Nat) => (getCourse s (k / 2 ^ 64)).isNone
    && (Tbl.get Tbl.absent s.med.jrn.flash.courses (k / 2 ^ 64)).isNone
  { s with med := { s.med with data := s.med.data.drop fun k _ => gone k
                               keys := s.med.keys.drop fun k _ => gone k
                               rev := s.med.rev.drop fun k _ => gone k } }

/-! ## Accumulators (R169, R171) -/

/-- The accumulator of a page at a position and unit page (R169). -/
def accOf (pos q : Nat) : Nat := (pos + q) % 16

/-- One accumulator of a set. -/
def accBytes (s : State) (set a : Nat) : List Byte := Tbl.get page0 s.med.accs (set * 16 + a)

/-- The 4 KiB segment of a page, at its place; the last one takes the metadata behind the data with it. -/
def segmentOf (page : List Byte) (k : Nat) : List Byte :=
  List.replicate (min page.length (4096 * k)) 0 ++ (if k = 3 then page.drop 12288 else sub page (4096 * k) (min 4096 (page.length - 4096 * k)))

/-- XOR segments of the unit of a row at a position into, or out of, the accumulators of a set: so many from one on. -/
def xorSegments (s : State) (set id : Nat) (c : Course) (row pos from_ count : Nat) : State :=
  (List.range count).foldl (fun t i =>
    let q := (from_ + i) / 4
    let k := set * 16 + accOf pos q
    let seg := segmentOf (pageBytes t id c (rowStart t row + q) pos) ((from_ + i) % 4)
    { t with med := { t.med with accs := Tbl.upd page0 t.med.accs k (xorPage · seg) } }) s

/-! ## Rebuilding (R179, R180) -/

/-- Whether the unit at a position has programmed the page of a stripe: in an earlier row, or in its present one; rows that a
replaced slab of a collection took with it are not there (R158, R180). -/
def programmedAt (s : State) (c : Course) (stripe pos : Nat) : Bool :=
  let r := rowOf s stripe
  let u := c.unit pos
  (decide (r < c.doneAt pos) || (decide (u.row = r) && (u.st == .programmed || u.st == .verifying)))
    && !(c.holes.any fun h => h.1 == pos && decide (r < h.2.1))

/-- A stripe is complete when all 16 of its units have been programmed (R180). -/
def stripeComplete (s : State) (c : Course) (stripe : Nat) : Bool := (List.range 16).all (programmedAt s c stripe)

/-- Whether a page is in its course's set: its unit is not NONE, and a bit of the page is set (R169). -/
def contributes (s : State) (c : Course) (stripe pos : Nat) : Bool :=
  let u := c.unit pos
  u.st != .none && decide (u.row = rowOf s stripe)
    && (u.bitmap >>> (4 * (stripe - rowStart s u.row))) &&& 0xF != 0

/-- The accumulator of a page. -/
def pageAcc (s : State) (p : Nat × Nat) : Nat := accOf p.2 (p.1 - rowStart s (rowOf s p.1))

/-- The pages that an accumulator's descriptor lists. -/
def accPages (s : State) (c : Course) (a : Nat) : List (Nat × Nat) :=
  (List.range 16).flatMap fun p =>
    let r := (c.unit p).row
    (((List.range (unitPages s r)).filter fun q => accOf p q == a).map fun q => (rowStart s r + q, p)).filter fun x =>
      contributes s c x.1 x.2

/-- What rebuilds a lost page at present: Keystone (true), Mortar (false) or nothing. Pages are stripe and position (R180). -/
def rebuildBy (s : State) (c : Course) (lost : List (Nat × Nat)) (x : Nat × Nat) : Option Bool :=
  let others := lost.filter (· != x)
  if c.bedrock && stripeComplete s c x.1 && !(others.any fun y => y.1 == x.1) then some true
  else if c.set.isSome && contributes s c x.1 x.2 && !((accPages s c (pageAcc s x)).any others.contains) then some false
  else none

/-- One pass over the lost pages, in stripe order: those rebuilt, with what rebuilt each, and those left. -/
def rebuildPass (s : State) (c : Course) (lost : List (Nat × Nat)) : List ((Nat × Nat) × Bool) × List (Nat × Nat) :=
  lost.foldl (fun r x => match rebuildBy s c r.2 x with
    | some k => (r.1 ++ [(x, k)], r.2.filter (· != x))
    | none => r) ([], lost)

/-- The procedure of R180: passes until one makes no progress. -/
def rebuildOrder (s : State) (c : Course) : Nat → List (Nat × Nat) → List ((Nat × Nat) × Bool) × List (Nat × Nat)
  | 0, lost => ([], lost)
  | fuel + 1, lost =>
    let r := rebuildPass s c lost
    if r.1.isEmpty then r
    else
      let t := rebuildOrder s c fuel r.2
      (r.1 ++ t.1, t.2)

/-- Lost pages in stripe order. -/
def stripeOrder (lost : List (Nat × Nat)) : List (Nat × Nat) :=
  (sortBy id (lost.map fun x => x.1 * 16 + x.2)).map fun k => (k / 16, k % 16)

/-- The bytes of a page, rebuilt (R179). -/
def rebuiltBytes (s : State) (id : Nat) (c : Course) (x : Nat × Nat) (keystone : Bool) : List Byte :=
  if keystone then stripeXor s id c x.1 ((List.range 16).filter (· != x.2))
  else
    let a := pageAcc s x
    ((accPages s c a).filter (· != x)).foldl (fun b y => xorPage b (pageBytes s id c y.1 y.2)) (accBytes s (c.set.getD 0) a)

/-- Rebuild a page and count it (R179, R190). -/
def rebuildPage (s : State) (id : Nat) (c : Course) (x : Nat × Nat) (keystone : Bool) : State :=
  let s1 := storePage s id c x.1 x.2 (rebuiltBytes s id c x keystone)
  if keystone then bump s1 R.MED_PAR_KEYSTONE_CNT_KEYSTONE else bump s1 R.MED_PAR_MORTAR_CNT_MORTAR

/-- The lost pages of a course after R180: the state with those rebuilt that can be, and the rest. -/
def rebuildLost (s : State) (id : Nat) (c : Course) (lost : List (Nat × Nat)) : State × List (Nat × Nat) :=
  let r := rebuildOrder s c lost.length (stripeOrder lost)
  (r.1.foldl (fun t x => rebuildPage t id c x.1 x.2) s, r.2)

end Sys2Proof.Machine
end

