-- ==== Sys2Proof/Machine/Gate.lean ====
section
/-! DEFINITION. The energy gate (R353, R355 to R357), the limits on zones and classes (R110, R116, R117, R127, R128), write
tokens (R248), and the placing of blocks in a course (R100, R118, R121, R123). -/

namespace Sys2Proof.Machine

/-! ## Energy (R353 to R357); energies in pJ -/

/-- Writes and openings are allowed: a test has passed and no bank fault is latched (R353). -/
def writesAllowed (s : State) : Bool := s.blw.passed && !s.blw.bankFault

/-- Data bytes of a request's blocks. -/
def planBytes (s : State) (w : WritePlan) : Nat :=
  match getNs s w.nsid with
  | some n => if n.zoned then w.blocks * n.lbaData
      else if w.blocks = 0 then 0
      else ((w.lba + w.blocks) * n.lbaData - 1) / n.iuBytes * n.iuBytes + n.iuBytes - w.lba * n.lbaData / n.iuBytes * n.iuBytes
  | none => 0

/-- D, the dirty bytes (R355): admitted and not yet placed, or placed and not yet verified. -/
def dirtyBytes (s : State) : Nat :=
  s.med.courses.foldl (fun n e => match e.2 with
    | some c => n + courseDirty s c
    | none => n)
    (s.ord.reqs.foldl (fun n e => match e.2.bind (·.write) with
      | some w => if w.gated && !w.placed then n + planBytes s w else n
      | none => n) 0)

/-- M, the Mortar charges (R188, R355): open courses, and courses that still hold a set. -/
def charges (s : State) : Nat :=
  (s.med.courses.filter fun e => match e.2 with
    | some c => (c.isOpen && (c.kind == .zone || c.kind == .conv)) || c.set.isSome
    | none => false).length

/-- Open conventional host courses (R148). -/
def convOpen (s : State) : Nat :=
  (s.med.courses.filter fun e => match e.2 with
    | some c => c.isOpen && c.kind == .conv
    | none => false).length

/-- The bank voltage that the gate computes with, in 0.1 V: as sampled, or lowered for a test (R354). -/
def gateVolts (s : State) : Nat :=
  if s.blw.periodic && (s.blw.test == .bleeding || s.blw.test == .recharging) then
    min (s.blw.v1 - rdForce s R.BLW_TEST_DV) (rd s R.BLW_CHG_TARGET)
  else min s.blw.vbank (rd s R.BLW_CHG_TARGET)

/-- E_avail at a bank voltage (R355). -/
def energyAt (s : State) (v : Nat) : Nat :=
  rd s R.BLW_MODEL_EFF_PCT * s.blw.capUf * (v * v - rd s R.BLW_MODEL_V_MIN * rd s R.BLW_MODEL_V_MIN) * 50

/-- E_base, and e_B per byte. -/
def energyBase (s : State) : Nat := rd s R.BLW_FLUSH_E_BASE * 10 ^ 9
def energyByte (s : State) : Nat := rd s R.BLW_FLUSH_E_BYTE

/-- E_need (R355). -/
def energyNeed (s : State) : Nat := energyBase s + energyByte s * (dirtyBytes s + 262144 * charges s)

/-- Dirty reservation in bytes (R356). -/
def dirtyRes (s : State) : Nat := min (rdForce s R.BLW_GATE_DIRTY_RES) 3072 * 2 ^ 20

/-- MED_OPEN_CAP (R353, R356). -/
def openCapOf (s : State) (avail : Nat) : Nat :=
  if writesAllowed s then
    min 4096 ((avail - energyBase s - energyByte s * dirtyRes s) / (energyByte s * 262144)) - convOpen s
  else 0

/-- The figures of a strike (R355 to R357). -/
def gateFigures (s : State) : State :=
  let avail := energyAt s (gateVolts s)
  let need := energyNeed s
  let unc := writesAllowed s && decide (avail < need)
  let s1 := { s with blw := { s.blw with eAvail := avail, eNeed := need, openCap := openCapOf s avail, uncovered := unc } }
  if unc && !s.blw.uncovered then raise s1 (event 237 0x0902 [(4, avail / 10 ^ 9), (4, need / 10 ^ 9)]) else s1

/-- Whether the gate admits so many bytes now (R356, R357). -/
def gateAdmits (s : State) (n : Nat) : Bool :=
  !s.blw.uncovered && decide (dirtyBytes s + n ≤ dirtyRes s)
    && decide (energyNeed s + energyByte s * n ≤ energyAt s (gateVolts s))

/-! ## Limits (R110, R116, R127, R128) -/

/-- Placed writes of a zone whose values have not returned (R100, R123). -/
def placedIn (s : State) (nsid k : Nat) : Bool := s.ord.reqs.any fun e => match e.2.bind (·.write) with
  | some w => w.placed && w.nsid == nsid && w.zone == some k
  | none => false

/-- The state a zone shows: Read Only under the latch, once its placed writes have completed (R136). -/
def shownState (s : State) (nsid k : Nat) : ZState :=
  let z := getZone s nsid k
  if s.med.roLatch && z.st != .offline && !placedIn s nsid k then .readOnly else z.st

/-- Zones that fit a test, in the states that they show. -/
def zonesWhere (s : State) (p : Nat → Zone → Bool) : Nat :=
  (s.med.zones.filter fun e => p (e.1 / 2 ^ 32) { e.2 with st := shownState s (e.1 / 2 ^ 32) (e.1 % 2 ^ 32) }).length

/-- Active and open zones of the device. -/
def activeZones (s : State) : Nat := zonesWhere s fun _ z => z.st.active
def openZones (s : State) : Nat := zonesWhere s fun _ z => z.st.isOpen

/-- Whether a namespace is attached to a tenant. -/
def attachedTo (s : State) (nsid t : Nat) : Bool := (getNs s nsid).any fun n => n.tenant == some t

/-- Active zones charged to a tenant (R110). -/
def tenantActive (s : State) (t : Nat) : Nat := zonesWhere s fun n z => z.st.active && attachedTo s n t

/-- A Bedrock zone that is not Empty or Offline counts one course (R116). -/
def Zone.bedrockCharge (z : Zone) : Bool := z.bedrock && z.st != .empty && z.st != .offline

/-- Bedrock courses charged to a tenant (R116). -/
def tenantBedrock (s : State) (t : Nat) : Nat :=
  s.med.ns.foldl (fun k e => match e.2 with
    | some n => if n.tenant = some t ∧ !n.zoned ∧ n.bedrock then k + n.committed else k
    | none => k) (zonesWhere s fun n z => z.bedrockCharge && attachedTo s n t)

/-- Whether an order's tenant reaches a namespace (R97, R110). -/
def nsAllowed (s : State) (t nsid : Nat) : Bool := (getNs s nsid).any fun n => t == 0 || n.tenant == some t

/-- Whether a tenant may use a Bay (R117). -/
def bayAllowed (s : State) (t bay : Nat) : Bool := (getTen s t).blk.bays.getLsbD bay && bayMask s bay != 0

/-- The opening conditions for a zone that leaves Empty or becomes open, in the order of R129. -/
def openCheck (s : State) (t : Nat) (n : Namespace) (bay : Nat) (bedrock leaves opens : Bool) : W16 :=
  if leaves && !bayAllowed s t bay then St.bayDenied
  else if leaves && (decide (4096 ≤ activeZones s) || spareFloor s || !bayHas s bay
      || (n.tenant.map fun a => decide ((getTen s a).blk.activeZones ≤ tenantActive s a)).getD false) then St.activeLimit
  else if opens && decide (s.blw.openCap ≤ openZones s) then St.openLimit
  else if leaves && bedrock && (n.tenant.map fun a => decide ((getTen s a).blk.bedrock ≤ tenantBedrock s a)).getD false then
    St.bedrockQuota
  else St.ok

/-! ## Tokens (R248) -/

/-- Tokens of so many bytes. -/
def tokensOf (n : Nat) : Nat := ceilDiv n 4096

/-- Whether a tenant holds write tokens; a rate of 0 charges none. -/
def hasWr (s : State) (t n : Nat) : Bool := (getTen s t).blk.wrRate == 0 || decide (n ≤ (getTen s t).wr)
def takeWr (s : State) (t n : Nat) : State :=
  if (getTen s t).blk.wrRate = 0 then s else updTen s t fun x => { x with wr := x.wr - n }
def hasRd (s : State) (t n : Nat) : Bool := (getTen s t).blk.rdRate == 0 || decide (n ≤ (getTen s t).rd)
def takeRd (s : State) (t n : Nat) : State :=
  if (getTen s t).blk.rdRate = 0 then s else updTen s t fun x => { x with rd := x.rd - n }

/-! ## The states of zones (R121, R122, R136) -/

/-- A zone of a request. -/
def WritePlan.onZone (w : WritePlan) (nsid k : Nat) : Bool := w.nsid == nsid && (w.zone == none || w.zone == some k)

/-- Whether a block of a zone belongs to a write whose value has not returned (R100). -/
def unseen (s : State) (nsid lba : Nat) : Bool := s.ord.reqs.any fun e => match e.2.bind (·.write) with
  | some w => w.placed && w.nsid == nsid && decide (w.lba ≤ lba) && decide (lba < w.lba + w.blocks)
  | none => false

/-- Whether an action on a zone waits (R123). -/
def actionWaits (s : State) (nsid k rid : Nat) : Bool := s.ord.reqs.any fun e => match e.2 with
  | some q => q.phase == .waitAction && decide (e.1 < rid) && (q.write.any fun w => w.onZone nsid k)
  | none => false

/-- Writes of a zone that wait in the gate or in placement. -/
def writesAhead (s : State) (nsid k rid : Nat) : Bool := s.ord.reqs.any fun e => match e.2 with
  | some q => decide (e.1 < rid) && q.op != 0x53 && (q.write.any fun w => !w.placed && w.onZone nsid k)
      && (q.phase == .gate || q.phase == .placed || q.phase == .pending)
  | none => false

/-! ## Courses of zones -/

/-- Change a course's openness; a course that leaves open closes at this strike, and its set may go (R170, R188). -/
def setOpen (s : State) (id : Nat) (o : Bool) : State :=
  releaseSet (updCourse s id fun c => { c with isOpen := o, closeStrike := if c.isOpen && !o then s.tb.count else c.closeStrike }) id

/-- The last partial row counts as complete (R168). -/
def finishCourse (s : State) (id : Nat) : State := setOpen (updCourse s id fun c => { c with finished := true }) id false

/-- The mends of a course end: their slabs are released, and their reads, rebuilds and programs go (R133). -/
def dropMends (s : State) (id : Nat) : State :=
  match getCourse s id with
  | none => s
  | some c =>
    if c.mends.isEmpty then s
    else
      let mine := fun (t : ProgTarget) => match t with
        | .mend k _ _ => k == id
        | _ => false
      let s1 := dropRelocation (setCourse s id (some { c with mends := [] })) id
      let s2 := s1.fl.dies.foldl (fun t e =>
        setDie t e.1 { getDie t e.1 with progs := (getDie t e.1).progs.filter fun p => !mine p.1 }) s1
      releaseSlabs s2 (c.mends.map (·.slab)) 0

/-- Abandon a zone's relocation: the destination is released (R133); mends are dropped with their slabs. -/
def abandonMoves (s : State) (nsid k : Nat) : State :=
  let z := getZone s nsid k
  let s1 := match z.moveTo with
    | some d => dropCourse s d 0
    | none => s
  let s2 := match z.course with
    | some c => dropMends s1 c
    | none => s1
  setZone s2 nsid k { z with hidden := .steady, moveTo := none, cutAt := none }

/-- Blocks of a range are neither unrecovered nor deallocated any more. -/
def clearMarks (s : State) (nsid lo hi : Nat) : State :=
  let inside := fun (k : Nat) => decide (blockKey nsid lo ≤ k) && decide (k < blockKey nsid hi)
  { s with med := { s.med with unrec := s.med.unrec.filter (fun k => !inside k), gone := s.med.gone.filter fun k => !inside k } }

/-- A zone becomes Empty or Offline: its course goes, and as it becomes Empty its class and extension too (R115, R116,
R121, R126). -/
def emptyZone (s : State) (n : Namespace) (nsid k : Nat) (st : ZState) : State :=
  let s1 := abandonMoves s nsid k
  let z := getZone s1 nsid k
  let s2 := match z.course with
    | some c => dropCourse s1 c 0
    | none => s1
  clearMarks (setZone s2 nsid k (if st = .offline then { z with st := st, course := none } else { zone0 0 with st := st }))
    nsid (k * n.zsze) ((k + 1) * n.zsze)

/-- A zone becomes Full, by its last block or by Finish: no more data comes, and without data it holds no course (R121,
R122). Finish alone abandons a relocation (R133). -/
def fillZone (s : State) (nsid k : Nat) (finish : Bool) : State :=
  let s1 := if finish then abandonMoves s nsid k else s
  let z := getZone s1 nsid k
  let s2 := setZone s1 nsid k { z with st := .full, course := if z.wp = 0 then none else z.course }
  match z.course with
  | some c => if z.wp = 0 then dropCourse s2 c 0 else finishCourse s2 c
  | none => s2

/-- A zone takes a new course and its Bay, hint and class as it leaves Empty (R115, R118). -/
def openEmpty (s : State) (nsid k bay hint : Nat) (bedrock : Bool) (slabs : List Nat) (st : ZState) : State :=
  let r := newCourse s .zone nsid k bay hint bedrock slabs
  let z := { getZone s nsid k with
    st := st, bay := bay, hint := hint, bedrock := bedrock, classSet := true, course := some r.2 }
  let s1 := setZone r.1 nsid k z
  if st.isOpen then s1 else setOpen s1 r.2 false

/-- Note host bytes as placed in a course (R359). -/
def noteBytes (s : State) (course off len : Nat) : State :=
  { s with med := { s.med with ledger := s.med.ledger ++ [(course, off, len)] } }

/-- Store one block at a place of a course: data bytes and metadata. -/
def storeBlock (s : State) (course off : Nat) (bytes : List Byte) : State :=
  { s with med := { s.med with data := Tbl.set Tbl.absent s.med.data (placeKey course off) (some bytes) } }

/-- Store the blocks of a zone write, from an offset of its course on. -/
def storeBlocks (s : State) (n : Namespace) (course off : Nat) (bytes : List Byte) (count : Nat) : State :=
  (List.range count).foldl (fun t i =>
    storeBlock t course (off + i * n.lbaData) (sub bytes (i * n.lbaSize) n.lbaSize)) s

/-- Under the Read-Only latch an active zone whose placed writes have completed is Read Only: it is neither open nor active
any more, its Mortar charge goes, and an unwritten one holds no course (R121, R136). Empty and Full zones keep what they
are, and show Read Only. -/
def latchZone (s : State) (nsid k : Nat) : State :=
  let z := getZone s nsid k
  if !(z.st.active && shownState s nsid k == .readOnly) then s
  else
    let s1 := setZone s nsid k { z with st := .readOnly, course := if z.wp = 0 then none else z.course }
    match z.course with
    | some c => if z.wp = 0 then dropCourse s1 c 0 else setOpen s1 c false
    | none => s1

/-- Every zone under the latch. -/
def latchStrike (s : State) : State :=
  if s.med.roLatch then s.med.zones.foldl (fun t e => latchZone t (e.1 / 2 ^ 32) (e.1 % 2 ^ 32)) s else s

end Sys2Proof.Machine
end

