-- ==== Sys2Proof/Machine/Zones.lean ====
section
/-! DEFINITION. Zone writes, zone actions and zone reports (R97, R98, R100, R115 to R129, R136). -/

namespace Sys2Proof.Machine

/-! ## Operands of the media instructions (R97) -/

/-- The NSID of a media instruction. -/
def nsidOf (x : Slot) (f : Fields) : Nat := (x.val f.c).toNat % 2 ^ 32

/-- The checks of R97 that need no state of a zone: namespace, kind, whole blocks, the end of the namespace, and the zone
start where the instruction must name one. -/
def mediaCheck (s : State) (t nsid lba bytes : Nat) (zoned start : Bool) : W16 :=
  match getNs s nsid with
  | none => St.nsDenied
  | some n =>
    if !nsAllowed s t nsid then St.nsDenied
    else if n.zoned != zoned then St.illegalOp
    else if bytes % n.lbaSize ≠ 0 then St.bufferSize
    else if n.size < lba + bytes / n.lbaSize ∨ n.size ≤ lba then St.lbaRange
    else if start ∧ lba % n.zsze ≠ 0 then St.illegalOp
    else St.ok

/-- Bay and hint that a write names: its own, or the header's (R97, R118). -/
def writeBay (x : Slot) (f : Fields) : Option (Nat × Nat) :=
  if f.imm.getLsbD 10 then some (f.i 7 0, f.i 9 8) else x.hdr.bay

/-- The class that a write names (R97, R115). -/
def writeClass (f : Fields) : Option Bool := if f.imm.getLsbD 12 then some (f.imm.getLsbD 11) else none

/-- Bay, hint and class of an opening, with the fallbacks of the namespace (R115, R118). -/
def openAs (n : Namespace) (w : WritePlan) : Nat × Nat × Bool :=
  let b := w.bay.getD (n.bay, 0)
  (b.1, b.2, w.cls.getD n.bedrock)

/-! ## Writes to zones (R100, R122, R129) -/

/-- Blocks that a write takes the zone to, and whether it may: steps 2 to 6 of R129. `fresh` says that the gate has not
yet admitted it, so that R353 applies (R354). -/
def zoneWriteCheck (s : State) (t op : Nat) (w : WritePlan) (n : Namespace) (k : Nat) (fresh : Bool) : W16 :=
  let z := getZone s w.nsid k
  let o := openAs n w
  let bedrock := if z.st = .empty then o.2.2 else z.bedrock
  if fresh && !writesAllowed s then St.notIdle
  else if s.med.roLatch then St.readOnly
  else if z.st = .full then St.zoneFull
  else if z.st = .readOnly then St.readOnly
  else if z.st = .offline then St.zoneTransition
  else if op = 0x52 ∧ w.lba ≠ k * n.zsze + z.wp then St.wpMismatch
  else if zcap s n bedrock < z.wp + w.blocks then St.zoneBoundary
  else match z.st with
    | .empty => openCheck s t n o.1 bedrock true true
    | .closed => openCheck s t n z.bay bedrock false true
    | _ => St.ok

/-- A request ends in the present strike with a status; it holds no energy and no place any more. -/
def endWrite (s : State) (rid : Nat) (st : W16) (value : Option W64) : State :=
  complete (updReq s rid fun q => { q with write := if st = St.ok then q.write else none }) rid st value

/-- The bytes of a write as they are stored at a write pointer: the reference tag of each block of a remapped append rises by
the place it gets (R111, log entry 66). -/
def remapTags (n : Namespace) (w : WritePlan) (wp : Nat) : List Byte :=
  if w.remap then (List.range w.blocks).flatMap fun i =>
    let b := sub w.bytes (i * n.lbaSize) n.lbaSize
    b.take 4100 ++ beBytes 4 ((ofBe (b.drop 4100) + wp) % 2 ^ 32)
  else w.bytes

/-- Place a write in its zone: its LBAs, its data, the pointer and the state (R100, R118, R122). -/
def placeInZone (s : State) (rid op : Nat) (t : Nat) (w : WritePlan) (n : Namespace) (k : Nat) (slabs : List Nat) : State :=
  let o := openAs n w
  let z0 := getZone s w.nsid k
  let s1 := match z0.st with
    | .empty => openEmpty s w.nsid k o.1 o.2.1 o.2.2 slabs .implOpen
    | .closed => setOpen (setZone s w.nsid k { z0 with st := .implOpen }) (z0.course.getD 0) true
    | _ => s
  let z := getZone s1 w.nsid k
  let first := k * n.zsze + z.wp
  let id := z.course.getD 0
  let s2 := storeBlocks s1 n id (z.wp * n.lbaData) (remapTags n w z.wp) w.blocks
  let s3 := noteBytes (updCourse s2 id fun c =>
    { c with fill := c.fill + w.blocks * n.lbaData, lastWrite := s.tb.count }) id (z.wp * n.lbaData) (w.blocks * n.lbaData)
  let s4 := setZone s3 w.nsid k { z with wp := z.wp + w.blocks }
  let s5 := if z.wp + w.blocks = zcap s n z.bedrock then fillZone s4 w.nsid k false else s4
  let s6 := takeWr s5 t (tokensOf (w.blocks * n.lbaData))
  let s7 := updReq (clearMarks s6 w.nsid first (first + w.blocks)) rid fun q => { q with write := some { w with placed := true, lba := first, bytes := [] } }
  endWrite s7 rid St.ok (some (BitVec.ofNat 64 (if op = 0x52 then first + w.blocks else first)))

/-- Try to place a zone write that the gate has admitted. It waits behind an action or an earlier write of its zone, for
a course (R140) and for tokens (R248). -/
def tryPlaceZone (s : State) (rid : Nat) (q : Req) (w : WritePlan) (n : Namespace) (k : Nat) : State :=
  if actionWaits s w.nsid k rid || writesAhead s w.nsid k rid then s
  else
    let st := zoneWriteCheck s q.tenant q.op w n k false
    if st ≠ St.ok then endWrite s rid st none
    else
      let o := openAs n w
      let slabs := if (getZone s w.nsid k).st = .empty then formSlabs s o.1 o.2.1 else some []
      match slabs with
      | none => s
      | some l => if hasWr s q.tenant (tokensOf (w.blocks * n.lbaData)) then placeInZone s rid q.op q.tenant w n k l
          else updReq s rid fun r => { r with phase := .pending }

/-- A zone write reaches the media manager: its state is checked unless others of its zone are before it, and it waits
for the gate (R129, R356). -/
def zoneWriteStart (w : WritePlan) (k : Nat) (s : State) (rid : Nat) : State :=
  match getReq s rid, getNs s w.nsid with
  | some q, some n =>
    let s1 := updReq s rid fun r => { r with phase := .gate, write := some w }
    if actionWaits s w.nsid k rid || writesAhead s w.nsid k rid then s1
    else
      let st := zoneWriteCheck s q.tenant q.op w n k true
      if st = St.ok then s1 else endWrite s1 rid st none
  | _, _ => s

/-- ZAPPEND and ZWRITE as asynchronous instructions. -/
def zoneWriteOp (s : State) (k : Nat) (f : Fields) (append : Bool) : AsyncOp :=
  let x := getSlot s k
  let nsid := nsidOf x f
  let lba := (x.val f.b).toNat
  let len := ((x.hdl f.a).map (·.len)).getD 0
  let size := ((getNs s nsid).map (·.lbaSize)).getD 4096
  let zone := lba / ((getNs s nsid).map (·.zsze)).getD 1
  { wellUsed := unusedZero f true true true 8 13, reads := bufsOf [x.hdl f.a], writes := [], ctx := none
    check := fun t => firstFault [needHandles t [x.hdl f.a] [x.hdl f.a],
      mediaCheck t x.tenant nsid lba len true append]
    start := zoneWriteStart { nsid := nsid, zone := some zone, lba := lba, blocks := len / size, bay := writeBay x f,
                              cls := writeClass f, bytes := ((x.hdl f.a).map (hdlBytes s)).getD [], gated := false,
                              placed := false, merged := false, remap := false } zone }

/-- ZAPPEND. -/
def execZappend (slot : Nat) (f : Fields) (s : State) : Answer :=
  stepIf s (atWord s slot 0x51 f) (asyncWord s slot 0x51 f (zoneWriteOp s slot f true))

/-- ZWRITE. -/
def execZwrite (slot : Nat) (f : Fields) (s : State) : Answer :=
  stepIf s (atWord s slot 0x52 f) (asyncWord s slot 0x52 f (zoneWriteOp s slot f false))

/-! ## Zone actions (Table 5.5) -/

/-- The cell of Table 5.5 for an action: a status, or the new state; none means no change. -/
def zoneCell (a : Nat) (z : ZState) : W16 × Option ZState :=
  let no := (St.zoneTransition, none)
  match z with
  | .offline => if a = 0x05 then (St.ok, none) else no
  | .readOnly => if a = 0x05 then (St.ok, some .offline) else (St.readOnly, none)
  | .empty => match a with
    | 0x03 => (St.ok, some .explOpen)
    | 0x02 => (St.ok, some .full)
    | 0x04 => (St.ok, none)
    | 0x10 => (St.ok, some .closed)
    | _ => no
  | .implOpen => match a with
    | 0x03 => (St.ok, some .explOpen)
    | 0x01 => (St.ok, some .closed)
    | 0x02 => (St.ok, some .full)
    | 0x04 => (St.ok, some .empty)
    | _ => no
  | .explOpen => match a with
    | 0x03 => (St.ok, none)
    | 0x01 => (St.ok, some .closed)
    | 0x02 => (St.ok, some .full)
    | 0x04 => (St.ok, some .empty)
    | _ => no
  | .closed => match a with
    | 0x03 => (St.ok, some .explOpen)
    | 0x01 => (St.ok, none)
    | 0x02 => (St.ok, some .full)
    | 0x04 => (St.ok, some .empty)
    | _ => no
  | .full => match a with
    | 0x02 => (St.ok, none)
    | 0x04 => (St.ok, some .empty)
    | _ => no

/-- Whether an action takes a zone out of Empty or opens it, so that R353 applies. -/
def opensZone (z : ZState) (target : Option ZState) : Bool :=
  match target with
  | some t => (z == .empty && t != .empty) || (t.isOpen && !z.isOpen)
  | none => false

/-- Steps 2 to 6 of R129 for an action on one zone. -/
def zoneActCheck (s : State) (t a : Nat) (w : WritePlan) (n : Namespace) (k : Nat) : W16 :=
  let z := getZone s w.nsid k
  let o := openAs n w
  let raw := zoneCell a z.st
  let cell := zoneCell a (shownState s w.nsid k)
  if raw.1 = St.ok ∧ opensZone z.st raw.2 = true ∧ writesAllowed s = false then St.notIdle
  else if s.med.roLatch ∧ a ≠ 0x05 then St.readOnly
  else if cell.1 ≠ St.ok then cell.1
  else match z.st, cell.2 with
    | .empty, some st => openCheck s t n o.1 o.2.2 true st.isOpen
    | .closed, some .explOpen => openCheck s t n z.bay z.bedrock false true
    | _, _ => St.ok

/-- The effect of an action that is allowed: none where a course must wait for an erase (R140). -/
def zoneAct (s : State) (a : Nat) (w : WritePlan) (n : Namespace) (k : Nat) : Option State :=
  let z := getZone s w.nsid k
  let o := openAs n w
  match (zoneCell a (shownState s w.nsid k)).2 with
  | none => some s
  | some .offline => some (emptyZone s n w.nsid k .offline)
  | some .empty => some (emptyZone s n w.nsid k .empty)
  | some .full =>
    if z.st = .empty then
      some (setZone s w.nsid k { z with st := .full, bay := o.1, hint := o.2.1, bedrock := o.2.2, classSet := true })
    else some (fillZone s w.nsid k true)
  | some st =>
    if z.st = .empty then
      (formSlabs s o.1 o.2.1).map fun l =>
        let s1 := openEmpty s w.nsid k o.1 o.2.1 o.2.2 l st
        if a = 0x10 then setZone s1 w.nsid k { getZone s1 w.nsid k with ext := some (sub w.bytes 0 64) } else s1
    else if st = .closed then
      if z.wp = 0 ∧ z.ext = none then some (emptyZone s n w.nsid k .empty)
      else some (setOpen (setZone s w.nsid k { z with st := .closed }) (z.course.getD 0) false)
    else some (setOpen (setZone s w.nsid k { z with st := st }) (z.course.getD 0) true)

/-- Zones that an all-zones action applies to (R122, Select All of the Zoned Namespace Command Set, PRESUMED, log entry
17). -/
def selected (a : Nat) (z : ZState) : Bool :=
  match a with
  | 0x01 => z.isOpen
  | 0x02 => z.active
  | 0x03 => z == .closed
  | 0x04 => z.active || z == .full
  | 0x05 => z == .readOnly
  | _ => false

/-- The zones of a namespace that an all-zones action changes. -/
def selectedZones (s : State) (a nsid : Nat) (n : Namespace) : List Nat :=
  (List.range n.zones).filter fun k => selected a (shownState s nsid k)

/-- An all-zones action: under the latch all but Offline is refused (R136), and Open takes every Closed zone or none (R122). -/
def allZones (s : State) (a : Nat) (w : WritePlan) (n : Namespace) : State × W16 :=
  let ks := selectedZones s a w.nsid n
  if a = 0x03 ∧ ks ≠ [] ∧ writesAllowed s = false then (s, St.notIdle)
  else if s.med.roLatch ∧ a ≠ 0x05 then (s, St.readOnly)
  else if a = 0x03 ∧ s.blw.openCap < openZones s + ks.length ∧ ks ≠ [] then (s, St.openLimit)
  else (ks.foldl (fun t k => (zoneAct t a w n k).getD t) s, St.ok)

/-- Whether an action waits: behind an earlier action of its zones, or, for Close, Finish, Reset and Offline, until the
writes placed before it have met R13 (R123). -/
def actBlocked (s : State) (rid a : Nat) (w : WritePlan) (n : Namespace) : Bool :=
  let ks := match w.zone with
    | some k => [k]
    | none => List.range n.zones
  ks.any fun k => actionWaits s w.nsid k rid
    || ((a == 0x01 || a == 0x02 || a == 0x04 || a == 0x05) && placedIn s w.nsid k)

/-- Run an action, or let it wait. -/
def runAction (s : State) (rid a : Nat) (q : Req) (w : WritePlan) (n : Namespace) : State :=
  if actBlocked s rid a w n then updReq s rid fun r => { r with phase := .waitAction }
  else match w.zone with
    | none => let r := allZones s a w n
      endWrite r.1 rid r.2 none
    | some k =>
      let st := zoneActCheck s q.tenant a w n k
      if st ≠ St.ok then endWrite s rid st none
      else match zoneAct s a w n k with
        | some t => endWrite t rid St.ok none
        | none => updReq s rid fun r => { r with phase := .placed }

/-- An action reaches the media manager. -/
def actionStart (a : Nat) (w : WritePlan) (s : State) (rid : Nat) : State :=
  match getReq s rid, getNs s w.nsid with
  | some q, some n => runAction (updReq s rid fun r => { r with write := some w }) rid a q w n
  | _, _ => s

/-- The action codes and the direction bit of a ZMGMT word. -/
def zmgmtIs (f : Fields) (recv : Bool) (code : Nat) : Bool := f.imm.getLsbD 8 == recv && f.i 7 0 == code

/-- Codes that Tables 5.5 and R126 do not define, in either direction: the words fault (R97, log entry 18). -/
def zmgmtUndefined (f : Fields) : Bool :=
  if f.imm.getLsbD 8 then !([0x00, 0x01].contains (f.i 7 0)) else !([0x01, 0x02, 0x03, 0x04, 0x05, 0x10].contains (f.i 7 0))

/-- The reserved bits of the operand v[c] of ZMGMT (R97). -/
def zmgmtReserved (x : Slot) (f : Fields) : Bool := decide ((x.val f.c).toNat < 2 ^ 43)

/-- A zone action as an asynchronous instruction. -/
def actionOp (s : State) (k : Nat) (f : Fields) : AsyncOp :=
  let x := getSlot s k
  let nsid := nsidOf x f
  let a := f.i 7 0
  let all := f.imm.getLsbD 9
  let lba := (x.val f.b).toNat
  let ext := a == 0x10
  let vc := (x.val f.c).toNat
  let zone := lba / ((getNs s nsid).map (·.zsze)).getD 1
  { wellUsed := unusedZero f ext true true 8 12 && !zmgmtUndefined f && !(all && ext)
    reads := if ext then bufsOf [x.hdl f.a] else [], writes := [], ctx := none
    check := fun t => firstFault [if zmgmtReserved x f then St.ok else St.illegalOp,
      if ext then needHandles t [x.hdl f.a] [x.hdl f.a] else St.ok,
      mediaCheck t x.tenant nsid (if all then 0 else lba) 0 true (!all),
      if ext && decide (((x.hdl f.a).map (·.len)).getD 0 < 64) then St.bufferSize else St.ok]
    start := actionStart a
      { nsid := nsid, zone := if all then none else some zone, lba := lba, blocks := 0
        bay := if vc.testBit 42 then some (bits vc 39 32, bits vc 41 40) else x.hdr.bay
        cls := if f.imm.getLsbD 10 then some (f.imm.getLsbD 11) else none
        bytes := if ext then ((x.hdl f.a).map (hdlBytes s)).getD [] else [], gated := false, placed := false, merged := false, remap := false } }

/-- One ZMGMT action word. -/
def zoneWord (s : State) (slot : Nat) (f : Fields) (code : Nat) : Answer :=
  stepIf s (atWord s slot 0x53 f && (zmgmtIs f false code || (code == 0x03 && zmgmtUndefined f)))
    (asyncWord s slot 0x53 f (actionOp s slot f))

/-- ZONE_OPEN; a word with an undefined code faults under this row (log entry 18). -/
def execZoneOpen (slot : Nat) (f : Fields) (s : State) : Answer := zoneWord s slot f 0x03

/-- ZONE_CLOSE. -/
def execZoneClose (slot : Nat) (f : Fields) (s : State) : Answer := zoneWord s slot f 0x01

/-- ZONE_FINISH. -/
def execZoneFinish (slot : Nat) (f : Fields) (s : State) : Answer := zoneWord s slot f 0x02

/-- ZONE_RESET. -/
def execZoneReset (slot : Nat) (f : Fields) (s : State) : Answer := zoneWord s slot f 0x04

/-- ZONE_OFFLINE. -/
def execZoneOffline (slot : Nat) (f : Fields) (s : State) : Answer := zoneWord s slot f 0x05

/-- ZONE_SET_EXTENSION. -/
def execZoneSetExtension (slot : Nat) (f : Fields) (s : State) : Answer :=
  zoneWord s slot f 0x10

/-- ZONE_ACTION_EFFECT: an action that waited takes effect (R123). -/
def execZoneActionEffect (rid : Nat) (s : State) : Answer :=
  match getReq s rid with
  | some q => match q.write, q.write.bind (fun w => getNs s w.nsid) with
    | some w, some n =>
      stepIf s (q.phase == .waitAction && !actBlocked s rid (q.imm.toNat % 256) w n)
        (runAction s rid (q.imm.toNat % 256) q w n)
    | _, _ => .next s
  | none => .next s

/-! ## Zone reports (R126) -/

/-- The code of a zone state (Table 5.4). -/
def ZState.code : ZState → Nat
  | .empty => 0x1
  | .implOpen => 0x2
  | .explOpen => 0x3
  | .closed => 0x4
  | .readOnly => 0xD
  | .full => 0xE
  | .offline => 0xF

/-- Whether a reporting option selects a state: options 0 to 7 as the Zoned Namespace Command Set numbers them (PRESUMED,
log entry 17). -/
def optionTakes (opt : Nat) (z : ZState) : Bool :=
  match opt with
  | 0 => true
  | 1 => z == .empty
  | 2 => z == .implOpen
  | 3 => z == .explOpen
  | 4 => z == .closed
  | 5 => z == .full
  | 6 => z == .readOnly
  | _ => z == .offline

/-- The write pointer that a report gives. -/
def reportedWp (s : State) (n : Namespace) (nsid k : Nat) : Nat :=
  let z := getZone s nsid k
  if z.st = .offline then 2 ^ 64 - 1
  else if z.st = .full then k * n.zsze + zcap s n z.bedrock
  else k * n.zsze + z.wp

/-- A zone descriptor, with its extension in an extended report. -/
def descriptor (s : State) (n : Namespace) (nsid : Nat) (ext : Bool) (k : Nat) : List Byte :=
  let z := getZone s nsid k
  let bedrock := if z.classSet then z.bedrock else n.bedrock
  let b4 := if z.classSet then z.bay else 0
  let b5 := if z.classSet then z.hint + b2n z.bedrock * 4 + 8 else 0
  leBytes 1 2 ++ leBytes 1 ((shownState s nsid k).code * 16) ++ leBytes 1 (b2n z.ext.isSome * 128) ++ leBytes 1 0
    ++ leBytes 1 b4 ++ leBytes 1 b5 ++ leBytes 2 0 ++ leBytes 8 (zcap s n bedrock) ++ leBytes 8 (k * n.zsze)
    ++ leBytes 8 (reportedWp s n nsid k) ++ List.replicate 32 0
    ++ (if ext then z.ext.getD (List.replicate 64 0) else [])

/-- A report of so many bytes at most, from the zone that holds an LBA. -/
def zoneReport (s : State) (n : Namespace) (nsid lba opt len : Nat) (ext part : Bool) : List Byte :=
  let ks := (List.range n.zones).filter fun k => decide (lba / n.zsze ≤ k) && optionTakes opt (shownState s nsid k)
  let room := (len - 64) / (if ext then 128 else 64)
  let shown := ks.take room
  (leBytes 8 (if part then shown.length else ks.length) ++ List.replicate 56 0
    ++ shown.flatMap (descriptor s n nsid ext)).take len

/-- The option bits of a report word. -/
def reportOption (f : Fields) : Nat := f.i 19 16

/-- A zone report as an asynchronous instruction. -/
def reportOp (s : State) (k : Nat) (f : Fields) (ext : Bool) : AsyncOp :=
  let x := getSlot s k
  let nsid := nsidOf x f
  let lba := (x.val f.b).toNat
  let len := ((x.hdl f.a).map (·.len)).getD 0
  { wellUsed := unusedZero f true true true 8 21 && f.i 15 9 == 0
    reads := [], writes := bufsOf [x.hdl f.a], ctx := none
    check := fun t => firstFault [if zmgmtReserved x f then St.ok else St.illegalOp,
      needHandles t [x.hdl f.a] [],
      if 7 < reportOption f then St.illegalOp else St.ok,
      mediaCheck t x.tenant nsid lba 0 true false]
    start := fun t rid => match getReq t rid, getNs t nsid with
      | some q, some n =>
        complete (produce t q (zoneReport t n nsid lba (reportOption f) len ext (f.imm.getLsbD 20))) rid St.ok none
      | _, _ => t }

/-- REPORT_ZONES. -/
def execReportZones (slot : Nat) (f : Fields) (s : State) : Answer :=
  stepIf s (atWord s slot 0x53 f && zmgmtIs f true 0x00) (asyncWord s slot 0x53 f (reportOp s slot f false))

/-- EXTENDED_REPORT_ZONES. -/
def execExtendedReportZones (slot : Nat) (f : Fields) (s : State) : Answer :=
  stepIf s (atWord s slot 0x53 f && zmgmtIs f true 0x01)
    (asyncWord s slot 0x53 f (reportOp s slot f true))

end Sys2Proof.Machine
end

