-- ==== Sys2Proof/Machine/Conv.lean ====
section
/-! DEFINITION. Conventional namespaces: placing units, trimming, and collection (R146, R148 to R152). -/

namespace Sys2Proof.Machine

/-! ## Units and domains (R146) -/

/-- The key of a unit in the conventional maps. -/
def unitKey (nsid u : Nat) : Nat := nsid * 2 ^ 48 + u

/-- Where a unit stands. -/
def unitAt (s : State) (nsid u : Nat) : Option UnitAt := Tbl.get Tbl.absent s.med.map (unitKey nsid u)

/-- Change a map entry. -/
def setUnitAt (s : State) (nsid u : Nat) (x : Option UnitAt) : State :=
  { s with med := { s.med with map := Tbl.set Tbl.absent s.med.map (unitKey nsid u) x } }

/-- The domain of a unit. -/
def unitDomain (u : Nat) : Nat := u / 2 ^ 31

/-- First unit and number of units that a block range touches. -/
def unitSpan (n : Namespace) (lba blocks : Nat) : Nat × Nat :=
  let first := lba * n.lbaData / n.iuBytes
  (first, if blocks = 0 then 0 else ((lba + blocks) * n.lbaData - 1) / n.iuBytes + 1 - first)

/-- Units of a course (R146). -/
def courseUnits (s : State) (n : Namespace) : Nat := courseBytes s n.bedrock / n.iuBytes

/-! ## Where blocks lie (R14, R100, R125, R146, R167) -/

/-- What a block of a read is: no data, unrecovered, or data, with its byte offset in a course. -/
inductive Found where
  | noData
  | lost
  | at_ (course off : Nat)
  deriving DecidableEq, Repr

/-- Where a zone block is found. -/
def findZone (s : State) (n : Namespace) (nsid lba : Nat) : Found :=
  let z := getZone s nsid (lba / n.zsze)
  if z.st = .offline ∨ s.med.unrec.contains (blockKey nsid lba) then .lost
  else if z.wp ≤ lba % n.zsze ∨ unseen s nsid lba then .noData
  else match z.course with
    | some c => .at_ c (lba % n.zsze * n.lbaData)
    | none => .noData

/-- Where a conventional block is found. -/
def findConv (s : State) (n : Namespace) (nsid lba : Nat) : Found :=
  let o := lba * n.lbaData
  if s.med.unrec.contains (blockKey nsid lba) then .lost
  else match unitAt s nsid (o / n.iuBytes) with
    | none => .noData
    | some a =>
      if s.med.gone.contains (blockKey nsid lba) || (blockAt s a.course (a.pos * n.iuBytes + o % n.iuBytes)).isNone then .noData
      else .at_ a.course (a.pos * n.iuBytes + o % n.iuBytes)

def findBlock (s : State) (n : Namespace) (nsid lba : Nat) : Found :=
  if n.zoned then findZone s n nsid lba else findConv s n nsid lba

/-- The bytes of a block that holds no data: zeros, with protection information of all ones (R125). -/
def emptyBlock (n : Namespace) : List Byte :=
  List.replicate n.lbaData 0 ++ List.replicate (n.lbaSize - n.lbaData) 0xFF

/-- The bytes of a block as a read returns them. -/
def blockBytes (s : State) (n : Namespace) (nsid lba : Nat) : List Byte :=
  match findBlock s n nsid lba with
  | .noData => emptyBlock n
  | .lost => List.replicate n.lbaSize 0
  | .at_ c o => (blockAt s c o).getD (emptyBlock n)

/-- A codeword: course, stripe and position as stripe * 16 + position, and its number in the page. -/
structure Cw where
  course : Nat
  page : Nat
  cw : Nat
  deriving DecidableEq, Repr

/-- The codeword that holds a data byte of a course: none while the write buffer or the staging buffer serves it. -/
def flashCw (s : State) (course off : Nat) : Option Cw :=
  match getCourse s course with
  | none => none
  | some c =>
    if pageBuffered s c (off / 16384) then none
    else
      let p := pagePlace c.bedrock (off / 16384)
      some { course := course, page := p.1 * 16 + p.2, cw := off % 16384 / 4096 }

/-- The codewords that a read takes from flash, and the bytes of its blocks there (R34). -/
def readCws (s : State) (n : Namespace) (nsid lba blocks : Nat) : List Cw × Nat :=
  let l := (List.range blocks).filterMap fun i => match findBlock s n nsid (lba + i) with
    | .at_ c o => flashCw s c o
    | _ => none
  (l.eraseDups, l.length * n.lbaData)

/-! ## The courses of a domain (R146, R149) -/

/-- The courses of a domain. -/
def domainCourses (s : State) (nsid dom : Nat) (p : Nat → Course → Bool) : List Nat :=
  (s.med.courses.filter fun e => match e.2 with
    | some c => (c.kind == .conv || c.kind == .collect) && c.nsid == nsid && c.owner == dom && p e.1 c
    | none => false).map (·.1)

/-- Free courses of a domain: committed courses that hold no data (R149). A borrowed course is none of them (R152). -/
def domainFree (s : State) (nsid dom : Nat) : Nat :=
  match getDomain s nsid dom with
  | some d => d.courses - (domainCourses s nsid dom fun k _ => !(d.borrowed && d.dest == some k)).length
  | none => 0

/-- The units of a course that the map still points to: unit and position (R150). -/
def validUnits (s : State) (nsid course : Nat) : List (Nat × Nat) :=
  s.med.map.filterMap fun e => match e.2 with
    | some a => if e.1 / 2 ^ 48 = nsid ∧ a.course = course then some (e.1 % 2 ^ 48, a.pos) else none
    | none => none

/-! ## Collection (R149, R150, R152) -/

/-- Domains that collect now. -/
def collecting (s : State) : Nat :=
  (s.med.domains.filter fun e => match e.2 with
    | some d => d.run.isSome
    | none => false).length

/-- Whether a course comes before another as a victim: marked ones first, then the fewest valid units, then the earliest
close strike (R149). -/
def victimBefore (s : State) (nsid a b : Nat) : Bool :=
  match getCourse s a, getCourse s b with
  | some x, some y =>
    if x.marked != y.marked then x.marked
    else
      let va := (validUnits s nsid a).length
      let vb := (validUnits s nsid b).length
      if !x.marked && va != vb then decide (va < vb) else decide (x.closeStrike < y.closeStrike)
  | _, _ => false

/-- The victim of a domain: a closed course (R149). -/
def pickVictim (s : State) (nsid dom : Nat) (d : Domain) : Option Nat :=
  (domainCourses s nsid dom fun k c => !c.isOpen && d.dest != some k).foldl (fun m k => match m with
    | none => some k
    | some b => if victimBefore s nsid k b then some k else some b) none

/-- A domain's collection course: the one it has, or a new one of hint 3, borrowed when no committed course is free
(R148, R152). -/
def collectDest (s : State) (n : Namespace) (nsid dom : Nat) (d : Domain) : Option (State × Nat) :=
  match d.dest with
  | some k => some (s, k)
  | none => match formSlabs s n.bay 3 with
    | none => none
    | some l =>
      let lend := domainFree s nsid dom == 0
      let r := newCourse s .collect nsid dom n.bay 3 n.bedrock l
      some (setDomain r.1 nsid dom (some { d with dest := some r.2, borrowed := d.borrowed || lend }), r.2)

/-- Start a collection when the domain has few free courses or a marked course, within the limit on domains (R149). A
course that the spares cannot supply sets the Read-Only latch (R136). -/
def collectStart (s : State) (nsid dom : Nat) : State :=
  match getNs s nsid, getDomain s nsid dom with
  | some n, some d =>
    let marked := !(domainCourses s nsid dom fun _ c => c.marked && !c.isOpen).isEmpty
    if d.run.isSome || decide (max 1 (rdForce s R.MED_GC_CTRL_PARALLEL) ≤ collecting s)
        || !(marked || decide (domainFree s nsid dom ≤ rdForce s R.MED_GC_CTRL_START)) then s
    else match pickVictim s nsid dom d with
      | none => s
      | some v => match collectDest s n nsid dom d with
        | none => if bayHas s n.bay then s else setLatch s
        | some r =>
          let d1 := (getDomain r.1 nsid dom).getD d
          let c : Collection :=
            { victim := v, valid := (validUnits r.1 nsid v).length, urgent := rdForce s R.MED_GC_CTRL_URGENT, copied := 0
              host := 0, stripe := 0, copies := [] }
          setDomain r.1 nsid dom (some { d1 with run := some c })
  | _, _ => s

/-- Try to start a collection in every domain. -/
def collectStartAll (s : State) : State :=
  (s.med.domains.map (·.1)).foldl (fun t k => collectStart t (k / 2 ^ 16) (k % 2 ^ 16)) s

/-- Pad a course to the end of its last partial row, so that the row is programmed (R168, log entry 19). -/
def padRow (s : State) (id : Nat) : State :=
  match getCourse s id with
  | none => s
  | some c =>
    let r := rowsReady s c
    let stop := min (rowStart s (r + 1) * stripePages c.bedrock * 16384) (courseBytes s c.bedrock)
    if rowStart s r * stripePages c.bedrock * 16384 < c.fill then
      updCourse s id fun x => { x with fill := max x.fill stop }
    else s

/-- Put the data of a unit behind what a course holds, from where it stood: its blocks and its reverse record (R146, R150). -/
def moveUnit (s : State) (n : Namespace) (nsid u : Nat) (src : Option UnitAt) (dest off : Nat) : State :=
  let s1 := updCourse s dest fun x => { x with fill := off + n.iuBytes, lastWrite := s.tb.count }
  let s2 := match src with
    | some a => copyContent s1 a.course (a.pos * n.iuBytes) dest off n.iuBytes n.lbaData
    | none => s1
  { s2 with med := { s2.med with rev := Tbl.set nat0 s2.med.rev (placeKey dest (off / n.iuBytes)) (u + 1) } }

/-- Take one unit into the domain's collection course (R150 step 4, R158): the state and its place. None while no course can
be formed. A full collection course closes, and the next one is formed. -/
def collectUnit (s : State) (n : Namespace) (nsid dom u : Nat) (src : UnitAt) : Option (State × UnitAt) :=
  match getDomain s nsid dom with
  | none => none
  | some d => match collectDest s n nsid dom d with
    | none => none
    | some p =>
      let off := ((getCourse p.1 p.2).map (·.fill)).getD 0
      let s1 := moveUnit p.1 n nsid u (some src) p.2 off
      let full := decide (courseBytes s n.bedrock ≤ off + n.iuBytes)
      let s2 := match getDomain s1 nsid dom with
        | some e => setDomain s1 nsid dom (some { e with dest := if full then none else e.dest })
        | none => s1
      some (if full then finishCourse s2 p.2 else s2, { course := p.2, pos := off / n.iuBytes })

/-- Copy one unit of the victim. The spares may fail to supply the course, which sets the Read-Only latch (R136). -/
def copyUnit (s : State) (n : Namespace) (nsid dom u pos : Nat) : State × Bool :=
  match (getDomain s nsid dom).bind (·.run) with
  | none => (s, true)
  | some r =>
    let src : UnitAt := { course := r.victim, pos := pos }
    match collectUnit s n nsid dom u src with
    | none => (if bayHas s n.bay then s else setLatch s, false)
    | some p => match getDomain p.1 nsid dom with
      | none => (p.1, true)
      | some d =>
        let c : Copy := { unit := u, src := src, dest := p.2, mapped := false }
        (setDomain p.1 nsid dom (some { d with run := d.run.map fun x =>
          { x with copied := x.copied + 1, copies := x.copies ++ [c] } }), true)

/-- How far the row of a copied unit has come: 0 not programmed, 1 programmed, 2 verified. A destination that is gone
counts as verified. -/
def copyStage (s : State) (n : Namespace) (a : UnitAt) : Nat :=
  match getCourse s a.course with
  | none => 2
  | some c =>
    let p := pagePlace c.bedrock (a.pos * n.iuBytes / 16384)
    let r := rowOf s p.1
    if r < c.verifiedRows p.2 then 2
    else if (c.unit p.2).st = .programmed ∧ (c.unit p.2).row = r ∧ c.doneAt p.2 = r then 1
    else 0

/-- Change the map for copies whose wordline is programmed, and journal those that are verified (R150 steps 5 and 6). A
later change of the entry wins (R151). -/
def copyAdvance (s : State) (nsid dom : Nat) : State :=
  match getNs s nsid, getDomain s nsid dom with
  | some n, some d => match d.run with
    | none => s
    | some r =>
      let step := fun (p : State × List Copy) (x : Copy) =>
        let g := copyStage p.1 n x.dest
        let here := !x.mapped && decide (0 < g)
        let t := if here && unitAt p.1 nsid x.unit == some x.src then setUnitAt p.1 nsid x.unit (some x.dest) else p.1
        (t, if g = 2 then p.2 else p.2 ++ [{ x with mapped := x.mapped || here }])
      let q := r.copies.foldl step (s, [])
      setDomain q.1 nsid dom (some { d with run := some { r with copies := q.2 } })
  | _, _ => s

/-- Whether a read of the device serves a domain's collection. -/
def DevUse.ofDomain (u : DevUse) (nsid dom : Nat) : Bool := u == .collect nsid dom || u == .recopy nsid dom

/-- COLLECTION_VICTIM_DONE: the victim's slabs pass to ERASE_PENDING after the reads admitted on them (R150 step 7), and
a borrowed course is returned when they are erased (R152). -/
def collectionDone (s : State) (nsid dom : Nat) (d : Domain) (r : Collection) : State :=
  let slabs := ((getCourse s r.victim).map (·.slabs)).getD []
  let s1 := dropCourse (bump s R.MED_GC_CNT_GC) r.victim 0
  let s2 := setDomain s1 nsid dom (some { d with run := none, repay := if d.borrowed then d.repay ++ slabs else [] })
  collectStart s2 nsid dom

/-- COLLECTION_VICTIM_DONE (R150). -/
def execCollectionVictimDone (nsid dom : Nat) (s : State) : Answer :=
  match getDomain s nsid dom with
  | some d => match d.run with
    | some r =>
      stepIf s (r.copies.isEmpty && (validUnits s nsid r.victim).isEmpty
          && !(s.fl.devs.any fun e => e.2.any fun x => x.use == .collect nsid dom))
        (collectionDone s nsid dom d r)
    | none => .next s
  | none => .next s

/-- A slab of a victim is gone from the list whose end returns a borrowed course (R152). -/
def Domain.repaid (d : Domain) (a : Nat) : Domain :=
  if d.repay.contains a then
    let l := d.repay.filter (· != a)
    { d with repay := l, borrowed := d.borrowed && !l.isEmpty }
  else d

/-- A slab is erased, or retired. -/
def repaySlab (s : State) (a : Nat) : State :=
  let l := s.med.domains.mapAll Tbl.absent fun _ x => x.map (·.repaid a)
  { s with med := { s.med with domains := l } }

/-! ## Placing units (R146, R148, R152) -/

/-- Close the open host course that was least recently written, when the device holds the most it may (R148). -/
def closeOldest (s : State) : State :=
  let opens := s.med.courses.filterMap fun e => match e.2 with
    | some c => if c.kind == .conv && c.isOpen then some (e.1, c.lastWrite) else none
    | none => none
  if opens.length < max 1 (min 256 (rd s R.MED_CONV_OPEN_MAX)) then s
  else match opens.foldl (fun (m : Option (Nat × Nat)) e => match m with
      | none => some e
      | some b => if e.2 < b.2 then some e else some b) none with
    | some e => finishCourse s e.1
    | none => s

/-- The open host course of a domain for a Bay and hint. -/
def openHost (s : State) (nsid dom bay hint : Nat) : Option Nat :=
  (domainCourses s nsid dom fun _ c => c.kind == .conv && c.isOpen && c.bay == bay && c.hint == hint).head?

/-- Urgent pacing: host units wait while copying is behind (R152). -/
def hostPaced (s : State) (n : Namespace) (nsid dom : Nat) (d : Domain) : Bool :=
  match d.run with
  | some r => decide (domainFree s nsid dom ≤ r.urgent)
      && decide (r.copied * (courseUnits s n - r.valid) < r.host * r.valid)
  | none => false

/-- What placing one unit meets. -/
inductive Placing where
  | ok (s : State)
  | waits (s : State)
  | noCourse
  deriving DecidableEq, Repr

/-- A host course for a unit: the open one, or a new one (R148). -/
def hostCourse (s : State) (n : Namespace) (nsid dom bay hint : Nat) : Placing × Nat :=
  match openHost s nsid dom bay hint with
  | some k => (.ok s, k)
  | none =>
    if domainFree s nsid dom = 0 then (.waits (collectStart s nsid dom), 0)
    else if !bayHas s bay then (.noCourse, 0)
    else match formSlabs s bay hint with
      | none => (.waits s, 0)
      | some l =>
        let r := newCourse (closeOldest s) .conv nsid dom bay hint n.bedrock l
        (.ok (collectStart r.1 nsid dom), r.2)

/-- Place one unit in its domain's course. -/
def placeUnit (s : State) (n : Namespace) (nsid bay hint u : Nat) : Placing :=
  let dom := unitDomain u
  match getDomain s nsid dom with
  | none => .waits s
  | some d =>
    if hostPaced s n nsid dom d then .waits s
    else match hostCourse s n nsid dom bay hint with
      | (.ok t, k) => match getCourse t k with
        | none => .waits t
        | some c =>
          let t1 := noteBytes (moveUnit t n nsid u (unitAt t nsid u) k c.fill) k c.fill n.iuBytes
          let t2 := setUnitAt t1 nsid u (some { course := k, pos := c.fill / n.iuBytes })
          let t3 := match getDomain t2 nsid dom with
            | some e => setDomain t2 nsid dom (some { e with run := e.run.map fun r => { r with host := r.host + 1 } })
            | none => t2
          .ok (if courseBytes t n.bedrock ≤ c.fill + n.iuBytes then finishCourse t3 k else t3)
      | (p, _) => p

/-- Place all units of a write, or none of them: a unit that must wait leaves the map and the courses as they were, but
for a collection that it starts. -/
def placeUnits (s : State) (n : Namespace) (nsid bay hint : Nat) (us : List Nat) : Placing :=
  us.foldl (fun p u => match p with
    | .ok t => match placeUnit t n nsid bay hint u with
      | .waits _ => .waits (collectStart s nsid (unitDomain u))
      | q => q
    | q => q) (.ok s)

/-! ## CWRITE and CTRIM -/

/-- Steps 2, 3 and 6 of R129 for a conventional write. -/
def convCheck (s : State) (t : Nat) (n : Namespace) (w : WritePlan) (fresh : Bool) : W16 :=
  if fresh && !writesAllowed s then St.notIdle
  else if s.med.roLatch then St.readOnly
  else if !bayAllowed s t (w.bay.getD (n.bay, 0)).1 then St.bayDenied
  else St.ok

/-- Store the blocks of a conventional write where its units stand (R146). -/
def storeConv (s : State) (n : Namespace) (w : WritePlan) : State :=
  (List.range w.blocks).foldl (fun t i =>
    let o := (w.lba + i) * n.lbaData
    match unitAt t w.nsid (o / n.iuBytes) with
    | some a => storeBlock t a.course (a.pos * n.iuBytes + o % n.iuBytes) (sub w.bytes (i * n.lbaSize) n.lbaSize)
    | none => t) (clearMarks s w.nsid w.lba (w.lba + w.blocks))

/-- The codewords in flash that hold the rest of the units that a write covers in part (R146). -/
def restCws (s : State) (n : Namespace) (w : WritePlan) : List Cw :=
  let sp := unitSpan n w.lba w.blocks
  let per := n.iuBytes / n.lbaData
  let rest := ((List.range (sp.2 * per)).map (sp.1 * per + ·)).filter fun b => decide (b < w.lba ∨ w.lba + w.blocks ≤ b)
  (rest.filterMap fun b => match findConv s n w.nsid b with
    | .at_ c o => flashCw s c o
    | _ => none).eraseDups

/-- Try to place a conventional write that the gate has admitted; the rest of units that it covers in part is read first
(R146). -/
def tryPlaceConv (s : State) (rid : Nat) (q : Req) (w : WritePlan) (n : Namespace) : State :=
  let st := convCheck s q.tenant n w false
  if st ≠ St.ok then endWrite s rid st none
  else if !hasWr s q.tenant (tokensOf (w.blocks * n.lbaData)) then updReq s rid fun r => { r with phase := .pending }
  else if !w.merged && !(restCws s n w).isEmpty then updReq s rid fun r => { r with phase := .merging }
  else
    let b := w.bay.getD (n.bay, 0)
    let sp := unitSpan n w.lba w.blocks
    match placeUnits s n w.nsid b.1 b.2 ((List.range sp.2).map (sp.1 + ·)) with
    | .waits t => t
    | .noCourse => endWrite (setLatch s) rid St.readOnly none
    | .ok t =>
      let t1 := storeConv t n w
      let t2 := takeWr t1 q.tenant (tokensOf (w.blocks * n.lbaData))
      endWrite (updReq t2 rid fun y => { y with write := some { w with placed := true, bytes := [] } }) rid St.ok none

/-- A conventional write reaches the media manager and waits for the gate (R129, R356). -/
def convStart (w : WritePlan) (s : State) (rid : Nat) : State :=
  match getReq s rid, getNs s w.nsid with
  | some q, some n =>
    let st := convCheck s q.tenant n w true
    let s1 := updReq s rid fun r => { r with phase := .gate, write := some w }
    if st = St.ok then s1 else endWrite s1 rid st none
  | _, _ => s

/-- CWRITE as an asynchronous instruction. -/
def cwriteOp (s : State) (k : Nat) (f : Fields) : AsyncOp :=
  let x := getSlot s k
  let nsid := nsidOf x f
  let lba := (x.val f.b).toNat
  let len := ((x.hdl f.a).map (·.len)).getD 0
  let size := ((getNs s nsid).map (·.lbaSize)).getD 4096
  { wellUsed := unusedZero f true true true 8 11, reads := bufsOf [x.hdl f.a], writes := [], ctx := none
    check := fun t => firstFault [needHandles t [x.hdl f.a] [x.hdl f.a],
      mediaCheck t x.tenant nsid lba len false false]
    start := convStart { nsid := nsid, zone := none, lba := lba, blocks := len / size, bay := writeBay x f, cls := none,
                         bytes := ((x.hdl f.a).map (hdlBytes s)).getD [], gated := false, placed := false, merged := false, remap := false } }

/-- CWRITE. -/
def execCwrite (slot : Nat) (f : Fields) (s : State) : Answer :=
  stepIf s (atWord s slot 0x55 f) (asyncWord s slot 0x55 f (cwriteOp s slot f))

/-- Deallocate blocks: they read as zeros from now on (R125), and units that lie wholly inside lose their map entries
(R151). -/
def trimBlocks (s : State) (n : Namespace) (nsid lba blocks : Nat) : State :=
  let sp := unitSpan n lba blocks
  let whole := ((List.range sp.2).map (sp.1 + ·)).filter fun u =>
    decide (lba * n.lbaData ≤ u * n.iuBytes) && decide ((u + 1) * n.iuBytes ≤ (lba + blocks) * n.lbaData)
  let s1 := whole.foldl (fun t u => setUnitAt t nsid u none) (clearMarks s nsid lba (lba + blocks))
  let part := ((List.range blocks).map (lba + ·)).filter fun b => (unitAt s1 nsid (b * n.lbaData / n.iuBytes)).isSome
  { s1 with med := { s1.med with gone := s1.med.gone ++ part.map (blockKey nsid) } }

/-- CTRIM as an asynchronous instruction. -/
def ctrimOp (s : State) (k : Nat) (f : Fields) : AsyncOp :=
  let x := getSlot s k
  let nsid := nsidOf x f
  let lba := (x.val f.b).toNat
  let blocks := (x.val f.a).toNat
  { wellUsed := unusedZero f true true true 8 0, reads := [], writes := [], ctx := none
    check := fun t => mediaCheck t x.tenant nsid lba (blocks * ((getNs t nsid).map (·.lbaSize)).getD 4096) false false
    start := fun t rid => match getNs t nsid with
      | some n => if t.med.roLatch then complete t rid St.readOnly none
          else complete (trimBlocks t n nsid lba blocks) rid St.ok none
      | none => t }

/-- CTRIM. -/
def execCtrim (slot : Nat) (f : Fields) (s : State) : Answer :=
  stepIf s (atWord s slot 0x56 f) (asyncWord s slot 0x56 f (ctrimOp s slot f))

/-! ## The gate and placement, whatever the namespace (R356, R100) -/

/-- Try to place a write that the gate has admitted, or a zone action that waits for a course. -/
def tryPlace (s : State) (rid : Nat) : State :=
  match getReq s rid with
  | some q => match q.write, q.write.bind (fun w => getNs s w.nsid) with
    | some w, some n =>
      if q.phase != .placed && q.phase != .pending then s
      else if q.op = 0x53 then runAction s rid (q.imm.toNat % 256) q w n
      else if w.placed then s
      else if n.zoned then tryPlaceZone s rid q w n (w.zone.getD 0)
      else tryPlaceConv s rid q w n
    | _, _ => s
  | none => s

/-- The conditions of a write as it stands in the gate (R129, R354). An action that waits ahead of it decides first. -/
def gateCheck (s : State) (rid : Nat) (q : Req) (w : WritePlan) (n : Namespace) : W16 :=
  if n.zoned then
    if actionWaits s w.nsid (w.zone.getD 0) rid || writesAhead s w.nsid (w.zone.getD 0) rid then
      (if writesAllowed s then St.ok else St.notIdle)
    else zoneWriteCheck s q.tenant q.op w n (w.zone.getD 0) true
  else convCheck s q.tenant n w true

/-- Admit the writes that wait in the gate, in order, up to the first that does not fit (R356). The flag says that the
line has stopped. -/
def gateOne (p : State × Bool) (rid : Nat) : State × Bool :=
  match getReq p.1 rid with
  | some q => match q.write, q.write.bind (fun w => getNs p.1 w.nsid) with
    | some w, some n =>
      if q.phase != .gate then p
      else
        let st := gateCheck p.1 rid q w n
        if st ≠ St.ok then (endWrite p.1 rid st none, p.2)
        else if p.2 || !gateAdmits p.1 (planBytes p.1 w) then (p.1, true)
        else
          let s1 := updReq p.1 rid fun r => { r with phase := .placed, write := some { w with gated := true } }
          (tryPlace s1 rid, false)
    | _, _ => p
  | none => p

/-- The gate's share of a strike: figures, admissions, and another try for what waits in placement (R355 to R357). -/
def gateStrike (s : State) : State :=
  let again := fun (t : State) (r : Nat) => if (getReq t r).map (·.phase) == some .placed then tryPlace t r else t
  let s1 := (s.ord.reqs.map (·.1)).foldl again (gateFigures s)
  ((s1.ord.reqs.map (·.1)).foldl gateOne (s1, false)).1

end Sys2Proof.Machine
end

