-- ==== Sys2Proof/Machine/Namespaces.lean ====
section
/-! DEFINITION. Namespace Management and Namespace Attachment (R110 to R116, R146, R399). -/

namespace Sys2Proof.Machine

/-! ## NVMe status codes by title: SCT and SC (PRESUMED, log entry 21) -/

def nvInvalidNamespace : Nat × Nat := (0, 0x0B)
def nvInsufficientCapacity : Nat × Nat := (1, 0x15)
def nvIdUnavailable : Nat × Nat := (1, 0x16)
def nvAlreadyAttached : Nat × Nat := (1, 0x18)
def nvNotAttached : Nat × Nat := (1, 0x1A)
def nvControllerList : Nat × Nat := (1, 0x1C)

/-! ## Creation (R111 to R114) -/

/-- Over-provisioning in percent: 0 means 7 (Table 5.2). -/
def opPercent (op : Byte) : Nat := if op = 0 then 7 else op.toNat

/-- The values that Tables 5.1 and 5.2 allow; protection information of type 1 or 3 takes the metadata of LBAF1 (R111). -/
def paramsOk (p : NsParams) : Bool :=
  p.reservedZero && (p.pi == 0 || (p.lbaf == 1 && (p.pi == 1 || p.pi == 3))) && (p.cls == 0 || p.cls == 1) && (p.op == 0 || decide (7 ≤ p.op.toNat ∧ p.op.toNat ≤ 50))
    && (if p.zoned then decide (p.lbaf ≤ 1) && p.iu == 0 && p.z != 0
        else decide (p.lbaf ≤ 2) && (p.iu == 0 || (p.iu == 1 && p.lbaf != 2)))

/-- The namespace that the parameters describe. -/
def nsOf (s : State) (p : NsParams) : Namespace :=
  let n : Namespace :=
    { zoned := p.zoned, lbaf := p.lbaf, blocks := p.ncap, zones := if p.zoned then p.z.toNat else 0, iu := p.iu.toNat,
      bedrock := p.cls == 1, bay := p.bay.toNat, op := opPercent p.op, committed := 0, pi := p.pi, tenant := none, ready := true }
  { n with committed := if p.zoned then p.z.toNat
      else ceilDiv (p.ncap * n.lbaData * (100 + n.op)) (100 * courseBytes s n.bedrock) }

/-- Units of a conventional namespace. -/
def Namespace.units (n : Namespace) : Nat := if n.zoned then 0 else ceilDiv (n.blocks * n.lbaData) n.iuBytes

/-- Courses committed, and units mapped, by all namespaces. -/
def committedCourses (s : State) : Nat := s.med.ns.foldl (fun k e => k + (e.2.map (·.committed)).getD 0) 0
def mappedUnits (s : State) : Nat := s.med.ns.foldl (fun k e => k + (e.2.map (·.units)).getD 0) 0

/-- The lowest free namespace number. -/
def freeNsid (s : State) : Option Nat := ((List.range 2048).map (· + 1)).find? fun k => (getNs s k).isNone

/-- The domains of a conventional namespace: its courses in proportion to their units, the rest to the last (R146). -/
def domainShares (n : Namespace) : List Nat :=
  let k := max 1 (ceilDiv n.units (2 ^ 31))
  let part := if n.units = 0 then 0 else n.committed * 2 ^ 31 / n.units
  List.replicate (k - 1) part ++ [n.committed - (k - 1) * part]

/-- Enter a namespace and its domains. -/
def addNamespace (s : State) (nsid : Nat) (n : Namespace) : State :=
  let s1 := setNs s nsid (some n)
  if n.zoned then s1
  else (domainShares n).zipIdx.foldl (fun t e =>
    setDomain t nsid e.2 (some { courses := e.1, run := none, dest := none, borrowed := false, repay := [] })) s1

/-- Create a namespace (R113): a failed creation commits nothing. -/
def createNamespace (s : State) (slot : Nat) (p : NsParams) : State :=
  let n := nsOf s p
  if !paramsOk p then admin s slot nvInvalidField []
  else match freeNsid s with
    | none => admin s slot nvIdUnavailable []
    | some k =>
      if s.med.dataCourses < committedCourses s + n.committed ∨ courseBytes s n.bedrock = 0
          ∨ s.med.mapPool * 2 ^ 30 < 4 * (mappedUnits s + n.units) then
        admin s slot nvInsufficientCapacity []
      else adminDw0 (addNamespace s k n) slot k

/-- A command for a member waits in SUSPENDED for a command credit; one for a failed member completes at once (R397,
R401). -/
def toMember (s : State) (k m : Nat) : State :=
  if s.wall.live.getLsbD m then updSlot s k fun x => { x with st := .suspended, waiting := .nothing, member := some m }
  else updSlot s k fun x => { x with st := .posting, status := St.notIdle }

/-- An admin command that names a member: the head runs its own, and sends another's on, which then waits in its slot for
the member's completion (R399, R401). -/
def onMember (s : State) (slot m : Nat) (own : State) : State :=
  if isHead s && m != 0 then
    (if m < s.wall.size then toMember s slot m else admin s slot nvInvalidField [])
  else own

/-- The member that an NSID names in a Wall head, and the namespace on it (Table 18.2). -/
def nsidMember (s : State) (nsid : Nat) : Nat := if isHead s then bits nsid 17 12 else 0
def nsidLocal (s : State) (nsid : Nat) : Nat := if isHead s then bits nsid 11 0 else nsid

/-- NAMESPACE_CREATE (R113): only MF creates. -/
def execNamespaceCreate (slot : Nat) (p : NsParams) (s : State) : Answer :=
  let d := (getSlot s slot).cmd.dw12.toNat
  stepIf s (windowOpen s && adminAt s slot 0x0D && cmdSel (getSlot s slot).cmd == 0)
    (if senderOf s slot ≠ 0 then admin s slot nvInvalidOpcode []
     else if isHead s && decide (64 ≤ d) then admin s slot nvInvalidField []
     else onMember s slot d (createNamespace s slot p))

/-! ## Deletion -/

/-- The writes of a namespace that are not placed end with TEN_NS_DENIED. -/
def endWritesOf (s : State) (nsid : Nat) : State :=
  s.ord.reqs.foldl (fun t e => match e.2 with
    | some q => match q.write with
      | some w => if w.nsid == nsid && !w.placed && q.phase != .done then endWrite t e.1 St.nsDenied none else t
      | none => t
    | none => t) s

/-- Remove a namespace: its courses are released, its zones, domains, map and blocks go. -/
def removeNamespace (s : State) (nsid : Nat) : State :=
  let s0 := endWritesOf s nsid
  let cs := (s0.med.courses.filter fun e => (e.2.map (·.nsid)) == some nsid).map (·.1)
  let s1 := cs.foldl (fun t c => dropCourse t c 0) s0
  let s2 := clearMarks s1 nsid 0 (2 ^ 64)
  setNs { s2 with med := { s2.med with
    zones := s2.med.zones.drop (fun k _ => k / 2 ^ 32 == nsid)
    domains := s2.med.domains.drop (fun k _ => k / 2 ^ 16 == nsid)
    map := s2.med.map.drop (fun k _ => k / 2 ^ 48 == nsid) } } nsid none

/-- Delete one namespace, or every namespace with the NSID of all ones (PRESUMED, log entry 21). -/
def deleteNamespace (s : State) (slot nsid : Nat) : State :=
  if nsid = 0xFFFFFFFF then
    admin ((s.med.ns.map (·.1)).foldl removeNamespace s) slot nvOk []
  else if (getNs s nsid).isNone then admin s slot nvInvalidNamespace []
  else admin (removeNamespace s nsid) slot nvOk []

/-- NAMESPACE_DELETE (R110): only MF deletes. -/
def execNamespaceDelete (slot : Nat) (s : State) : Answer :=
  let nsid := (getSlot s slot).cmd.nsid.toNat
  stepIf s (windowOpen s && adminAt s slot 0x0D && cmdSel (getSlot s slot).cmd == 1) (if senderOf s slot = 0 then
      if nsid = 0xFFFFFFFF then deleteNamespace s slot nsid
      else onMember s slot (nsidMember s nsid) (deleteNamespace s slot (nsidLocal s nsid))
    else admin s slot nvInvalidOpcode [])

/-! ## Attachment (R110, R116) -/

/-- Attach a namespace: a Bedrock conventional one must fit the quota (R116); a zoned one is never refused for it. -/
def attachNamespace (s : State) (slot nsid t : Nat) : State :=
  match getNs s nsid with
  | none => admin s slot nvInvalidNamespace []
  | some n =>
    if n.tenant.isSome then admin s slot nvAlreadyAttached []
    else if t = 0 ∨ (getTen s t).st ≠ .active then admin s slot nvControllerList []
    else if !n.zoned && n.bedrock && decide ((getTen s t).blk.bedrock < tenantBedrock s t + n.committed) then
      admin s slot nvInsufficientCapacity []
    else admin (setNs s nsid (some { n with tenant := some t })) slot nvOk []

/-- Detach a namespace: its charges are released, because they are counted from the attachment. -/
def detachNamespace (s : State) (slot nsid t : Nat) : State :=
  match getNs s nsid with
  | none => admin s slot nvInvalidNamespace []
  | some n =>
    if n.tenant = some t then admin (setNs s nsid (some { n with tenant := none })) slot nvOk []
    else admin s slot nvNotAttached []

/-- NAMESPACE_ATTACH (R110). -/
def execNamespaceAttach (slot tenant : Nat) (s : State) : Answer :=
  let nsid := (getSlot s slot).cmd.nsid.toNat
  stepIf s (windowOpen s && adminAt s slot 0x15 && cmdSel (getSlot s slot).cmd == 0)
    (if senderOf s slot = 0 then onMember s slot (nsidMember s nsid) (attachNamespace s slot (nsidLocal s nsid) tenant)
    else admin s slot nvInvalidOpcode [])

/-- NAMESPACE_DETACH (R110). -/
def execNamespaceDetach (slot tenant : Nat) (s : State) : Answer :=
  let nsid := (getSlot s slot).cmd.nsid.toNat
  stepIf s (windowOpen s && adminAt s slot 0x15 && cmdSel (getSlot s slot).cmd == 1)
    (if senderOf s slot = 0 then onMember s slot (nsidMember s nsid) (detachNamespace s slot (nsidLocal s nsid) tenant)
    else admin s slot nvInvalidOpcode [])

end Sys2Proof.Machine
end

