-- ==== Sys2Proof/Machine/Reports.lean ====
section
/-! DEFINITION. The values that the device reports in NVMe's own data structures (R15, R111, R129, R134, R164, R237, R326, R374,
R378, R398, R422). The places of the fields are NVMe's (log entry 65); every byte that the spec gives no value is free. -/

namespace Sys2Proof.Machine

/-! ## Health -/

/-- The NVMe Critical Warning byte (R134, R136, R160, R163, R353, R362, R371, R374). -/
def critWarn (s : State) : Nat :=
  b2n (spareLow s) + 2 * b2n (s.hkp.thermWarn || s.hkp.fcLvl.any (fun e => decide (0 < e.2))
      || s.hkp.inputs.any fun e => e.2.brokenOpen || e.2.brokenShort)
    + 4 * b2n s.med.degraded + 8 * b2n s.med.roLatch + 16 * b2n (s.blw.capLow || s.med.lossWarn)

/-- Kelvin of a reading in quarter degrees. -/
def kelvin (q : Int) : Nat := ((q + 1092) / 4).toNat

/-- Composite Temperature in kelvin: the highest on-die reading (R374). -/
def compositeKelvin (s : State) : Nat :=
  kelvin ([24, 25, 26, 27].foldl (fun (m : Int) k => max m (getInput s k).reading) (-2048))

/-- Available Spare and its threshold, in percent of the factory spares (R134). -/
def availableSpare (s : State) : Nat := 100 * spareCount s / s.med.factory
def spareThreshold (s : State) : Nat := ceilDiv (100 * spareAt s (rd s R.MED_SPARE_TH_LOW)) s.med.factory

/-- P/E counts of the slabs in native mode. -/
def nativePes (s : State) : List Nat :=
  (s.med.slabs.filter fun e => e.2.st != .retired && e.2.st != .slcReserve && e.2.st != .system).map (·.2.pe)

/-- MED_PE_STAT.AVG (R165). -/
def averagePe (s : State) : Nat :=
  let l := nativePes s
  if l.isEmpty then 0 else l.foldl (· + ·) 0 / l.length

/-- Percentage Used (R164). -/
def percentUsed (s : State) : Nat := min 255 (100 * averagePe s / rd s R.MED_PE_RATED_RATED)

/-! ## Data structures -/

/-- So many free bytes, and the state after they are drawn. -/
def freeData (s : State) (len : Nat) : List Byte := sub (Config.freeBytes s.freeCtr len) 0 len

/-- Bytes with some replaced from an offset on. -/
def putAt (l : List Byte) (e : Nat × List Byte) : List Byte := l.take e.1 ++ e.2 ++ l.drop (e.1 + e.2.length)

/-- SMART / Health Information, Log Identifier 0x02. Before the format there are no factory spares, and with a rating of 0 no
Percentage Used: these bytes stay free. -/
def healthLog (s : State) : List Byte :=
  let spares := if s.med.factory = 0 then [] else [(3, leBytes 1 (availableSpare s)), (4, leBytes 1 (spareThreshold s))]
  let used := if rd s R.MED_PE_RATED_RATED = 0 then [] else [(5, leBytes 1 (percentUsed s))]
  ([(0, leBytes 1 (critWarn s)), (1, leBytes 2 (compositeKelvin s)), (112, leBytes 16 s.hm.cycle.toNat)
    , (128, leBytes 16 (s.hm.opMs / 3600000))] ++ spares ++ used
    ++ (List.range 4).map fun k => (200 + 2 * k, leBytes 2 (kelvin (getInput s (24 + k)).reading))).foldl putAt (freeData s 512)

/-- Identify Controller: two firmware slots (R422), one power state (R326), no volatile write cache (R15), and in a Wall head
260,096 namespaces (R398). -/
def identifyController (s : State) : List Byte :=
  let l := freeData s 4096
  let slots := ((l.getD 260 0).toNat &&& 0xF1) + 4
  ([(260, leBytes 1 slots), (263, leBytes 1 0), (525, leBytes 1 0)]
    ++ if isHead s then [(516, leBytes 4 260096)] else []).foldl putAt l

/-- Identify Namespace: its size, the formats of Table 5.1 and its own, and the types of protection information (R111). -/
def identifyNamespace (s : State) (n : Namespace) : List Byte :=
  let l := freeData s 4096
  let format := ((l.getD 26 0).toNat &&& 0x90) + n.lbaf
  let lbaf := fun (i ms ds : Nat) => (128 + 4 * i, leBytes 2 ms ++ leBytes 1 ds)
  let cap := ((l.getD 28 0).toNat &&& 0xF8) + 5
  let dps := ((l.getD 29 0).toNat &&& 0xF8) + n.pi
  [(0, leBytes 8 n.blocks), (25, leBytes 1 2), (26, leBytes 1 format), (28, leBytes 1 cap), (29, leBytes 1 dps), lbaf 0 0 12
    , lbaf 1 8 12, lbaf 2 0 9].foldl putAt l

/-- Identify Namespace of the Zoned command set: MAR and MOR (R129). -/
def identifyZoned (s : State) : List Byte := putAt (freeData s 4096) (4, leBytes 4 4095 ++ leBytes 4 4095)

/-- The namespace of this device that a command names, when the sender may see it: MF sees each, a tenant its own. -/
def namedNs (s : State) (sender : Nat) (nsid : Nat) : Option Namespace :=
  if nsidMember s nsid ≠ 0 then none
  else (getNs s (nsidLocal s nsid)).filter fun n => sender == 0 || n.tenant == some sender

/-- What the device reports for an admin command, where the spec gives a part of it. -/
def reportedData (s : State) (sender : Nat) (c : NvmeCmd) : Option (List Byte) :=
  if c.opcode = 0x06 then
    let cns := c.dw10.toNat % 256
    let csi := c.dw11.toNat / 2 ^ 24
    if cns = 1 then some (identifyController s)
    else if cns = 0 then (namedNs s sender c.nsid.toNat).map (identifyNamespace s)
    else if cns = 5 ∧ csi = 2 then ((namedNs s sender c.nsid.toNat).filter (·.zoned)).map fun _ => identifyZoned s
    else none
  else if c.opcode = 0x02 ∧ logId c = 0x02 then some (sub (healthLog s) (logOffset c) (logBytes c))
  else none

end Sys2Proof.Machine
end

