-- ==== Sys2Proof/Machine/Admission.lean ====
section
/-! DEFINITION. How commands arrive and orders are admitted (R46 to R53, R217, R219, R230), how their completions are
posted (R52, R56, R71, R72), and the way of a command through a Wall (R398 to R402). -/

namespace Sys2Proof.Machine

/-! ## The header and the words (R48, R50, R77, R89) -/

/-- Opcodes of Table 4.3. -/
def definedOp (op : Nat) : Bool :=
  decide (op ≤ 0x09) || decide (0x20 ≤ op ∧ op ≤ 0x26) || decide (0x30 ≤ op ∧ op ≤ 0x34) || op == 0x40 || op == 0x41
    || decide (0x50 ≤ op ∧ op ≤ 0x57) || decide (0x70 ≤ op ∧ op ≤ 0x75) || decide (0x80 ≤ op ∧ op ≤ 0x83)
    || op == 0x90 || op == 0x91 || decide (0xE0 ≤ op ∧ op ≤ 0xE5)

/-- The immediate target of a branch, where the word is one: BR with mod[0] = 0, BZ, BNZ (Table 4.5). -/
def branchTarget (w : W64) : Option Nat :=
  let f := wordFields w
  if wordOp w = 0x21 ∨ wordOp w = 0x22 ∨ (wordOp w = 0x20 ∧ f.m 0 = false) then some (f.i 9 0) else none

/-- The checks of instruction words (R50, R77): defined opcodes, none of the manager's for a tenant, and immediate
targets inside the words. -/
def wordsOk (ws : List W64) (tenant : Bool) : Bool := ws.all fun w =>
  definedOp (wordOp w) && !(tenant && decide (0xE0 ≤ wordOp w)) && (branchTarget w).all fun t => decide (t < ws.length)

/-- The header of an order's text (Table 3.2). -/
def parseHeader (b : List Byte) : Header :=
  let flags := leAt b 3 1
  let bay := leAt b 0x30 2
  { nWords := leAt b 2 1, early := flags % 2 == 1, handlerValid := flags / 2 % 2 == 1, callPattern := flags / 4 % 2 == 1
    pattern := leAt b 4 2, handler := leAt b 6 2, dataLen := leAt b 8 4
    runLimit := if leAt b 0xC 4 = 0 then 65536 else leAt b 0xC 4
    args := words64 4 (sub b 0x10 32)
    bay := if bay / 32768 = 1 then some (bay % 256, bay / 256 % 4) else none }

/-- The fields of Table 3.2 and Table 3.3 and the reserved places (R48, R50). -/
def headerOk (b : List Byte) : Bool :=
  let h := parseHeader b
  leAt b 0 2 == 1 && decide (h.nWords ≤ 56) && decide (leAt b 3 1 < 8)
    && (!h.callPattern || (h.nWords == 0 && !h.handlerValid))
    && (if h.callPattern then decide (h.pattern < 1024) else h.pattern == 0)
    && (if h.handlerValid then decide (h.handler < 56) && decide (h.handler < h.nWords) else h.handler == 0)
    && decide (h.runLimit ≤ 65536) && leAt b 0x30 2 / 1024 % 32 == 0 && zeros b 0x32 14

/-- Bytes of the text of a header. -/
def textBytes (h : Header) : Nat := 64 + 8 * h.nWords

/-- The checks of R50 on a text. -/
def textLegal (s : State) (t : Nat) (b : List Byte) : Bool :=
  let h := parseHeader b
  headerOk b && wordsOk (words64 h.nWords (b.drop 64)) (t != 0) && (!h.callPattern || callable s t h.pattern)

/-! ## Commands of an I/O queue (R73, Table 3.8) -/

/-- I/O opcodes with a device pattern. -/
def patternOpcode (op : Nat) : Bool := [0x00, 0x01, 0x02, 0x05, 0x08, 0x09, 0x0C, 0x79, 0x7A, 0x7D].contains op

/-- Whether Table 3.8 excludes the type of a command's namespace. -/
def excludedType (s : State) (c : NvmeCmd) : Bool :=
  match getNs s (nsidLocal s c.nsid.toNat) with
  | some n => if n.zoned then c.opcode.toNat == 0x08 || c.opcode.toNat == 0x09 else decide (0x79 ≤ c.opcode.toNat ∧ c.opcode.toNat ≤ 0x7D)
  | none => false

/-- Execute Work Order. -/
def isOrder (c : NvmeCmd) : Bool := c.opcode == 0xC1

/-- A pattern-only order (Table 3.1). -/
def patternOnly (c : NvmeCmd) : Bool := isOrder c && c.dw11.getLsbD 31

/-- The kind of a command of an I/O queue. -/
def commandKind (c : NvmeCmd) : OrderKind :=
  if patternOnly c then .patternOnly
  else if isOrder c then (match c.ptr with
    | .inCapsule _ _ => .inline
    | _ => .byPointer)
  else .standard

/-! ## A slot is taken (R52, R56) -/

/-- Free slots that carry no credit (R218). -/
def uncredited (s : State) : Nat := slotsFree s - creditSum s

/-- Note the fewest free slots (SMT_SLOT_MIN). -/
def noteFree (s : State) : State :=
  let s1 := wr s R.SMT_SLOT_MIN_MIN (min (s.ord.minFrom.getD (rd s R.SMT_SLOT_MIN_MIN)) (slotsFree s))
  { s1 with ord := { s1.ord with minFrom := none } }

/-- Take a slot for a command: its context and text record are built in the cache (R54), or beside it where the cache holds
no context that may leave it (log entry 45). -/
def takeSlot (s : State) (k t : Nat) (kind : OrderKind) (c : NvmeCmd) (pcie : Option (Nat × Nat)) (qp : Option Nat) (data : List Byte) :
    State :=
  let r := cacheRoom s (kind == .inline || kind == .byPointer)
  noteFree (setSlot r.1 k { slot0 k with
    st := .arriving, tenant := t, gen := (getTen s t).gen, kind := kind, cmd := c, pcie := pcie, qp := qp,
    arrival := s.tb.count, cached := r.2, data := data })

/-- Whether the tenant's commands are taken: it exists, and a reset that took effect in this strike stops them until the
next (R247, R254). -/
def takesCommands (s : State) (t : Nat) : Bool :=
  let x := getTen s t
  (x.st == .active || x.st == .resetting) && x.resetAt.isNone

/-- Whether the ports fetch and receive commands (Table 3.10). -/
def portsOpen (s : State) : Bool := flag s R.SMT_CTRL_EXEC_EN && windowOpen s && strikesRun s

/-! ## Admission (R49 to R51) -/

/-- An order refused at admission runs nothing; its bytes are zeroed and it posts the refusal (R51). It is no order that
faulted: a refusal with PROG_LENGTH_MISMATCH counts in SMT_LENGTH_CNT alone (DESIGN CHOICE, log entry 49). -/
def refuse (s : State) (k : Nat) (st : W16) (reply : Option (Nat × Nat × Bool)) : State :=
  let s1 := if st = St.lengthMismatch then bump s R.SMT_LENGTH_CNT_LENGTH else s
  updSlot s1 k fun x => { x with st := .posting, status := st, reply := reply, data := [], text := [] }

/-- The command's context is set up and it is eligible at once (R54, R59, R81): arguments in the value registers, the
program counter at the start. -/
def startOrder (s : State) (k : Nat) (h : Header) (text args : List W64) : State :=
  let x := getSlot s k
  let pc := if h.callPattern then patStart s x.tenant h.pattern else { pat := none, body := 0, word := 0 }
  let v := Vector.ofFn fun (i : Fin 16) => if i.val = 0 then 0 else args.getD (i.val - 1) 0
  let s1 := runnableAt (setSlot s k { x with hdr := h, text := text, v := v, pc := pc }) k s.tb.count
  startCluster s1 (clusterOf s1 (getSlot s1 k))

/-- The immediate data of an inline order goes into a Crucible buffer that h7 names (R47); none when there is no data. -/
def placeInline (s : State) (k t : Nat) (l : List Byte) : State :=
  if l.isEmpty then s
  else
    let r := allocBuf s k t l.length false
    updSlot (writeBuf r.1 r.2 0 l) k (·.setHdl 7 (some { buf := r.2, off := 0, len := l.length }))

/-- Whether the in-capsule data differs from its descriptor (R49, Table 9.4). -/
def capsuleMismatch (c : NvmeCmd) (data : List Byte) : Bool :=
  match c.ptr with
  | .inCapsule off len => off + len != data.length
  | _ => false

/-- A fabric case of Table 9.4 counts in ETH_LEN_CNT at the device whose port carried the command. -/
def countCapsule (s : State) (k : Nat) : State := if (getSlot s k).qp.isSome then bump s R.ETH_LEN_CNT_LEN else s

/-- Admission of an inline order (R47, R49, R50). The spec leaves open, and the model chooses: a length that disagrees comes
before a field that is wrong (log entry 50), and data that finds no room in the tenant's Crucible quota or the pool refuses
the order with RES_NO_BUFFER (log entry 51; both DESIGN CHOICE). -/
def admitInline (s : State) (k : Nat) (b : List Byte) : State :=
  let t := (getSlot s k).tenant
  let h := parseHeader b
  if b.length ≠ textBytes h + h.dataLen ∨ 8192 < b.length ∨ capsuleMismatch (getSlot s k).cmd b = true then
    refuse (countCapsule s k) k St.lengthMismatch none
  else if !textLegal s t b then refuse s k St.illegalOp none
  else if h.dataLen ≠ 0 ∧ bufferFits s t h.dataLen false = false then refuse s k St.noBuffer none
  else startOrder (placeInline s k t (sub b (textBytes h) h.dataLen)) k h (words64 h.nWords (b.drop 64)) h.args

/-- Admission of a by-pointer order, whose text has been fetched (R49, R50). -/
def admitFetched (s : State) (k : Nat) (b : List Byte) : State :=
  let x := getSlot s k
  let h := parseHeader b
  let declared := x.cmd.dw10.toNat % 65536
  if describedFrom x 0 ≠ some declared ∨ b.length ≠ declared then
    refuse (countTransferFail s x) k St.lengthMismatch none
  else if declared ≠ textBytes h ∨ h.dataLen ≠ 0 then refuse s k St.lengthMismatch none
  else if !textLegal s x.tenant b then refuse s k St.illegalOp none
  else startOrder s k h (words64 h.nWords (b.drop 64)) h.args

/-- Admission of a pattern-only order (Table 3.1, R50). -/
def admitPattern (s : State) (k : Nat) : State :=
  let x := getSlot s k
  let n := x.cmd.dw11.toNat % 1024
  if !callable s x.tenant n then refuse s k St.illegalOp none
  else startOrder s k { hdr0 with callPattern := true, pattern := n } [] [x.cmd.dw13 ++ x.cmd.dw12, x.cmd.dw15 ++ x.cmd.dw14]

/-- Admission of a standard command: its device pattern runs with CDW10 to CDW15 in v1 to v6 and the namespace in v7
(R73). -/
def admitStandard (s : State) (k : Nat) : State :=
  let x := getSlot s k
  let c := x.cmd
  if !patternOpcode c.opcode.toNat || excludedType s c then refuse s k St.illegalOp (some (0, 0x01, true))
  else startOrder s k { hdr0 with callPattern := true, pattern := c.opcode.toNat } []
    [c.dw10.zeroExtend 64, c.dw11.zeroExtend 64, c.dw12.zeroExtend 64, c.dw13.zeroExtend 64, c.dw14.zeroExtend 64,
     c.dw15.zeroExtend 64, c.nsid.zeroExtend 64]

/-- Admission once everything that a command brings is at hand. -/
def admitWork (s : State) (k : Nat) : State :=
  let x := getSlot s k
  match x.kind with
  | .inline => admitInline s k x.data
  | .byPointer => admitFetched s k x.data
  | .patternOnly => admitPattern s k
  | .standard =>
    if capsuleMismatch x.cmd x.data then refuse (countCapsule s k) k St.lengthMismatch none else admitStandard s k
  | .management => s

/-! ## Commands for the members of a Wall (R397 to R401) -/

/-- Whether an NSID of a Wall head is valid for a command (Table 18.2): LOCAL 0 only names a management order of MF, or
the head itself. -/
def nsidValid (s : State) (t : Nat) (c : NvmeCmd) : Bool :=
  let m := nsidMember s c.nsid.toNat
  let l := nsidLocal s c.nsid.toNat
  !isHead s || (decide (c.nsid.toNat < 2 ^ 18) && decide (m < s.wall.size)
    && (decide (1 ≤ l ∧ l ≤ 2048) || (l == 0 && (m == 0 || (isOrder c && t == 0)))))

/-- A command that stands whole in its slot passes to admission, or to the member that its namespace names. -/
def dispatchOrder (s : State) (k : Nat) : State :=
  let x := getSlot s k
  let m := nsidMember s x.cmd.nsid.toNat
  if !nsidValid s x.tenant x.cmd then refuse s k St.illegalOp (some (0, 0x0B, true))
  else if m ≠ 0 then toMember s k m
  else admitWork s k

/-- What the port does with a command in its slot: admin commands wait for the firmware (R73), a by-pointer order for
its text, anything else goes on; a descriptor that the port does not take is an invalid field (R215). -/
def arrive (s : State) (k : Nat) : State :=
  let x := getSlot s k
  if x.kind == .management then s
  else if x.cmd.ptr == .other then refuse s k St.illegalOp (some (0, 0x02, true))
  else if x.kind == .byPointer then readText s k
  else dispatchOrder s k

/-! ## The commands that bring commands -/

/-- What a capsule meets (R217, R219, Table 9.4): a queue pair without credit, a SEND of a wrong length, or its slot. -/
def receiveCapsule (s : State) (q : Nat) (cap : Capsule) : State :=
  let x := getQp s q
  if x.credit = 0 then bump (emit s (.rnrNak q)) R.ETH_RNR_CNT_RNR
  else if cap.sendLen < 64 ∨ 8256 < cap.sendLen then qpError (bump (emit s (.capsuleNak q)) R.ETH_LEN_CNT_LEN) q
  else match findSlot s with
    | none => s
    | some k =>
      let kind := if x.admin then OrderKind.management else commandKind cap.cmd
      let s1 := setQp s q { x with credit := x.credit - 1, rnrTries := 0, ackTries := 0 }
      arrive (takeSlot s1 k x.tenant kind cap.cmd none (some q) cap.data) k

/-- CAPSULE_RECEIVED. -/
def execCapsuleReceived (qp : Nat) (cap : Capsule) (s : State) : Answer :=
  let x := getQp s qp
  stepIf s (x.st == .live && flag s R.ETH_RT_CTRL_RT_EN && portsOpen s && !isMember s
      && (x.credit == 0 || (findSlot s).isSome))
    (receiveCapsule s qp cap)

/-- Whether a completion queue has no room for one more entry. -/
def NvmeQueue.full (q : NvmeQueue) : Bool := (q.tail + 1) % q.size == q.head

/-- Whether a submission queue may be fetched from (R53, R230): entries, a completion queue with room and no backlog, a
slot without credit, and the tenant below its quota. During a power-state entry only MF's admin queue is (R329). -/
def sqEligible (s : State) (fn sq : Nat) : Bool :=
  let f := getFunc s fn
  f.rdy && (fetchOpen s || (fn == 0 && sq == 0)) && takesCommands s fn && decide (0 < uncredited s)
    && decide (slotsUsed s fn + tenantCredits s fn < (getTen s fn).blk.slots) && (match Tbl.get Tbl.absent f.sqs sq with
        | some q => q.head != q.tail && !(f.backlog.any fun e => e.1 == q.cqid)
            && ((Tbl.get Tbl.absent f.cqs q.cqid).map fun c => !c.full).getD false
        | none => false)

/-- The eligible queue of a function that follows the one fetched last. -/
def nextSq (s : State) (fn : Nat) : Option Nat :=
  let f := getFunc s fn
  let l := (f.sqs.map (·.1)).filter (sqEligible s fn)
  match l.find? fun q => decide (f.lastSq < q) with
  | some q => some q
  | none => l.head?

/-- The function and queue that PE fetches from next, in rotating order (R230). -/
def nextFetch (s : State) : Option (Nat × Nat) :=
  let l := (s.port.funcs.map (·.1)).filter fun fn => (nextSq s fn).isSome
  let fn := match l.find? fun fn => decide (s.port.lastFn < fn) with
    | some fn => some fn
    | none => l.head?
  fn.bind fun n => (nextSq s n).map fun q => (n, q)

/-- Move a submission queue's head past the entry. -/
def popSq (s : State) (fn sq : Nat) : State :=
  let f := getFunc s fn
  let move := fun (q : NvmeQueue) => { q with head := (q.head + 1) % q.size }
  let f1 := { f with sqs := Tbl.upd Tbl.absent f.sqs sq (·.map move), lastSq := sq }
  let s1 := setFunc s fn f1
  { s1 with port := { s1.port with lastFn := fn } }

/-- The kind of a fetched entry: the admin queue carries admin commands, and no order in a queue entry is inline. -/
def entryKind (sq : Nat) (c : NvmeCmd) : OrderKind :=
  if sq = 0 then .management
  else match commandKind c with
    | .inline => .byPointer
    | x => x

/-- A fetched entry; a pointer that no queue entry can have is not one. -/
def entryCmd (c : NvmeCmd) : NvmeCmd :=
  match c.ptr with
  | .prp | .host _ | .none => c
  | _ => { c with ptr := .other }

/-- A submission entry has been fetched: it takes a slot and passes on. -/
def fetchEntry (s : State) (fn sq : Nat) (c : NvmeCmd) : State :=
  match findSlot s with
  | none => s
  | some k => arrive (takeSlot (popSq s fn sq) k fn (entryKind sq c) (entryCmd c) (some (fn, sq)) none []) k

/-- SQ_ENTRY_FETCH. -/
def execSqEntryFetch (fn sq : Nat) (cmd : NvmeCmd) (s : State) : Answer :=
  stepIf s (portsOpen s && !isMember s && nextFetch s == some (fn, sq) && (findSlot s).isSome)
    (fetchEntry s fn sq cmd)

/-- The text of a by-pointer order arrives, or its transfer fails, which refuses the order (R49); a remote access error
puts the queue pair in error as well (Table 9.4). -/
def textArrives (s : State) (k : Nat) (r : HostReply) : State :=
  let x := getSlot s k
  match r with
  | .done text _ => dispatchOrder (setSlot s k { x with data := text }) k
  | .accessError =>
    let s1 := refuse (countTransferFail s x) k St.lengthMismatch none
    match x.qp with
    | some q => qpError s1 q
    | none => s1
  | _ => refuse (countTransferFail s x) k St.lengthMismatch none

/-- ORDER_TEXT_FETCHED. -/
def execOrderTextFetched (slot : Nat) (r : HostReply) (s : State) : Answer :=
  let x := getSlot s slot
  stepIf s (x.st == .arriving && x.kind == .byPointer && (x.stage == 1 || x.qp.isNone) && strikesRun s)
    (nextRead (textArrives s slot r) x)

/-- Whether a packet of a member with this sequence number has come before: it is a duplicate (R396). -/
def seenBefore (s : State) (src : Nat) (seq : W32) : Bool := (Tbl.get (fun _ => []) s.wall.seen src).contains seq

/-- Note a packet's sequence number; numbers half the range behind it are forgotten. -/
def noteSeq (s : State) (src : Nat) (seq : W32) : State :=
  let l := (Tbl.get (fun _ => []) s.wall.seen src).filter fun x => decide ((seq - x).toNat < 2 ^ 31)
  { s with wall := { s.wall with seen := Tbl.set (fun _ => []) s.wall.seen src (seq :: l) } }

/-- A forwarded command uses one of the credits that the member has granted (R401). -/
def spendGrant (s : State) : State := { s with wall := { s.wall with granted := s.wall.granted - 1 } }

/-- A member takes a forwarded command into a slot; one of an older generation of its tenant is dropped and counted. -/
def takeForwarded (s : State) (fwd : ForwardedOrder) : State :=
  match findSlot s with
  | none => s
  | some k =>
    if (getTen s fwd.tenant).gen ≠ fwd.gen then bumpAt s R.TEN_STALE_CNT_STALE 0 fwd.tenant 1
    else
      let local_ := { fwd.cmd with nsid := BitVec.ofNat 32 (fwd.cmd.nsid.toNat % 4096) }
      let kind := if fwd.isAdmin then OrderKind.management else commandKind fwd.cmd
      let s1 := takeSlot s k fwd.tenant kind local_ none none fwd.data
      admitWork (updSlot s1 k fun x => { x with member := some fwd.headSlot, viaRdma := fwd.viaRdma }) k

/-- FORWARDED_COMMAND_RECEIVED: a member takes a command of the head in a slot of its own, on one of the credits that it
has granted (R400, R401). A duplicate is discarded (R396). A generation other than the tenant's is stale and is dropped
(R402). -/
def execForwardedCommandReceived (fwd : ForwardedOrder) (s : State) : Answer :=
  stepIf s (isMember s && portsOpen s && (findSlot s).isSome && takesCommands s fwd.tenant && !seenBefore s 0 fwd.seq)
    (takeForwarded (spendGrant (noteSeq s 0 fwd.seq)) fwd)

/-! ## Completions (R52, R71, R72) -/

/-- Whether a slot's namespace is conventional (Table 3.6). -/
def slotConv (s : State) (x : Slot) : Bool :=
  ((getNs s (nsidLocal s x.cmd.nsid.toNat)).map fun n => !n.zoned).getD false

/-- The NVMe status of a slot's completion. -/
def slotNvme (s : State) (x : Slot) : Nat × Nat × Bool := x.reply.getD (St.nvme x.status (slotConv s x) false)

/-- DW0 of the completion (R71): what the firmware gives for an admin command; status and fault position of a work order; of a standard command the status where the
code type is 7, else what NVMe defines, which is the lower half of the LBA for Zone Append. -/
def slotDw0 (s : State) (x : Slot) : W32 :=
  if x.kind == .management then (x.val 1).truncate 32
  else if x.kind == .standard then
    (if (slotNvme s x).1 = 7 then x.status.zeroExtend 32
     else if x.cmd.opcode = 0x7D ∧ x.status = St.ok then (x.val 15).truncate 32 else 0)
  else x.faultPos ++ x.status

/-- DW1 of the completion: v1 of a work order, the upper half of the LBA for Zone Append. -/
def slotDw1 (x : Slot) : W32 :=
  if x.kind == .management then 0
  else if x.kind == .standard then
    (if x.cmd.opcode = 0x7D ∧ x.status = St.ok then ((x.val 15) >>> 32).truncate 32 else 0)
  else (x.val 1).truncate 32

/-- The completion as it leaves. -/
def completionOut (s : State) (k : Nat) (x : Slot) : Output :=
  let n := slotNvme s x
  .completion k x.cmd.cid (slotDw0 s x) (slotDw1 x) n.1 n.2.1 n.2.2

/-- A request of a slot that still writes to the host: HPUT, NOTE, an OPEN on its way out or being zeroed. -/
def Req.writesHost (q : Req) : Bool := q.onWire && q.op != 0x40

/-- Whether every host write of an order is done (R52). -/
def hostWritesDone (s : State) (k : Nat) : Bool :=
  s.ord.reqs.all fun e => match e.2 with
    | some q => !(q.slot == k && q.gen == (getSlot s k).gen && q.writesHost)
    | none => true

/-- A slot enters QUENCH: its buffers are freed, its contexts and waiting pattern bodies go to Quench (R57, R79, R94,
R104). -/
def quenchSlot (s : State) (k : Nat) : State :=
  let s1 := freeSlotCtxs (freeAll s k) k
  reapBodies (updSlot s1 k fun x => { x with st := .quench, quenchAt := s.tb.count + 1, waiting := .nothing, sliceLeft := 0,
                                             stack := [], data := [] })

/-- Hand a completion to its completion queue on PCIe; the entry is a write of the function (R230, R261). -/
def pushCq (s : State) (fn cq k : Nat) : State :=
  let f := getFunc s fn
  match Tbl.get Tbl.absent f.cqs cq with
  | none => quenchSlot s k
  | some q =>
    let s1 := setFunc s fn { f with cqs := Tbl.set Tbl.absent f.cqs cq (some { q with tail := (q.tail + 1) % q.size }) }
    let s2 := markPages (emit s1 (completionOut s k (getSlot s k))) fn (pagesOf (q.base.toNat + 16 * q.tail) 16)
    quenchSlot s2 k

/-- The completion queue of a submission queue. -/
def cqOf (s : State) (fn sq : Nat) : Option Nat := (Tbl.get Tbl.absent (getFunc s fn).sqs sq).map (·.cqid)

/-- Whether a completion queue takes no entry now. -/
def cqFull (s : State) (fn cq : Nat) : Bool := ((Tbl.get Tbl.absent (getFunc s fn).cqs cq).map NvmeQueue.full).getD false

/-- Post a completion over PCIe: with no room it waits in the backlog (R230); a queue that is gone discards it. -/
def postPcie (s : State) (k fn sq : Nat) : State :=
  match cqOf s fn sq with
  | none => quenchSlot s k
  | some cq =>
    let f := getFunc s fn
    if cqFull s fn cq || f.backlog.any (fun e => e.1 == cq) then
      updSlot (setFunc s fn { f with backlog := f.backlog ++ [(cq, k)] }) k fun x => { x with handed := true }
    else pushCq s fn cq k

/-- Post a completion over its queue pair: the response capsule has been accepted (R221); in error it is discarded
(R222). -/
def postRdma (s : State) (k q : Nat) : State :=
  let x := getQp s q
  if x.st == .live then
    quenchSlot (emit (setQp s q { x with rnrTries := 0, ackTries := 0 }) (completionOut s k (getSlot s k))) k
  else quenchSlot s k

/-- An admin command whose answer the firmware gives and no row of the table states: status and DW0 are free values. -/
def freeReply (s : State) (k : Nat) : State :=
  let a := fresh s
  let b := fresh a.2
  updSlot b.2 k fun x =>
    ({ x with reply := some (b.1.toNat % 8, b.1.toNat / 8 % 256, b.1.getLsbD 63) }.setVal 1 (a.1 % 2 ^ 32))

/-- Whether an admin command in its slot is one that a row of its own completes (opcodes PRESUMED but for 0xC2 and 0xC3, log
entry 21): I/O queues, Namespace Management and Attachment, firmware, security protocol 0xF0, the vendor log pages, the
feature of the power state and the mailbox (R76, R229, R301, R327, R387, R423). -/
def awaitsRow (x : Slot) : Bool :=
  let c := x.cmd
  match c.opcode.toNat with
  | 0x00 | 0x01 | 0x04 | 0x05 | 0x11 | 0xC2 | 0xC3 => true
  | 0x02 => logId c == 0xC8 || logId c == 0xC9
  | 0x09 | 0x0A => c.dw10.toNat % 256 == 0xC0
  | 0x0D | 0x15 => decide (cmdSel c ≤ 1)
  | 0x10 => decide (commitAction c ≤ 2)
  | 0x81 => secProtocol c == 0xF0 && decide (1 ≤ secOperation c ∧ secOperation c ≤ 4)
  | 0x82 => secProtocol c == 0xF0
  | _ => false

/-- The firmware's answer to any other admin command: Commit Actions 3 to 7 have an invalid field (Table 19.5). -/
def firmwareReply (s : State) (k : Nat) : State :=
  let x := getSlot s k
  if x.cmd.opcode = 0x10 then admin s k nvInvalidField []
  else match reportedData s x.tenant x.cmd with
    | some l => admin (fresh s).2 k nvOk l
    | none => freeReply s k

/-- The value that a member's completion carries: v1 of a work order, the LBA of a Zone Append. -/
def memberValue (x : Slot) : W64 := x.val (if x.kind == .standard then 15 else 1)

/-- Hand a completion to its port: a member that no route joins to its head discards it (R397). -/
def postCompletion (s : State) (k : Nat) : State :=
  let x := getSlot s k
  match x.pcie, x.qp with
  | some (fn, sq), _ => postPcie s k fn sq
  | none, some q => postRdma s k q
  | none, none => 
    let n := slotNvme s x
    quenchSlot (if headLost s then s
      else emit s (.memberReply (x.member.getD 0) x.status x.faultPos (memberValue x) n.1 n.2.1 n.2.2)) k

/-- COMPLETION_POSTED. -/
def execCompletionPosted (slot : Nat) (s : State) : Answer :=
  let x := getSlot s slot
  let firmware := x.st == .arriving && x.kind == .management && !awaitsRow x
  stepIf s ((x.st == .posting || firmware) && !x.handed && hostWritesDone s slot && x.gen == (getTen s x.tenant).gen
      && strikesRun s)
    (postCompletion (if firmware then firmwareReply s slot else s) slot)

/-- SLOT_QUENCH_DONE: the context and text record are zeroed by the next strike, and the slot is FREE (Table 10.6). -/
def execSlotQuenchDone (slot : Nat) (s : State) : Answer :=
  let x := getSlot s slot
  stepIf s (x.st == .quench && decide (x.quenchAt ≤ s.tb.count)) (setSlot s slot (slot0 slot))

/-- RESPONSE_RNR_NAK: the response is sent again, up to RNR_RETRY times; 7 is without limit (R221, R222). -/
def execResponseRnrNak (slot : Nat) (s : State) : Answer :=
  let x := getSlot s slot
  match x.qp with
  | none => .next s
  | some q =>
    let p := getQp s q
    let limit := R.ETH_RT_CTRL_RNR_RETRY.of p.rtWord
    stepIf s (x.st == .posting && p.st == .live && hostWritesDone s slot)
      (if limit = 7 then s
       else if p.rnrTries < limit then setQp s q { p with rnrTries := p.rnrTries + 1 }
       else qpError s q)

/-! ## The head's side of a member's command (R396 to R402) -/

/-- COMMAND_FORWARD: the head uses a command credit of the member; the packet waits for its acknowledgement (R396,
R401). -/
def execCommandForward (slot : Nat) (s : State) : Answer :=
  let x := getSlot s slot
  match x.member with
  | none => .next s
  | some m =>
    let credit := Tbl.get nat0 s.wall.credits m
    let pkt : Packet := { dest := m, seq := s.wall.nextPkt, sentAt := s.tb.count, slot := some slot }
    let w := { s.wall with
      credits := Tbl.set nat0 s.wall.credits m (credit - 1), nextPkt := s.wall.nextPkt + 1,
      packets := Tbl.set Tbl.absent s.wall.packets s.wall.nextPkt (some pkt) }
    stepIf s (isHead s && x.st == .suspended && x.stage == 0 && decide (0 < credit) && s.wall.live.getLsbD m && strikesRun s)
      (emit (updSlot { s with wall := w } slot fun y => { y with stage := 1 }) (.forward m slot))

/-- Packets of a slot that need no acknowledgement any more. -/
def dropPackets (s : State) (k : Nat) : State :=
  { s with wall := { s.wall with packets := s.wall.packets.filter fun e => (e.2.bind (·.slot)) != some k } }

/-- What a member's value is to the host of the head: the NSID of a namespace that the member has created names the member
(Table 18.2, R399). -/
def headValue (x : Slot) (v : W64) : W64 :=
  if x.kind == .management && x.cmd.opcode == 0x0D && v != 0 then v + BitVec.ofNat 64 (4096 * x.member.getD 0) else v

/-- MEMBER_COMPLETION_RECEIVED: the head posts the member's completion (R401). A duplicate is discarded (R396), and a
completion of an old generation is stale (R402). -/
def execMemberCompletionReceived (slot : Nat) (c : MemberCompletion) (s : State) : Answer :=
  let x := getSlot s slot
  let s1 := noteSeq (dropPackets s slot) (x.member.getD 0) c.seq
  stepIf s (isHead s && x.st == .suspended && x.stage == 1 && x.member.isSome && !seenBefore s (x.member.getD 0) c.seq)
    (if x.gen ≠ (getTen s x.tenant).gen then bumpAt s1 R.TEN_STALE_CNT_STALE 0 x.tenant 1
     else updSlot s1 slot fun y =>
      ({ y with st := .posting, status := c.status, faultPos := c.pos, reply := some (c.sct, c.sc, c.dnr) }.setVal 1
        (headValue y c.value)).setVal 15 c.value)

/-- MEMBER_HOST_TRANSFER: the head carries a member's transfer on the port of its command; a duplicate is discarded
(R396), and a stale one is dropped (R402). -/
def execMemberHostTransfer (t : MemberTransfer) (s : State) : Answer :=
  let x := getSlot s t.slot
  let s1 := noteSeq s t.member t.seq
  stepIf s (isHead s && s.wall.live.getLsbD t.member && x.st == .suspended && x.member == some t.member
      && !seenBefore s t.member t.seq)
    (if t.gen ≠ (getTen s t.tenant).gen then bumpAt s1 R.TEN_STALE_CNT_STALE 0 t.tenant 1
     else if t.write then emit s1 (.hostWrite t.slot t.mode t.rkey t.addr t.data)
     else emit s1 (.memberRead t.slot t.mode t.rkey t.addr))

end Sys2Proof.Machine
end

