-- ==== Sys2Proof/Machine/Alu.lean ====
section
/-! DEFINITION. The arithmetic and control instructions (R90, R91, Tables 4.4 and 4.5). -/

namespace Sys2Proof.Machine

/-- An ALU word: v[a] and the flags Z, C, N are written (R90). -/
def aluBody (k : Nat) (f : Fields) (op : W64 → W64 → W64 × Bool) (s : State) (_ : W16) : State :=
  updSlot s k fun x =>
    let r := op (x.val f.b) (operandS x f)
    { x.setVal f.a r.1 with flags := flagsOf x.flags r.1 r.2 }

/-- ADD. -/
def execAdd (slot : Nat) (f : Fields) (s : State) : Answer :=
  stepIf s (atWord s slot 0x00 f) (runWord s slot 2 (aluUnused f false) (aluBody slot f aluAdd))

/-- SUB. -/
def execSub (slot : Nat) (f : Fields) (s : State) : Answer :=
  stepIf s (atWord s slot 0x01 f) (runWord s slot 2 (aluUnused f false) (aluBody slot f aluSub))

/-- AND. -/
def execAnd (slot : Nat) (f : Fields) (s : State) : Answer :=
  stepIf s (atWord s slot 0x02 f) (runWord s slot 2 (aluUnused f false) (aluBody slot f aluAnd))

/-- OR. -/
def execOr (slot : Nat) (f : Fields) (s : State) : Answer :=
  stepIf s (atWord s slot 0x03 f) (runWord s slot 2 (aluUnused f false) (aluBody slot f aluOr))

/-- XOR. -/
def execXor (slot : Nat) (f : Fields) (s : State) : Answer :=
  stepIf s (atWord s slot 0x04 f) (runWord s slot 2 (aluUnused f false) (aluBody slot f aluXor))

/-- SHL. -/
def execShl (slot : Nat) (f : Fields) (s : State) : Answer :=
  stepIf s (atWord s slot 0x05 f) (runWord s slot 2 (aluUnused f false) (aluBody slot f aluShl))

/-- SHR. -/
def execShr (slot : Nat) (f : Fields) (s : State) : Answer :=
  stepIf s (atWord s slot 0x06 f) (runWord s slot 2 (aluUnused f true) (aluBody slot f (aluShr (f.m 2))))

/-- The unused places of LDI: b, c, mod[3:2], mod[1:0] = 3, and imm[39:24] with mod 2. -/
def ldiUnused (f : Fields) : Bool :=
  f.b == 0 && f.c == 0 && decide (f.mod.toNat < 3) && (f.mod != 2 || decide (f.imm.toNat < 2 ^ 24))

/-- The value LDI loads (Table 4.4). -/
def ldiValue (x : Slot) (f : Fields) : W64 :=
  match f.mod.toNat with
  | 0 => f.imm.zeroExtend 64
  | 1 => f.imm.signExtend 64
  | _ => BitVec.ofNat 64 ((x.val f.a).toNat % 2 ^ 40 + f.i 23 0 * 2 ^ 40)

/-- LDI. -/
def execLdi (slot : Nat) (f : Fields) (s : State) : Answer :=
  stepIf s (atWord s slot 0x07 f) (runWord s slot 1 (ldiUnused f) fun t _ =>
    updSlot t slot fun x => x.setVal f.a (ldiValue x f))

/-- CMP: a must be 0. -/
def execCmp (slot : Nat) (f : Fields) (s : State) : Answer :=
  stepIf s (atWord s slot 0x08 f) (runWord s slot 2 (aluUnused f false && f.a == 0) fun t _ =>
    updSlot t slot fun x => { x with flags := cmpFlags x.flags (x.val f.b) (operandS x f) })

/-- SEL. -/
def execSel (slot : Nat) (f : Fields) (s : State) : Answer :=
  stepIf s (atWord s slot 0x09 f) (runWord s slot 2 (unusedZero f true true true 3 0) fun t _ =>
    updSlot t slot fun x => x.setVal f.a (if selFlag x.flags f.mod then x.val f.b else x.val f.c))

/-! ## Control -/

/-- Jump to a word of the text or pattern that holds the branch; a target beyond the last word faults (R91). -/
def jump (s : State) (k target : Nat) (pos : W16) : State :=
  let inside := match codeAt s (getSlot s k) with
    | some ws => decide (target < ws.length)
    | none => true
  if inside then updSlot s k fun x => { x with pc := { x.pc with word := target } }
  else orderFault s k St.illegalOp pos

/-- BR: the target is imm[9:0], or v[a][9:0] with mod[0]. -/
def execBr (slot : Nat) (f : Fields) (s : State) : Answer :=
  let used := if f.m 0 then unusedZero f true false false 1 0 else unusedZero f false false false 1 10
  stepIf s (atWord s slot 0x20 f) (runWord s slot 4 used fun t pos =>
    jump t slot (if f.m 0 then ((getSlot t slot).val f.a).toNat % 1024 else f.i 9 0) pos)

/-- The unused places of BZ and BNZ: mod[2:0] is 0 to 4, a is used with source 0 only. -/
def branchUnused (f : Fields) : Bool :=
  decide (f.mod.toNat < 5) && f.b == 0 && f.c == 0 && (f.mod == 0 || f.a == 0) && decide (f.imm.toNat < 1024)

/-- Whether a conditional branch's source is zero. -/
def branchZero (s : State) (k : Nat) (f : Fields) : Bool :=
  let x := getSlot s k
  sourceZero x.flags (x.val f.a) f.mod

/-- BZ. -/
def execBz (slot : Nat) (f : Fields) (s : State) : Answer :=
  let taken := branchZero s slot f
  stepIf s (atWord s slot 0x21 f) (runWord s slot (if taken then 4 else 2) (branchUnused f) fun t pos =>
    if taken then jump t slot (f.i 9 0) pos else t)

/-- BNZ. -/
def execBnz (slot : Nat) (f : Fields) (s : State) : Answer :=
  let taken := !branchZero s slot f
  stepIf s (atWord s slot 0x22 f) (runWord s slot (if taken then 4 else 2) (branchUnused f) fun t pos =>
    if taken then jump t slot (f.i 9 0) pos else t)

/-- Call a pattern (R64): a fifth nested call and a pattern that is not loaded fault. -/
def callPattern (s : State) (k n : Nat) (pos : W16) : State :=
  let x := getSlot s k
  if x.stack.length ≥ 4 then orderFault s k St.callDepth pos
  else if !callable s x.tenant n then orderFault s k St.noPattern pos
  else updSlot s k fun y => { y with stack := y.pc :: y.stack, pc := patStart s x.tenant n, stage := 0 }

/-- CALLP. -/
def execCallp (slot : Nat) (f : Fields) (s : State) : Answer :=
  stepIf s (atWord s slot 0x23 f) (runWord s slot 8 (unusedZero f false false false 0 10) fun t pos =>
    callPattern t slot (f.i 9 0) pos)

/-- Whether END returns from a called pattern: not at the level at which the handler runs (R67, R91). -/
def endReturns (x : Slot) : Bool := !x.stack.isEmpty && !(x.inHandler && x.stack.length == x.hdepth)

/-- Return to the word after the call (R64); a replaced body may now be free (R79), and a device pattern's private buffers
are. -/
def returnCall (s : State) (k : Nat) : State :=
  reapBodies (updSlot (dropPrivate s k) k fun x => match x.stack with
    | p :: rest => { x with pc := p, stack := rest }
    | [] => x)

/-- What END does: it returns from a called pattern, or waits for every ticket and posts 0x0000. -/
def endWord (s : State) (k : Nat) (used : Bool) : State :=
  if endReturns (getSlot s k) then runWord s k 4 used fun t _ => returnCall t k
  else waitWord s k 4 used 15 fun t _ => raiseTickets t k 15 fun u => finishOrder u k St.ok

/-- END. -/
def execEndOrder (slot : Nat) (f : Fields) (s : State) : Answer :=
  stepIf s (atWord s slot 0x24 f) (endWord s slot (unusedZero f false false false 0 0))

/-- FAULT. -/
def execFault (slot : Nat) (f : Fields) (s : State) : Answer :=
  let used := if f.m 0 then unusedZero f true false false 1 0 else unusedZero f false false false 1 16
  stepIf s (atWord s slot 0x25 f) (runWord s slot 2 used fun t pos =>
    orderFault t slot (St.raised (statusOperand (getSlot t slot) f)) pos)

/-- YIELD: the slice ends, and the order is runnable from the next strike (R63). -/
def execYield (slot : Nat) (f : Fields) (s : State) : Answer :=
  stepIf s (atWord s slot 0x26 f) (runWord s slot 2 (unusedZero f false false false 0 0) fun t _ =>
    if pastEnd t (getSlot t slot) then t
    else leave (updSlot t slot fun x => { x with from_ := t.tb.count + 1 }) slot .runnable)

/-! ## Waiting, time and posting (R105, R106) -/

/-- WAIT with mod[0] = 0: until the tickets of imm[3:0] are in; with mod[0] = 1: until the strike counter is at least
v[b] + imm. -/
def execWait (slot : Nat) (f : Fields) (s : State) : Answer :=
  let byStrike := f.m 0
  let used := if byStrike then unusedZero f false true false 1 40 else unusedZero f false false false 1 4
  let mask := BitVec.ofNat 4 (f.i 3 0)
  let target := ((getSlot s slot).val f.b + f.imm.zeroExtend 64).toNat
  stepIf s (atWord s slot 0x80 f)
    (if byStrike then
      (if !overLimit s slot && used && decide (s.tb.count < target) then suspend s slot (.strike target)
       else runWord s slot 2 used fun t _ => t)
     else waitWord s slot 2 used mask fun t _ => raiseTickets t slot mask fun u => u)

/-- FENCE. -/
def execFence (slot : Nat) (f : Fields) (s : State) : Answer :=
  stepIf s (atWord s slot 0x81 f)
    (waitWord s slot 2 (unusedZero f false false false 0 0) 15 fun t _ => raiseTickets t slot 15 fun u => u)

/-- What TIME reads: the strike counter, the strike of arrival, or the instructions that the context has counted as
executed before this one (Table 3.4, log entry 11). -/
def timeValue (s : State) (x : Slot) (f : Fields) : W64 :=
  match f.mod.toNat % 4 with
  | 0 => BitVec.ofNat 64 s.tb.count
  | 1 => BitVec.ofNat 64 x.arrival
  | _ => BitVec.ofNat 64 x.executed

/-- TIME; mod[1:0] = 3 is undefined. -/
def execTime (slot : Nat) (f : Fields) (s : State) : Answer :=
  stepIf s (atWord s slot 0x82 f)
    (runWord s slot 2 (unusedZero f true false false 3 0 && f.mod != 3) fun t _ =>
      updSlot t slot fun x => x.setVal f.a (timeValue t (getSlot s slot) f))

/-- POST: ends the whole order with a status, after every ticket is in. -/
def execPost (slot : Nat) (f : Fields) (s : State) : Answer :=
  let used := if f.m 0 then unusedZero f true false false 1 0 else unusedZero f false false false 1 16
  stepIf s (atWord s slot 0x90 f)
    (waitWord s slot 2 used 15 fun t _ =>
      raiseTickets t slot 15 fun u => finishOrder u slot (St.posted (statusOperand (getSlot t slot) f)))

end Sys2Proof.Machine
end

