-- ==== Sys2Proof/Machine/Fabric.lean ====
section
/-! DEFINITION. The Ethernet ports, the RDMA transport and NVMe over RDMA (R208 to R225). -/

namespace Sys2Proof.Machine

/-! ## Logical ports (R208 to R212) -/

/-- The Ethernet port of a logical port. -/
def portOf (lport : Nat) : Nat := lport / 4

/-- Whether a mode gives an Ethernet port this logical port (Table 9.1). -/
def lportExists (mode lport : Nat) : Bool := decide (lport % 4 < 2 ^ mode)

/-- Line rate of a mode in Mb/s. -/
def lineRate (mode : Nat) : Nat := 400000 / 2 ^ mode

/-- Whether an Ethernet port is enabled (Table 9.7). -/
def portEnabled (s : State) (ep : Nat) : Bool := rdAt s R.ETH_PORT_CFG_EN (4 * ep) 0 != 0

/-- A field of a logical port's configuration as it has stood since the last strike. -/
def lportField (s : State) (f : Fld) (lport : Nat) : Nat := f.of (forceWord s (f.key 0 lport))

/-- Whether an address is one of the logical port's own (R210). -/
def ownAddress (s : State) (lport : Nat) (a : IpAddr) : Bool :=
  (List.range 4).any fun i => match Tbl.get Tbl.absent s.port.ips (4 * lport + i) with
    | some (b, _) => b == a
    | none => false

/-- Whether a frame with this tag reaches the logical port: with VLAN_EN untagged frames are dropped, and a tag must be
the port's VLAN (Table 9.8). -/
def vlanOk (s : State) (lport : Nat) (vlan : Option Nat) : Bool :=
  if lportField s R.ETH_LPORT_CFG_VLAN_EN lport = 1 then vlan == some (lportField s R.ETH_LPORT_CFG_VLAN lport)
  else vlan.isNone

/-- Drop a frame (R210). -/
def dropFrame (s : State) : State := bump s R.ETH_DROP_CNT_DROP

/-- ETHERNET_LINK_CHANGE (R209): a port that is enabled brings up the logical ports of its mode. -/
def execEthernetLinkChange (lport : Nat) (up : Bool) (s : State) : Answer :=
  let x := getLPort s lport
  stepIf s (decide (lport < 8) && x.up != up && !isMember s
      && (!up || (portEnabled s (portOf lport) && lportExists x.mode lport)))
    (setLPort s lport { x with up := up })

/-- ADDRESS_RESOLUTION_REQUEST (R210): ARP and Neighbour Discovery are answered for the port's own addresses; any other
request is dropped. -/
def execAddressResolutionRequest (lport : Nat) (target : IpAddr) (vlan : Option Nat) (s : State) : Answer :=
  stepIf s (decide (lport < 8) && (getLPort s lport).up && s.pwr.st == .hot)
    (if ownAddress s lport target && vlanOk s lport vlan then emit s (.arpReply lport target) else dropFrame s)

/-- ICMP_ECHO_REQUEST (R210). -/
def execIcmpEchoRequest (lport : Nat) (target : IpAddr) (vlan : Option Nat) (payload : List Byte) (s : State) : Answer :=
  stepIf s (decide (lport < 8) && (getLPort s lport).up && s.pwr.st == .hot)
    (if ownAddress s lport target && vlanOk s lport vlan then emit s (.echoReply lport target payload) else dropFrame s)

/-- FOREIGN_FRAME (R210). -/
def execForeignFrame (lport : Nat) (s : State) : Answer :=
  stepIf s (decide (lport < 8) && (getLPort s lport).up) (dropFrame s)

/-- PFC_PAUSE_RECEIVED (R211): a pause for the RoCE priority stops the port's sending on it for so many quanta. -/
def execPfcPauseReceived (lport : Nat) (prio : BitVec 3) (quanta : W16) (s : State) : Answer :=
  let x := getLPort s lport
  let mine := lportField s R.ETH_LPORT_CFG_PFC_EN lport == 1 && lportField s R.ETH_LPORT_CFG_PRIO lport == prio.toNat
  stepIf s (decide (lport < 8) && x.up)
    (if mine then setLPort s lport { x with paused := quanta.toNat } else s)

/-! ## Queue pairs (R213 to R216) -/

/-- Queue pairs in use (ETH_RT_QP_USED). -/
def qpUsed (s : State) : Nat := (s.port.qps.filter fun e => e.2.st != .idle).length

/-- A free queue pair: the lowest. -/
def findQp (s : State) : Option Nat :=
  (List.range (min (s.port.qps.length + 1) qpCount)).find? fun q => (getQp s q).st == .idle

/-- Fabric queues of a tenant that count against its QUEUES quota: admin, I/O and discovery queues alike (Table 10.1). -/
def fabricQueues (s : State) (t : Nat) : Nat :=
  (s.port.qps.filter fun e => (e.2.st == .live || e.2.st == .error) && e.2.tenant == t).length

/-- The path MTU of a logical port: the largest of 1,024, 2,048 and 4,096 bytes that fits in its MTU with 80 bytes added
(R213). -/
def pathMtu (s : State) (lport : Nat) : Nat :=
  let mtu := lportField s R.ETH_LPORT_MTU_MTU lport
  if 4176 ≤ mtu then 4096 else if 2128 ≤ mtu then 2048 else 1024

/-- CONNECTION_REQUEST (R214): with no queue pair free the request is rejected with "No QP available". -/
def execConnectionRequest (lport : Nat) (s : State) : Answer :=
  stepIf s (decide (lport < 8) && (getLPort s lport).up && flag s R.ETH_RT_CTRL_RT_EN && windowOpen s)
    (match findQp s with
      | none => emit s (.cmReject lport)
      | some q =>
        let line := lineRate (getLPort s lport).mode * 65536
        let x : QPair := { qp0 q with
          st := .connected, lport := lport, rc := line, rt := line, alpha := 2 ^ 32,
          rtWord := regWord s R.ETH_RT_CTRL_RT_EN.addr, npWord := regWord s R.ETH_CC_NP_INTERVAL.addr,
          rpWord := regWord s R.ETH_CC_RP_G_SHIFT.addr, aiWord := regWord s R.ETH_CC_AI_AI_MBPS.addr }
        emit (setQp s q x) (.cmAccept lport q (pathMtu s lport)))

/-- The tenant to which a host NQN is bound: MF or a fabric tenant (R241). -/
def nqnTenant (s : State) (nqn : List Byte) : Option Nat :=
  (s.ten.find? fun e => (e.2.st == .active || e.2.st == .resetting) && (e.1 == 0 || e.2.blk.fabric)
    && e.2.blk.nqns.contains nqn).map (·.1)

/-- Status of a refused Connect (R216). -/
def connectInvalidHost : Nat × Nat := (1, 0x84)
def connectInvalidParameters : Nat × Nat := (1, 0x82)
def connectBusy : Nat × Nat := (1, 0x81)

/-- What a Connect of a tenant finds (R216). -/
def connectStatus (s : State) (t : Nat) (c : ConnectCmd) : Nat × Nat :=
  if 4095 < c.sqsize then connectInvalidParameters
  else if (getTen s t).blk.queues ≤ fabricQueues s t then connectBusy
  else nvOk

/-- A Connect is answered; accepted, the queue pair serves the tenant. -/
def connect (s : State) (q t : Nat) (c : ConnectCmd) : State :=
  let st := connectStatus s t c
  let s1 := emit s (.connectReply q st.1 st.2)
  if st = nvOk then
    let x := getQp s q
    let s2 := setQp s1 q { x with st := .live, tenant := t, assoc := c.assoc, admin := c.admin, discovery := c.discovery,
                                  sqsize := c.sqsize }
    { s2 with port := { s2.port with keepAlive := Tbl.set nat0 s2.port.keepAlive c.assoc s.tb.count } }
  else s1

/-- CONNECT: the association of a new controller is one that no live queue pair carries. -/
def execConnect (qp : Nat) (c : ConnectCmd) (s : State) : Answer :=
  let fresh_ := !(c.admin || c.discovery) || (assocQps s c.assoc).isEmpty
  stepIf s ((getQp s qp).st == .connected && windowOpen s && fresh_)
    (if c.discovery then connect s qp 0 c
     else match nqnTenant s c.nqn with
      | none => emit s (.connectReply qp connectInvalidHost.1 connectInvalidHost.2)
      | some t => connect s qp t c)

/-! ## Keep-alive and failures (R222) -/

/-- KEEP_ALIVE: restarts the timer of the association. -/
def execKeepAlive (qp : Nat) (s : State) : Answer :=
  let x := getQp s qp
  stepIf s (x.st == .live && x.admin)
    { s with port := { s.port with keepAlive := Tbl.set nat0 s.port.keepAlive x.assoc s.tb.count } }

/-- KEEP_ALIVE_EXPIRY: every queue pair of the association enters error. -/
def execKeepAliveExpiry (assoc : Nat) (s : State) : Answer :=
  let l := (s.port.qps.filter fun e => e.2.st == .live && e.2.assoc == assoc).map (·.1)
  stepIf s (!l.isEmpty) (l.foldl oneQpError s)

/-- Whether a queue pair is in use and works. -/
def qpWorks (s : State) (q : Nat) : Bool := (getQp s q).st == .connected || (getQp s q).st == .live

/-- QP_TRANSPORT_ERROR. -/
def execQpTransportError (qp : Nat) (s : State) : Answer := stepIf s (qpWorks s qp) (qpError s qp)

/-- QP_DISCONNECT; the credits return at the next strike (R220). -/
def execQpDisconnect (qp : Nat) (s : State) : Answer := stepIf s (qpWorks s qp) (qpError s qp)

/-- ACK_TIMEOUT (R213, R222): go-back-N up to RETRY_CNT times, then the queue pair enters error. -/
def execAckTimeout (qp : Nat) (s : State) : Answer :=
  let x := getQp s qp
  stepIf s (qpWorks s qp)
    (if x.ackTries < R.ETH_RT_CTRL_RETRY_CNT.of x.rtWord then setQp s qp { x with ackTries := x.ackTries + 1 }
     else qpError s qp)

/-- HOST_RDMA_ACCESS (R213): no responder resources. -/
def execHostRdmaAccess (qp : Nat) (s : State) : Answer :=
  stepIf s (qpWorks s qp) (emit s (.nakAccess qp))

/-! ## Rate control (R224, R225) -/

/-- CE_MARKED_PACKET: `us` is the time in µs; at most one CNP in each INTERVAL. -/
def execCeMarkedPacket (qp us : Nat) (s : State) : Answer :=
  let x := getQp s qp
  let due := match x.lastCnpUs with
    | none => true
    | some l => decide (R.ETH_CC_NP_INTERVAL.of x.npWord ≤ us - l)
  stepIf s (qpWorks s qp)
    (if R.ETH_CC_NP_NP_EN.of x.npWord = 1 ∧ due = true then
       bump (emit (setQp s qp { x with lastCnpUs := some us }) (.cnp qp (lportField s R.ETH_LPORT_CFG_PRIO x.lport)
         (lportField s R.ETH_LPORT_CFG_CNP_DSCP x.lport))) R.ETH_CNP_TX_CNT_CNP_TX
     else s)

/-- α after a step with or without a CNP, in units of 2^-32: (1 − g) × α, plus g. -/
def alphaStep (x : QPair) (cnp : Bool) : Nat :=
  let sh := R.ETH_CC_RP_G_SHIFT.of x.rpWord
  x.alpha - x.alpha / 2 ^ sh + (if cnp then 2 ^ 32 / 2 ^ sh else 0)

/-- R_MIN and R_AI in units of 2^-16 Mb/s. -/
def rateMin (x : QPair) : Nat := R.ETH_CC_AI_MIN_MBPS.of x.aiWord * 65536
def rateAi (x : QPair) : Nat := R.ETH_CC_AI_AI_MBPS.of x.aiWord * 65536

/-- The cut of a CNP. -/
def QPair.cut (x : QPair) : QPair :=
  { x with rt := x.rc, rc := max (rateMin x) (x.rc - x.rc * x.alpha / 2 ^ 33), alpha := alphaStep x true, steps := 0 }

/-- The recovery of a period without a CNP: five steps toward the target, then the target rises as well. -/
def QPair.recover (x : QPair) (line : Nat) : QPair :=
  if x.steps < 5 then { x with rc := (x.rc + x.rt) / 2, steps := x.steps + 1 }
  else
    let rt := min line (x.rt + rateAi x)
    { x with rt := rt, rc := (x.rc + rt) / 2, steps := x.steps + 1 }

/-- CNP_RECEIVED. -/
def execCnpReceived (qp : Nat) (s : State) : Answer :=
  let x := getQp s qp
  stepIf s (qpWorks s qp)
    (bump (if R.ETH_CC_NP_RP_EN.of x.npWord = 1 then setQp s qp x.cut else s) R.ETH_CNP_RX_CNT_CNP_RX)

/-- RATE_INCREASE_TIMER. -/
def execRateIncreaseTimer (qp : Nat) (s : State) : Answer :=
  let x := getQp s qp
  stepIf s (qpWorks s qp && R.ETH_CC_NP_RP_EN.of x.npWord == 1)
    (setQp s qp (x.recover (lineRate (getLPort s x.lport).mode * 65536)))

/-- ALPHA_DECAY_TIMER. -/
def execAlphaDecayTimer (qp : Nat) (s : State) : Answer :=
  let x := getQp s qp
  stepIf s (qpWorks s qp && R.ETH_CC_NP_RP_EN.of x.npWord == 1)
    (setQp s qp { x with alpha := alphaStep x false })

/-! ## The strike's share (R218, R220) -/

/-- Slots that commands from a queue pair hold. -/
def qpSlots (s : State) (q : Nat) : Nat := (s.ord.slots.filter fun e => e.2.qp == some q && e.2.st != .free).length

/-- One turn of the credit deal: each live queue pair in rotation takes one credit where it may. -/
def dealTurn (s : State) (order : List Nat) : State × Bool :=
  order.foldl (fun (p : State × Bool) q =>
    let x := getQp p.1 q
    let t := x.tenant
    if creditSum p.1 < slotsFree p.1 ∧ slotsUsed p.1 t + tenantCredits p.1 t < (getTen p.1 t).blk.slots
        ∧ x.credit + qpSlots p.1 q < x.sqsize then
      let s1 := setQp p.1 q { x with credit := x.credit + 1 }
      ({ s1 with port := { s1.port with lastQp := q } }, true)
    else p) (s, false)

/-- Repeat the turns until none grants (R218). -/
def deal (order : List Nat) : Nat → State → State
  | 0, s => s
  | n + 1, s =>
    let r := dealTurn s order
    if r.2 then deal order n r.1 else r.1

/-- The top-up of a strike: rotation starts after the queue pair served last; changed credits are advertised. A power-state
entry stops it (R329). -/
def creditTopup (s : State) : State :=
  let live := (s.port.qps.filter fun e => e.2.st == .live).map (·.1)
  let order := (live.filter fun q => decide (s.port.lastQp < q)) ++ live.filter fun q => decide (q ≤ s.port.lastQp)
  let most := live.foldl (fun n q => max n (getQp s q).sqsize) 0
  let s1 := if fetchOpen s then deal order (most + 1) s else s
  order.foldl (fun t q => if (getQp t q).credit = (getQp s q).credit then t else emit t (.credit q (getQp t q).credit)) s1

/-- The same of a Wall member: it grants the head every free slot that carries no credit, and tells it the number when it
has changed (R401). -/
def memberGrant (s : State) : State :=
  if isMember s && s.wall.formed && !headLost s && fetchOpen s then
    let n := max s.wall.granted (slotsFree s)
    if n = s.wall.granted then s else emit { s with wall := { s.wall with granted := n } } (.memberCredit n)
  else s

/-- Queue pairs in error lose their credits at the next strike, and one that no command refers to any more is free
(R220). -/
def reapQps (s : State) : State :=
  s.port.qps.foldl (fun t e =>
    if e.2.st == .error then
      (if qpSlots t e.1 = 0 then setQp t e.1 (qp0 0) else setQp t e.1 { getQp t e.1 with credit := 0 })
    else t) s

end Sys2Proof.Machine
end

