-- ==== Sys2Proof/Machine/Tenants.lean ====
section
/-! DEFINITION. Tenants: the parameter block and the pools, the TENANT instruction, resets and destroys, Quench of what
they leave, the dirty-page log, patterns, and the mailbox to the manager (10_tenants.md, R76 to R79). -/

namespace Sys2Proof.Machine

/-! ## The parameter block (R243, R244, Table 10.1) -/

/-- A host NQN of the block: its bytes before the padding. -/
def trimNqn (l : List Byte) : List Byte := l.takeWhile (· != 0)

/-- The block's fields. -/
def parseBlock (b : List Byte) : TBlock :=
  { fabric := leAt b 4 1 == 1, quiesce := leAt b 5 1 == 1, cluster := leAt b 6 1
    nqns := (List.range (leAt b 7 1)).map fun i => trimNqn (sub b (0x80 + 256 * i) 256)
    queues := leAt b 8 2, activeZones := leAt b 0xA 2, slots := leAt b 0xC 4, bedrock := leAt b 0x10 4
    keyBase := leAt b 0x14 2, keyCount := leAt b 0x16 2, assay := leAt b 0x18 2, cruMib := leAt b 0x1A 2
    patterns := leAt b 0x1C 2, rdRate := leAt b 0x20 4, wrRate := leAt b 0x24 4, rdDepth := leAt b 0x28 2
    wrDepth := leAt b 0x2A 2, wakeStk := leAt b 0x2C 2, defaultBay := leAt b 0x2E 1
    bays := BitVec.ofNat 256 (leAt b 0x40 32) }

/-- The block as held (R246). -/
def TBlock.encode (x : TBlock) : List Byte :=
  leBytes 2 1 ++ leBytes 2 0 ++ leBytes 1 (b2n x.fabric) ++ leBytes 1 (b2n x.quiesce) ++ leBytes 1 x.cluster
    ++ leBytes 1 x.nqns.length ++ leBytes 2 x.queues ++ leBytes 2 x.activeZones ++ leBytes 4 x.slots ++ leBytes 4 x.bedrock
    ++ leBytes 2 x.keyBase ++ leBytes 2 x.keyCount ++ leBytes 2 x.assay ++ leBytes 2 x.cruMib ++ leBytes 2 x.patterns
    ++ leBytes 2 0 ++ leBytes 4 x.rdRate ++ leBytes 4 x.wrRate ++ leBytes 2 x.rdDepth ++ leBytes 2 x.wrDepth
    ++ leBytes 2 x.wakeStk ++ leBytes 1 x.defaultBay ++ leBytes 17 0 ++ leBytes 32 x.bays.toNat ++ leBytes 32 0
    ++ sub (x.nqns.flatMap fun n => sub n 0 256) 0 1024

/-- Reserved places of the block. -/
def blockReserved (b : List Byte) : Bool := zeros b 0x1E 2 && zeros b 0x2F 17 && zeros b 0x60 32

/-- Whether a number of host NQNs suits the binding (Table 10.1). -/
def nqnCountOk (t : Nat) (fabric : Bool) (n : Nat) : Bool :=
  if t = 0 then decide (n ≤ 4) else if fabric then decide (1 ≤ n ∧ n ≤ 4) else n == 0

/-- Whether a tenant exists. -/
def Tenant.there (x : Tenant) : Bool := x.st != .none

/-- Whether the key range of a block overlaps another tenant's (R244). -/
def keysOverlap (s : State) (t : Nat) (x : TBlock) : Bool := s.ten.any fun e =>
  e.1 != t && e.2.there && decide (x.keyBase < e.2.blk.keyBase + e.2.blk.keyCount)
    && decide (e.2.blk.keyBase < x.keyBase + x.keyCount) && decide (0 < x.keyCount) && decide (0 < e.2.blk.keyCount)

/-- Whether an NQN of a block is empty or bound to another tenant (R241, R244). -/
def nqnsBad (s : State) (t : Nat) (x : TBlock) : Bool := x.nqns.any fun n =>
  n.isEmpty || s.ten.any fun e => e.1 != t && e.2.there && e.2.blk.nqns.contains n

/-- Whether the Bays of a block are usable: none empty, the default one among them (R117, R244). -/
def baysOk (s : State) (x : TBlock) : Bool :=
  x.bays.getLsbD x.defaultBay && (List.range 256).all fun b => !x.bays.getLsbD b || bayMask s b != 0

/-- The check of one group of Table 10.4; the byte of RESET_MODE and the count of NQNs are checked as written. -/
def groupOk (s : State) (t : Nat) (fabric create : Bool) (b : List Byte) (x : TBlock) (g : Nat) : Bool :=
  match g with
  | 0 => decide (leAt b 5 1 ≤ 1)
  | 1 => decide (x.cluster ≤ 15)
  | 2 => decide (1 ≤ x.queues ∧ x.queues ≤ 4096)
  | 3 => decide (x.activeZones ≤ 4096)
  | 4 => decide (x.slots ≤ 262144) && (!create || decide (1 ≤ x.slots))
  | 6 => decide (x.keyBase ≤ 8191) && decide (x.keyBase + x.keyCount ≤ 8192) && !keysOverlap s t x
  | 7 => decide (x.assay ≤ 256)
  | 9 => decide (x.patterns ≤ 768)
  | 10 => decide (512 ≤ x.rdDepth) && decide (512 ≤ x.wrDepth)
  | 12 => baysOk s x
  | 13 => nqnCountOk t fabric (leAt b 7 1) && !nqnsBad s t x
  | _ => true

/-- The groups of Table 10.4. -/
def groupCount : Nat := 14

/-- What create checks of the block (R244). -/
def createOk (s : State) (t : Nat) (b : List Byte) : Bool :=
  let x := parseBlock b
  leAt b 0 2 == 1 && decide (leAt b 4 1 ≤ 1) && blockReserved b
    && (List.range groupCount).all (groupOk s t x.fabric true b x)

/-- What modify checks of the block, for the groups of the mask (R244, R250). -/
def modifyOk (s : State) (t : Nat) (mask : BitVec 16) (b : List Byte) : Bool :=
  let x := parseBlock b
  leAt b 0 2 == 1 && decide (mask.toNat < 2 ^ groupCount) && blockReserved b
    && (List.range groupCount).all fun g => !mask.getLsbD g || groupOk s t (getTen s t).blk.fabric false b x g

/-- A block with the groups of a mask taken from another (Table 10.4). -/
def TBlock.overlay (old new : TBlock) (mask : BitVec 16) : TBlock :=
  let g := fun (k : Nat) => mask.getLsbD k
  { fabric := old.fabric
    quiesce := if g 0 then new.quiesce else old.quiesce
    cluster := if g 1 then new.cluster else old.cluster
    queues := if g 2 then new.queues else old.queues
    activeZones := if g 3 then new.activeZones else old.activeZones
    slots := if g 4 then new.slots else old.slots
    bedrock := if g 5 then new.bedrock else old.bedrock
    keyBase := if g 6 then new.keyBase else old.keyBase
    keyCount := if g 6 then new.keyCount else old.keyCount
    assay := if g 7 then new.assay else old.assay
    cruMib := if g 8 then new.cruMib else old.cruMib
    patterns := if g 9 then new.patterns else old.patterns
    rdRate := if g 10 then new.rdRate else old.rdRate
    wrRate := if g 10 then new.wrRate else old.wrRate
    rdDepth := if g 10 then new.rdDepth else old.rdDepth
    wrDepth := if g 10 then new.wrDepth else old.wrDepth
    wakeStk := if g 11 then new.wakeStk else old.wakeStk
    bays := if g 12 then new.bays else old.bays
    defaultBay := if g 12 then new.defaultBay else old.defaultBay
    nqns := if g 13 then new.nqns else old.nqns }

/-! ## Pools (R245, Table 10.2) -/

/-- The block that a tenant will have from the next strike. -/
def Tenant.coming (x : Tenant) : TBlock :=
  match x.mods with
  | some (m, b) => x.blk.overlay b m
  | none => x.blk

/-- The sum of a quota over the tenants, each at the larger of its present and its coming value. -/
def quotaSum (s : State) (p : Nat → TBlock → Bool) (f : TBlock → Nat) : Nat :=
  s.ten.foldl (fun n e => if e.2.there && p e.1 e.2.blk then n + max (f e.2.blk) (f e.2.coming) else n) 0

/-- Crucible MiB that quotas may take (Table 10.2). -/
def cruPool (s : State) : Nat := (296 - min 128 (rd s R.MED_PAR_CTRL_CRU_SETS)) / 4

/-- What each pool still holds. -/
def poolSlots (s : State) : Nat := slotCount - quotaSum s (fun _ _ => true) (·.slots)
def poolPcie (s : State) : Nat := 16384 - quotaSum s (fun t b => t == 0 || !b.fabric) (·.queues)
def poolFabric (s : State) : Nat := 16384 - quotaSum s (fun t b => t == 0 || b.fabric) (·.queues)
def poolActive (s : State) : Nat := 4096 - quotaSum s (fun _ _ => true) (·.activeZones)
def poolBedrock (s : State) : Nat := s.med.dataCourses - quotaSum s (fun _ _ => true) (·.bedrock)
def poolAssay (s : State) : Nat := 256 - quotaSum s (fun _ _ => true) (·.assay)
def poolCru (s : State) : Nat := cruPool s - quotaSum s (fun _ _ => true) (·.cruMib)

/-- Whether the pools grant what a block asks beyond what its tenant holds: OK, RES_NO_SLOT or RES_TENANT_POOL (R247). -/
def poolCheck (s : State) (t : Nat) (old new : TBlock) : W16 :=
  let more := fun (f : TBlock → Nat) => f new - f old
  if poolSlots s < more (·.slots) then St.noSlot
  else if ((t == 0 || !new.fabric) && decide (poolPcie s < more (·.queues)))
      || ((t == 0 || new.fabric) && decide (poolFabric s < more (·.queues)))
      || decide (poolActive s < more (·.activeZones)) || decide (poolBedrock s < more (·.bedrock))
      || decide (poolAssay s < more (·.assay)) || decide (poolCru s < more (·.cruMib)) then St.tenantPool
  else St.ok

/-! ## Usage (Table 10.5) -/

/-- NVMe I/O queue pairs of a function, counted by the larger of its queues of the two kinds. -/
def pcieQueues (s : State) (t : Nat) : Nat :=
  let f := getFunc s t
  max (f.sqs.filter fun e => e.1 != 0).length (f.cqs.filter fun e => e.1 != 0).length

/-- TEN_STAT. -/
def tenStat (s : State) (t : Nat) : Nat :=
  let x := getTen s t
  let st := match x.st with
    | .none => 0
    | .active => 1
    | .resetting => 2
    | .destroying => 3
  st + 4 * b2n x.blk.fabric + 8 * b2n x.blk.quiesce + 65536 * x.gen

/-- Loaded key slots of a tenant, and loaded patterns. -/
def keysLoaded (s : State) (t : Nat) : Nat :=
  (s.cph.slots.filter fun e => ((e.2.map (·.tenant)) == some t)).length
def patternsLoaded (s : State) (t : Nat) : Nat := (s.ord.loaded.filter fun e => e.1 / 1024 == t).length

/-- Mailbox entries of a tenant. -/
def mailOf (s : State) (t : Nat) : Nat := (s.ord.mailbox.filter fun e => e.tenant == t).length

/-- The usage record. -/
def usageRecord (s : State) (t : Nat) : List Byte :=
  let x := getTen s t
  leBytes 4 (tenStat s t) ++ leBytes 4 (slotsUsed s t) ++ leBytes 4 (tenantCredits s t)
    ++ leBytes 4 (if t = 0 then pcieQueues s t + fabricQueues s t else if x.blk.fabric then fabricQueues s t else pcieQueues s t)
    ++ leBytes 4 (tenantActive s t) ++ leBytes 4 (tenantBedrock s t) ++ leBytes 4 (keysLoaded s t) ++ leBytes 4 (ctxHeld s t)
    ++ leBytes 4 (cruHeld s t) ++ leBytes 4 (patternsLoaded s t) ++ leBytes 4 x.rd ++ leBytes 4 x.wr
    ++ leBytes 4 (rdAt s R.TEN_STALE_CNT_STALE 0 t) ++ leBytes 4 (mailOf s t) ++ leBytes 8 0

/-! ## Resets (R251 to R256) -/

/-- The record of an action in Hallmark: sources 220 to 224. -/
def tenantEvent (s : State) (k t : Nat) (mask : Nat) : State :=
  raise s (event (220 + k) (BitVec.ofNat 16 (0x0601 + k)) [(2, t), (2, (getTen s t).gen), (2, mask)])

/-- What a head tells every live member (R400). -/
def tellMembers (s : State) (t : Nat) : State := if isHead s then emit s (.tenantRecord t (getTen s t).gen) else s

/-- A function's controller is reset as if CC.EN had been cleared (R251). -/
def controllerReset (s : State) (fn : Nat) : State := setFunc s fn (func0 fn)

/-- Zeroing writes over PCIe that a reset cuts off are counted, and their results are gone (R279). -/
def cutZeroing (s : State) (t : Nat) : State :=
  s.ord.reqs.foldl (fun u e => match e.2 with
    | some q => if q.tenant == t && q.phase == .zeroing && (getSlot u q.slot).pcie.isSome then discardResult (zeroFail u e.1) e.1
        else u
    | none => u) s

/-- A reset takes effect: the generation moves, and the queues stop (R251, R255). The slots and queue pairs follow at the
next strike. -/
def startReset (s : State) (t : Nat) (st : TState) : State :=
  let x := getTen s t
  let s0 := if x.blk.fabric then s else cutZeroing s t
  let s1 := setTen s0 t { getTen s0 t with st := st, gen := (x.gen + 1) % 65536, resetAt := some s.tb.count }
  if x.blk.fabric then s1 else controllerReset s1 t

/-- Whether a request of a tenant carries an older generation. -/
def oldRequests (s : State) (t : Nat) : Bool := s.ord.reqs.any fun e => match e.2 with
  | some q => q.tenant == t && q.gen != (getTen s t).gen
  | none => false

/-- Whether a request of a tenant carries the generation that one more reset would produce (R254). -/
def genClash (s : State) (t : Nat) : Bool := s.ord.reqs.any fun e => match e.2 with
  | some q => q.tenant == t && q.gen == ((getTen s t).gen + 1) % 65536
  | none => false

/-- A GENERATION reset from PCIe (R232, R254): of an ACTIVE tenant; of a RESETTING one at once, or once a clashing old
request is gone. A destroying or absent tenant has no controller. -/
def flrReset (s : State) (t : Nat) : State :=
  let x := getTen s t
  match x.st with
  | .active => tenantEvent (startReset s t .resetting) 2 t 0
  | .resetting => if genClash s t then setTen s t { x with flrWaiting := true }
      else tenantEvent (startReset s t .resetting) 2 t 0
  | _ => s

/-- Whether the reset mode of a tenant lets it be reset now (R255). -/
def resetAllowed (s : State) (t : Nat) : Bool := !(getTen s t).blk.quiesce || slotsUsed s t == 0

/-! ## The TENANT instruction (R246, Table 10.3) -/

/-- The refusal of Table 10.3 for an action on a tenant as it stands: OK where the action goes on. -/
def tenantGate (s : State) (action t : Nat) : W16 :=
  match (getTen s t).st, action with
  | .none, 0 => St.ok
  | .none, _ => St.noTenant
  | .active, 0 => St.illegalOp
  | .active, _ => St.ok
  | .resetting, 0 => St.illegalOp
  | .resetting, 4 => St.ok
  | .resetting, _ => St.inProgress
  | .destroying, 4 => St.ok
  | .destroying, _ => St.inProgress

/-- The bytes that h[a] names, for the parameter block. -/
def blockOf (s : State) (d : Option Hdl) : List Byte := (d.map (hdlBytes s)).getD []

/-- The checks of an action, in order (R244, R246, R247, R250, R255). -/
def tenantCheck (s : State) (action t : Nat) (d : Option Hdl) : W16 :=
  let b := blockOf s d
  if 1023 < t ∨ (t = 0 ∧ (action = 0 ∨ action = 2 ∨ action = 3)) then St.illegalOp
  else if tenantGate s action t ≠ St.ok then tenantGate s action t
  else if action = 4 then
    (if (d.map (hdlHolds s · 1216)).getD false then St.ok else St.bufferSize)
  else if action = 2 ∨ action = 3 then (if resetAllowed s t then St.ok else St.notIdle)
  else if b.length < 1152 then St.bufferSize
  else if action = 0 then (if createOk s t b then poolCheck s t tblock0 (parseBlock b) else St.illegalOp)
  else
    let mask := BitVec.ofNat 16 (leAt b 2 2)
    let now := (getTen s t).coming
    if modifyOk s t mask b then poolCheck s t now (now.overlay (parseBlock b) mask) else St.illegalOp

/-- Create (R247). -/
def tenantCreate (s : State) (t : Nat) (x : TBlock) : State :=
  tellMembers (tenantEvent (setTen s t { ten0 t with
    st := .active, gen := 1, blk := x, rd := x.rdDepth, wr := x.wrDepth }) 0 t 0) t

/-- Modify: the groups wait for the next strike (R250). -/
def tenantModify (s : State) (t : Nat) (mask : BitVec 16) (x : TBlock) : State :=
  let y := getTen s t
  let mods := match y.mods with
    | some (m, b) => (m ||| mask, b.overlay x mask)
    | none => (mask, x)
  tellMembers (tenantEvent (setTen s t { y with mods := some mods }) 1 t mask.toNat) t

/-- Detach every namespace of a tenant (R256). -/
def detachAll (s : State) (t : Nat) : State :=
  s.med.ns.foldl (fun u e => match e.2 with
    | some n => if n.tenant = some t then setNs u e.1 (some { n with tenant := none }) else u
    | none => u) s

/-- Destroy (R256, R262, R266): as a reset, and the bindings, the attachments, the log and the epoch go. -/
def tenantDestroy (s : State) (t : Nat) : State :=
  let s1 := detachAll (startReset s t .destroying) t
  let x := getTen s1 t
  let s2 := setTen s1 t { x with blk := { x.blk with nqns := [] }, mods := none, flrWaiting := false,
                                 dirty := { dirtyOff with old := x.dirty.old } }
  let s3 := wrAt (setEpoch s2 t (epochOf s2 t + 1)) R.TEN_DIRTY_CTRL_EN 0 t 0
  tellMembers (tenantEvent s3 3 t 0) t

/-- The effect of an action that has passed its checks. -/
def tenantRun (s : State) (rid action t : Nat) (q : Req) : State :=
  let b := blockOf s q.ha
  match action with
  | 0 => tenantCreate s t (parseBlock b)
  | 1 => tenantModify s t (BitVec.ofNat 16 (leAt b 2 2)) (parseBlock b)
  | 2 => tellMembers (tenantEvent (startReset s t .resetting) 2 t 0) t
  | 3 => tenantDestroy s t
  | _ => match getReq s rid with
    | some r => produce s r ((getTen s t).blk.encode ++ usageRecord s t)
    | none => s

/-- Whether an action names a block or a destination in h[a]. -/
def tenantUsesBlock (action : Nat) : Bool := action == 0 || action == 1 || action == 4

/-- TENANT as an asynchronous instruction; in a member of a Wall it faults (R400). Create of a tenant that is being
destroyed is refused before any other check (R247). -/
def tenantOp (s : State) (k : Nat) (f : Fields) : AsyncOp :=
  let x := getSlot s k
  let action := f.i 2 0
  let t := (x.val f.b).toNat
  let blk := tenantUsesBlock action
  { wellUsed := unusedZero f blk true false 8 3 && decide (action ≤ 4)
    reads := if blk && action != 4 then bufsOf [x.hdl f.a] else []
    writes := if action = 4 then bufsOf [x.hdl f.a] else [], ctx := none
    check := fun u => if x.tenant ≠ 0 ∨ isMember u = true then St.illegalOp
      else if action = 0 ∧ (getTen u t).st = .destroying then St.inProgress
      else firstFault [if blk then needHandles u [x.hdl f.a] (if action = 4 then [] else [x.hdl f.a]) else St.ok,
        tenantCheck u action t (x.hdl f.a)]
    start := fun u rid => match getReq u rid with
      | some q => complete (tenantRun u rid action t q) rid St.ok none
      | none => u }

/-- One TENANT word. -/
def tenantWord (slot : Nat) (f : Fields) (s : State) (action : Nat) : Answer :=
  stepIf s (atWord s slot 0xE1 f && (f.i 2 0 == action || (action == 0 && decide (5 ≤ f.i 2 0))))
    (asyncWord s slot 0xE1 f (tenantOp s slot f))

/-- TENANT_CREATE; a word with an undefined action faults under this row (log entry 18). -/
def execTenantCreate (slot : Nat) (f : Fields) (s : State) : Answer := tenantWord slot f s 0
/-- TENANT_MODIFY. -/
def execTenantModify (slot : Nat) (f : Fields) (s : State) : Answer := tenantWord slot f s 1
/-- TENANT_RESET. -/
def execTenantReset (slot : Nat) (f : Fields) (s : State) : Answer := tenantWord slot f s 2
/-- TENANT_DESTROY. -/
def execTenantDestroy (slot : Nat) (f : Fields) (s : State) : Answer := tenantWord slot f s 3
/-- TENANT_QUERY. -/
def execTenantQuery (slot : Nat) (f : Fields) (s : State) : Answer := tenantWord slot f s 4

/-! ## What the next strike does (R223, R250, R251, R257) -/

/-- Keys of a tenant that lie outside a range are quenched (R250). -/
def dropKeys (s : State) (t lo n : Nat) : State :=
  s.cph.slots.foldl (fun u e => match e.2 with
    | some k => if k.tenant == t && !(decide (lo ≤ e.1) && decide (e.1 < lo + n)) then installKey u e.1 none else u
    | none => u) s

/-- A write that still waits in the energy gate is withdrawn and counts as one discarded result (R123, R252). -/
def withdrawGate (s : State) (t : Nat) : State :=
  s.ord.reqs.foldl (fun u e => match e.2 with
    | some q => if q.tenant == t && q.gen != (getTen s t).gen && q.phase == .gate then discardResult u e.1 else u
    | none => u) s

/-- At the strike after a reset every slot of the old generation enters QUENCH without posting, the queue pairs of a
fabric tenant enter error, and its waiting requests to the manager are quenched (R57, R76, R223). -/
def resetStrike (s : State) (t : Nat) : State :=
  let x := getTen s t
  if x.resetAt.isNone then s
  else
    let stale := s.ord.slots.filter fun e =>
      e.2.tenant == t && e.2.gen != x.gen && e.2.st != .free && e.2.st != .quench
    let s1 := stale.foldl (fun u e => dropPackets (quenchSlot u e.1) e.1) (withdrawGate s t)
    let qps := (s1.port.qps.filter fun e => e.2.tenant == t && e.2.st == .live).map (·.1)
    let s2 := if x.blk.fabric then qps.foldl oneQpError s1 else s1
    let s3 := { s2 with ord := { s2.ord with mailbox := s2.ord.mailbox.filter fun m => !(m.tenant == t && m.gen != x.gen) } }
    setTen s3 t { getTen s3 t with resetAt := none }

/-- The groups of a modify take effect (R250). -/
def modifyStrike (s : State) (t : Nat) : State :=
  let x := getTen s t
  match x.mods with
  | none => s
  | some (m, b) =>
    let blk := x.blk.overlay b m
    let since := if m.getLsbD 10 then 0 else x.since
    let s1 := setTen s t { x with
      blk := blk, mods := none, rd := min x.rd blk.rdDepth, wr := min x.wr blk.wrDepth, since := since }
    if m.getLsbD 6 then dropKeys s1 t blk.keyBase blk.keyCount else s1

/-- A bitmap's address in force from TEN_DIRTY_NEXT (Table 10.10). -/
def dirtyNext (s : State) (t : Nat) : W64 :=
  BitVec.ofNat 64 ((rdAt s R.TEN_DIRTY_NEXT_HI_ADDR 0 t * 2 ^ 32 + rdAt s R.TEN_DIRTY_NEXT_LO_ADDR 0 t) / 4096 * 4096)

/-- The dirty-page log at a strike (R262): an enable, a swap or a disable of the strike before takes effect. -/
def dirtyStrike (s : State) (t : Nat) : State :=
  let x := getTen s t
  let d := x.dirty
  let want := rdAt s R.TEN_DIRTY_CTRL_EN 0 t == 1
  let flush := { d with was := d.cur, flushing := d.marked, marked := [], swapNext := false, swapAt := s.tb.count }
  let d1 : DirtyLog :=
    if want && !d.en && !d.busy then { d with en := true, cur := dirtyNext s t, pages := rdAt s R.TEN_DIRTY_PAGES_PAGES 0 t, marked := [] }
    else if !want && d.en then { flush with en := false, busy := true }
    else if d.swapNext then { flush with cur := dirtyNext s t }
    else d
  if d1 = d then s else setTen s t { x with dirty := d1 }

/-- Every tenant's share of a strike, but its tokens. -/
def tenantsStrike (s : State) : State :=
  (s.ten.map (·.1)).foldl (fun u t => dirtyStrike (modifyStrike (resetStrike u t) t) t) s

/-! ## The ends of resets (R252, R254, R256) -/

/-- STALE_RESULT_DISCARD: a result of an old generation that comes from outside the device, or that waits to be delivered,
is discarded (R252). -/
def execStaleResultDiscard (rid : Nat) (s : State) : Answer :=
  match getReq s rid with
  | none => .next s
  | some q =>
    stepIf s (q.gen != (getTen s q.tenant).gen && (q.onWire || q.isHost || q.phase == .done))
      (discardResult s rid)

/-- TENANT_RESET_END (R254). -/
def execTenantResetEnd (tenant : Nat) (s : State) : Answer :=
  let x := getTen s tenant
  stepIf s (x.st == .resetting && x.resetAt.isNone && !x.flrWaiting && !oldRequests s tenant)
    (tenantEvent (setTen s tenant { x with st := .active }) 4 tenant 0)

/-- Every pattern of a tenant is unloaded, its bodies waiting for Quench once no order is inside (R79, R256). -/
def dropPatterns (s : State) (t : Nat) : State :=
  let gone := s.ord.loaded.filter fun e => e.1 / 1024 == t
  let s1 := gone.foldl (fun u e => match e.2 with
    | some b => setBody u b ((getBody u b).map fun p => { p with retired := true })
    | none => u) s
  reapBodies { s1 with ord := { s1.ord with loaded := s1.ord.loaded.filter fun e => e.1 / 1024 != t } }

/-- TENANT_DESTROY_END (R256): keys and patterns are quenched, quotas return because no block holds them. -/
def execTenantDestroyEnd (tenant : Nat) (s : State) : Answer :=
  let x := getTen s tenant
  stepIf s (x.st == .destroying && x.resetAt.isNone && !oldRequests s tenant && slotsUsed s tenant == 0)
    (setTen (dropPatterns (dropKeys s tenant 0 0) tenant) tenant (ten0 tenant))

/-- DEFERRED_FLR_EFFECT (R254). -/
def execDeferredFlrEffect (tenant : Nat) (s : State) : Answer :=
  let x := getTen s tenant
  stepIf s (x.flrWaiting && x.st == .resetting && !genClash s tenant)
    (tenantEvent (startReset (setTen s tenant { x with flrWaiting := false }) tenant .resetting) 2 tenant 0)

/-- MEMBER_TENANT_RECORD (R397, R400): a member takes the head's record of a tenant as it stands. -/
def execMemberTenantRecord (r : TenantRecord) (s : State) : Answer :=
  let x := getTen s r.tenant
  let b := parseBlock r.block
  stepIf s (isMember s && decide (r.tenant < tenantCount))
    (if !r.present then (if x.there && r.tenant != 0 then tenantDestroy s r.tenant else s)
     else if !x.there then
       tenantEvent (setTen s r.tenant { ten0 r.tenant with st := .active, gen := r.gen, blk := b, rd := b.rdDepth, wr := b.wrDepth })
         0 r.tenant 0
     else if x.gen ≠ r.gen then
       let s1 := startReset s r.tenant .resetting
       tenantEvent (setTen s1 r.tenant { getTen s1 r.tenant with gen := r.gen }) 2 r.tenant 0
     else setTen s r.tenant { x with mods := some (BitVec.ofNat 16 (2 ^ groupCount - 1), b) })

/-! ## The dirty-page log's registers (R260 to R262) -/

/-- EN written as 1 for a tenant: ignored for one that is not PCIe-bound. -/
def dirtyOn (s : State) (t : Nat) : State :=
  let x := getTen s t
  if x.blk.fabric || !x.there || t == 0 then s else wrAt s R.TEN_DIRTY_CTRL_EN 0 t 1

/-- SWAP written as 1: with BUSY at 0 it sets BUSY; otherwise it is ignored. -/
def dirtySwap (s : State) (t : Nat) : State :=
  let x := getTen s t
  if x.dirty.en && !x.dirty.busy then setTen s t { x with dirty := { x.dirty with busy := true, swapNext := true } } else s

/-- EN written as 0: the bitmap in use is flushed as at a swap, under BUSY. -/
def dirtyStop (s : State) (t : Nat) : State :=
  let x := getTen s t
  let s1 := wrAt s R.TEN_DIRTY_CTRL_EN 0 t 0
  if x.dirty.en then setTen s1 t { x with dirty := { x.dirty with busy := true } } else s1

/-- DIRTY_LOG_ENABLE, for the tenant that the requester selected. -/
def execDirtyLogEnable (req : Nat) (s : State) : Answer :=
  stepIf s (windowOpen s && decide (req < requesterCount)) (dirtyOn s (selOf s req R.TEN_SEL_TENANT))

/-- DIRTY_LOG_SWAP. -/
def execDirtyLogSwap (req : Nat) (s : State) : Answer :=
  stepIf s (windowOpen s && decide (req < requesterCount)) (dirtySwap s (selOf s req R.TEN_SEL_TENANT))

/-- DIRTY_LOG_DISABLE. -/
def execDirtyLogDisable (req : Nat) (s : State) : Answer :=
  stepIf s (windowOpen s && decide (req < requesterCount)) (dirtyStop s (selOf s req R.TEN_SEL_TENANT))

/-- Whether a host write of a tenant that was issued before a strike is still on its way. -/
def writesBefore (s : State) (t n : Nat) : Bool := s.ord.reqs.any fun e => match e.2 with
  | some q => q.tenant == t && q.writesHost && decide (q.issued < n)
  | none => false

/-- DIRTY_LOG_FLUSH_DONE: the old bitmap is written back and the writes logged in it have landed. -/
def execDirtyLogFlushDone (tenant : Nat) (s : State) : Answer :=
  let x := getTen s tenant
  let d := x.dirty
  let wantOff := d.en && rdAt s R.TEN_DIRTY_CTRL_EN 0 tenant == 0
  stepIf s (d.busy && !d.swapNext && !wantOff && !writesBefore s tenant d.swapAt)
    (setTen s tenant { x with dirty := { d with busy := false, old := d.was, flushing := [] } })

/-! ## Patterns (R77 to R79) -/

/-- Pages of the pattern store that no body holds (SMT_PAT_FREE). -/
def patFree (s : State) : Nat :=
  131072 - s.ord.bodies.foldl (fun n e => match e.2 with
    | some p => n + p.quench.getD p.pages
    | none => n) 0

/-- The check of a pattern image (R77). -/
def imageOk (b : List Byte) (tenant : Bool) : Bool :=
  let n := leAt b 2 2
  let h := leAt b 4 2
  leAt b 0 2 == 1 && decide (n ≤ 1024) && (h == 0xFFFF || decide (h < n)) && zeros b 6 10 && b.length == 16 + 8 * n
    && wordsOk (words64 n (b.drop 16)) tenant

/-- What a PATLOAD finds (R78). -/
def patloadCheck (s : State) (b : List Byte) (t n : Nat) : W16 :=
  let x := getTen s t
  let words := leAt b 2 2
  if !imageOk b (t != 0) || decide (n < 0x100 ∨ 0x400 ≤ n) then St.illegalOp
  else if x.st = .resetting ∨ x.st = .destroying then St.inProgress
  else if words = 0 then St.ok
  else if (loadedBody s t n).isNone ∧ x.blk.patterns ≤ patternsLoaded s t then St.patternQuota
  else if patFree s < ceilDiv words 64 then St.patternStore
  else St.ok

/-- Load, replace or unload a pattern (R79). -/
def patloadRun (s : State) (b : List Byte) (t n : Nat) : State :=
  let words := leAt b 2 2
  let s1 := match loadedBody s t n with
    | some old => setBody s old ((getBody s old).map fun p => { p with retired := true })
    | none => s
  if words = 0 then reapBodies { s1 with ord := { s1.ord with loaded := Tbl.set Tbl.absent s1.ord.loaded (patKey t n) none } }
  else
    let id := s1.ord.nextBody
    let p : Pattern := { words := words64 words (b.drop 16), handler := if leAt b 4 2 = 0xFFFF then none else some (leAt b 4 2),
                         pages := ceilDiv words 64, retired := false, number := n, tenant := t, quench := none }
    let s2 := setBody s1 id (some p)
    reapBodies { s2 with ord := { s2.ord with loaded := Tbl.set Tbl.absent s2.ord.loaded (patKey t n) (some id), nextBody := id + 1 } }

/-- PATLOAD as an asynchronous instruction; v[b][9:0] names the tenant. -/
def patloadOp (s : State) (k : Nat) (f : Fields) : AsyncOp :=
  let x := getSlot s k
  let t := (x.val f.b).toNat % 1024
  let b := blockOf s (x.hdl f.a)
  { wellUsed := unusedZero f true true false 8 10, reads := bufsOf [x.hdl f.a], writes := [], ctx := none
    check := fun u => if x.tenant ≠ 0 then St.illegalOp
      else firstFault [needHandles u [x.hdl f.a] [x.hdl f.a], patloadCheck u b t (f.i 9 0)]
    start := fun u rid => complete (patloadRun u b t (f.i 9 0)) rid St.ok none }

/-- PATLOAD. -/
def execPatload (slot : Nat) (f : Fields) (s : State) : Answer :=
  stepIf s (atWord s slot 0xE3 f) (asyncWord s slot 0xE3 f (patloadOp s slot f))

/-! ## The mailbox (R76) -/

/-- Entries of the mailbox. -/
def mailboxSize : Nat := 1024

/-- A Manager Request takes an entry and keeps its slot until it is answered. -/
def takeEntry (s : State) (k : Nat) (data : List Byte) : State :=
  let x := getSlot s k
  let e : MailEntry := { reqId := s.ord.nextMail, slot := k, tenant := x.tenant, gen := x.gen, action := x.cmd.dw10.toNat % 256,
                         target := x.cmd.dw11.toNat % 8192, data := data, arrival := s.tb.count }
  let s1 := adminHold s k
  { s1 with ord := { s1.ord with mailbox := s1.ord.mailbox ++ [e]
                                 nextMail := if s.ord.nextMail ≥ 65535 then 1 else s.ord.nextMail + 1 } }

/-- MANAGER_REQUEST. More than 8,208 bytes, or data with an unload, is Data SGL Length Invalid: the spec gives the limit and
no status (DESIGN CHOICE, log entry 53). -/
def execManagerRequest (slot : Nat) (data : List Byte) (s : State) : Answer :=
  let x := getSlot s slot
  let a := x.cmd.dw10.toNat % 256
  let unload := a == 2 || a == 4
  stepIf s (windowOpen s && adminAt s slot 0xC2)
    (if x.tenant = 0 then endAdmin s slot (0, 0x01, true)
     else if a < 1 ∨ 4 < a then endAdmin s slot (0, 0x02, true)
     else if 8208 < data.length ∨ (unload = true ∧ data ≠ []) then endAdmin s slot (0, 0x0F, true)
     else if 4 ≤ mailOf s x.tenant ∨ mailboxSize ≤ s.ord.mailbox.length then endAdmin s slot (0, 0x21, false)
     else takeEntry s slot data)

/-- A waiting request is answered: its entry is quenched, and the tenant's command completes with the status in DW0. -/
def answerEntry (s : State) (e : MailEntry) (st : W16) : State :=
  updSlot { s with ord := { s.ord with mailbox := s.ord.mailbox.filter fun m => m.reqId != e.reqId } } e.slot fun x =>
    ({ x with st := .posting, status := st }.setVal 1 (st.zeroExtend 64))

/-- The waiting entry of a request identifier. -/
def entryOf (s : State) (id : Nat) : Option MailEntry := s.ord.mailbox.find? fun e => e.reqId == id

/-- MANAGER_ANSWER: CDW10 [15:0] is the request identifier, CDW11 [15:0] the status. -/
def execManagerAnswer (slot : Nat) (s : State) : Answer :=
  let c := (getSlot s slot).cmd
  stepIf s (windowOpen s && adminAt s slot 0xC3) (if senderOf s slot ≠ 0 then admin s slot nvInvalidOpcode []
    else match entryOf s (c.dw10.toNat % 65536) with
      | none => admin s slot nvInvalidField []
      | some e => admin (answerEntry s e (c.dw11.truncate 16)) slot nvOk [])

/-- One line of the list of waiting entries. -/
def MailEntry.line (e : MailEntry) : List Byte :=
  leBytes 2 e.reqId ++ leBytes 2 e.tenant ++ leBytes 2 e.gen ++ leBytes 1 e.action ++ leBytes 1 0 ++ leBytes 2 e.target
    ++ leBytes 2 0 ++ leBytes 4 e.data.length ++ leBytes 8 e.arrival ++ leBytes 8 0

/-- Invalid Log Page. -/
def nvInvalidLogPage : Nat × Nat := (1, 0x09)

/-- GET_LOG_PAGE_MAILBOX: an identifier that no waiting entry has is an invalid field (DESIGN CHOICE, log entry 53). -/
def execGetLogPageMailbox (slot : Nat) (s : State) : Answer :=
  let lsi := logSpecific (getSlot s slot).cmd
  stepIf s (endpointOpen s && logPageAt s slot 0xC9) (if senderOf s slot ≠ 0 then admin s slot nvInvalidLogPage []
    else if lsi = 0 then admin s slot nvOk (s.ord.mailbox.flatMap MailEntry.line)
    else match entryOf s lsi with
      | some e => admin s slot nvOk e.data
      | none => admin s slot nvInvalidField [])

end Sys2Proof.Machine
end

