-- ==== Sys2Proof/Machine/Pcie.lean ====
section
/-! DEFINITION. The PCIe endpoint: its link, the functions' controllers and queues, doorbells and resets (R226 to R232). -/

namespace Sys2Proof.Machine

/-! ## The link (R226) -/

/-- The highest speed and the width that PCI_LINK_CAP allows (Table 9.13). -/
def maxSpeed (s : State) : Nat :=
  let v := rd s R.PCI_LINK_CAP_MAX_SPEED
  if v = 0 ∨ v = 7 then 6 else v
def maxWidth (s : State) : Nat :=
  let v := rd s R.PCI_LINK_CAP_MAX_WIDTH
  if [1, 2, 4, 8].contains v then v else 8

/-- PCIE_LINK_UP: Flit mode goes with 64 GT/s. -/
def execPcieLinkUp (speed width : Nat) (flit : Bool) (s : State) : Answer :=
  stepIf s (!s.port.linkUp && !isMember s && windowOpen s && decide (1 ≤ speed ∧ speed ≤ maxSpeed s)
      && [1, 2, 4, 8].contains width && decide (width ≤ maxWidth s) && (speed != 6 || flit))
    { s with port := { s.port with linkUp := true, linkSpeed := speed, linkWidth := width, linkFlit := flit, perstHigh := true } }

/-! ## Controllers (R227, R228) -/

/-- Whether a function presents a working controller: the physical function, or a VF whose tenant exists and is
PCIe-bound. -/
def functionWorks (s : State) (fn : Nat) : Bool :=
  let x := getTen s fn
  fn == 0 || ((x.st == .active || x.st == .resetting) && !x.blk.fabric)

/-- The queues of an enabled controller: its admin pair. -/
def adminQueues (sqSize cqSize : Nat) (acq : W64) : PFunc :=
  { func0 0 with
    en := true, rdy := true
    sqs := [(0, some { base := 0, size := sqSize, head := 0, tail := 0, cqid := 0 })]
    cqs := [(0, some { base := acq, size := cqSize, head := 0, tail := 0, cqid := 0 })] }

/-- CONTROLLER_ENABLE: a write of CC.EN, with the sizes and the completion address of the admin queues. A VF without a
working controller never becomes ready, and none is ready before stage 10 of the bring-up (Table 19.4). -/
def execControllerEnable (fn : Nat) (en : Bool) (sqSize cqSize : Nat) (acq : W64) (s : State) : Answer :=
  let f := getFunc s fn
  stepIf s (s.port.linkUp && windowOpen s && decide (fn < tenantCount) && decide (2 ≤ sqSize ∧ 2 ≤ cqSize))
    (if !en then controllerReset s fn
     else if f.rdy then s
     else if functionWorks s fn then setFunc s fn { adminQueues sqSize cqSize acq with rdy := s.boot.ioReady }
     else setFunc s fn { f with en := true })

/-! ## Queues (R229) -/

/-- Admin statuses of queue management (NVMe Base Specification). -/
def nvCompletionQueueInvalid : Nat × Nat := (1, 0x00)
def nvInvalidQueueId : Nat × Nat := (1, 0x01)
def nvInvalidQueueSize : Nat × Nat := (1, 0x02)
def nvInvalidQueueDeletion : Nat × Nat := (1, 0x0C)

/-- NVMe I/O queue pairs of all functions. -/
def pcieQueuesAll (s : State) : Nat := s.port.funcs.foldl (fun n e => n + pcieQueues s e.1) 0

/-- Whether one more queue of a kind, of which a function has n, is within the tenant's quota and the pool. -/
def queueAllowed (s : State) (fn n : Nat) : Bool :=
  let used := pcieQueues s fn
  let after := max used (n + 1)
  decide (after ≤ (getTen s fn).blk.queues) && decide (pcieQueuesAll s - used + after ≤ 16384)

/-- I/O queues of a table of a function. -/
def ioQueues (q : Tbl (Option NvmeQueue)) : Nat := (q.filter fun e => e.1 != 0).length

/-- Checks common to both kinds: a new identifier, a size from 2 to 4,096, and room. -/
def createStatus (s : State) (fn qid size : Nat) (q : Tbl (Option NvmeQueue)) : Nat × Nat :=
  if qid = 0 ∨ 4096 ≤ qid ∨ (Tbl.get Tbl.absent q qid).isSome = true then nvInvalidQueueId
  else if !queueAllowed s fn (ioQueues q) then nvInvalidQueueId
  else if size < 2 ∨ 4096 < size then nvInvalidQueueSize
  else nvOk

/-- CREATE_IO_COMPLETION_QUEUE. -/
def execCreateIoCompletionQueue (slot : Nat) (base : W64) (s : State) : Answer :=
  let fn := senderOf s slot
  let c := (getSlot s slot).cmd
  let qid := queueId c
  let size := queueSize c
  let f := getFunc s fn
  let st := createStatus s fn qid size f.cqs
  let q : NvmeQueue := { base := base, size := size, head := 0, tail := 0, cqid := qid }
  stepIf s (f.rdy && windowOpen s && adminAt s slot 0x05)
    (admin (if st = nvOk then setFunc s fn { f with cqs := Tbl.set Tbl.absent f.cqs qid (some q) } else s) slot st [])

/-- CREATE_IO_SUBMISSION_QUEUE: its completion queue must exist. -/
def execCreateIoSubmissionQueue (slot : Nat) (s : State) : Answer :=
  let fn := senderOf s slot
  let c := (getSlot s slot).cmd
  let qid := queueId c
  let size := queueSize c
  let cqid := c.dw11.toNat / 65536
  let f := getFunc s fn
  let there := cqid != 0 && (Tbl.get Tbl.absent f.cqs cqid).isSome
  let st := if there then createStatus s fn qid size f.sqs else nvCompletionQueueInvalid
  let q : NvmeQueue := { base := 0, size := size, head := 0, tail := 0, cqid := cqid }
  stepIf s (f.rdy && windowOpen s && adminAt s slot 0x01)
    (admin (if st = nvOk then setFunc s fn { f with sqs := Tbl.set Tbl.absent f.sqs qid (some q) } else s) slot st [])

/-- DELETE_IO_QUEUE: a completion queue with a submission queue bound to it stays. -/
def execDeleteIoQueue (slot : Nat) (s : State) : Answer :=
  let fn := senderOf s slot
  let qid := queueId (getSlot s slot).cmd
  let completion := (getSlot s slot).cmd.opcode == 0x04
  let f := getFunc s fn
  let there := qid != 0 && (Tbl.get Tbl.absent (if completion then f.cqs else f.sqs) qid).isSome
  let bound := f.sqs.any fun e => (e.2.map (·.cqid)) == some qid
  let st := if !there then nvInvalidQueueId else if completion && bound then nvInvalidQueueDeletion else nvOk
  let f1 := if completion then { f with cqs := Tbl.set Tbl.absent f.cqs qid none }
    else { f with sqs := Tbl.set Tbl.absent f.sqs qid none }
  stepIf s (f.rdy && windowOpen s && (adminAt s slot 0x00 || adminAt s slot 0x04))
    (admin (if st = nvOk then setFunc s fn f1 else s) slot st [])

/-! ## Doorbells (R230, R231) -/

/-- Entries from one index of a queue to another. -/
def ringDist (size a b : Nat) : Nat := (b + size - a) % size

/-- Post what the backlog of a function holds, as far as there is room. -/
def drainBacklog (fn : Nat) : Nat → State → State
  | 0, s => s
  | n + 1, s =>
    let f := getFunc s fn
    match f.backlog.find? fun e => !cqFull s fn e.1 with
    | none => s
    | some e =>
      let s1 := setFunc s fn { f with backlog := f.backlog.erase e }
      drainBacklog fn n (if (getSlot s1 e.2).st == .posting then pushCq s1 fn e.1 e.2 else s1)

/-- A doorbell error: the asynchronous event, and the count. Information 0 is Invalid Doorbell Register, 1 Invalid
Doorbell Write Value. -/
def doorbellError (s : State) (fn info : Nat) : State := bump (emit s (.asyncEvent fn info)) R.PCI_DBL_ERR_CNT_DBL_ERR

/-- A submission queue's tail moves forward, over entries that are free. -/
def tailDoorbell (s : State) (fn qid v : Nat) (q : NvmeQueue) : State :=
  let f := getFunc s fn
  if q.size ≤ v ∨ q.size - 1 - ringDist q.size q.head q.tail < ringDist q.size q.tail v then doorbellError s fn 1
  else setFunc s fn { f with sqs := Tbl.set Tbl.absent f.sqs qid (some { q with tail := v }) }

/-- A completion queue's head moves forward, up to its tail; waiting completions follow. -/
def headDoorbell (s : State) (fn qid v : Nat) (q : NvmeQueue) : State :=
  let f := getFunc s fn
  if q.size ≤ v ∨ ringDist q.size q.head q.tail < ringDist q.size q.head v then doorbellError s fn 1
  else
    let s1 := setFunc s fn { f with cqs := Tbl.set Tbl.absent f.cqs qid (some { q with head := v }) }
    drainBacklog fn (f.backlog.length) s1

/-- DOORBELL_WRITE: index 2q is the tail of submission queue q, 2q + 1 the head of completion queue q (CAP.DSTRD 0). -/
def execDoorbellWrite (fn idx : Nat) (value : W32) (s : State) : Answer :=
  let f := getFunc s fn
  let qid := idx / 2
  stepIf s (f.rdy && windowOpen s)
    (match Tbl.get Tbl.absent (if idx % 2 = 0 then f.sqs else f.cqs) qid with
      | none => doorbellError s fn 0
      | some q => if idx % 2 = 0 then tailDoorbell s fn qid value.toNat q else headDoorbell s fn qid value.toNat q)

/-! ## Resets (R232) -/

/-- FUNCTION_LEVEL_RESET: a GENERATION reset of the function's tenant, and one count. -/
def execFunctionLevelReset (fn : Nat) (s : State) : Answer :=
  stepIf s (s.port.linkUp && windowOpen s && decide (fn < tenantCount))
    (let s1 := bump s R.PCI_FLR_CNT_FLR
     if functionWorks s1 fn then flrReset s1 fn else controllerReset s1 fn)

/-- The tenants on PCIe: MF's controller, and every PCIe-bound tenant. -/
def pcieTenants (s : State) : List Nat := (s.ten.filter fun e => e.1 == 0 || (e.2.there && !e.2.blk.fabric)).map (·.1)

/-- What a reset of the whole endpoint does. -/
def pcieReset (s : State) : State :=
  let s1 := (pcieTenants s).foldl flrReset s
  let s2 := s1.port.funcs.foldl (fun t e => controllerReset t e.1) s1
  { s2 with port := { s2.port with linkUp := false, linkSpeed := 0, linkWidth := 0, linkFlit := false, heldTlps := 0 } }

/-- PCIE_RESET: a conventional reset, a hot reset or a link-down; by PERST_N the pin is low from then on. -/
def execPcieReset (perst : Bool) (s : State) : Answer :=
  let t := pcieReset s
  stepIf s (!isMember s && !s.pwr.halted && (s.pwr.st == .hot || s.pwr.st == .banked))
    { t with port := { t.port with perstHigh := t.port.perstHigh && !perst } }

/-- ENDPOINT_ID_ASSIGNMENT (R236). -/
def execEndpointIdAssignment (eid : Byte) (s : State) : Answer :=
  .next { s with port := { s.port with eid := eid } }

end Sys2Proof.Machine
end

