-- ==== Sys2Proof/Machine/Reset.lean ====
section
/-! DEFINITION. What a reset and a loss of power leave (R328, R410, R411), the boot ROM with its checks, derivations and
choice of a slot (R296 to R300, R415, R416), and the device resets (Table 19.1). -/

namespace Sys2Proof.Machine

/-! ## What stays -/

/-- Registers of the AON domain: power, Bellows, housekeeping and Hallmark (R346, Table 20.1; log entry 26). -/
def aonAddr (addr : Nat) : Bool := [0x10, 0xB0, 0xC0, 0xD0].contains (addr / 0x10000)

/-- Dies that are lost stay lost (R196). -/
def lostDies (s : State) : Tbl Die :=
  (s.fl.dies.filter fun e => e.2.lost).map fun e => (e.1, { die0 e.1 with lost := true })

/-- What is left when everything outside AON loses its state: the Cornerstone, the flash, the fuses and the AON domain
(R328, R410). The registers of AON keep their words. -/
def bareState (s : State) : State :=
  { State.reset with
    pending := s.pending
    out := s.out
    freeCtr := s.freeCtr
    reg := { State.reset.reg with file := s.reg.file.filter fun e => aonAddr (e.1 % selStride) }
    tb := { State.reset.tb with stopped := true }
    fl := { State.reset.fl with dies := lostDies s }
    port := { State.reset.port with perstHigh := s.port.perstHigh, eid := s.port.eid, miCfg := s.port.miCfg }
    med := { s.med with lossWarn := false, accs := [], resident := []
                        ns := Tbl.mapAll Tbl.absent s.med.ns fun _ x => x.map fun n => { n with ready := false } }
    ten := s.ten
    cph := { State.reset.cph with epochs := s.cph.epochs }
    asy := { State.reset.asy with
      kmHash := s.asy.kmHash, kmKey := s.asy.kmKey, identity := s.asy.identity, stored := s.asy.stored, cert := s.asy.cert
      arb := s.asy.arb, floor0 := s.asy.floor0, floor1 := s.asy.floor1 }
    pwr := { State.reset.pwr with wakeCause := s.pwr.wakeCause, emberNeed := s.pwr.emberNeed, imageHash := s.pwr.imageHash }
    blw := s.blw
    hkp := s.hkp
    hm := { s.hm with captures := [], rd := [], lines := 0 }
    boot := { s.boot with
      stage := 0, fault := 0, fallback := false, boardBad := false, boardSkip := false, locked := false
      wdtRunning := false, package := [], commit := none, commitSlot := none, ioReady := false, mapsLoaded := false } }

/-- The Bellows after a reset: idle until ARM is set again, with its outputs low (R348, R350). The flush records and the
loss counter are in the Cornerstone. -/
def bellowsReset (b : Bellows) (aon : Bool) : Bellows :=
  let f := State.reset.blw
  { f with
    vhv := if aon then b.vhv else 0, vbank := if aon then b.vbank else 0, bankFault := aon && b.bankFault
    capUf := if aon then b.capUf else 0, lossCnt := b.lossCnt
    recOpen := b.recOpen, recFinal := b.recFinal, recBytes := b.recBytes, recRecs := b.recRecs, recSupply := b.recSupply, image := b.image }

/-- Hallmark when AON loses power: queued events and the fallback are lost, and the ring is scanned again (R380, R384,
R388). -/
def Hall.powerLost (h : Hall) : Hall :=
  { h with committing := none, rewriting := false, pendingRep := 0, fifo := [], lost := none, fallback := [], degraded := false
           head := if h.ring.isEmpty then h.head else nextSeq (h.ring.foldl (fun m e => max m e.1) 0) }

/-- The state at the release of a device reset with a cause of Table 19.1; `aon` says that the AON domain kept its
power. A reset that spares AON waits for the Hallmark FIFO (R384). -/
def releaseReset (s : State) (cause : Nat) (aon : Bool) (p : ResetPins) : State :=
  let b := bareState s
  let b1 := { b with
    blw := bellowsReset s.blw aon
    hm := if aon then b.hm.drain else b.hm.powerLost
    hkp := if aon then { b.hkp with thermWarn := false, shutdown := false }
      else { State.reset.hkp with thermSd := s.hkp.thermSd }
    pwr := if aon then b.pwr else State.reset.pwr
    boot := { b.boot with cause := BitVec.ofNat 6 (2 ^ cause), cfgMode := p.cfgMode, memberId := p.memberId, pins := p } }
  padsAtReset (if aon then wr b1 R.BLW_CTRL_ARM 0 else { b1 with reg := State.reset.reg, port := { b1.port with eid := 0, miCfg := [] } })

/-! ## Images (R295, R296, R298) -/

/-- The fields of Table 12.2. -/
def imageSvn (i : FwImage) : Nat := leAt i.header 8 4
def imageFuse (i : FwImage) : Bool := (sub i.header 3 1).headD 0 == 1

/-- Step 1 of R296, for an image of a type. -/
def headerFits (i : FwImage) (ty : Nat) : Bool :=
  let h := i.header
  h.length == 256 && leAt h 0 2 == 1 && leAt h 2 1 == ty && decide (leAt h 3 1 ≤ 1) && leAt h 4 1 == ty - 1 && zeros h 5 3
    && decide (leAt h 0x10 4 ≤ if ty = 1 then 2 ^ 20 else 6 * 2 ^ 20) && zeros h 0x14 12 && zeros h 0xA0 96

/-- Steps 1 to 4 of R296. -/
def imageGenuine (i : FwImage) (ty : Nat) : Bool :=
  i.complete && headerFits i ty && sha false (sub i.header 0x60 64) == Config.rootKeyHash && i.sigOk
    && i.payloadHash == sub i.header 0x20 64

/-- The effective anti-rollback counter of an index (R298). -/
def arbFloor (s : State) (k : Nat) : Nat := if k = 0 then s.asy.floor0 else if k = 1 then s.asy.floor1 else 0
def arbValue (s : State) (k : Nat) : Nat :=
  max (if s.asy.arbBad.contains k then 0 else (Tbl.get w32z s.asy.arb k).toNat) (arbFloor s k)

/-- R296 for an image of a type. -/
def imagePasses (s : State) (i : FwImage) (ty : Nat) : Bool := imageGenuine i ty && decide (arbValue s (ty - 1) ≤ imageSvn i)
def slotPasses (s : State) (x : SlotImages) : Bool := imagePasses s x.sec 1 && imagePasses s x.mgmt 2

/-- The images of slot A (false) or B (true). -/
def slotImages (f : BootFlash) (b : Bool) : SlotImages := if b then f.slotB else f.slotA

/-! ## The ROM (R297, R415, R416) -/

/-- A strap fault (R3). -/
def strapFault (b : Boot) : Bool := b.cfgMode == 3 || (b.cfgMode == 2 && b.memberId == 0)

/-- Count a try of PENDING, or abandon it (R415). -/
def countTry (b : Boot) : Boot :=
  if b.pendingSlot = 0 then b
  else if b.tries < 2 then { b with tries := b.tries + 1 }
  else { b with pendingSlot := 0, tries := 0 }

/-- The order in which the ROM tries the slots. -/
def slotOrder (old new : Boot) : List Bool :=
  (if old.pendingSlot ≠ 0 ∧ old.tries < 2 then [decide (old.pendingSlot = 2)] else []) ++ [new.activeB, !new.activeB]

/-- The word of GLB_BOOT_STATUS (Table 19.7). -/
def bootStatus (b : Boot) : Nat :=
  b.stage + b.fault * 16 + b2n b.slotB * 256 + b2n b.fallback * 512 + b2n b.boardBad * 1024 + b2n b.boardSkip * 2048
    + b2n b.firstBoot * 4096

/-- The BOOT record. -/
def bootRecord (s : State) : State := raise s (event 228 0x0101 [(4, bootStatus s.boot), (1, s.pwr.wakeCause.toNat)])

/-- The ROM halts with a fault code: only a reset goes on from here (R416). -/
def romHalt (s : State) (fault : Nat) : State :=
  bootRecord { s with boot := { s.boot with stage := 15, fault := fault } }

/-- The measurement of the security configuration (R299): the fuses, the straps and the enrolled key manager's hash. -/
def cfgRecord (s : State) : List Byte :=
  Config.securityFuses ++ [s.boot.cfgMode.zeroExtend 8, s.boot.memberId.zeroExtend 8] ++ s.asy.kmHash.getD (List.replicate 32 0)

/-- The seeds of the identity key and of the attestation key (R299). -/
def identitySeeds : List Byte := kdf Config.deviceSecret (label "TRELON-ID") [] 72
def attestSeeds (mSec mMgmt mCfg : List Byte) : List Byte :=
  let cdi1 := kdf Config.deviceSecret (label "TRELON-CDI1") mSec 32
  kdf (kdf cdi1 (label "TRELON-CDI2") (mMgmt ++ mCfg) 32) (label "TRELON-AK") [] 72

/-- The sixteen effective counters, four bytes each. -/
def countersBytes (s : State) : List Byte := (List.range 16).flatMap fun k => leBytes 4 (arbValue s k)

/-- Stage 3: the measurements, the identity at a first boot, and the certificate of a new chain (R299, R300). -/
def romDerive (s : State) (x : SlotImages) : State :=
  let a := s.asy
  let mSec := sha true x.sec.header
  let mMgmt := sha true x.mgmt.header
  let mCfg := sha true (cfgRecord s)
  let all := mSec ++ mMgmt ++ mCfg
  let new := all != a.stored
  let body := Config.slhPublic (attestSeeds mSec mMgmt mCfg) ++ all ++ countersBytes s
  let cert := body ++ Config.slhSign s.freeCtr identitySeeds body
  { s with
    freeCtr := s.freeCtr + b2n new
    asy := { a with
      identity := some (a.identity.getD (Config.slhPublic identitySeeds)), mSec := mSec, mMgmt := mMgmt, mCfg := mCfg
      stored := all, cert := if new then cert else a.cert, chainNew := new } }

/-- Stages 3 to 5 with the slot that passed: the recorder boots, BOOT is its first record, and the firmware starts. -/
def romBoot (s : State) (slot fallback : Bool) : State :=
  let s1 := romDerive s (slotImages s.boot.flash slot)
  let s2 := { s1 with
    boot := { s1.boot with slotB := slot, fallback := fallback, stage := 5, wdtRunning := true,
                           firstBoot := s.asy.identity.isNone }
    tb := { s1.tb with stopped := false, count := 0 } }
  bootRecord s2

/-- The anti-rollback counters whose MAC fails are recorded (R298). -/
def macFails (s : State) : State :=
  s.asy.arbBad.foldl (fun t k => raise (wr t R.CRS_TRUST_STAT_ARB_MAC_FAIL 1) (event 229 0x0102 [(1, k)])) s

/-- The boot ROM from stage 1 (Table 12.3): the recorder's own boot comes first, and BOOT is its first record (R378,
R389). -/
def rom (s : State) (p : ResetPins) : State :=
  let r := s.hm.boot p.ringOk
  let s1 := { s with
    hm := r.1
    asy := { s.asy with arbBad := p.badMacs.filter fun k => decide (k < 16) }
    boot := { s.boot with stage := 1, flash := p.reflash.getD s.boot.flash } }
  let after := fun (t : State) =>
    macFails (match r.2 with
      | some n => raise t (event 227 0x0003 [(1, n)])
      | none => t)
  if strapFault s1.boot then after (romHalt s1 1)
  else if !p.fusesOk then after (romHalt s1 2)
  else if !p.flashAnswers then after (romHalt { s1 with boot := { s1.boot with stage := 2 } } 3)
  else
    let b := countTry s1.boot
    let order := slotOrder s1.boot b
    let s2 := { s1 with boot := b }
    match order.find? fun x => slotPasses s2 (slotImages b.flash x) with
    | none => after (romHalt { s2 with boot := { b with stage := 2 } } 4)
    | some x => after (romBoot s2 x (some x != order.head? && x != b.activeB))

/-! ## The device resets (Table 19.1) -/

/-- A device reset and the boot that it restarts at stage 1. -/
def deviceReset (s : State) (cause : Nat) (aon : Bool) (p : ResetPins) : State := rom (releaseReset s cause aon p) p

/-- A reset that is ignored while the power-loss sequence or a thermal flush runs (R411). -/
def heldReset (s : State) (cause : Nat) (p : ResetPins) : State :=
  if s.blw.flush.isSome then s else deviceReset s cause true p

/-- PORST_N_RESET: every domain, AON included; never ignored (R411). -/
def execPorstNReset (p : ResetPins) (_s : State) : Answer := .next (deviceReset _s 0 false p)

/-- SYS_RST_N_RESET. -/
def execSysRstNReset (p : ResetPins) (s : State) : Answer := .next (heldReset s 1 p)

/-- Members that a Wall head's own subsystem reset takes with it (Table 19.1). -/
def resetMembers (s : State) : State := if isHead s && s.wall.formed then emit s .wallReset else s

/-- NVM_SUBSYSTEM_RESET: a write of NSSR of the physical function; other values have no effect. -/
def execNvmSubsystemReset (p : ResetPins) (value : W32) (s : State) : Answer :=
  stepIf s (s.port.linkUp && windowOpen s)
    (if value = 0x4E564D65 ∧ s.blw.flush.isNone then heldReset (resetMembers s) 2 p else s)

/-- Whether a requester acts for MF (R427). -/
def forMf (req : Nat) : Bool := decide (req ≤ 8)

/-- A write of GLB_SW_RESET: the key, written by MF, resets the device; other values have no effect. -/
def softwareReset (s : State) (req : Nat) (value : W32) (p : ResetPins) : State :=
  if forMf req ∧ value.toNat % 65536 = 0x5EED then heldReset s 3 p else s

/-- SOFTWARE_RESET. -/
def execSoftwareReset (req : Nat) (value : W32) (p : ResetPins) (s : State) : Answer :=
  stepIf s (windowOpen s) (softwareReset s req value p)

/-- BOOT_WATCHDOG_EXPIRY (R419). -/
def execBootWatchdogExpiry (p : ResetPins) (s : State) : Answer :=
  stepIf s (s.boot.wdtRunning && !s.pwr.halted) (heldReset s 4 p)

/-- WALL_RESET_MESSAGE: a member resets as on SYS_RST_N, with the cause of its head's subsystem reset. -/
def execWallResetMessage (p : ResetPins) (s : State) : Answer :=
  stepIf s (isMember s) (heldReset s 2 p)

/-- BELLOWS_RESTART (R360): after a halt that was not thermal, VHV stayed above TH + 1.0 V for 100 ms. -/
def execBellowsRestart (p : ResetPins) (s : State) : Answer :=
  stepIf s (s.pwr.halted && s.blw.recOpen && s.blw.recFinal) (deviceReset s 5 true p)

/-- BANK_DEPLETED (R360): the bank falls below V_MIN on a device that runs from it, and AON loses its power. -/
def execBankDepleted (p : ResetPins) (s : State) : Answer :=
  stepIf s ((s.blw.flush.isSome && s.blw.bankSw) || (s.pwr.halted && s.blw.recOpen && s.blw.recFinal)) (deviceReset s 0 false p)

/-- AON_UNDERVOLTAGE (R439). -/
def execAonUndervoltage (p : ResetPins) (s : State) : Answer := .next (deviceReset s 0 false p)

/-! ## Halts with no flush (R439, R445) -/

/-- The housekeeping input of a rail, for the rails that have one (Table 16.1). -/
def railInput : Rail → Option Nat
  | .core => some 28
  | .sram => some 29
  | .ddr => some 30
  | .nand => some 31
  | _ => none

/-- The SUPPLY event of a rail; the input that it names for a rail without one is a free value (log entry 27). -/
def railEvent (s : State) (rail : Rail) (mv : Nat) : State :=
  match railInput rail with
  | some k => raise s (event (128 + k) 0x0A05 [(1, k), (2, mv)])
  | none =>
    let k := (fresh s).1.toNat % 32
    raise (fresh s).2 (event (128 + k) 0x0A05 [(1, k), (2, mv)])

/-- The device halts at once: nothing is flushed, and what was at risk is lost as of an incomplete flush. -/
def haltNow (s : State) : State :=
  { s with
    tb := { s.tb with stopped := true }
    pwr := { s.pwr with halted := true, entry := none }
    hm := { s.hm with opMsStored := s.hm.opMs }
    blw := { s.blw with
      chgEn := false, chgFet := false, bankSw := false, bleedEn := false, flush := none, test := .none
      recOpen := true, recFinal := false, recBytes := (s.blw.flush.map fun f => if f.started then s.blw.recBytes else 0).getD 0
      recSupply := (s.blw.flush.map fun f => f.started && s.blw.recSupply).getD false } }

/-- RAIL_FAULT (R439): the rail is recorded in a SUPPLY event. -/
def execRailFault (rail : Rail) (mv : Nat) (s : State) : Answer :=
  stepIf s (!s.pwr.halted && s.boot.stage != 0)
    (haltNow (railEvent s rail mv))

/-- REFCLK_STOP (R445): the device halts as on a rail fault; no rail is named. -/
def execRefclkStop (s : State) : Answer :=
  stepIf s (!s.pwr.halted && s.boot.stage != 0) (haltNow s)

end Sys2Proof.Machine
end

