-- ==== Sys2Proof/Machine/Bellows.lean ====
section
/-! DEFINITION. The Bellows: arming and charging, the samples of its voltages, the capacitance test, overvoltage and the
bleed (R348 to R354, R361). Voltages count 0.1 V. -/

namespace Sys2Proof.Machine

/-! ## Charging (R350) -/

/-- The bank target. -/
def bankTarget (s : State) : Nat := rd s R.BLW_CHG_TARGET

/-- A capacitance test is in progress (TEST_RUNNING): until its bleed has ended. -/
def Bellows.testing (b : Bellows) : Bool := b.test == .charging || b.test == .waiting || b.test == .bleeding

/-- CHG_EN after a sample: a test holds it high until TARGET, else the hysteresis decides; it stays low during a bleed,
on the bank and with the charge FET open. -/
def chargeLevel (s : State) (b : Bellows) : Bool :=
  if !b.armed || !b.chgFet || b.bankSw || b.bleedEn || b.test == .waiting then false
  else if b.vbank ≥ bankTarget s then false
  else if b.test == .charging then true
  else if b.vbank + rd s R.BLW_CHG_HYST < bankTarget s then true
  else b.chgEn

/-- Request a capacitance test: it charges to TARGET first (R352, R354). A test in progress goes on. -/
def requestTest (s : State) (periodic : Bool) : State :=
  if s.blw.testing then s
  else
    let b := { s.blw with test := .charging, periodic := periodic }
    { s with blw := { b with chgEn := chargeLevel s b } }

/-- Arm the Bellows, if VHV lies high enough: charging and the first test begin (R350, R353). -/
def armBellows (s : State) : State :=
  if s.blw.armed || decide (s.blw.vhv < rd s R.BLW_LOSS_TH_TH + 10) then s
  else
    let s1 := wr s R.BLW_CTRL_ARM 1
    requestTest { s1 with blw := { s1.blw with armed := true, chgFet := !s1.blw.bankFault } } false

/-- BELLOWS_ARM: a write of ARM. -/
def execBellowsArm (s : State) : Answer := stepIf s (windowOpen s) (armBellows s)

/-! ## Samples (R351, R361) -/

/-- VHV_OV sets and is recorded when the supply passes 40.5 V. -/
def supplyHigh (s : State) (vhv : Nat) : State :=
  if 405 < vhv ∧ s.blw.vhv ≤ 405 then raise (wr s R.BLW_STATUS_VHV_OV 1) (event 241 0x0906 [(4, vhv)]) else s

/-- The bank passes 39.5 V: charging stops and the bleed begins. -/
def overvoltage (s : State) : State :=
  let b := s.blw
  if b.armed && decide (395 < b.vbank) && !b.bleeding then
    { bump s R.BLW_OV_CNT_OV with
      blw := { b with chgEn := false, bleedEn := true, bleeding := true, bleedFrom := b.vbank, bleedChecked := false } }
  else s

/-- The bleed ends at TARGET; one that has worked is recorded then, with the voltage that began it (Table 15.4, log entry
28). -/
def bleedEnd (s : State) : State :=
  let b := s.blw
  if b.bleeding && decide (b.vbank ≤ bankTarget s) then
    let s1 := { s with blw := { b with bleeding := false, bleedEn := false } }
    if b.bankFault then s1 else raise s1 (event 238 0x0903 [(4, b.bleedFrom)])
  else s

/-- A test reaches TARGET and waits for its bleed; a bank that is back at TARGET ends the lowered figure (R354). -/
def testReach (s : State) : State :=
  if s.blw.vbank < bankTarget s then s
  else match s.blw.test with
    | .charging => { s with blw := { s.blw with test := .waiting } }
    | .recharging => { s with blw := { s.blw with test := .none } }
    | _ => s

/-- A sample of both voltages. -/
def sampleVolts (s : State) (vhv vbank : Nat) : State :=
  let s1 := supplyHigh s vhv
  let s2 := { s1 with blw := { s1.blw with vhv := vhv, vbank := vbank } }
  let s3 := testReach (bleedEnd (overvoltage s2))
  { s3 with blw := { s3.blw with chgEn := chargeLevel s3 s3.blw } }

/-- VOLTAGE_SAMPLE. -/
def execVoltageSample (vhv vbank : Nat) (s : State) : Answer :=
  stepIf s (decide (vhv < 512 ∧ vbank < 512)) (sampleVolts s vhv vbank)

/-- The bleed has not lowered the bank by 250 mV within 50 ms: the charge FET opens and BANK_FAULT latches. -/
def bleedFailed (s : State) : State :=
  raise { s with blw := { s.blw with chgFet := false, chgEn := false, bankFault := true, bleedChecked := true } }
    (event 239 0x0904 [(4, s.blw.vbank)])

/-- BLEED_CHECK_TIMER: 50 ms after the bleed began. -/
def execBleedCheckTimer (s : State) : Answer :=
  stepIf s (s.blw.bleeding && !s.blw.bleedChecked)
    (if s.blw.vbank + 3 ≤ s.blw.bleedFrom then { s with blw := { s.blw with bleedChecked := true } } else bleedFailed s)

/-- FAULT_CLR written as 1: accepted only while VBANK is at or below TARGET; writes resume when the test passes (R361). -/
def faultClear (s : State) : State :=
  if s.blw.bankFault ∧ s.blw.vbank ≤ bankTarget s then
    let s1 := { s with blw := { s.blw with bankFault := false, chgFet := s.blw.armed, passed := false, test := .none } }
    if s.blw.armed then requestTest s1 false else s1
  else s

/-- FAULT_CLEAR. -/
def execFaultClear (s : State) : Answer := stepIf s (windowOpen s) (faultClear s)

/-! ## The capacitance test (R352 to R354) -/

/-- The natural logarithm of a / b in units of 2^-128, rounded down term by term: twice the area tangent of
(a - b) / (a + b). -/
def lnTerm (z z2 : Nat) : Nat → Nat → Nat
  | 0, _ => 0
  | n + 1, k => z / (2 * k + 1) + lnTerm (z * z2 / 2 ^ 128) z2 n (k + 1)
def lnRatio (a b : Nat) : Nat :=
  let z := (a - b) * 2 ^ 128 / (a + b)
  2 * lnTerm z (z * z / 2 ^ 128) 160 0

/-- C in µF of a bleed from V1 to V2 in so many µs, with R in 0.1 Ω: none where the logarithm or the field's 20 bits give
no value. -/
def capacitance (s : State) (v1 v2 us : Nat) : Option Nat :=
  let den := rd s R.BLW_BLEED_OHM * lnRatio v1 v2
  if v1 ≤ v2 ∨ den = 0 then none
  else
    let c := 10 * us * 2 ^ 128 / den
    if c < 2 ^ 20 then some c else none

/-- Whether the bytes at risk are covered at a lowered voltage (R354). -/
def coveredAt (s : State) (v : Nat) : Bool := decide (energyNeed s ≤ energyAt s (min v (bankTarget s)))

/-- A test fails: writes are refused, CAP_LOW sets, and C is recorded (R353). -/
def testFailed (s : State) : State :=
  let b := { s.blw with test := .none, passed := false, capLow := true, bleedEn := s.blw.bleeding }
  raise { s with blw := { b with chgEn := chargeLevel s b } } (event 236 0x0901 [(4, s.blw.capUf)])

/-- CHARGE_TIMEOUT: the bank has not reached TARGET within TIMEOUT_S. CHG_SLOW sets, and a test in its first step fails
(R350, R352). -/
def execChargeTimeout (s : State) : Answer :=
  let s1 := raise (wr s R.BLW_STATUS_CHG_SLOW 1) (event 240 0x0905 [(4, s.blw.vbank)])
  stepIf s (s.blw.armed && s.blw.chgEn && decide (s.blw.vbank < bankTarget s))
    (if s.blw.test = .charging then testFailed s1 else s1)

/-- TEST_REQ written as 1. -/
def testRequest (s : State) : State := if s.blw.armed then requestTest s true else s

/-- CAP_TEST_REQUEST. -/
def execCapTestRequest (s : State) : Answer := stepIf s (windowOpen s) (testRequest s)

/-- PERIODIC_TEST_TIMER: PERIOD_H hours have passed. -/
def execPeriodicTestTimer (s : State) : Answer :=
  stepIf s (s.blw.armed && !s.blw.bankSw && !s.pwr.halted && rdForce s R.BLW_TEST_PERIOD_H != 0)
    (requestTest s true)

/-- CAP_TEST_RETRY_TIMER: 10 s after a failed test. -/
def execCapTestRetryTimer (s : State) : Answer :=
  stepIf s (s.blw.armed && s.blw.capLow && !s.blw.testing && !s.blw.bankSw && !s.pwr.halted)
    (requestTest s false)

/-- CAP_TEST_BLEED_START: the bank is at TARGET, and for a requested test the bytes at risk are covered at V1 − DV. -/
def execCapTestBleedStart (v1 : Nat) (s : State) : Answer :=
  stepIf s (s.blw.test == .waiting && decide (v1 < 512) && (!s.blw.periodic || coveredAt s (v1 - rdForce s R.BLW_TEST_DV)))
    { s with blw := { s.blw with test := .bleeding, v1 := v1, vbank := v1, chgEn := false, bleedEn := true } }

/-- The figures of a test that has bled from V1 to V2 (steps 3 to 5 of R352). -/
def testEnds (s : State) (v2 us : Nat) : State :=
  let c := capacitance s s.blw.v1 v2 us
  let r := match c with
    | some n => (n, s)
    | none => ((fresh s).1.toNat % 2 ^ 20, (fresh s).2)
  let s1 := { r.2 with blw := { r.2.blw with capUf := r.1, vbank := v2, bleedEn := r.2.blw.bleeding } }
  if s.blw.v1 < v2 + 5 ∨ r.1 < rd s R.BLW_CAP_MIN_UF then testFailed s1
  else
    let b := { s1.blw with test := .recharging, passed := true, capLow := false }
    { s1 with blw := { b with chgEn := chargeLevel s1 b } }

/-- CAP_TEST_BLEED_END: the bank has fallen by DV, or 500 ms have passed. -/
def execCapTestBleedEnd (v2 us : Nat) (s : State) : Answer :=
  stepIf s (s.blw.test == .bleeding && decide (v2 < 512) && (decide (v2 + rdForce s R.BLW_TEST_DV ≤ s.blw.v1) || decide (500000 ≤ us)))
    (testEnds s v2 us)

end Sys2Proof.Machine
end

