-- ==== Sys2Proof/Machine/Sched.lean ====
section
/-! DEFINITION. Plumb admission: where reads find their data, the channel calendar, the suspend-point model, promises,
read-around, and the posting of read results (R28 to R43, R99, R125, R182). -/

namespace Sys2Proof.Machine

/-! ## Periods and shares -/

/-- The period that new admissions are computed with (R24). -/
def admQ (s : State) : Nat := s.tb.perPend.getD s.tb.perActive

/-- Strikes of the admission period that hold so many quarter microseconds, rounded up. -/
def qStrikes (s : State) (quarters : Nat) : Nat := ceilDiv quarters (admQ s)

/-- Strikes that hold so many tenths of a microsecond, rounded up. -/
def tenthStrikes (s : State) (tenths : Nat) : Nat := ceilDiv (4 * tenths) (10 * admQ s)

/-- Bursts of a channel in a strike of a period (Table 2.2). -/
def burstsOf (q : Nat) : Nat := (250 * q - 180) / 150

/-- W, Rd and A of R28 from B. -/
def writeFloor (s : State) (b : Nat) : Nat := ceilDiv (b * min 8 (rd s R.STK_BUS_WR_FLOOR)) 8
def readShare (s : State) (b : Nat) : Nat := b - writeFloor s b
def aroundShare (s : State) (b : Nat) : Nat := ceilDiv (readShare s b * min 8 (rd s R.STK_RA_CTRL_RA_SHARE)) 8

/-- Bursts of a 4 KiB codeword on a channel (Table 8.2). -/
def cwBursts (s : State) (c : Nat) : Nat :=
  match (getChan s c).rate with
  | 0 => 8
  | 1 => 16
  | _ => 32

/-- t_R, and the decode and posting times of R35 and R36, in strikes. -/
def senseStrikes (s : State) : Nat := tenthStrikes s (rd s R.STK_TIM_READ_T_R)
def directTail (s : State) : Nat := tenthStrikes s 13
def postTail (s : State) : Nat := tenthStrikes s 10

/-- Strikes between rest strikes of a level (R370). -/
def restEvery (level : Nat) : Nat :=
  match level with
  | 0 => 0
  | 1 => 8
  | 2 => 4
  | 3 => 2
  | _ => 1

/-- Whether strike n is a rest strike of channel c at the level in force (R370). -/
def rests (s : State) (c n : Nat) : Bool :=
  let d := restEvery (fcLevel s c)
  d != 0 && decide ((n + c) % d = 0)

/-- The first strike from n that is no rest strike; at T4 there is none. -/
def notRest (s : State) (c n : Nat) : Nat := if rests s c n then n + 1 else n

/-! ## Codewords -/

/-- The slab that holds a page of a course: while units are still to be moved out of a failed slab of a collection course, the
failed one for its rows (R158). -/
def courseSlab (s : State) (c : Course) (stripe pos : Nat) : Nat :=
  match (c.holes.find? fun h => h.1 == pos && decide (rowOf s stripe < h.2.1)).bind (·.2.2) with
  | some a => a
  | none => c.slabs.getD pos 0

/-- The slab that holds a codeword. -/
def cwSlab (s : State) (x : Cw) : Nat := ((getCourse s x.course).map fun c => courseSlab s c (x.page / 16) (x.page % 16)).getD 0

/-! ## Readers: the orders' reads, and those of the device (R99, R162) -/

/-- The parts of a reader. -/
def readerParts (s : State) (who : Reader) : List RdPart :=
  match who with
  | .order r => (((getReq s r).bind (·.read)).map (·.parts)).getD []
  | .device i => ((getDev s i).map (·.parts)).getD []

/-- Change the parts of a reader. -/
def setParts (s : State) (who : Reader) (f : List RdPart → List RdPart) : State :=
  match who with
  | .order r => updReq s r fun q => { q with read := q.read.map fun p => { p with parts := f p.parts } }
  | .device i => setDev s i ((getDev s i).map fun d => { d with parts := f d.parts })

/-- Change a part of a reader. -/
def updPart (s : State) (who : Reader) (i : Nat) (f : RdPart → RdPart) : State := setParts s who (·.modify i f)

/-! ## The suspend-point model (R29 to R33, Table 2.4) -/

/-- t_RUN_MIN, and the time from a suspend to the window, in quarter microseconds. -/
def runMinQ (s : State) : Nat := 4 * rd s R.STK_SUSP_RUN_MIN
def suspendQ (s : State) (erasing : Bool) : Nat :=
  if erasing then 4 * (rd s R.STK_TIM_ERASE_T_ESEG + rd s R.STK_TIM_ERASE_T_ESUS)
  else 4 * (rd s R.STK_TIM_PROG_T_LOOP + rd s R.STK_TIM_PROG_T_SUS)

/-- The longest operation in quarter microseconds, and the suspends it allows. -/
def longQ (s : State) (erasing : Bool) : Nat :=
  4 * (if erasing then rd s R.STK_TIM_LONG_T_ERS else rd s R.STK_TIM_LONG_T_PROG)
def maxSusp (s : State) (erasing : Bool) : Nat :=
  if erasing then rd s R.STK_TIM_ERASE_MAX_ESUSP else rd s R.STK_TIM_PROG_MAX_SUSP

/-- The wake time of an FC domain in quarter microseconds: its training values are retained (R203). -/
def fcWakeQ (s : State) (c : Nat) : Nat :=
  let bankOff := s.boot.cfgMode != 0 && (List.range 4).all fun i =>
    let x := getDom s (fcDom (c / 4 * 4 + i))
    x.st == .autoOff || x.st == .mgrOff
  4 * (20 + (if bankOff then rd s R.FCH_PAD_RAMP_RAMP_US else 0))

/-- Whether SCHED may plan a read on a die: it is in service, its domain is not off or draining on the manager's order,
and its channel does not rest in every strike (R43, R370). -/
def diePlannable (s : State) (d : Nat) : Bool :=
  let x := getDie s d
  x.present && !x.lost && !mgrOff s (fcDom (dieChan d)) && decide (fcLevel s (dieChan d) < 4)

/-- Suspensions of the present operation that are planned and not yet taken. -/
def plannedSuspends (x : Die) : Nat := x.wins.length - (if x.st = .suspended then 1 else 0)

/-- Time that the operation of a die will have run by s0, when it runs on until then: PLUMB asks ahead of the strike that
would decide (R105). -/
def aheadQ (s : State) (s0 : Nat) : Nat := (s0 - s.tb.count) * perQ s

/-- Whether nothing is planned or sensed before the operation that waits on a die. -/
def Die.free (x : Die) : Bool := x.seq.isEmpty && x.sensing.isNone && x.bg.isNone

/-- The strike at which an aged program is launched: the end of the present read sequence, and no rest strike (R31, R42). -/
def launchStrike (s : State) (d s0 : Nat) : Nat :=
  let x := getDie s d
  notRest s (dieChan d) (if x.free then s0 else max s0 x.tailSd)

/-- Reads that no suspension serves: they wait for the end of the operation (R31, Table 2.4). -/
def Die.behind (x : Die) : Bool := decide (x.wins.foldl (fun n w => n + w.reads) 0 < x.winSeq.length + x.served)

/-- A new suspension after those planned (Table 2.4): while the operation runs, from its run time; else from the planned
resume. `from_` is the launch of an aged program. -/
def newWindow (s : State) (d s0 from_ : Nat) : Window :=
  let x := getDie s d
  let run := x.st == .programming || x.st == .erasing
  match x.wins.getLast? with
  | some w =>
    let res := notRest s (dieChan d) w.sd
    { sus := res + qStrikes s (runMinQ s), ready := res + qStrikes s (runMinQ s + suspendQ s x.erasing), reads := 0
      sd := 0 }
  | none =>
    if run then
      let sus := s0 + qStrikes s (runMinQ s - (x.run + aheadQ s s0))
      { sus := sus, ready := sus + qStrikes s (suspendQ s x.erasing), reads := 0, sd := 0 }
    else
      { sus := from_ + qStrikes s (runMinQ s), ready := from_ + qStrikes s (runMinQ s + suspendQ s false), reads := 0
        sd := 0 }

/-- Strikes from the suspend to the planned resume of every suspension planned and not yet ended. -/
def plannedPauses (x : Die) : Nat := x.wins.foldl (fun n w => n + (w.sd - w.sus)) 0

/-- The operation's end, when no further suspend is allowed: a result below s0 is s0 (Table 2.4). -/
def limitStrike (s : State) (x : Die) (s0 : Nat) : Nat :=
  let left : Int := (longQ s x.erasing : Int) - (x.runTotal + aheadQ s s0 : Nat)
  max s0 ((s0 : Int) - (-left) / (admQ s : Int) + plannedPauses x).toNat

/-- Where a new sense stands on its die: in the read sequence, in a suspension, with the windows as they become, or behind
the operation. -/
inductive SensePlace where
  | sequence
  | window (ws : List Window)
  | after
  deriving DecidableEq, Repr

/-- Issue strike of a new sense before rest strikes and the cache register are heeded, and its place (Table 2.4). No read is
placed ahead of one admitted before it (R30). -/
def senseAt (s : State) (d s0 : Nat) : Nat × SensePlace :=
  let x := getDie s d
  let c := dieChan d
  let dom := (getDom s (fcDom c)).st
  let idle := x.st == .idle || x.st == .reading
  let sw := rd s R.STK_SUSP_N_SW
  if idle && !x.aged then
    if x.free then (if dom = .autoOff ∨ dom = .waking then s0 + qStrikes s (fcWakeQ s c) else s0, .sequence)
    else (max s0 x.tailSd, .sequence)
  else if x.behind then (x.winSeq.foldl (fun n p => max n p.sd) s0, .after)
  else
    match x.wins.getLast?.filter fun w => decide (w.reads < sw) with
    | some w => (max s0 w.sd, .window x.wins.dropLast)
    | none =>
      if sw ≠ 0 ∧ x.suspends + plannedSuspends x < maxSusp s (x.erasing && !idle) then
        ((newWindow s d s0 (launchStrike s d s0)).ready, .window x.wins)
      else if idle then (launchStrike s d s0 + qStrikes s (longQ s false) + plannedPauses x, .after)
      else (limitStrike s x s0, .after)

/-- The window that a sense joins or opens. -/
def joinWindow (s : State) (d s0 sd : Nat) : Window :=
  let x := getDie s d
  let sw := rd s R.STK_SUSP_N_SW
  let w := match x.wins.getLast?.filter fun w => decide (w.reads < sw) with
    | some w => w
    | none => newWindow s d s0 (launchStrike s d s0)
  { w with reads := w.reads + 1, sd := sd }

/-- Plan a sense on a die: issue strike, end of the sense, and the state with the step in the die's sequence. -/
def planSense (s : State) (d s0 : Nat) (who : Reader) (part : Nat) : Option (Nat × Nat × State) :=
  if !diePlannable s d then none
  else
    let x := getDie s d
    let p := senseAt s d s0
    let si := notRest s (dieChan d) (max p.1 (x.tailSl + 1 - senseStrikes s))
    let sd := si + senseStrikes s
    let step : PlanStep := { who := who, part := part, si := si, sd := sd }
    let y := match p.2 with
      | .sequence => { x with seq := x.seq ++ [step], tailSd := sd }
      | .window ws => { x with wins := ws ++ [joinWindow s d s0 sd], winSeq := x.winSeq ++ [step] }
      | .after => { x with winSeq := x.winSeq ++ [step] }
    some (si, sd, setDie s d y)

/-! ## The channel calendar (R28) -/

/-- Reserve bursts from a strike on, within a room for each strike; none past the calendar. -/
def reserveFrom (room : Nat → Nat) : Nat → Nat → Nat → Option (List (Nat × Nat))
  | _, _, 0 => some []
  | 0, _, _ + 1 => none
  | fuel + 1, n, need =>
    let k := min (room n) need
    if k = 0 then reserveFrom room fuel (n + 1) need
    else (reserveFrom room fuel (n + 1) (need - k)).map fun l => (n, k) :: l

/-- Whether program data-in or verify read-back waits or is planned on a channel (R28). -/
def writePathWaits (s : State) (c : Nat) : Bool := s.med.courses.any fun e => match e.2 with
  | some k => ((List.range 16).any fun p => slabChan (k.slabs.getD p 0) == c && !k.slabs.isEmpty
      && ((k.unit p).st != .none || decide (k.doneAt p < rowsReady s k)))
      || k.mends.any fun m => slabChan m.slab == c && m.phase == .sending
  | none => false

/-- Room of a channel's calendar in a strike for an admitted read, or for a companion (R28, R40). -/
def calRoom (s : State) (c : Nat) (companion free : Bool) (n : Nat) : Nat :=
  let b := burstsOf (admQ s)
  let x := getChan s c
  let used := Tbl.get nat0 x.cal n
  let room := (if free && !companion then b else readShare s b) - used
  if companion then min room (aroundShare s b - Tbl.get nat0 x.calRa n) else room

/-- Enter reservations into a channel's calendar. -/
def addCal (s : State) (c : Nat) (companion : Bool) (l : List (Nat × Nat)) : State :=
  let x := getChan s c
  let add := fun (m : Tbl Nat) (e : Nat × Nat) => Tbl.upd nat0 m e.1 (· + e.2)
  setChan s c { x with cal := l.foldl add x.cal, calRa := if companion then l.foldl add x.calRa else x.calRa }

/-- Plan one codeword: its sense, shared with a codeword of the same page just planned, and its bursts (R35). -/
def planPart (s : State) (s0 : Nat) (who : Reader) (idx : Nat) (x : Cw) (companion : Bool) (prev : Option RdPart) : Option (State × RdPart) :=
  let a := cwSlab s x
  let d := slabDie a
  let c := dieChan d
  let shared := match prev with
    | some p => if p.course == x.course && p.page == x.page && p.companion == companion && p.need != 0 then
        some (p.si, p.sd, s) else none
    | none => none
  match (match shared with
    | some r => some r
    | none => planSense s d s0 who idx) with
  | none => none
  | some (si, sd, s1) =>
    let free := !writePathWaits s c
    match reserveFrom (calRoom s1 c companion free) (s0 + 4096 - sd) sd (cwBursts s c) with
    | none => none
    | some l =>
      let slast := (l.getLast?.map (·.1)).getD sd
      let s2 := addCal s1 c companion l
      let y := getDie s2 d
      some (setDie s2 d { y with tailSl := max y.tailSl slast },
        { die := d, slab := a, course := x.course, page := x.page, cw := x.cw, si := si, sd := sd, slast := slast, bursts := l
          need := cwBursts s c, moved := 0, sensed := none, decoded := false, ladder := noLadder, companion := companion, seg := none
          segRun := false })

/-! ## Read-around (R39, R40) -/

/-- Segments of a parity engine in the n-th strike to come, with the period of new admissions, and room above the floor
(R24, R26, R186). -/
def pxGrantAt (s : State) (n : Nat) : Nat :=
  grantOf (32000 * admQ s) 16384 (s.tb.sinceSet + (n - s.tb.count))
def pxKey (e n : Nat) : Nat := e * 2 ^ 64 + n
def pxRoom (s : State) (e n : Nat) : Nat :=
  pxGrantAt s n - rd s R.STK_RA_CTRL_PX_FLOOR - Tbl.get nat0 s.fl.engines (pxKey e n)

/-- Reserve one segment on an engine in the first strike after another with room. -/
def reserveSeg (s : State) (e : Nat) : Nat → Nat → Option (State × Nat)
  | 0, _ => none
  | fuel + 1, n =>
    if pxRoom s e n = 0 then reserveSeg s e fuel (n + 1)
    else some ({ s with fl := { s.fl with engines := Tbl.upd nat0 s.fl.engines (pxKey e n) (· + 1) } }, n)

/-- Reserve a segment for each codeword, after the strike of its last burst: the state and the strikes. -/
def reserveSegs (s : State) (s0 e : Nat) (lasts : List Nat) : Option (State × List Nat) :=
  lasts.foldl (fun r l => match r with
    | none => none
    | some (t, ns) => (reserveSeg t e (s0 + 4096 - l) (l + 1)).map fun p => (p.1, ns ++ [p.2])) (some (s, []))

/-- The engine whose segments close earliest, the lowest number first (log entry 22). -/
def chooseEngine (s : State) (s0 : Nat) (lasts : List Nat) : Option (Nat × State × List Nat) :=
  ((List.range 8).filter fun e => !mgrOff s (pxDom e)).foldl (fun (m : Option (Nat × State × List Nat)) e =>
    match reserveSegs s s0 e lasts with
    | none => m
    | some r => match m with
      | none => some (e, r.1, r.2)
      | some b => if r.2.foldl max 0 < b.2.2.foldl max 0 then some (e, r.1, r.2) else some b) none

/-- The other positions of a stripe. -/
def companions (x : Cw) : List Cw :=
  ((List.range 16).filter (· != x.page % 16)).map fun p => { x with page := x.page / 16 * 16 + p }

/-- Whether a page of a course lies in a buffer, data or Keystone (R14, R177). -/
def placeBuffered (s : State) (x : Cw) : Bool :=
  match getCourse s x.course with
  | some c => decide (c.doneAt (x.page % 16) ≤ rowOf s (x.page / 16))
  | none => true

/-- A codeword that read-around rebuilds and that is not there yet. -/
def RdPart.rebuilding (x : RdPart) : Bool := x.need == 0 && !x.companion && x.ladder == noLadder && !x.decoded

/-- Read-around rebuilds in progress (R39). -/
def aroundCount (s : State) : Nat := s.ord.reqs.foldl (fun n e => match e.2.bind (·.read) with
  | some p => n + (p.parts.filter (·.rebuilding)).length
  | none => n) 0

/-- Whether R39 lets SCHED consider read-around for a codeword: it lies in a Bedrock zone (R17), and every companion's queue
has room. -/
def aroundAllowed (s : State) (x : Cw) : Bool :=
  match getCourse s x.course with
  | none => false
  | some c =>
    let a := cwSlab s x
    let d := getDie s (slabDie a)
    let full := decide (rd s R.STK_SUSP_N_SW ≤ (d.wins.headD { sus := 0, ready := 0, reads := 0, sd := 0 }).reads)
    let busy := d.st == .programming || d.st == .erasing || (d.st == .suspended && full)
    flag s R.STK_RA_CTRL_RA_EN && c.kind == .zone && c.bedrock && (busy || mgrOff s (fcDom (slabChan a)))
      && (companions x).all (fun y =>
        let b := cwSlab s y
        (getSlab s b).st != .retired && !(c.mends.any fun m => m.pos == y.page % 16) && !mgrOff s (fcDom (slabChan b))
          && decide (dieQueue (getDie s (slabDie b)) < 32))
      && decide (aroundCount s < rd s R.STK_RA_CTRL_MAX_INFLIGHT)

/-- Plan a list of codewords, one after another. -/
def planParts (s : State) (s0 : Nat) (who : Reader) (idx : Nat) (l : List Cw) (companion : Bool) : Option (State × List RdPart) :=
  l.foldl (fun r x => match r with
    | none => none
    | some (t, ps) => (planPart t s0 who (idx + ps.length) x companion ps.getLast?).map fun p => (p.1, ps ++ [p.2]))
    (some (s, []))

/-- A part that takes no bursts: a codeword rebuilt by read-around, or one whose die is lost and that starts at step 4 of
the ladder (R160, log entry 23). -/
def restPart (s : State) (x : Cw) (s0 slast step : Nat) : RdPart :=
  let a := cwSlab s x
  { die := slabDie a, slab := a, course := x.course, page := x.page, cw := x.cw, si := s0, sd := s0, slast := slast
    bursts := [], need := 0, moved := 0, sensed := some s0, decoded := false
    ladder := { noLadder with step := step, due := step != 0 }, companion := false, seg := none
    segRun := false }

/-- What planning a codeword gives: the state, its parts, its promise, its segments, and whether read-around serves it. -/
structure CwPlan where
  s : State
  parts : List RdPart
  promise : Nat
  segs : List (Nat × Nat × Nat)
  around : Bool
  deriving DecidableEq, Repr

/-- Companions with their segments on an engine, in the order of the reservations. -/
def withSegs (e : Nat) (ps : List RdPart) (ns : List Nat) : List RdPart :=
  (ps.zip ns).map fun x => { x.1 with seg := some (e, x.2) }

/-- The read-around of a codeword (R39): companions that a buffer serves are there at s0. -/
def planAround (s : State) (s0 : Nat) (who : Reader) (idx : Nat) (x : Cw) : Option CwPlan :=
  if !aroundAllowed s x then none
  else
    let l := companions x
    match planParts s s0 who (idx + 1) (l.filter fun y => !placeBuffered s y) true with
    | none => none
    | some (t, ps) =>
      match chooseEngine t s0 (ps.map (·.slast) ++ List.replicate (15 - ps.length) s0) with
      | none => none
      | some (e, u, ns) =>
        let px := ns.foldl max 0
        some { s := u, parts := restPart s x s0 px 0 :: withSegs e ps ns, promise := px + 1 + postTail s,
               segs := (ns.drop ps.length).map fun n => (e, n, 1), around := true }

/-- The direct read of a codeword. -/
def planDirect (s : State) (s0 : Nat) (who : Reader) (idx : Nat) (x : Cw) (prev : Option RdPart) : Option CwPlan :=
  if (getDie s (slabDie (cwSlab s x))).lost then
    some { s := s, parts := [restPart s x s0 s0 4], promise := s0 + 1 + postTail s, segs := [], around := false }
  else (planPart s s0 who idx x false prev).map fun p =>
    { s := p.1, parts := [p.2], promise := p.2.slast + 1 + directTail s, segs := [], around := false }

/-- One codeword: the direct promise, or read-around when it saves GAIN strikes or no direct promise exists (R39). -/
def planCw (s : State) (s0 : Nat) (who : Reader) (idx : Nat) (x : Cw) (prev : Option RdPart) : Option CwPlan :=
  match planDirect s s0 who idx x prev, planAround s s0 who idx x with
  | some d, some a => if a.promise + rd s R.STK_RA_CTRL_GAIN ≤ d.promise then some a else some d
  | some d, none => some d
  | none, a => a

/-! ## Admission (R34 to R38, R43) -/

/-- What SCHED decides. -/
inductive Admission where
  | pending
  | late
  | held
  | ok (s : State) (p : ReadPlan)
  deriving DecidableEq, Repr

/-- What a read-class request asks for. -/
structure ReadAsk where
  nsid : Nat
  lba : Nat
  blocks : Nat
  parchk : Bool
  deadline : Nat
  deriving DecidableEq, Repr

/-- The stripe that PARCHK checks: course, and the codewords of its pages that lie in flash (R182). -/
def stripeCws (s : State) (n : Namespace) (a : ReadAsk) : List Cw :=
  let z := getZone s a.nsid (a.lba / n.zsze)
  match z.course with
  | none => []
  | some c =>
    let st := (pagePlace true (a.lba % n.zsze * n.lbaData / 16384)).1
    ((List.range 16).flatMap fun p => (List.range 4).map fun k => { course := c, page := st * 16 + p, cw := k : Cw }).filter
      fun x => !placeBuffered s x

/-- Plan a PARCHK: its codewords in the read-around share, and all 64 segments on one engine (R182, log entry 24). -/
def planStripe (s : State) (s0 : Nat) (who : Reader) (l : List Cw) : Option CwPlan :=
  match planParts s s0 who 0 l true with
  | none => none
  | some (t, ps) => match chooseEngine t s0 (ps.map (·.slast) ++ List.replicate (64 - ps.length) s0) with
    | none => none
    | some (e, u, ns) =>
      some { s := u, parts := withSegs e ps ns, promise := ns.foldl max 0 + 1 + postTail s
             segs := (ns.drop ps.length).map fun n => (e, n, 1), around := false }

/-- Plan the codewords of a read. -/
def planAll (s : State) (s0 : Nat) (who : Reader) (l : List Cw) : Option CwPlan :=
  l.foldl (fun r x => match r with
    | none => none
    | some p => (planCw p.s s0 who p.parts.length x p.parts.getLast?).map fun q =>
      { s := q.s, parts := p.parts ++ q.parts, promise := max p.promise q.promise, segs := p.segs ++ q.segs,
        around := p.around || q.around })
    (some { s := s, parts := [], promise := s0 + 1 + postTail s, segs := [], around := false })

/-- Whether the Keystone page of a stripe has been computed (R177). -/
def keystoneDone (s : State) (c : Course) (stripe : Nat) : Bool :=
  let r := rowOf s stripe
  decide (r + 1 < c.sent) || (decide (r + 1 = c.sent)
    && decide (60 * (stripe - rowStart s r + 1) + c.keyLeft ≤ 60 * unitPages s r))

/-- The XOR of the 16 pages that PARCHK checks (R182). A stripe whose Keystone is still to be computed has none to compare, and
passes (log entry 57). -/
def parchkXor (s : State) (n : Namespace) (a : ReadAsk) : List Byte :=
  match (getZone s a.nsid (a.lba / n.zsze)).course with
  | none => []
  | some id => match getCourse s id with
    | none => []
    | some c =>
      let st := (pagePlace true (a.lba % n.zsze * n.lbaData / 16384)).1
      if keystoneDone s c st then stripeXor s id c st (List.range 16) else []

/-- The codewords, tokens, data and status of what a request asks for. -/
def askCws (s : State) (n : Namespace) (a : ReadAsk) : List Cw :=
  if a.parchk then stripeCws s n a else (readCws s n a.nsid a.lba a.blocks).1
def askTokens (s : State) (n : Namespace) (a : ReadAsk) : Nat :=
  if a.parchk then tokensOf (262144 - 4096 * (64 - (stripeCws s n a).length))
  else tokensOf (readCws s n a.nsid a.lba a.blocks).2
def askData (s : State) (n : Namespace) (a : ReadAsk) : List Byte :=
  if a.parchk then parchkXor s n a else (List.range a.blocks).flatMap fun i => blockBytes s n a.nsid (a.lba + i)
def askLost (s : State) (n : Namespace) (a : ReadAsk) : Bool :=
  (List.range (if a.parchk then 1 else a.blocks)).any fun i => findBlock s n a.nsid (a.lba + i) == .lost

/-- Whether the senses of a read would overfill the operation queue of a die (R18, R97). A read of more pages of one die
than its queue holds is taken by an empty queue (log entry 40). -/
def queueFull (s : State) (l : List Cw) : Bool :=
  let pages := (l.map fun x => (slabDie (cwSlab s x), x.course, x.page)).eraseDups
  pages.any fun p =>
    let q := dieQueue (getDie s p.1)
    q != 0 && decide (32 < q + (pages.filter fun y => y.1 == p.1).length)

/-- Admit a request at strike s0 (R34): a full die queue or missing tokens leave it pending (R97), a promise past the
calendar or past its deadline is refused, or held when it has none (R37, R43). -/
def admission (s : State) (s0 rid tenant issued : Nat) (n : Namespace) (a : ReadAsk) (tokens : Bool) : Admission :=
  let l := askCws s n a
  if tokens && !hasRd s tenant (askTokens s n a) then .pending
  else if queueFull s l then .pending
  else match (if a.parchk then planStripe s s0 (.order rid) l else planAll s s0 (.order rid) l) with
    | none => if a.deadline = 0 then .held else .late
    | some p =>
      if s0 + 4095 < p.promise then (if a.deadline = 0 then .held else .late)
      else if a.deadline ≠ 0 ∧ issued + a.deadline < p.promise then .late
      else
        let s1 := takeRd p.s tenant (askTokens s n a)
        let px := p.segs.foldl (fun m e => max m e.2.1) (p.parts.foldl (fun m x => max m ((x.seg.map (·.2)).getD 0)) 0)
        .ok { s1 with fl := { s1.fl with nextAdm := s1.fl.nextAdm + 1 } }
               { s0 := s0, promise := p.promise, deadline := a.deadline, parts := p.parts, adm := s1.fl.nextAdm
                 segs := p.segs, around := p.around, voided := p.parts.any (·.ladder.step != 0)
                 postAt := if a.parchk then px + 1 else if p.parts.isEmpty then s0 + 1 else 0
                 period := admQ s, data := askData s n a, unrec := askLost s n a, cause := none }

/-- The request of a read-class instruction: D = imm[23:0]. -/
def askOf (s : State) (q : Req) : ReadAsk :=
  let nsid := q.vc.toNat % 2 ^ 32
  let size := ((getNs s nsid).map (·.lbaSize)).getD 4096
  { nsid := nsid, lba := q.vb.toNat, blocks := (q.ha.map (·.len)).getD 0 / size, parchk := q.op == 0x57
    deadline := q.imm.toNat % 2 ^ 24 }

/-- Work reaches the FC domains of an admitted read (R43). -/
def wakeFor (s : State) (p : ReadPlan) : State :=
  (p.parts.map fun x => dieChan x.die).eraseDups.foldl (fun t c => useDomain t (fcDom c)) s

/-- PLUMB_ADMISSION: decide on one request in the present strike; an attached read writes P to v15 (R38). -/
def admitRead (s : State) (rid : Nat) : State :=
  match getReq s rid with
  | none => s
  | some q =>
    let a := askOf s q
    match getNs s a.nsid with
    | none => complete s rid St.nsDenied none
    | some n => match admission s s.tb.count rid q.tenant q.issued n a true with
      | .pending => updReq s rid fun r => { r with phase := .pending }
      | .held => updReq s rid fun r => { r with phase := .held }
      | .late => complete (bump s R.STK_LATE_CNT_LATE) rid St.plumbLate none
      | .ok t p =>
        let s1 := updReq (wakeFor t p) rid fun r =>
          { r with phase := if p.parts.isEmpty then .effect else .admitted, read := some p }
        if q.ticket.isNone && awaited s rid q then
          updSlot s1 q.slot (·.setVal 15 (BitVec.ofNat 64 p.promise))
        else s1

/-! ## PLUMB (R38, R105) -/

/-- Strikes until a tenant's read bucket holds so many tokens, from its level and rate (R34). -/
def tokenWait (s : State) (t n : Nat) : Nat → Nat → Nat → Option Nat
  | 0, _, _ => none
  | fuel + 1, k, level =>
    let b := (getTen s t).blk
    let l := min b.rdDepth (level + grantOf (b.rdRate * perQ s) 1024 ((getTen s t).since + k))
    if n ≤ l then some k else tokenWait s t n fuel (k + 1) l

/-- The promise that a read would receive, presented to SCHED in this strike; all ones where it would receive none. -/
def plumbValue (s : State) (tenant rid : Nat) (n : Namespace) (a : ReadAsk) : W64 :=
  let wait := if hasRd s tenant (askTokens s n a) then some 0
    else tokenWait s tenant (askTokens s n a) 4096 1 (getTen s tenant).rd
  match wait with
  | none => BitVec.allOnes 64
  | some k => match admission s (s.tb.count + k) rid tenant s.tb.count n { a with deadline := 0 } false with
    | .ok _ p => BitVec.ofNat 64 p.promise
    | _ => BitVec.allOnes 64

/-- What PLUMB asks for: v[a] bytes from LBA v[b]. -/
def plumbAsk (s : State) (q : Req) : ReadAsk :=
  let nsid := q.vc.toNat % 2 ^ 32
  let size := ((getNs s nsid).map (·.lbaSize)).getD 4096
  { nsid := nsid, lba := q.vb.toNat, blocks := q.va.toNat / size, parchk := false, deadline := 0 }

/-- SCHED answers a PLUMB among the reads presented with it, and reserves nothing. -/
def plumbRead (s : State) (rid : Nat) : State :=
  match getReq s rid with
  | none => s
  | some q =>
    let a := plumbAsk s q
    match getNs s a.nsid with
    | none => complete s rid St.nsDenied none
    | some n =>
      if askLost s n a then complete s rid St.mediaUnrecovered none
      else complete s rid St.ok (some (plumbValue s q.tenant rid n a))

/-- Whether SCHED decides on a request in this strike: a read presented, held, or short of tokens or of room until now. -/
def Req.toAdmit (q : Req) : Bool :=
  (q.op == 0x50 || q.op == 0x54 || q.op == 0x57) && (q.phase == .presented || q.phase == .held || q.phase == .pending)

/-- The reads presented before this strike, those held and those pending, and each PLUMB in its place among them, in arrival
order (R29, R34, R37, R38). -/
def admitAll (s : State) : State :=
  (s.ord.reqs.map (·.1)).foldl (fun t r => match getReq t r with
    | some q => if q.toAdmit then admitRead t r
      else if q.op == 0x83 && q.phase == .presented then plumbRead t r else t
    | none => t) s

/-! ## Read-class instructions -/

/-- A read as an asynchronous instruction; the mod of a read uses only the detach bit. -/
def readOp (s : State) (k : Nat) (f : Fields) (zoned : Bool) : AsyncOp :=
  let x := getSlot s k
  let len := ((x.hdl f.a).map (·.len)).getD 0
  { wellUsed := unusedZero f true true true 8 24, reads := [], writes := bufsOf [x.hdl f.a], ctx := none
    check := fun t => firstFault [needHandles t [x.hdl f.a] [],
      mediaCheck t x.tenant (nsidOf x f) (x.val f.b).toNat len zoned false]
    start := fun t _ => t }

/-- ZREAD. -/
def execZread (slot : Nat) (f : Fields) (s : State) : Answer :=
  stepIf s (atWord s slot 0x50 f) (asyncWord s slot 0x50 f (readOp s slot f true))

/-- CREAD. -/
def execCread (slot : Nat) (f : Fields) (s : State) : Answer :=
  stepIf s (atWord s slot 0x54 f) (asyncWord s slot 0x54 f (readOp s slot f false))

/-- Whether an LBA lies in a Bedrock zone. -/
def inBedrock (s : State) (nsid lba : Nat) : Bool := (getNs s nsid).any fun n =>
  let z := getZone s nsid (lba / n.zsze)
  n.zoned && (if z.classSet then z.bedrock else n.bedrock)

/-- PARCHK as an asynchronous instruction. -/
def parchkOp (s : State) (k : Nat) (f : Fields) : AsyncOp :=
  let x := getSlot s k
  let lba := (x.val f.b).toNat
  { wellUsed := unusedZero f false true true 8 24, reads := [], writes := [], ctx := none
    check := fun t => firstFault [mediaCheck t x.tenant (nsidOf x f) lba 0 true false,
      if inBedrock t (nsidOf x f) lba then St.ok else St.illegalOp]
    start := fun t _ => t }

/-- PARCHK. -/
def execParchk (slot : Nat) (f : Fields) (s : State) : Answer :=
  stepIf s (atWord s slot 0x57 f) (asyncWord s slot 0x57 f (parchkOp s slot f))

/-- PLUMB as an asynchronous instruction: its value comes in the strike after issue. -/
def plumbOp (s : State) (k : Nat) (f : Fields) : AsyncOp :=
  let x := getSlot s k
  { wellUsed := unusedZero f true true true 9 0, reads := [], writes := [], ctx := none
    check := fun t => mediaCheck t x.tenant (nsidOf x f) (x.val f.b).toNat (x.val f.a).toNat (!f.m 0) false
    start := fun t _ => t }

/-- PLUMB. -/
def execPlumb (slot : Nat) (f : Fields) (s : State) : Answer :=
  stepIf s (atWord s slot 0x83 f) (asyncWord s slot 0x83 f (plumbOp s slot f))

/-! ## Posting and breaches (R41, R99) -/

/-- A member in holdover or outside ±20 ns of the head, which are 80 quarters of a nanosecond (R404). -/
def slipping (s : State) : Bool := isMember s && (s.wall.holdover || decide (80 < s.wall.err.natAbs))

/-- The cause of a breach (R41): a strike slip in a Wall (R404), a domain forced off, die timing, or other. -/
def breachCause (s : State) (p : ReadPlan) : Nat :=
  if slipping s then 2
  else match p.cause with
    | some c => c
    | none =>
      if p.parts.any fun x => mgrOff s (fcDom (dieChan x.die)) then 3
      else if p.parts.any fun x => x.need != 0 && (x.sensed.map fun n => decide (x.sd ≤ n)).getD false then 1
      else 4

/-- A read that is posted after its promise (R41). The die that the event names is that of the read's last part (DESIGN
CHOICE, log entry 37). -/
def lateRead (s : State) (p : ReadPlan) : State :=
  if s.tb.count < p.promise then s
  else if p.voided then bump s R.STK_MEDIA_LATE_CNT_MEDIA_LATE
  else if p.deadline = 0 then s
  else
    let die := (p.parts.map (·.die)).getLastD 0
    raise (bump s R.STK_BREACH_CNT_BREACH) (event (dieChan die) 0x0201
      [(2, die), (4, p.promise % 2 ^ 32), (2, min (s.tb.count + 1 - p.promise) 65535), (1, breachCause s p)])

/-- Post a read's result to its order; PARCHK fails when the XOR of its stripe is not zero (R99, R182). -/
def postRead (s : State) (rid : Nat) : State :=
  match getReq s rid with
  | none => s
  | some q => match q.read with
    | none => s
    | some p =>
      let s1 := lateRead s p
      let s2 := if p.around then bump s1 R.STK_RA_CNT_RA else s1
      let s3 := if p.unrec || q.op == 0x57 then s2 else if (getTen s q.tenant).gen == q.gen then produce s2 q p.data else s2
      deliver s3 rid (if p.unrec then St.mediaUnrecovered
        else if q.op == 0x57 && p.data.any (· != 0) then St.mediaParity else St.ok) none

/-- Whether a read's result is ready to post. -/
def postDue (s : State) (rid : Nat) : Bool :=
  match getReq s rid with
  | some q => q.phase == .effect && (match q.read with
      | some p => decide (p.postAt ≤ s.tb.count)
      | none => false)
  | none => false

/-- READ_RESULT_POSTED (R99). -/
def execReadResultPosted (rid : Nat) (s : State) : Answer :=
  stepIf s (postDue s rid) (postRead s rid)

/-! ## Pending instructions (R97, R140) -/

/-- Whether a pending instruction could proceed now. -/
def pendingReady (s : State) (q : Req) : Bool :=
  if q.op = 0x50 ∨ q.op = 0x54 ∨ q.op = 0x57 then
    let a := askOf s q
    match getNs s a.nsid with
    | some n => (match admission s s.tb.count 0 q.tenant q.issued n a true with
        | .pending => false
        | _ => true)
    | none => true
  else match q.write, q.write.bind (fun w => getNs s w.nsid) with
    | some w, some n => hasWr s q.tenant (tokensOf (w.blocks * n.lbaData))
    | _, _ => false

/-- A pending instruction proceeds: SCHED decides on a read at the next strike (R34). -/
def resumePending (s : State) (rid : Nat) (q : Req) : State :=
  if q.op = 0x50 ∨ q.op = 0x54 ∨ q.op = 0x57 then updReq s rid fun r => { r with phase := .presented }
  else tryPlace (updReq s rid fun r => { r with phase := .placed }) rid

/-- MEDIA_INSTRUCTION_RESUME (R97). -/
def execMediaInstructionResume (rid : Nat) (s : State) : Answer :=
  match getReq s rid with
  | some q => stepIf s (q.phase == .pending && pendingReady s q) (resumePending s rid q)
  | none => .next s

/-- Whether a write or action in placement waits for a course and its slabs are now erased (R140). -/
def formationReady (s : State) (q : Req) : Bool :=
  match q.write, q.write.bind (fun w => getNs s w.nsid) with
  | some w, some n =>
    let b := w.bay.getD (n.bay, 0)
    (if n.zoned then (getZone s w.nsid (w.zone.getD 0)).st == .empty
     else (openHost s w.nsid (unitDomain (unitSpan n w.lba w.blocks).1) b.1 b.2).isNone)
      && (formSlabs s b.1 b.2).isSome
  | _, _ => false

/-- COURSE_FORMATION_RESUME (R140). -/
def execCourseFormationResume (rid : Nat) (s : State) : Answer :=
  match getReq s rid with
  | some q => stepIf s (q.phase == .placed && formationReady s q) (tryPlace s rid)
  | none => .next s

end Sys2Proof.Machine
end

