-- ==== Sys2Proof/Machine/Dies.lean ====
section
/-! DEFINITION. What dies, channels and parity engines do: the step of a die (R29), data-in, read-back and the calendar
(R28, R171, R172, R456), and the work of the parity engines with the rows that they serve (R168 to R177, R186). -/

namespace Sys2Proof.Machine

/-! ## The end of an operation -/

/-- A die's operation ends: reads planned in suspensions stay planned and issue from the sequence (R32). -/
def Die.opEnd (x : Die) : Die :=
  { x with target := none, erasing := false, st := if x.sensing.isSome then .reading else .idle, run := 0, runTotal := 0
           suspends := 0, seq := x.winSeq ++ x.seq, winSeq := [], wins := [], served := 0, susSent := false
           tailSd := x.winSeq.foldl (fun n p => max n p.sd) x.tailSd }

/-- An operation is on the die, running or suspended, or ended and not yet reported. -/
def Die.busyOp (x : Die) : Bool := x.target.isSome || x.erasing

/-! ## One die in one strike (R29) -/

/-- Command cycles of a channel in a strike (Table 2.2). -/
def commandCycles : Nat := 8

/-- A command cycle of a channel is left in the present strike, and one is spent (R195). -/
def cycleLeft (s : State) (c : Nat) : Bool := decide ((getChan s c).cyc < commandCycles)
def spendCycle (s : State) (c : Nat) : State := let x := getChan s c; setChan s c { x with cyc := x.cyc + 1 }

/-- Issue a planned read in strike n. -/
def issueSense (s : State) (d n : Nat) (p : PlanStep) (window : Bool) : State :=
  let x := getDie s d
  let q := { p with si := n, sd := n + senseStrikes s }
  spendCycle (setDie s d (if window then { x with sensing := some q, winSeq := x.winSeq.tail, served := x.served + 1 }
    else { x with sensing := some q, seq := x.seq.tail, st := .reading })) (dieChan d)

/-- Whether the next page of a programmed unit is to be sensed for read-back on a die (R172). -/
def verifyWaits (s : State) (u : UnitEntry) (slab d : Nat) : Bool :=
  u.st == .programmed && slabDie slab == d && decide (u.sensed < unitPages s u.row)
    && decide (u.moved = u.sensed * (4 * cwBursts s (dieChan d)))

/-- Whether a position of a course is being mended: its own unit there waits for the cut-over. -/
def Course.mendAt (c : Course) (pos : Nat) : Option Mend := c.mends.find? fun m => m.pos == pos

/-- A unit on a die whose pages are to be sensed for read-back (R132, R172). -/
def verifyPlace (s : State) (d : Nat) : Option BgSense :=
  s.med.courses.findSome? fun e => match e.2 with
    | none => none
    | some c =>
      match (List.range 16).find? fun p => (c.mendAt p).isNone && !c.slabs.isEmpty && verifyWaits s (c.unit p) (c.slabs.getD p 0) d with
      | some p => some (.verify e.1 p)
      | none => (c.mends.find? fun m => verifyWaits s m.unit m.slab d).map fun m => .mendVerify e.1 m.pos

/-- Reads of the device that use the write floor and are issued to a die only when its read sequence is empty (R131, R150). -/
def DevUse.background (u : DevUse) : Bool :=
  match u with
  | .merge _ | .ladder _ _ => false
  | _ => true

/-- A page on a die that a copy read is still to sense. -/
def copyPlace (s : State) (d : Nat) : Option BgSense :=
  s.fl.devs.findSome? fun e => match e.2 with
    | some r => if r.use.background then
        (r.parts.zipIdx.find? fun y => y.1.die == d && y.1.sensed.isNone && !y.1.decoded && y.1.ladder.step == 0).map
          fun y => .copy e.1 y.2
        else none
    | none => none

/-- What a die with an empty read sequence senses for the device: read-back first. -/
def bgPlace (s : State) (d : Nat) : Option BgSense := (verifyPlace s d).orElse fun _ => copyPlace s d

/-- Whether the course of a program waits for a mend (R157 step 2). -/
def progStopped (s : State) (t : ProgTarget) : Bool :=
  match t with
  | .unit c _ _ => ((getCourse s c).map fun x => !x.mends.isEmpty).getD false
  | _ => false

/-- The slab and the row that a program writes. -/
def progSlab (s : State) (t : ProgTarget) : Option (Nat × Nat) :=
  match t with
  | .unit c p r => (getCourse s c).map fun x => (x.slabs.getD p 0, r)
  | .mend c p r => ((getCourse s c).bind (·.mendAt p)).map fun m => (m.slab, r)
  | .journal => none

/-- A program goes to the die as one multi-plane operation, with the place of each of its pages (R166, R167). -/
def tellProgram (s : State) (d : Nat) (t : ProgTarget) : State :=
  match progSlab s t with
  | some (a, r) => emit s (.program d a (unitPlanes s r) ((List.range (unitPages s r)).map (pageSpot s r)))
  | none => s

/-- Launch an erase, or the first program that may start. Reads planned around a program that may not start any more are
served without it. -/
def launchOp (s : State) (d : Nat) : State :=
  let x := getDie s d
  let prog := x.progs.find? fun p => !progStopped s p.1
  let start := fun (p : ProgTarget × Nat) => { x with
    st := .programming, target := some p.1, run := 0, runTotal := 0, suspends := 0, susSent := false, aged := false
    progs := x.progs.erase p }
  let go := fun (y : Die) => spendCycle (setDie s d y) (dieChan d)
  match x.aged, prog, x.erases with
  | true, some p, _ => tellProgram (go (start p)) d p.1
  | _, _, a :: l => go { x with
      st := .erasing, erasing := true, slab := a, run := 0, runTotal := 0, suspends := 0, susSent := false, erases := l }
  | _, some p, [] => tellProgram (go (start p)) d p.1
  | _, none, [] => if x.winSeq.isEmpty then s else setDie s d { x.opEnd with aged := false }

/-- A die in service whose domain has power. -/
def dieServes (s : State) (d : Nat) : Bool :=
  let x := getDie s d
  let st := (getDom s (fcDom (dieChan d))).st
  x.present && !x.lost && !x.resetting && (st == .on || st == .draining)

/-- The planned steps of a die in strike n: reads, suspends and resumes (R29), each in a command cycle. On a rest strike no
operation resumes (R370). A suspend waits until the operation has run for RUN_MIN (R32). -/
def plannedStep (s : State) (n d : Nat) : State :=
  let x := getDie s d
  let c := dieChan d
  if !dieServes s d || !cycleLeft s c then s
  else match x.st with
    | .suspended =>
      let w := x.wins.headD { sus := 0, ready := 0, reads := 0, sd := 0 }
      if x.served < w.reads then
        match x.winSeq with
        | p :: _ => if x.sensing.isNone && decide (p.si ≤ n) then issueSense s d n p true else s
        | [] => s
      else if x.sensing.isNone && !rests s c n then
        spendCycle (setDie s d { x with
          st := if x.erasing then .erasing else .programming, run := 0, wins := x.wins.tail, served := 0 }) c
      else s
    | .programming | .erasing =>
      match x.wins with
      | w :: l => if !x.susSent && decide (w.sus ≤ n) && decide (runMinQ s ≤ x.run) then
          spendCycle (setDie s d { x with
            susSent := true, wins := { w with ready := max w.ready (n + qStrikes s (suspendQ s x.erasing)) } :: l }) c
        else s
      | [] => s
    | .idle | .reading =>
      if x.sensing.isSome || x.bg.isSome then s
      else match x.seq with
        | p :: _ => if p.si ≤ n then issueSense s d n p false else s
        | [] => s

/-- The launches of a die in strike n, when its read sequence is empty (R29). None takes place on a rest strike (R370), nor
while the domain is off or draining on the manager's order (Table 14.6). Read-back and copy senses are device reads, which
stand at the end of the read sequence (R131, R150, R172). -/
def launchStep (s : State) (n d : Nat) : State :=
  let x := (getDie s d).refill
  let s1 := setDie s d x
  let c := dieChan d
  let idle := (x.st == .idle || x.st == .reading) && x.free && !x.busyOp
  if !dieServes s d || !cycleLeft s c || !idle || rests s c n || mgrOff s (fcDom c) then s1
  else match bgPlace s1 d with
    | some v => spendCycle (setDie s1 d { x with bg := some v, tailSd := n + senseStrikes s }) c
    | none => launchOp s1 d

/-- Whether the present step of a die is predicted to have ended by strike n (R195). -/
def pollDue (s : State) (x : Die) (n : Nat) : Bool :=
  x.present && !x.lost && !x.resetting
    && (if x.susSent then (x.wins.head?.map fun w => decide (w.ready ≤ n)).getD true
        else match x.sensing with
          | some p => decide (p.sd ≤ n)
          | none =>
            if x.bg.isSome then decide (x.tailSd ≤ n)
            else (x.st == .programming || x.st == .erasing) && decide (longQ s x.erasing ≤ x.runTotal))

/-- The status polls of a channel in strike n: the dies whose step is predicted to have ended, in rotation, one in each
command cycle that is left (R195). -/
def pollChannel (s : State) (n c : Nat) : State :=
  let x := getChan s c
  let due := (List.range 32).map (fun i => 32 * c + (x.lastPoll + 1 + i) % 32) |>.filter fun d => pollDue s (getDie s d) n
  let now := due.take (commandCycles - x.cyc)
  let s1 := (List.range 32).foldl (fun t i =>
    let d := 32 * c + i
    let y := getDie t d
    if y.polled == now.contains d then t else setDie t d { y with polled := now.contains d }) s
  setChan s1 c { getChan s1 c with cyc := x.cyc + now.length, lastPoll := (now.getLast?.getD (32 * c + x.lastPoll)) % 32 }

/-- Time that the running operations have run, one strike on (R29). -/
def runTimes (s : State) : State :=
  s.fl.dies.foldl (fun t e =>
    let x := e.2
    if x.st = .programming ∨ x.st = .erasing then
      setDie t e.1 { x with run := x.run + perQ s, runTotal := x.runTotal + perQ s }
    else t) s

/-- Every die, starting at die n mod 2,048 (R29): a channel spends its command cycles on the planned steps first, then on
launches, then on status polls (R195). -/
def dieSteps (s : State) (n : Nat) : State :=
  let ds := s.fl.dies.map (·.1)
  let k := n % 2048
  let l := ds.filter (k ≤ ·) ++ ds.filter (· < k)
  let s1 := { s with fl := { s.fl with chans := Tbl.mapAll chan0 s.fl.chans fun _ x => { x with cyc := 0 } } }
  let s2 := l.foldl (fun t d => plannedStep t n d) s1
  let s3 := l.foldl (fun t d => launchStep t n d) s2
  (List.range 64).foldl (fun t c => pollChannel t n c) s3

/-! ## Bursts of a channel (R28, R171, R172, R201, R456) -/

/-- The admitted reads, in the order of their admissions, and behind them the reads of the device that were planned with
D = 0. -/
def readOrder (s : State) : List Reader :=
  let adm := fun (r : Nat) => (((getReq s r).bind (·.read)).map (·.adm)).getD 0
  (sortBy adm ((s.ord.reqs.filter fun e => (e.2.bind (·.read)).isSome).map (·.1))).map Reader.order
    ++ (s.fl.devs.filter fun e => e.2.any fun d => !d.use.background).map fun e => Reader.device e.1

/-- The parts of some readers on a channel that have bursts to move. -/
def partsOn (s : State) (c : Nat) (l : List Reader) : List (Reader × Nat × RdPart) :=
  l.flatMap fun r => ((readerParts s r).zipIdx.filter fun y => dieChan y.1.die == c && decide (y.1.moved < y.1.need)).map
    fun y => (r, y.2, y.1)

/-- The parts of planned reads on a channel, in admission order. -/
def channelParts (s : State) (c : Nat) : List (Reader × Nat × RdPart) := partsOn s c (readOrder s)

/-- Bursts that a part has reserved in a strike, and in later ones. -/
def RdPart.at_ (x : RdPart) (n : Nat) : Nat := x.bursts.foldl (fun k e => if e.1 = n then k + e.2 else k) 0
def RdPart.after (x : RdPart) (n : Nat) : Nat := x.bursts.foldl (fun k e => if n < e.1 then k + e.2 else k) 0

/-- Move the reserved bursts of a strike; those of data that is not ready lapse (R456). -/
def reservedBursts (s : State) (c n : Nat) : State :=
  (channelParts s c).foldl (fun t e =>
    if e.2.2.sensed.isSome then updPart t e.1 e.2.1 fun x => { x with moved := min x.need (x.moved + x.at_ n) } else t) s

/-- Bursts that a part may take beyond its reservations: those that a delayed read has lost (R456), and in the write floor
also those that a direct read due in the strike has reserved for later (R28). -/
def RdPart.asks (x : RdPart) (n : Nat) (floor : Bool) : Nat :=
  if x.sensed.isNone then 0
  else if floor ∧ x.companion = false ∧ x.at_ n ≠ 0 then x.need - x.moved
  else x.need - x.moved - x.after n

/-- Reads take unreserved bursts in admission order, companions only within A. The room and the room for companions go in and
come out. -/
def extraBursts (s : State) (c n room ra : Nat) (floor : Bool) : State × Nat × Nat :=
  (channelParts s c).foldl (fun (p : State × Nat × Nat) e =>
    let x := e.2.2
    let k := min (x.asks n floor) (if x.companion then min p.2.1 p.2.2 else p.2.1)
    if k = 0 then p
    else (updPart p.1 e.1 e.2.1 fun y => { y with moved := y.moved + k }, p.2.1 - k,
      if x.companion then p.2.2 - k else p.2.2)) (s, room, ra)

/-- The bursts of a strike that no read has reserved: delayed reads take those of the read share first; then the reads due in
the strike and the delayed ones take what write-path transfers leave of the floor (R28, R456). What is left of the floor
comes back. -/
def delayedBursts (s : State) (c n share floor ra : Nat) : State × Nat :=
  let r := extraBursts s c n share ra false
  let q := extraBursts r.1 c n floor r.2.2 true
  (q.1, q.2.1)

/-- Pages whose segments are all in the set, so that their bursts may go (R171): all pages of a course without a set. -/
def pagesIn (s : State) (c : Course) (u : UnitEntry) : Nat :=
  if c.kind == .zone || c.kind == .conv then
    ((List.range (unitPages s u.row)).takeWhile fun q => (u.bitmap >>> (4 * q)) &&& 0xF == 0xF).length
  else unitPages s u.row

/-- Whether the data-in of a position may go on. -/
def dataInOpen (c : Course) (p : Nat) : Bool :=
  let u := c.unit p
  c.mends.isEmpty && (u.st == .sending
    || (u.st == .none && decide (c.doneAt p < c.sent) && c.keyLeft == 0 && !(c.kind == .zone || c.kind == .conv)))

/-- Data-in of a unit to a die, for pages that may go, by so many bursts at most: the bursts used. The program is queued when
its data-in is complete (R29). -/
def sendUnit (s : State) (d : Nat) (u : UnitEntry) (pages : Nat) (t : ProgTarget) (n room : Nat) : State × UnitEntry × Nat :=
  let pb := 4 * cwBursts s (dieChan d)
  let k := min room (pages * pb - u.moved)
  let x := getDie s d
  if k = 0 ∨ 32 ≤ dieQueue x then (s, u, 0)
  else
    (if u.moved + k = unitPages s u.row * pb then setDie s d { x with progs := x.progs ++ [(t, n)] } else s,
      { u with moved := u.moved + k }, k)

/-- Read-back bursts of a unit on a channel (R172). -/
def backUnit (s : State) (c : Nat) (u : UnitEntry) (room : Nat) : UnitEntry × Nat :=
  let k := if u.st = .programmed then min room (u.sensed * (4 * cwBursts s c) - u.moved) else 0
  ({ u with moved := u.moved + k }, k)

/-- Data-in of one position. -/
def dataIn (s : State) (id p n room : Nat) : State × Nat :=
  match getCourse s id with
  | none => (s, 0)
  | some c =>
    let d := slabDie (c.slabs.getD p 0)
    let u0 := c.unit p
    let u := if u0.st = .none then { u0 with row := c.doneAt p, bitmap := 0, st := .sending, moved := 0, sensed := 0 } else u0
    let r := sendUnit s d u (pagesIn s c u) (.unit id p u.row) n room
    if r.2.2 = 0 then (s, 0) else (setCourse r.1 id (some (c.setUnit p r.2.1)), r.2.2)

/-- Read-back bursts of one position (R172). -/
def readBack (s : State) (id p room : Nat) : State × Nat :=
  match getCourse s id with
  | none => (s, 0)
  | some c =>
    let r := backUnit s (slabChan (c.slabs.getD p 0)) (c.unit p) room
    if (c.mendAt p).isNone ∧ r.2 ≠ 0 then (setCourse s id (some (c.setUnit p r.1)), r.2) else (s, 0)

/-- Change a mend of a course. -/
def updMend (s : State) (id pos : Nat) (f : Mend → Mend) : State :=
  updCourse s id fun c => { c with mends := c.mends.map fun m => if m.pos = pos then f m else m }

/-- Bursts of a mend: data-in to the new slab, or its read-back (R132). -/
def mendBursts (s : State) (id n room : Nat) (m : Mend) : State × Nat :=
  if m.unit.st = .sending then
    let r := sendUnit s (slabDie m.slab) m.unit (unitPages s m.unit.row) (.mend id m.pos m.unit.row) n room
    (updMend r.1 id m.pos fun x => { x with unit := r.2.1 }, r.2.2)
  else
    let r := backUnit s (slabChan m.slab) m.unit room
    (updMend s id m.pos fun x => { x with unit := r.1 }, r.2)

/-- Write-path transfers of a channel within a room: the room that is left. -/
def writePath (s : State) (c n room : Nat) : State × Nat :=
  s.med.courses.foldl (fun p e => match e.2 with
    | none => p
    | some k => (List.range 16).foldl (fun (r : State × Nat) pos =>
        if slabChan (k.slabs.getD pos 0) == c && !k.slabs.isEmpty && r.2 != 0 then
          let g := if dataInOpen k pos then dataIn r.1 e.1 pos n r.2 else readBack r.1 e.1 pos r.2
          (g.1, r.2 - g.2)
        else r) (k.mends.foldl (fun (r : State × Nat) m =>
        if slabChan m.slab == c && r.2 != 0 then
          let g := mendBursts r.1 e.1 n r.2 m
          (g.1, r.2 - g.2)
        else r) p)) (s, room)

/-- Bursts of copy reads on a channel, within what data-in and read-back leave of the floor (R131, R150, R152). -/
def copyBursts (s : State) (c room : Nat) : State × Nat :=
  let l := (s.fl.devs.filter fun e => e.2.any fun d => d.use.background).map fun e => Reader.device e.1
  (partsOn s c l).foldl (fun (p : State × Nat) e =>
    let k := if e.2.2.sensed.isSome then min p.2 (e.2.2.need - e.2.2.moved) else 0
    if k = 0 then p else (updPart p.1 e.1 e.2.1 fun y => { y with moved := y.moved + k }, p.2 - k)) (s, room)

/-- A step of a re-centre: a command cycle that polls have left and one burst of the write floor, on an idle die with an
empty read sequence (R195, R201). -/
def recentreStep (s : State) (c room : Nat) : State × Nat :=
  let x := getChan s c
  let idle := s.fl.dies.any fun e => dieChan e.1 == c && e.2.present && e.2.st == .idle && e.2.seq.isEmpty
  if 1 < x.recentre ∧ room ≠ 0 ∧ idle = true ∧ x.cyc < commandCycles then
    (setChan s c { x with recentre := x.recentre - 1, cyc := x.cyc + 1 }, room - 1)
  else (s, room)

/-- A die with nothing queued, planned or running. -/
def Die.quiet (x : Die) : Bool :=
  x.st == .idle && x.target.isNone && !x.erasing && x.seq.isEmpty && x.winSeq.isEmpty && x.sensing.isNone && x.bg.isNone
    && !x.resetting

/-- No die operation of a channel in flight, and no entry of its calendar from now on. -/
def channelQuiet (s : State) (c : Nat) : Bool :=
  ((List.range 32).all fun i => (getDie s (32 * c + i)).quiet) && !((getChan s c).cal.any fun e => decide (s.tb.count ≤ e.1))

/-- A channel is idle: quiet, with no operation queued at a die. -/
def channelIdle (s : State) (c : Nat) : Bool :=
  channelQuiet s c && ((List.range 32).all fun i => let x := getDie s (32 * c + i); x.erases.isEmpty && x.eraseWait.isEmpty && x.progs.isEmpty)
    && (getChan s c).recentre == 0

/-- Whether the write path has bursts to move on a channel (R171, R172). -/
def wantsBursts (s : State) (c : Nat) : Bool :=
  s.med.courses.any fun e => match e.2 with
    | none => false
    | some k => ((List.range 16).any fun p =>
        let u := k.unit p
        let pb := 4 * cwBursts s c
        slabChan (k.slabs.getD p 0) == c && !k.slabs.isEmpty
          && (if dataInOpen k p then u.st == .none || decide (u.moved < pagesIn s k u * pb)
              else u.st == .programmed && decide (u.moved < u.sensed * pb)))
      || (k.mends.any fun m => slabChan m.slab == c
          && (m.unit.st == .sending || (m.unit.st == .programmed && decide (m.unit.moved < m.unit.sensed * (4 * cwBursts s c)))))

/-- Whether a copy read waits for a die of a channel, or for its bursts. -/
def wantsCopies (s : State) (c : Nat) : Bool :=
  s.fl.devs.any fun e => e.2.any fun d => d.use.background && d.parts.any fun x => dieChan x.die == c && !x.decoded

/-- Die operations, read-backs and write-path transfers are work that reaches their FC domain (R338, Table 14.5). -/
def reachChannel (s : State) (c : Nat) : State :=
  let st := (getDom s (fcDom c)).st
  if (st == .autoOff || (st == .draining && !mgrOff s (fcDom c))) && (!channelIdle s c || wantsBursts s c || wantsCopies s c) then
    useDomain s (fcDom c) else s

/-- The bursts of one channel in strike n (R28): reservations, a re-centre step, write-path transfers within the floor, copy
reads with what these leave of it, then delayed reads. -/
def channelStrike (s : State) (c n : Nat) : State :=
  let x := getChan s c
  let dom := (getDom s (fcDom c)).st
  if (x.st != .ready && x.st != .draining) || (dom != .on && dom != .draining) then s
  else
    let b := burstsOf (perQ s)
    let used := Tbl.get nat0 x.cal n
    let s1 := reservedBursts s c n
    let floor := min (writeFloor s b) (b - used)
    let r := recentreStep s1 c floor
    let w := if rests s c n || mgrOff s (fcDom c) then r else
      let g := writePath r.1 c n r.2
      copyBursts g.1 c g.2
    let spare := b - used - floor
    let d := delayedBursts w.1 c n spare w.2 (aroundShare s b - Tbl.get nat0 x.calRa n)
    let y := getChan d.1 c
    setChan d.1 c { y with cal := y.cal.drop fun k _ => decide (k ≤ n), calRa := y.calRa.drop fun k _ => decide (k ≤ n) }

/-- Every channel. -/
def channelStrikes (s : State) (n : Nat) : State :=
  (List.range 64).foldl (fun t c => channelStrike (reachChannel t c) c n) s

/-! ## Parity engines (R170, R171, R186) -/

/-- Bits set in a bitmap. -/
def bitCount (w : W64) : Nat := ((List.range 64).filter fun i => w.getLsbD i).length

/-- The lowest k of n bits set. -/
def lowBits (k : Nat) : W64 := BitVec.ofNat 64 (2 ^ k - 1)

/-- Segments that a position asks for: XOR-out of a verified unit, or XOR-in of the next one (R171). -/
def unitDemand (s : State) (c : Course) (p : Nat) : Nat :=
  let u := c.unit p
  match u.st with
  | .verifying => bitCount u.bitmap
  | .sending => if c.mends.isEmpty then 4 * unitPages s u.row - bitCount u.bitmap else 0
  | .none => if c.mends.isEmpty && c.keyLeft == 0 && decide (c.doneAt p < c.sent) then 4 * unitPages s (c.doneAt p) else 0
  | .programmed => 0

/-- Work k segments at a position: the accumulators, and the bits of the descriptor (R169, R171). -/
def unitWork (s : State) (id p k : Nat) : State :=
  match getCourse s id with
  | none => s
  | some c =>
    let u := c.unit p
    let work := fun (v : UnitEntry) (from_ : Nat) (w : W64) =>
      setCourse (xorSegments s (c.set.getD 0) id c v.row p from_ k) id (some (c.setUnit p { v with bitmap := w }))
    match u.st with
    | .verifying =>
      let full := 4 * unitPages s u.row
      let left := bitCount u.bitmap
      work u (full - left) (lowBits full &&& ~~~lowBits (full - (left - k)))
    | .sending => work u (bitCount u.bitmap) (lowBits (bitCount u.bitmap + k))
    | .none => if k = 0 then s
        else work { row := c.doneAt p, bitmap := 0, st := .sending, moved := 0, sensed := 0 } 0 (lowBits k)
    | .programmed => s

/-- Work k segments of the Keystone of a course's last row; a page is in the write buffer when its 60 are done (R177). -/
def keystoneWork (s : State) (id k : Nat) : State :=
  match getCourse s id with
  | none => s
  | some c =>
    let r := c.sent - 1
    let did := 60 * unitPages s r - c.keyLeft
    let s1 := setCourse s id (some { c with keyLeft := c.keyLeft - k })
    ((List.range (unitPages s r)).filter fun i => decide (did / 60 ≤ i) && decide (i < (did + k) / 60)).foldl
      (fun t i => makeKeystone t id c (rowStart s r + i)) s1

/-- A course's parity work within a budget, Keystone first: what is left of it, and whether work is left. -/
def courseParity (s : State) (id budget : Nat) : State × Nat × Bool :=
  match getCourse s id with
  | none => (s, budget, false)
  | some c =>
    let k := min c.keyLeft budget
    (List.range 16).foldl (fun (p : State × Nat × Bool) pos =>
      let want := ((getCourse p.1 id).map fun x => unitDemand s x pos).getD 0
      let g := min want p.2.1
      (unitWork p.1 id pos g, p.2.1 - g, p.2.2 || decide (g < want))) (keystoneWork s id k, budget - k, decide (k < c.keyLeft))

/-- The engine that serves what has no home of its own (log entry 58): the first from a number on that the manager leaves on. -/
def engineFor (s : State) (k : Nat) : Nat :=
  (((List.range 8).map fun i => (k + i) % 8).find? fun e => !mgrOff s (pxDom e)).getD (k % 8)

/-- The courses whose write-path parity runs on an engine: by the home of their set (R175); a collection course has none, and
its Keystone runs on the engine of its own number (R176, R177). -/
def engineCourses (s : State) (e : Nat) : List Nat :=
  (s.med.courses.filter fun x => match x.2 with
    | some c => (c.set.map (· % 8)) == some e || (c.kind == .collect && c.keyLeft != 0 && engineFor s x.1 == e)
    | none => false).map (·.1)

/-- Rebuilds of an engine within a budget, in arrival order: what is left of it. -/
def spendRebuilds (s : State) (e budget : Nat) (p : RebuildOf → Bool) : State × Nat :=
  let r := s.fl.rebuilds.foldl (fun (r : List Rebuild × Nat) x =>
    if x.engine == e && p x.what then (r.1 ++ [{ x with left := x.left - r.2 }], r.2 - x.left) else (r.1 ++ [x], r.2)) ([], budget)
  ({ s with fl := { s.fl with rebuilds := r.1 } }, r.2)

/-- Rebuilds of ladder step 4. -/
def RebuildOf.urgent (r : RebuildOf) : Bool :=
  match r with
  | .ladder _ _ => true
  | .mend _ _ _ _ => false

/-- Keystone of the migration destinations of an engine within a budget (R131, R186): what is left of it. -/
def spendDests (s : State) (e budget : Nat) : State × Nat :=
  (s.med.courses.filter fun x => match x.2 with
    | some c => c.kind == .dest && c.keyLeft != 0 && engineFor s x.1 == e
    | none => false).foldl (fun (p : State × Nat) x =>
      let k := min p.2 ((x.2.map (·.keyLeft)).getD 0)
      (keystoneWork p.1 x.1 k, p.2 - k)) (s, budget)

/-- Whether an engine has work that is not the write path's. -/
def engineAsked (s : State) (e : Nat) : Bool :=
  (s.fl.rebuilds.any fun x => x.engine == e && x.left != 0)
    || s.med.courses.any fun x => x.2.any fun c => c.kind == .dest && c.keyLeft != 0 && engineFor s x.1 == e

/-- The work of one engine in strike n (R186): the write path up to the floor and beyond it with what reads have not reserved;
then, with the segments that are left, the rebuilds of ladder step 4, and at most BG_MAX for mends and migrations. The
flag says that write-path work was deferred (R187). -/
def engineStrike (s : State) (e n : Nat) : State × Bool :=
  let grant := grantOf (32000 * perQ s) 16384 s.tb.sinceSet
  let floor := min grant (rd s R.STK_RA_CTRL_PX_FLOOR)
  let budget := if domServes s (pxDom e) then floor + (grant - floor - Tbl.get nat0 s.fl.engines (pxKey e n)) else 0
  let r := (engineCourses s e).foldl (fun (p : State × Nat × Bool) id =>
    let g := courseParity p.1 id p.2.1
    (g.1, g.2.1, p.2.2 || g.2.2)) (s, budget, false)
  let l := spendRebuilds r.1 e r.2.1 (·.urgent)
  let m := spendRebuilds l.1 e (min l.2 (min 8 (rdForce s R.MED_PAR_CTRL_BG_MAX))) (!·.urgent)
  let k := spendDests m.1 e m.2
  (if r.2.1 < budget || r.2.2 || engineAsked s e then useDomain k.1 (pxDom e) else k.1, r.2.2)

/-- All engines; a strike in which any deferred work counts once (R187). Past reservations go. -/
def parityStrikes (s : State) (n : Nat) : State :=
  let r := (List.range 8).foldl (fun (p : State × Bool) e =>
    let g := engineStrike p.1 e n
    (g.1, p.2 || g.2)) (s, false)
  let s1 := if r.2 then bump r.1 R.MED_PAR_DEFER_CNT_DEFER else r.1
  { s1 with fl := { s1.fl with engines := s1.fl.engines.drop fun k _ => decide (k % 2 ^ 64 ≤ n) } }

/-! ## Rows (R168, R170, R174, R175) -/

/-- The lowest free set number whose home engine may take it (R175). -/
def freeSet (s : State) : Option Nat :=
  (List.range 4096).find? fun n => (Tbl.get Tbl.absent s.med.sets n).isNone && !mgrOff s (pxDom (n % 8))

/-- Whether a course has a data-in in progress. -/
def sendingRow (c : Course) : Bool := (List.range 16).any fun p => (c.unit p).st == .sending || decide (c.doneAt p < c.sent)

/-- A set moves into the Crucible when a place is free, or is held for a course without data-in (R174). -/
def makeResident (s : State) (n : Nat) : State :=
  let cap := min 128 (rd s R.MED_PAR_CTRL_CRU_SETS)
  let idle := fun (m : Nat) => match (Tbl.get Tbl.absent s.med.sets m).bind (getCourse s) with
    | some c => !sendingRow c
    | none => true
  if s.med.resident.contains n then s
  else if s.med.resident.length < cap then { s with med := { s.med with resident := s.med.resident ++ [n] } }
  else match s.med.resident.find? idle with
    | some m => if cap = 0 then s
        else { s with med := { s.med with resident := s.med.resident.filter (· != m) ++ [n] } }
    | none => s

/-- Whether a row's data-in may begin: it is complete, the Keystone of the row before is done, the course is not mending,
and its set is there or can be taken (R168, R170). -/
def rowReady (s : State) (c : Course) : Bool :=
  decide (c.sent < rowsReady s c) && c.keyLeft == 0 && c.mends.isEmpty
    && (match c.kind with
        | .zone | .conv => c.set.isSome || (freeSet s).isSome
        | _ => true)

/-- ROW_DATA_IN_START: the set, the Keystone of a Bedrock row (60 segments for each stripe, Table 7.3), the data-in. -/
def startRow (s : State) (id : Nat) (c : Course) : State :=
  match c.kind with
  | .zone | .conv =>
    let n := match c.set with
      | some k => k
      | none => (freeSet s).getD 0
    let s1 := setCourse s id (some { c with
      set := some n, sent := c.sent + 1, keyLeft := if c.bedrock then 60 * unitPages s c.sent else 0 })
    makeResident { s1 with med := { s1.med with sets := Tbl.set Tbl.absent s1.med.sets n (some id) } } n
  | _ => setCourse s id (some { c with sent := c.sent + 1, keyLeft := if c.bedrock then 60 * unitPages s c.sent else 0 })

/-- ROW_DATA_IN_START (R168). -/
def execRowDataInStart (course : Nat) (s : State) : Answer :=
  match getCourse s course with
  | some c => stepIf s (rowReady s c && strikesRun s) (startRow s course c)
  | none => .next s

end Sys2Proof.Machine
end

