-- ==== Sys2Proof/Machine/Mends.lean ====
section
/-! DEFINITION. The reads of the device itself (D = 0), and what they serve: merging (R146), collection (R150, R158),
migration (R131), mends (R132, R157), and wear levelling (R154 to R156), with the rules for failing slabs (R161). -/

namespace Sys2Proof.Machine

/-! ## Reads of the device -/

/-- The codewords of a page of a course that a read takes from flash: none of a page that a buffer serves. -/
def pageCws (s : State) (id page : Nat) : List Cw :=
  ((List.range 4).map fun k => { course := id, page := page, cw := k : Cw }).filter fun x => !placeBuffered s x

/-- Enter a read of the device. -/
def openDev (s : State) (d : DevRead) : State :=
  let s1 := setDev s s.fl.nextDev (some d)
  { s1 with fl := { s1.fl with nextDev := s.fl.nextDev + 1 } }

/-- A codeword that a copy read takes when its die's read sequence is empty; on a lost die it starts at step 4 of the ladder. -/
def copyPart (s : State) (x : Cw) : RdPart :=
  let a := cwSlab s x
  if (getDie s (slabDie a)).lost then restPart s x s.tb.count s.tb.count 4
  else { restPart s x 0 0 0 with need := cwBursts s (slabChan a), sensed := none }

/-- A copy read of one page (R131, R150). -/
def copyPage (s : State) (use : DevUse) (id page : Nat) : State :=
  openDev s { use := use, course := id, page := page, parts := (pageCws s id page).map (copyPart s), unrec := false }

/-- Plan a read of some codewords of a page with D = 0, as the order's reads are planned (R146, R162): none while the calendar
has no room. -/
def planPage (s : State) (use : DevUse) (id page : Nat) (l : List Cw) : Option State :=
  let who := Reader.device s.fl.nextDev
  (l.foldl (fun r x => match r with
    | none => none
    | some (t, ps) => (planDirect t t.tb.count who ps.length x ps.getLast?).map fun p => (p.s, ps ++ p.parts))
    (some (s, ([] : List RdPart)))).map fun p =>
      openDev p.1 { use := use, course := id, page := page, parts := p.2, unrec := false }

/-- Every codeword of a read is in, or is not recovered. -/
def DevRead.finished (d : DevRead) : Bool := d.parts.all (·.decoded)

/-- The reads of a use, with their numbers. -/
def devsOf (s : State) (use : DevUse) : List (Nat × DevRead) :=
  s.fl.devs.filterMap fun e => match e.2 with
    | some d => if d.use == use then some (e.1, d) else none
    | none => none

/-- Remove the reads of a use. -/
def endDevs (s : State) (use : DevUse) : State := dropDevs s (· == use) fun _ => false

/-- Reads of the device whose purpose is gone end. -/
def pruneDevs (s : State) : State :=
  let live := fun (u : DevUse) => match u with
    | .merge r => ((getReq s r).map (·.phase)) == some .merging
    | .ladder w i => (((readerParts s w)[i]?).map fun x => x.ladder.step == 4 && !x.decoded).getD false
    | .collect n d => ((getDomain s n d).bind (·.run)).isSome
    | .recopy n d => (getDomain s n d).isSome
    | .migrate c | .mend c _ | .mendStripe c _ => (getCourse s c).isSome
  dropDevs s (fun u => !live u) fun x => match x with
    | .ladder w i => !live (.ladder w i)
    | .mend c _ _ _ => (getCourse s c).isNone

/-! ## Merging (R146) -/

/-- The reads of a merge start; when all are in, the write is placed. -/
def mergeStep (s : State) (rid : Nat) : State :=
  match getReq s rid with
  | none => s
  | some q => match q.write, q.write.bind (fun w => getNs s w.nsid) with
    | some w, some n =>
      if q.phase != .merging then s
      else
        let l := devsOf s (.merge rid)
        let go := fun (t : State) =>
          tryPlace (updReq t rid fun r => { r with phase := .placed, write := some { w with merged := true } }) rid
        if !l.isEmpty then (if l.all (·.2.finished) then go (endDevs s (.merge rid)) else s)
        else
          let cws := restCws s n w
          let pages := (cws.map fun x => (x.course, x.page)).eraseDups
          if pages.isEmpty then go s
          else (pages.foldl (fun r p => r.bind fun t =>
            planPage t (.merge rid) p.1 p.2 (cws.filter fun x => x.course == p.1 && x.page == p.2)) (some s)).getD s
    | _, _ => s

/-- Every write that waits for its merge. -/
def mergeStrike (s : State) : State := (s.ord.reqs.map (·.1)).foldl mergeStep s

/-! ## Collection (R150, R152, R158) -/

/-- Stripes of a course that hold data. -/
def usedStripes (c : Course) : Nat := ceilDiv (ceilDiv c.fill 16384) (stripePages c.bedrock)

/-- The data pages of a stripe of a course, as page positions. -/
def stripeData (c : Course) (stripe : Nat) : List Nat :=
  ((List.range 16).filter fun p => match pageIndex c.bedrock stripe p with
    | some i => decide (i * 16384 < c.fill)
    | none => false).map fun p => stripe * 16 + p

/-- The positions of the units in a page of a conventional course. -/
def pageUnits (n : Namespace) (c : Course) (page : Nat) : List Nat :=
  match pageIndex c.bedrock (page / 16) (page % 16) with
  | some i => (List.range (16384 / n.iuBytes)).map fun k => i * (16384 / n.iuBytes) + k
  | none => []

/-- The unit that the reverse record of a position names, if the map still points there (R150 steps 1 and 2). -/
def validAt (s : State) (nsid course pos : Nat) : Option Nat :=
  match Tbl.get nat0 s.med.rev (placeKey course pos) with
  | 0 => none
  | u + 1 => if unitAt s nsid u = some { course := course, pos := pos } then some u else none

/-- Copy the valid units of a page that has been read; the flag says that none is left over for want of a course. -/
def takePage (s : State) (n : Namespace) (nsid dom : Nat) (d : DevRead) : State × Bool :=
  match getCourse s d.course with
  | none => (s, true)
  | some c => (pageUnits n c d.page).foldl (fun (p : State × Bool) pos =>
      match p.2, validAt p.1 nsid d.course pos with
      | true, some u =>
        let copied := (((getDomain p.1 nsid dom).bind (·.run)).map fun r =>
          r.copies.any fun x => x.src == { course := d.course, pos := pos }).getD false
        if copied then p else copyUnit p.1 n nsid dom u pos
      | _, _ => p) (s, true)

/-- A domain's collection in one strike: the pages that have been read are copied, the next stripe is read when all of the last
one are in, and at the end the last partial row of the collection course is padded (R150, R168, log entry 19). -/
def collectStep (s : State) (nsid dom : Nat) : State :=
  match getNs s nsid, getDomain s nsid dom with
  | some n, some d => match d.run with
    | none => s
    | some r => match getCourse s r.victim with
      | none => s
      | some c =>
        let l := devsOf s (.collect nsid dom)
        if !l.isEmpty then
          (l.filter (·.2.finished)).foldl (fun t e =>
            let g := takePage t n nsid dom e.2
            if g.2 then setDev g.1 e.1 none else g.1) s
        else if r.stripe < usedStripes c then
          (stripeData c r.stripe).foldl (fun t p => copyPage t (.collect nsid dom) r.victim p)
            (setDomain s nsid dom (some { d with run := some { r with stripe := r.stripe + 1 } }))
        else if (validUnits s nsid r.victim).any fun u => !(r.copies.any fun x => x.src == { course := r.victim, pos := u.2 }) then
          setDomain s nsid dom (some { d with run := some { r with stripe := 0 } })
        else match d.dest with
          | some k => if r.copies.isEmpty then s else padRow s k
          | none => s
  | _, _ => s

/-- Whether a position of a conventional course lies in the rows that a failed slab took with it. -/
def inHole (s : State) (n : Namespace) (c : Course) (h : Nat × Nat × Option Nat) (pos : Nat) : Bool :=
  let p := pagePlace c.bedrock (pos * n.iuBytes / 16384)
  p.2 == h.1 && decide (rowOf s p.1 < h.2.1)

/-- A unit that stood in a failed slab has been read again, and moves to the next wordlines of the collection course; its entry
changes as that of a copy does (R158 step 3). -/
def replaceUnit (s : State) (n : Namespace) (nsid dom : Nat) (u : Nat) (src : UnitAt) : Option State :=
  (collectUnit s n nsid dom u src).map fun p =>
    match getDomain p.1 nsid dom with
    | none => p.1
    | some d => match d.run with
      | some r => setDomain p.1 nsid dom (some { d with run := some { r with
          copies := r.copies ++ [{ unit := u, src := src, dest := p.2, mapped := false }] } })
      | none => setUnitAt p.1 nsid u (some p.2)

/-- Pages read again out of a failed slab. -/
def recopyStep (s : State) (nsid dom : Nat) : State :=
  match getNs s nsid with
  | none => s
  | some n => ((devsOf s (.recopy nsid dom)).filter (·.2.finished)).foldl (fun t e =>
      match getCourse t e.2.course with
      | none => setDev t e.1 none
      | some c =>
        let us := (pageUnits n c e.2.page).filterMap fun pos => (validAt t nsid e.2.course pos).map fun u => (u, pos)
        let r := us.foldl (fun (p : Option State) x => p.bind fun v =>
          replaceUnit v n nsid dom x.1 { course := e.2.course, pos := x.2 }) (some t)
        match r with
        | some v => setDev v e.1 none
        | none => t) s

/-- A failed slab of a collection course goes once no unit in it is valid any more (R158 step 4). -/
def holeStep (s : State) (id : Nat) : State :=
  match getCourse s id with
  | none => s
  | some c => match getNs s c.nsid with
    | none => s
    | some n =>
      let spent := c.holes.filter fun h => h.2.2.isSome && !((validUnits s c.nsid id).any fun u => inHole s n c h u.2)
      if spent.isEmpty then s
      else
        let s1 := setCourse s id (some { c with holes := c.holes.map fun h => if spent.contains h then (h.1, h.2.1, none) else h })
        releaseSlabs s1 (spent.filterMap (·.2.2)) 1

/-! ## Migration (R131) -/

/-- A migration in one strike: a stripe that has been read goes into the destination, and the next one is read. -/
def migrateStep (s : State) (dest : Nat) : State :=
  match getCourse s dest with
  | none => s
  | some d => match (getZone s d.nsid d.owner).course, getNs s d.nsid with
    | some src, some n => match getCourse s src with
      | none => s
      | some c =>
        let l := devsOf s (.migrate dest)
        let span := stripePages c.bedrock * 16384
        let off := d.copied * span
        if d.kind != .dest || d.finished then s
        else if l.isEmpty then (stripeData c d.copied).foldl (fun t p => copyPage t (.migrate dest) src p) s
        else if l.all (·.2.finished) then
          let len := min span (c.fill - off)
          updCourse (copyContent (endDevs s (.migrate dest)) src off dest off len n.lbaData) dest fun x =>
            { x with fill := off + len, copied := d.copied + 1, finished := decide (c.fill ≤ off + len) }
        else s
    | _, _ => s

/-- Every row of a course is verified. -/
def allVerified (s : State) (c : Course) : Bool :=
  c.finished && !c.inRow && (List.range 16).all fun p => decide (rowsReady s c ≤ c.doneAt p)

/-- The zone's course is swapped; the source is released (R131). -/
def cutMigration (s : State) (nsid k : Nat) : State :=
  let z := getZone s nsid k
  match z.moveTo, z.course.bind (getCourse s) with
  | some dest, some c =>
    let s1 := updCourse s dest fun d => { d with
      kind := .zone, isOpen := false, closeStrike := c.closeStrike, lastWrite := c.lastWrite, hint := c.hint }
    let s2 := ((getCourse s1 dest).map (·.slabs)).getD [] |>.foldl (fun t a =>
      if (getSlab t a).st = .relocDest then setSlab t a { getSlab t a with st := .inCourse } else t) s1
    let s3 := setZone s2 nsid k { z with course := some dest, hidden := .steady, moveTo := none, cutAt := none }
    spareCheck (dropCourse (bump s3 R.MED_RELOC_CNT_RELOC) (z.course.getD 0) 0)
  | _, _ => s

/-- Cut-overs that were recorded take effect at their strike (R131 step 3). -/
def migrationStrike (s : State) : State :=
  s.med.zones.foldl (fun t e => match e.2.cutAt with
    | some n => if n ≤ t.tb.count then cutMigration t (e.1 / 2 ^ 32) (e.1 % 2 ^ 32) else t
    | none => t) s

/-- MIGRATION_CUTOVER (R131): `course` is the source. Copy and verification have ended; the cut-over is recorded in the
Cornerstone, and the zone's course is swapped at the next strike. -/
def execMigrationCutover (course : Nat) (s : State) : Answer :=
  match getCourse s course with
  | some c =>
    let z := getZone s c.nsid c.owner
    match z.moveTo.bind (getCourse s) with
    | some d => stepIf s (c.kind == .zone && z.hidden == .migrating && z.course == some course && z.cutAt.isNone && allVerified s d)
        (setZone s c.nsid c.owner { z with cutAt := some (s.tb.count + 1) })
    | none => .next s
  | none => .next s

/-- A migration ends with its destination given up; the zone stays where it is (log entry 59). -/
def dropMigration (s : State) (dest : Nat) : State :=
  match getCourse s dest with
  | none => s
  | some d =>
    let z := getZone s d.nsid d.owner
    let mends := ((z.course.bind (getCourse s)).map fun c => !c.mends.isEmpty).getD false
    setZone (dropCourse s dest 0) d.nsid d.owner { z with
      moveTo := none, cutAt := none, hidden := if mends then .mending else .steady }

/-! ## Mends (R132, R157, R160, R181) -/

/-- A new slab for a position: of a channel of the Bay that no other slab of the course uses, with the fewest active courses,
once it is erased. When no such channel has a free slab the Read-Only latch sets, and any erased slab of the Bay serves
(R132, R140, R157, log entry 60). -/
def mendSlab (s : State) (c : Course) (pos : Nat) : Option Nat × Bool :=
  let others := ((c.slabs.zipIdx.filter fun e => e.2 != pos).map fun e => slabChan e.1)
  let chs := (freeChannels s (bayMask s c.bay)).filter fun x => !others.contains x
  if chs.isEmpty then ((freeChannels s (bayMask s c.bay)).findSome? fun x => pickSlab s x c.hint, true)
  else ((sortBy (channelActive s) chs).findSome? fun x => pickSlab s x c.hint, false)

/-- Whether a slab of a course is to be mended: of a zone, or of a conventional course one that failed a program or lies on a
lost die; a slab of these that is merely failing is left to collection (R157, R160, R161), and the course that a
collection writes is repaired in its own way (R158). -/
def mendWanted (s : State) (id : Nat) (c : Course) (pos : Nat) : Bool :=
  let x := getSlab s (c.slabs.getD pos 0)
  x.fail != 0 && (x.course == some id || x.st == .retired) && (c.mendAt pos).isNone
    && (c.kind == .zone || ((c.kind == .conv || (c.kind == .collect && !c.isOpen)) && (x.fail == 1 || x.fail == 4)))

/-- Start the mends that a course needs. -/
def startMends (s : State) (id : Nat) : State :=
  (List.range 16).foldl (fun t pos => match getCourse t id with
    | none => t
    | some c =>
      if c.slabs.isEmpty || !mendWanted t id c pos then t
      else
        let r := mendSlab t c pos
        let t1 := if r.2 then setLatch t else t
        match r.1 with
        | none => t1
        | some b =>
          let f := (getSlab t (c.slabs.getD pos 0)).fail
          let m : Mend :=
            { pos := pos, slab := b, retire := if f = 1 ∨ f = 4 then f else 0, row := 0
              unit := { row := 0, bitmap := 0, st := .none, moved := 0, sensed := 0 }, phase := .between, lost := [] }
          let t2 := setSlab t1 b { getSlab t1 b with st := .relocDest, course := some id }
          let t3 := updCourse t2 id fun x => { x with mends := x.mends ++ [m] }
          let z := getZone t3 c.nsid c.owner
          spareCheck (if c.kind == .zone && z.moveTo.isNone then setZone t3 c.nsid c.owner { z with hidden := .mending } else t3)) s

/-- A slab is failing (R161): again within REFAIL_PE cycles, it will retire after its erase. A course of a conventional namespace
is marked for collection. -/
def markFailing (s : State) (a : Nat) : State :=
  let x := getSlab s a
  if x.fail ≠ 0 ∨ x.st ≠ .inCourse then s
  else
    let again := (x.failedPe.map fun p => decide (x.pe - p ≤ rdForce s R.MED_LADDER_REFAIL_PE)).getD false
    let s1 := setSlab s a { x with fail := if again then 3 else 5, failedPe := some x.pe }
    match x.course with
    | none => s1
    | some id =>
      let s2 := updCourse s1 id fun c => if c.kind == .conv || c.kind == .collect then { c with marked := true } else c
      startMends s2 id

/-- The reads, rebuilds and programs of one mend end. -/
def dropMend (s : State) (id pos : Nat) : State :=
  let s1 := dropDevs s (fun u => u == .mend id pos || u == .mendStripe id pos) fun x => match x with
    | .mend c p _ _ => c == id && p == pos
    | .ladder _ _ => false
  let mine := fun (t : ProgTarget) => match t with
    | .mend k p _ => k == id && p == pos
    | _ => false
  s1.fl.dies.foldl (fun t e => setDie t e.1 { getDie t e.1 with progs := (getDie t e.1).progs.filter fun p => !mine p.1 }) s1

/-- The slab that replaces another fails in its turn: it retires, and the mend starts again with the next (R157). -/
def remend (s : State) (id pos : Nat) (cause : Nat) : State :=
  match (getCourse s id).bind (·.mendAt pos) with
  | none => s
  | some m =>
    let s1 := updCourse (dropMend s id pos) id fun c => { c with mends := c.mends.filter (·.pos != pos) }
    startMends (retireSlab s1 m.slab cause) id

/-- Blocks are unrecovered from now on (R132, R163): Hallmark names the slab and the zone or LBA, and critical warning
bit 2 sets. -/
def unrecover (s : State) (slab : Nat) (ks : List Nat) : State :=
  let s1 := { s with med := { s.med with unrec := s.med.unrec ++ (ks.filter fun k => !s.med.unrec.contains k)
                                         degraded := true } }
  let k := ks.headD 0
  let lba := match getNs s (k / 2 ^ 64) with
    | some n => if n.zoned then k % 2 ^ 64 / n.zsze * n.zsze else k % 2 ^ 64
    | none => k % 2 ^ 64
  raise (bump s1 R.MED_UNREC_CNT_UNREC) (event (slabChan slab) 0x0304 [(4, slab), (8, lba)])

/-- The blocks of a codeword, by nsid and LBA. -/
def cwBlocks (s : State) (x : Cw) : List Nat :=
  match getCourse s x.course with
  | none => []
  | some c => match getNs s c.nsid, pageIndex c.bedrock (x.page / 16) (x.page % 16) with
    | some n, some i =>
      let o := i * 16384 + x.cw * 4096
      let per := 4096 / n.lbaData
      if n.zoned then (List.range per).map fun j => blockKey c.nsid (c.owner * n.zsze + o / n.lbaData + j)
      else (validUnits s c.nsid x.course).flatMap fun u =>
        if u.2 = o / n.iuBytes then
          (List.range per).map fun j => blockKey c.nsid ((u.1 * n.iuBytes + o % n.iuBytes) / n.lbaData + j)
        else []
    | _, _ => []

/-- The blocks of a page that hold data. -/
def pageBlocks (s : State) (id page : Nat) : List Nat :=
  (List.range 4).flatMap fun k => cwBlocks s { course := id, page := page, cw := k }

/-- Pages of a course that nothing recovers are recorded, one by one (R132, R180). -/
def losePages (s : State) (id : Nat) (l : List Nat) : State :=
  l.foldl (fun t p =>
    let ks := pageBlocks t id p
    if ks.isEmpty then t else unrecover t (cwSlab t { course := id, page := p, cw := 0 }) ks) s

/-- The row of a mend is recovered and goes to the new slab (R132). -/
def mendSend (s : State) (id pos : Nat) : State :=
  updMend s id pos fun m => { m with
    phase := .sending, lost := [], unit := { row := m.row, bitmap := 0, st := .sending, moved := 0, sensed := 0 } }

/-- The companions of the pages that could not be read are in: what Keystone or Mortar can rebuild goes to a parity engine, the
rest is recorded (R132, R180, R181). -/
def mendRebuild (s : State) (id : Nat) (c : Course) (m : Mend) : State :=
  let bad := ((devsOf s (.mendStripe id m.pos)).filter (·.2.unrec)).map (·.2.page)
  let r := rebuildOrder s c (m.lost.length + bad.length) (stripeOrder ((m.lost ++ bad).map fun p => (p / 16, p % 16)))
  let job := fun (x : (Nat × Nat) × Bool) =>
    ({ what := .mend id m.pos (x.1.1 * 16 + x.1.2) x.2, engine := engineFor s ((c.set.map (· % 8)).getD id)
       left := if x.2 then 60 else 4 * (accPages s c (pageAcc s x.1)).length } : Rebuild)
  let mine := r.1.filter fun x => m.lost.contains (x.1.1 * 16 + x.1.2)
  let s1 := endDevs s (.mendStripe id m.pos)
  let s2 := { s1 with fl := { s1.fl with rebuilds := s1.fl.rebuilds ++ mine.map job } }
  updMend (losePages s2 id (m.lost.filter fun p => r.2.contains (p / 16, p % 16))) id m.pos fun x =>
    { x with phase := .rebuilding }

/-- The rebuilds of a mend, with their pages. -/
def mendJobs (s : State) (id pos : Nat) : List (Rebuild × Nat × Bool) :=
  s.fl.rebuilds.filterMap fun x => match x.what with
    | .mend c p page k => if c = id ∧ p = pos then some (x, page, k) else none
    | .ladder _ _ => none

/-- The rebuilds of a mend have ended: the pages stand as rebuilt. -/
def mendRebuilt (s : State) (id : Nat) (c : Course) (m : Mend) : State :=
  let l := mendJobs s id m.pos
  let s1 := dropDevs s (fun _ => false) fun x => l.any fun y => y.1.what == x
  mendSend (l.foldl (fun t y => rebuildPage t id c (y.2.1 / 16, y.2.1 % 16) y.2.2) s1) id m.pos

/-- One mend in one strike: a row that was verified on the old slab is read, rebuilt where it must be, and sent to the new one;
the reads of one mend run one row at a time (R132, R181). -/
def mendStep (s : State) (id : Nat) (m : Mend) : State :=
  match getCourse s id with
  | none => s
  | some c =>
    let l := devsOf s (.mend id m.pos)
    match m.phase with
    | .between =>
      if m.row < c.doneAt m.pos then
        (List.range (unitPages s m.row)).foldl (fun t q =>
          copyPage t (.mend id m.pos) id ((rowStart s m.row + q) * 16 + m.pos)) (updMend s id m.pos fun x => { x with phase := .reading })
      else s
    | .reading =>
      if !l.all (·.2.finished) then s
      else
        let lost := (l.filter (·.2.unrec)).map (·.2.page)
        let s1 := endDevs s (.mend id m.pos)
        if lost.isEmpty then mendSend s1 id m.pos
        else if c.bedrock then
          lost.foldl (fun t p => ((List.range 16).filter (· != m.pos)).foldl (fun u k =>
            copyPage u (.mendStripe id m.pos) id (p / 16 * 16 + k)) t)
            (updMend s1 id m.pos fun x => { x with phase := .companions, lost := lost })
        else mendSend (losePages s1 id lost) id m.pos
    | .companions => if (devsOf s (.mendStripe id m.pos)).all (·.2.finished) then mendRebuild s id c m else s
    | .rebuilding => if (mendJobs s id m.pos).all (·.1.left == 0) then mendRebuilt s id c m else s
    | .sending => s

/-- Courses that mend, in order: active zones, then Bedrock, then the others, each in zone order (R160). -/
def mendOrder (s : State) : List Nat :=
  let l := s.med.courses.filterMap fun e => match e.2 with
    | some c => if c.mends.isEmpty then none else some (e.1, c)
    | none => none
  let zone := fun (k : Nat) => ((getCourse s k).map fun c => zoneKey c.nsid c.owner).getD 0
  let ids := fun (p : Course → Bool) => sortBy zone ((l.filter fun e => p e.2).map (·.1))
  ids (courseActive s) ++ ids (fun c => !courseActive s c && c.bedrock) ++ ids (fun c => !courseActive s c && !c.bedrock)

/-- The courses whose mends run now (R160). -/
def mendsNow (s : State) : List Nat := (mendOrder s).take (max 1 (rdForce s R.MED_GC_CTRL_PARALLEL))

/-- Whether a mend has caught up: every verified row is on the new slab, and its position's own unit neither leaves its
accumulators nor is being programmed (R132). -/
def mendCaught (s : State) (id : Nat) (c : Course) (m : Mend) : Bool :=
  let busy := match (getDie s (slabDie (c.slabs.getD m.pos 0))).target with
    | some (.unit k p _) => k == id && p == m.pos
    | _ => false
  m.phase == .between && decide (c.doneAt m.pos ≤ m.row) && (c.unit m.pos).st != .verifying && !busy

/-- The cut-over of a mend: the replacement takes the slab's place, and a unit that was on its way at the position is sent again
from the write buffer, its contribution in the set as it was (R132, R157, R173). The old slab is released, or retires. -/
def cutMend (s : State) (id : Nat) (c : Course) (m : Mend) : State :=
  let old := c.slabs.getD m.pos 0
  let u := c.unit m.pos
  let mine := fun (t : ProgTarget) => match t with
    | .unit k p _ => k == id && p == m.pos
    | _ => false
  let x := getDie s (slabDie old)
  let s1 := setDie s (slabDie old) { x with progs := x.progs.filter fun p => !mine p.1 }
  let u1 := if u.st = .sending ∨ u.st = .programmed then { u with st := .sending, moved := 0, sensed := 0 } else u
  let left := c.mends.filter (·.pos != m.pos)
  let s2 := setCourse s1 id (some { c.setUnit m.pos u1 with slabs := c.slabs.set m.pos m.slab, mends := left })
  let s3 := setSlab s2 m.slab { getSlab s2 m.slab with
    st := if (getSlab s2 m.slab).st = .relocDest then .inCourse else (getSlab s2 m.slab).st, course := some id }
  let z := getZone s3 c.nsid c.owner
  let s4 := if c.kind == .zone && left.isEmpty && z.moveTo.isNone then setZone s3 c.nsid c.owner { z with hidden := .steady } else s3
  let s5 := setSlab s4 old { getSlab s4 old with course := none }
  spareCheck (releaseSlabs (bump s5 R.MED_MEND_CNT_MEND) [old] m.retire)

/-- MEND_CUTOVER (R132). -/
def execMendCutover (course : Nat) (s : State) : Answer :=
  match getCourse s course with
  | some c => match c.mends.find? (mendCaught s course c) with
    | some m => stepIf s ((mendsNow s).contains course) (cutMend s course c m)
    | none => .next s
  | none => .next s

/-! ## Failed slabs of a collection course, and of a destination (R131, R158) -/

/-- Copies not yet verified in the failed slab go from the staging buffer to the next wordlines (R158 step 3). -/
def recopyStaged (s : State) (n : Namespace) (nsid dom id : Nat) (h : Nat × Nat × Option Nat) : State :=
  match getCourse s id, (getDomain s nsid dom).bind (·.run) with
  | some c, some r =>
    let hit := fun (x : Copy) => x.dest.course == id && inHole s n c h x.dest.pos
    (r.copies.filter hit).foldl (fun t x => match collectUnit t n nsid dom x.unit x.dest with
      | none => t
      | some p =>
        let t1 := if x.mapped && unitAt p.1 nsid x.unit == some x.dest then setUnitAt p.1 nsid x.unit (some p.2) else p.1
        match getDomain t1 nsid dom with
        | some d => setDomain t1 nsid dom (some { d with run := d.run.map fun y =>
            { y with copies := y.copies.map fun z => if z = x then { z with dest := p.2 } else z } })
        | none => t1) s
  | _, _ => s

/-- The slab of an open collection course is replaced at once, and copying goes on. Units that were journalled are read again out
of the failed slab; what is still staged is placed again (R158). -/
def replaceCollect (s : State) (id pos : Nat) (c : Course) : State :=
  let a := c.slabs.getD pos 0
  let r := mendSlab s c pos
  let s1 := if r.2 then setLatch s else s
  match r.1, getNs s c.nsid with
  | some b, some n =>
    let s2 := setSlab s1 b { getSlab s1 b with st := .inCourse, course := some id }
    let u := c.unit pos
    let first := if u.st = .none then c.doneAt pos else u.row + 1
    let h := (pos, first, some a)
    let s3 := setCourse s2 id (some { c.setUnit pos { row := 0, bitmap := 0, st := .none, moved := 0, sensed := 0 } with
      slabs := c.slabs.set pos b, done := c.done.set pos first, holes := c.holes ++ [h] })
    let s4 := recopyStaged s3 n c.nsid c.owner id h
    let pages := (((validUnits s4 c.nsid id).filter fun x => inHole s4 n c h x.2).map fun x =>
      let p := pagePlace c.bedrock (x.2 * n.iuBytes / 16384)
      p.1 * 16 + p.2).eraseDups
    holeStep (pages.foldl (fun t p => copyPage t (.recopy c.nsid c.owner) id p) s4) id
  | _, _ => s1

/-- A program fails on a slab of a course, or its read-back does, in a unit of the course or of a replacement (R157, R158,
R173). -/
def failUnit (s : State) (id pos : Nat) (mend : Bool) : State :=
  let s0 := bump s R.MED_PROG_FAIL_CNT_PROG_FAIL
  match getCourse s0 id with
  | none => s0
  | some c =>
    let a := c.slabs.getD pos 0
    let failed := setSlab s0 a { getSlab s0 a with fail := 1, failedPe := some (getSlab s0 a).pe }
    if mend then remend s0 id pos 1
    else match c.kind with
      | .collect => if c.isOpen then replaceCollect s0 id pos c else startMends failed id
      | .dest => dropMigration failed id
      | _ => startMends failed id

/-! ## Wear levelling (R154 to R156) -/

/-- P/E counts of the native-mode good slabs of a die. -/
def diePes (s : State) (d : Nat) : List Nat :=
  (s.med.slabs.filter fun e => slabDie e.1 == d && e.2.st != .slcReserve && e.2.st != .system && e.2.st != .retired).map
    (·.2.pe)

/-- The spread of a die. -/
def dieSpread (s : State) (d : Nat) : Nat :=
  match diePes s d with
  | [] => 0
  | p :: l => l.foldl max p - l.foldl min p

/-- Courses that a wear move moves now: sources of migrations, and conventional courses that the wear rule has marked. -/
def movingCourses (s : State) : List Nat :=
  (s.med.courses.filter fun e => match e.2 with
    | some c => (c.kind == .zone && (getZone s c.nsid c.owner).hidden == .migrating
        && (getZone s c.nsid c.owner).course == some e.1) || c.wear
    | none => false).map (·.1)

/-- The course that a wear move takes: of those that hold a young slab of the die, a Full zone's or a closed conventional
course, the one whose last write is oldest (R155). -/
def wearSource (s : State) (d : Nat) : Option Nat :=
  let low := match diePes s d with
    | [] => 0
    | p :: l => l.foldl min p
  let young := fun (a : Nat) => slabDie a == d && (getSlab s a).st == .inCourse
    && decide ((getSlab s a).pe ≤ low + rdForce s R.MED_WL_SPREAD_SPREAD / 2)
  let ok := fun (e : Nat × Option Course) => match e.2 with
    | some c => c.slabs.any young && c.mends.isEmpty && (match c.kind with
        | .zone => (getZone s c.nsid c.owner).st == .full && (getZone s c.nsid c.owner).hidden == .steady
        | .conv | .collect => !c.isOpen && !c.marked
        | .dest => false)
    | none => false
  ((s.med.courses.filter ok).foldl (fun (m : Option (Nat × Nat)) e =>
    let t := (e.2.map (·.lastWrite)).getD 0
    match m with
    | none => some (e.1, t)
    | some b => if t < b.2 then some (e.1, t) else some b) none).map (·.1)

/-- Start a move of a course: a migration to slabs of hint 3, or a collection of a marked course (R155). -/
def startMove (s : State) (id : Nat) : State :=
  match getCourse s id with
  | none => s
  | some c =>
    if c.kind == .zone then
      match formSlabs s c.bay 3 with
      | none => s
      | some l =>
        let r := newCourse s .dest c.nsid c.owner c.bay 3 c.bedrock l
        setZone r.1 c.nsid c.owner { getZone r.1 c.nsid c.owner with hidden := .migrating, moveTo := some r.2 }
    else collectStart (setCourse s id (some { c with marked := true, wear := true })) c.nsid c.owner

/-- WEAR_MOVE_START for one die, within the limits of R156. -/
def wearMove (s : State) (d : Nat) : State :=
  let moving := movingCourses s
  let onDie := moving.any fun id => ((getCourse s id).map fun c => c.slabs.any fun a => slabDie a == d).getD false
  if !(getDie s d).levelling || onDie || decide (rdForce s R.MED_WL_SPREAD_MAX_MOVE ≤ moving.length)
      || decide (spareCount s ≤ spareAt s (rd s R.MED_SPARE_TH_LOW) + 16) then s
  else match wearSource s d with
    | some id => startMove s id
    | none => s

/-- The spread is checked after every erase on a die (R154). -/
def wearCheck (s : State) (d : Nat) : State :=
  let limit := rdForce s R.MED_WL_SPREAD_SPREAD
  let x := getDie s d
  let sp := dieSpread s d
  let mark := limit != 0 && (if x.levelling then decide (limit * 3 < sp * 4) else decide (limit < sp))
  wearMove (setDie s d { x with levelling := mark }) d

/-! ## The strike -/

/-- Mends that wait for a slab are tried again; those that run take their next step. -/
def mendStrike (s : State) : State :=
  let s1 := (s.med.courses.map (·.1)).foldl (fun t id => match getCourse t id with
    | some c => if c.slabs.any fun a => (getSlab t a).fail != 0 then startMends t id else t
    | none => t) s
  (mendsNow s1).foldl (fun t id => match getCourse t id with
    | some c => c.mends.foldl (fun u m => mendStep u id m) t
    | none => t) s1

/-- What the reads of the device serve, in one strike. -/
def copyStrikes (s : State) : State :=
  let s1 := mergeStrike (pruneDevs s)
  let s2 := s1.med.domains.foldl (fun t e =>
    let n := e.1 / 2 ^ 16
    let d := e.1 % 2 ^ 16
    collectStep (recopyStep (copyAdvance t n d) n d) n d) s1
  let s3 := s2.med.courses.foldl (fun t e => match e.2 with
    | some c => if c.kind == .dest then migrateStep t e.1 else if c.holes.isEmpty then t else holeStep t e.1
    | none => t) s2
  mendStrike s3

end Sys2Proof.Machine
end

