-- ==== Sys2Proof/Machine/Journal.lean ====
section
/-! DEFINITION. The media journal: its records, its ring and its checkpoints (R143, R147, R153), and the replacing of reserved
slabs that fail (Table 6.6). -/

namespace Sys2Proof.Machine

/-! ## Records (R147) -/

/-- What the journal keeps of a course: its record without what stands in the Mortar descriptor and without mends, which a boot
discards (R133). -/
def Course.stable (c : Course) : Course := { c with units := noUnits, keyLeft := 0, mends := [], set := none, sent := 0 }

/-- The map as the journal has it: a copy that is not verified still names its source (R150 step 6). -/
def journalMap (s : State) : Tbl (Option UnitAt) :=
  s.med.domains.foldl (fun m e => match e.2.bind (·.run) with
    | none => m
    | some r => r.copies.foldl (fun t x =>
        let k := unitKey (e.1 / 2 ^ 16) x.unit
        if x.mapped && Tbl.get Tbl.absent t k == some x.dest then Tbl.set Tbl.absent t k (some x.src) else t) m) s.med.map

/-- The structures as they now are. -/
def imageNow (s : State) : Image :=
  { zones := s.med.zones, slabs := s.med.slabs, courses := Tbl.mapAll Tbl.absent s.med.courses fun _ c => c.map Course.stable
    map := journalMap s }

/-- The entries of a table that a newer one changes. -/
def Tbl.changes {α : Type} [DecidableEq α] (d : Nat → α) (old new : Tbl α) : List (Nat × α) :=
  (new.filter fun e => decide (Tbl.get d old e.1 ≠ e.2))
    ++ ((old.filter fun e => !(new.any fun x => x.1 == e.1)).map fun e => (e.1, d e.1))

/-- The records that lead from one image to another. -/
def imageRecs (a b : Image) : List JRec :=
  (Tbl.changes Tbl.absent a.courses b.courses).map (fun e => JRec.course e.1 e.2)
    ++ (Tbl.changes slab0 a.slabs b.slabs).map (fun e => JRec.slab e.1 e.2)
    ++ (Tbl.changes zone0 a.zones b.zones).map (fun e => JRec.zone e.1 e.2)
    ++ (Tbl.changes Tbl.absent a.map b.map).map fun e => JRec.unit e.1 e.2

/-- A record takes effect. -/
def Image.apply (m : Image) (r : JRec) : Image :=
  match r with
  | .zone k z => { m with zones := Tbl.set zone0 m.zones k z }
  | .slab k x => { m with slabs := Tbl.set slab0 m.slabs k x }
  | .course k c => { m with courses := Tbl.set Tbl.absent m.courses k c }
  | .unit k u => { m with map := Tbl.set Tbl.absent m.map k u }

/-- Change the journal. -/
def setJrn (s : State) (j : Journal) : State := { s with med := { s.med with jrn := j } }

/-- The changes of a strike enter the staging (R145, R147). -/
def journalStage (s : State) : State :=
  let j := s.med.jrn
  let now := imageNow s
  let l := imageRecs j.now now
  if l.isEmpty then s
  else setJrn s { j with now := now, next := j.next + l.length, staged := j.staged ++ l.zipIdx.map fun e => (j.next + e.2, e.1) }

/-! ## The ring (R153) -/

/-- Records that one program takes, and the programs that a slab of the ring takes in SLC mode (log entry 61). -/
def journalPage (s : State) : Nat := 512 * max 1 (planes s)
def journalPrograms (s : State) : Nat := max 1 (slabBytes s / max 1 (cellBits s) / (16384 * max 1 (planes s)))

/-- Free slabs of the ring. -/
def ringFree (s : State) : List Nat :=
  let j := s.med.jrn
  j.slabs.filter fun a => !j.dirty.contains a && j.victim != some a && !(j.ring.any fun x => x.slab == a)

/-- The head of the ring: the slab that takes the next program. -/
def ringHead (s : State) : Option JSlab :=
  match s.med.jrn.ring.getLast?.filter fun x => decide (x.progs < journalPrograms s) with
  | some x => some x
  | none => (ringFree s).head?.map fun a => { slab := a, progs := 0, recs := [] }

/-- A program of staged records is queued, one at a time. Its data-in takes no bursts of the calendar (log entry 61). -/
def journalSend (s : State) : State :=
  let j := s.med.jrn
  if j.staged.isEmpty || !j.going.isEmpty then s
  else match ringHead s with
    | none => s
    | some h =>
      let d := slabDie h.slab
      let x := getDie s d
      if !x.present || x.lost || decide (32 ≤ dieQueue x) then s
      else setJrn (setDie s d { x with progs := x.progs ++ [(.journal, s.tb.count)] })
        { j with going := j.staged.take (journalPage s)
                 ring := if j.ring.any (fun y => y.slab == h.slab) then j.ring else j.ring ++ [h] }

/-- Records of a slab that are live: the last checkpoint does not contain them (R153). -/
def liveRecs (j : Journal) (x : JSlab) : List (Nat × JRec) := x.recs.filter fun r => decide (j.ckptAt ≤ r.1)

/-- An emptied slab of the ring is erased, and counts as a victim collected. -/
def ringErase (s : State) (a : Nat) : State :=
  let d := slabDie a
  let j := s.med.jrn
  let s1 := setJrn s { j with victim := none, dirty := j.dirty ++ [a] }
  setDie (bump s1 R.MED_GC_CNT_GC) d ((getDie s1 d).queueErase a)

/-- The journal slab with the fewest live records, the head left out. -/
def ringVictim (j : Journal) : Option JSlab :=
  j.ring.dropLast.foldl (fun m x => match m with
    | none => some x
    | some b => if (liveRecs j x).length < (liveRecs j b).length then some x else some b) none

/-- Collection in the ring (R153): at four free slabs the live records of the victim are written again at the head; when they
are, it is erased. -/
def journalCollect (s : State) : State :=
  let j := s.med.jrn
  match j.victim with
  | some a => if j.staged.any fun r => decide (r.1 < j.flashAt) then s else ringErase s a
  | none =>
    if 4 < (ringFree s).length then s
    else match ringVictim j with
      | none => s
      | some x =>
        let live := liveRecs j x
        let s1 := setJrn s { j with ring := j.ring.filter (·.slab != x.slab), victim := some x.slab, staged := live ++ j.staged }
        if live.isEmpty then ringErase s1 x.slab else s1

/-- The program of records passes: they are in flash (R147). -/
def journalDone (s : State) : State :=
  let j := s.med.jrn
  let new := j.going.filter fun r => decide (j.flashAt ≤ r.1)
  let ring := match j.ring.getLast? with
    | some h => j.ring.dropLast ++ [{ h with progs := h.progs + 1, recs := h.recs ++ j.going }]
    | none => j.ring
  journalCollect (setJrn s { j with
    ring := ring, staged := j.staged.drop j.going.length, going := []
    flash := new.foldl (fun m r => m.apply r.2) j.flash, flashAt := new.foldl (fun n r => max n (r.1 + 1)) j.flashAt })

/-- A checkpoint of the structures, at the firmware's times: every record in flash is contained in it from then on (R143, R153,
log entry 62). -/
def journalCheckpoint (s : State) : State :=
  let j := s.med.jrn
  if !j.ring.isEmpty && Config.checkpoint s.tb.count then setJrn s { j with ckpt := j.flash, ckptAt := j.flashAt } else s

/-- The journal's share of a strike. -/
def journalStrike (s : State) : State := journalSend (journalCheckpoint (journalStage s))

/-! ## Reserved slabs that fail (R143, Table 6.6) -/

/-- Whether a slab is one of the flush areas or of the system area. -/
def Slab.reserved (x : Slab) : Bool := x.st == .slcReserve || x.st == .system

/-- A reserved slab retires and is replaced from the spares, with its records written again at the head. A slab that the spares
cannot supply sets the Read-Only latch (R136). -/
def replaceReserved (s : State) (a cause : Nat) : State :=
  let st := (getSlab s a).st
  let s1 := retireSlab s a cause
  let pick := fun (p : Slab → Bool) => (List.range 64).findSome? fun c => (chanSlabs s1 c p).head?
  let j := s1.med.jrn
  let lost := (j.ring.filter fun x => x.slab == a).flatMap (liveRecs j)
  let dead := j.ring.getLast?.any fun x => x.slab == a
  let s2 := setJrn s1 { j with
    ring := j.ring.filter (·.slab != a), dirty := j.dirty.filter (· != a), victim := j.victim.filter (· != a)
    staged := lost ++ j.staged, going := if dead then [] else j.going }
  match (pick (·.st == .erased)).orElse fun _ => pick Slab.free with
  | none => setLatch s2
  | some b =>
    let swap := fun (l : List Nat) => l.map fun x => if x = a then b else x
    let s3 := setSlab s2 b { getSlab s2 b with st := st }
    spareCheck { s3 with med := { s3.med with
      areaA := swap s3.med.areaA, areaB := swap s3.med.areaB
      jrn := { s3.med.jrn with slabs := swap s3.med.jrn.slabs
                               dirty := if (getSlab s2 b).st = .erased then s3.med.jrn.dirty else s3.med.jrn.dirty ++ [b] } } }

/-- A program of records fails: the slab retires and is replaced, and the records are written again (Table 6.6). -/
def journalFail (s : State) : State :=
  match s.med.jrn.ring.getLast? with
  | some h => replaceReserved s h.slab 1
  | none => s

/-- A reserved slab has been erased. -/
def ringErased (s : State) (a : Nat) : State :=
  setJrn s { s.med.jrn with dirty := s.med.jrn.dirty.filter (· != a) }

end Sys2Proof.Machine
end

