-- ==== Sys2Proof/Machine/DieEnds.lean ====
section
/-! DEFINITION. The ends of die operations (R32, R35, R154, R157, R159, R171 to R173), the recovery ladder (R161 to R163), timeouts
and lost dies (R160, R196), and training (R199 to R202). -/

namespace Sys2Proof.Machine

/-! ## Ends of die operations -/

/-- PROGRAM_DONE: the unit becomes PROGRAMMED (R171), or the records of the journal are in flash (R147). -/
def programDone (s : State) (d : Nat) : State :=
  let x := getDie s d
  let s1 := setDie s d x.opEnd
  match x.target with
  | some (.unit c p r) => match getCourse s1 c with
    | some k =>
      if (k.unit p).st = .sending ∧ (k.unit p).row = r ∧ slabDie (k.slabs.getD p 0) = d then
        setCourse s1 c (some (k.setUnit p { k.unit p with st := .programmed, moved := 0, sensed := 0 }))
      else s1
    | none => s1
  | some (.mend c p r) => updMend s1 c p fun m =>
      if m.unit.st = .sending ∧ m.unit.row = r ∧ slabDie m.slab = d then
        { m with unit := { m.unit with st := .programmed, moved := 0, sensed := 0 } } else m
  | some .journal => journalDone s1
  | none => s1

/-- The status of a program or erase may come: a poll has reached the die (R195), or the operation ended in place of a
suspend (R32). -/
def statusDue (x : Die) : Bool := (x.polled || x.st == .idle) && x.st != .suspended && !x.susSent && !x.resetting && !x.lost

/-- PROGRAM_DONE (R171). -/
def execProgramDone (die : Nat) (s : State) : Answer :=
  stepIf s ((getDie s die).target.isSome && statusDue (getDie s die)) (programDone s die)

/-- A program reports failure (R157, R158). -/
def programFailed (s : State) (d : Nat) : State :=
  let x := getDie s d
  let s1 := setDie s d x.opEnd
  match x.target with
  | some (.unit c p _) => failUnit s1 c p false
  | some (.mend c p _) => failUnit s1 c p true
  | some .journal => journalFail (bump s1 R.MED_PROG_FAIL_CNT_PROG_FAIL)
  | none => s1

/-- PROGRAM_FAIL (R157). -/
def execProgramFail (die : Nat) (s : State) : Answer :=
  stepIf s ((getDie s die).target.isSome && statusDue (getDie s die)) (programFailed s die)

/-- ERASE_DONE: the slab is ERASED and its P/E count rises; one that failed again too soon retires (R154, R161). A slab of a flush
area or of the system area keeps its state (Table 6.2). -/
def eraseDone (s : State) (d : Nat) : State :=
  let x := getDie s d
  let a := x.slab
  let y := getSlab s a
  let z := { y with pe := y.pe + 1, erasedAt := s.tb.count }
  let s1 := setDie s d x.opEnd
  if y.reserved then wearCheck (ringErased (setSlab s1 a z) a) d
  else
    let s2 := setSlab s1 a { z with st := .erased, course := none, fail := 0 }
    wearCheck (repaySlab (if y.fail = 3 then retireSlab s2 a 3 else s2) a) d

/-- ERASE_DONE (R154). -/
def execEraseDone (die : Nat) (s : State) : Answer :=
  stepIf s ((getDie s die).erasing && statusDue (getDie s die)) (eraseDone s die)

/-- An erase fails: the slab retires at once (R159); a reserved one is replaced (Table 6.6). -/
def eraseFailed (s : State) (d : Nat) : State :=
  let x := getDie s d
  let s0 := bump (setDie s d x.opEnd) R.MED_ERASE_FAIL_CNT_ERASE_FAIL
  let s1 := if (getSlab s x.slab).reserved then replaceReserved s0 x.slab 2 else retireSlab s0 x.slab 2
  wearCheck (repaySlab s1 x.slab) d

/-- ERASE_FAIL (R159). -/
def execEraseFail (die : Nat) (s : State) : Answer :=
  stepIf s ((getDie s die).erasing && statusDue (getDie s die)) (eraseFailed s die)

/-- SUSPEND_DONE: the die is suspended at its loop or segment, or the operation ended instead, which counts no suspend
(R32). -/
def suspendDone (s : State) (d : Nat) (ended : Bool) : State :=
  let x := getDie s d
  setDie s d (if ended then
      { x with st := .idle, susSent := false, seq := x.winSeq ++ x.seq, winSeq := [], wins := [], served := 0
               tailSd := x.winSeq.foldl (fun n p => max n p.sd) x.tailSd }
    else { x with st := .suspended, susSent := false, suspends := x.suspends + 1, served := 0 })

/-- SUSPEND_DONE (R32). -/
def execSuspendDone (die : Nat) (ended : Bool) (s : State) : Answer :=
  let x := getDie s die
  let due := x.polled || (x.wins.head?.map fun w => decide (w.ready ≤ s.tb.count + 1)).getD true
  stepIf s (x.susSent && !x.resetting && !x.lost && due) (suspendDone s die ended)

/-- Parts that a sense serves: those of its page on the die that wait for it. -/
def RdPart.sensedBy (x y : RdPart) (n : Nat) : RdPart :=
  if y.die == x.die && y.sensed.isNone && y.ladder.step == 0 && y.course == x.course && y.page == x.page
      && y.companion == x.companion && y.need != 0 then { y with sensed := some n } else y

/-- A sense of a ladder step is in; its data is still to be moved (R162). -/
def RdPart.ladderSensed (x : RdPart) (n bursts : Nat) : RdPart :=
  { x with sensed := some n, need := x.need + bursts, ladder := { x.ladder with senses := x.ladder.senses - 1 } }

/-- A planned sense of a reader ends. -/
def partSensed (s : State) (who : Reader) (i : Nat) : State :=
  match (readerParts s who)[i]? with
  | none => s
  | some x =>
    if x.ladder.step ≠ 0 then updPart s who i fun y => y.ladderSensed s.tb.count (cwBursts s (dieChan x.die))
    else setParts s who fun l => l.map fun y => x.sensedBy y s.tb.count

/-- SENSE_DONE: the data of the parts that the sense reads is ready from the present strike (R35); or a page of a unit is
sensed for read-back, or a page for a copy read. -/
def senseDone (s : State) (d : Nat) : State :=
  let x := getDie s d
  let seen := fun (u : UnitEntry) => if u.st = .programmed then { u with sensed := u.sensed + 1 } else u
  match x.sensing with
  | some p => partSensed (setDie s d { x with sensing := none, st := if x.st = .reading then .idle else x.st }) p.who p.part
  | none =>
    let s1 := setDie s d { x with bg := none }
    match x.bg with
    | some (.verify c p) => updCourse s1 c fun k => k.setUnit p (seen (k.unit p))
    | some (.mendVerify c p) => updMend s1 c p fun m => { m with unit := seen m.unit }
    | some (.copy i k) => partSensed s1 (.device i) k
    | none => s

/-- SENSE_DONE (R35): the data of a read is there for the strike of its first burst; the end of a read-back sense is found by
a poll (R195). -/
def execSenseDone (die : Nat) (s : State) : Answer :=
  let x := getDie s die
  let due := match x.sensing with
    | some p => x.polled || decide (p.sd ≤ s.tb.count + 1)
    | none => x.bg.isSome && x.polled
  stepIf s (due && !x.resetting && !x.lost) (senseDone s die)

/-- PROGRAM_AGED (R31): the oldest program of the die has waited PROG_AGE strikes. -/
def execProgramAged (die : Nat) (s : State) : Answer :=
  let x := getDie s die
  match x.progs with
  | p :: _ => stepIf s (!x.aged && decide (p.2 + rd s R.STK_SUSP_PROG_AGE ≤ s.tb.count))
      (setDie s die { x with aged := true })
  | [] => .next s

/-! ## Read-back (R172, R173) -/

/-- Whether every page of a unit on a slab has been read back. -/
def readBackIn (s : State) (u : UnitEntry) (slab : Nat) : Bool :=
  u.st == .programmed && decide (u.sensed = unitPages s u.row)
    && decide (u.moved = u.sensed * (4 * cwBursts s (slabChan slab)))

/-- A position is back at NONE: its row is done, and the set may go (R171, R170). -/
def unitDone (s : State) (id p : Nat) : State :=
  releaseSet (updCourse s id fun c =>
    { c.setUnit p { row := 0, bitmap := 0, st := .none, moved := 0, sensed := 0 } with
      done := c.done.set p ((c.unit p).row + 1) }) id

/-- VERIFY_PASS: the unit becomes VERIFYING and its XOR-out begins; a course without a set has none (R172, R176). -/
def verifyPass (s : State) (id p : Nat) (c : Course) : State :=
  if c.kind == .zone || c.kind == .conv then setCourse s id (some (c.setUnit p { c.unit p with st := .verifying }))
  else unitDone s id p

/-- The row that a replacement has received is verified (R132). -/
def mendVerified (s : State) (id p : Nat) : State :=
  updMend s id p fun m => { m with
    phase := .between, row := m.row + 1, unit := { row := 0, bitmap := 0, st := .none, moved := 0, sensed := 0 } }

/-- A unit fails its read-back: handled as a program failure (R173). -/
def verifyFailed (s : State) (id p : Nat) (mend : Bool) : State := failUnit (bump s R.MED_PAR_VFY_FAIL_CNT_VFY_FAIL) id p mend

/-- VERIFY_PASS (R172): every codeword of the unit has decoded, `bits` being the most that one had corrected; above
MED_LADDER.REFRESH_TH the unit fails. While a position is mended it is its replacement that is read back. -/
def execVerifyPass (course pos bits : Nat) (s : State) : Answer :=
  match getCourse s course with
  | some c => match c.mendAt pos with
    | some m => stepIf s (readBackIn s m.unit m.slab)
        (if rdForce s R.MED_LADDER_REFRESH_TH < bits then verifyFailed s course pos true else mendVerified s course pos)
    | none => stepIf s (readBackIn s (c.unit pos) (c.slabs.getD pos 0))
        (if rdForce s R.MED_LADDER_REFRESH_TH < bits then verifyFailed s course pos false else verifyPass s course pos c)
  | none => .next s

/-- VERIFY_FAIL (R173): a codeword of the unit does not decode. -/
def execVerifyFail (course pos : Nat) (s : State) : Answer :=
  let due := fun (u : UnitEntry) => u.st == .programmed && decide (0 < u.sensed)
  match getCourse s course with
  | some c => match c.mendAt pos with
    | some m => stepIf s (due m.unit) (verifyFailed s course pos true)
    | none => stepIf s (due (c.unit pos)) (verifyFailed s course pos false)
  | none => .next s

/-- UNIT_XOR_OUT_DONE (R171): the last bit is clear, and the write-buffer entries of the unit are free. -/
def execUnitXorOutDone (course pos : Nat) (s : State) : Answer :=
  match getCourse s course with
  | some c => stepIf s ((c.unit pos).st == .verifying && (c.unit pos).bitmap == 0) (unitDone s course pos)
  | none => .next s

/-! ## Hard decode and the recovery ladder (R161 to R163) -/

/-- Whether the reads of a reader go down the ladder without step 4: those of a mend, and those that a rebuild reads (R132,
R163, R179). -/
def noRebuild (s : State) (who : Reader) : Bool :=
  match who with
  | .order _ => false
  | .device i => (getDev s i).any fun d => match d.use with
    | .mend _ _ | .mendStripe _ _ | .ladder _ _ => true
    | _ => false

/-- Whether step 4 can serve a codeword: its page lies in a buffer, or its stripe has Keystone and is complete (R162, R180). -/
def rebuildable (s : State) (x : RdPart) : Bool :=
  placeBuffered s { course := x.course, page := x.page, cw := 0 }
    || ((getCourse s x.course).any fun c => c.bedrock && stripeComplete s c (x.page / 16))

/-- A stage of the ladder that reads, with so many senses (Table 6.7). -/
def Ladder.stage (l : Ladder) (step entry senses : Nat) (soft : Bool) : Ladder :=
  { l with step := step, entry := entry, inSoft := soft, senses := senses, due := true }

/-- The stage after one: soft decode; then for each retry entry a hard decode and, with SOFT_EN, a soft decode; then rebuild;
then unrecovered (Table 6.7). -/
def Ladder.next (l : Ladder) : Ladder :=
  let retry := fun (e : Nat) => if e < l.retry then l.stage 3 e 1 false else l.stage 4 0 0 false
  match l.step with
  | 0 => if l.soft then l.stage 2 0 2 true else retry 0
  | 2 => retry 0
  | 3 => if l.soft && !l.inSoft then l.stage 3 l.entry 2 true else retry (l.entry + 1)
  | _ => { l with step := 5, due := false }

/-- When every part of a read is in, and its segments have run, its result posts in the present strike or the next, PARCHK's
in the strike after its closing segment (R99). -/
def settle (s : State) (rid : Nat) (at_ : Nat) : State :=
  updReq s rid fun q => match q.read with
    | none => q
    | some p =>
      if q.phase == .admitted && p.parts.all fun x => x.decoded && (x.seg.isNone || x.segRun) then
        let px := p.parts.foldl (fun n x => max n ((x.seg.map fun g => g.2 + 1).getD 0)) 0
        { q with phase := .effect, read := some { p with postAt := max (max at_ px) p.postAt } }
      else q

/-- A reader's part is in: an order's read posts in the next strike, once all are. -/
def settleReader (s : State) (who : Reader) : State :=
  match who with
  | .order r => settle s r (s.tb.count + 1)
  | .device _ => s

/-- A soft decode reaches a decoder pool for every eight decodes that wait: the pools that the manager has not ordered off,
the lower first (R163, R338). -/
def reachSoft (s : State) : State :=
  let jobs := (s.fl.softQ.filter fun e => !(e.pool.any fun k => mgrOff s (ldDom k))).length
  (([0, 1].filter fun k => !mgrOff s (ldDom k)).take (ceilDiv jobs 8)).foldl (fun t k => useDomain t (ldDom k)) s

/-- A codeword leaves the soft decoders. -/
def leaveSoft (s : State) (who : Reader) (i : Nat) : State :=
  { s with fl := { s.fl with softQ := s.fl.softQ.filter fun e => !(e.who == who && e.part == i) } }

/-- The end of the ladder: the codeword is unrecovered and its read with it; its slab is failing, for the read needed the later
steps (R161, R163). What a rebuild or a mend reads leaves the record to what it serves. -/
def ladderEnd (s : State) (who : Reader) (i : Nat) (x : RdPart) : State :=
  let s1 := markFailing (if noRebuild s who then s
    else unrecover s x.slab (cwBlocks s { course := x.course, page := x.page, cw := x.cw })) x.slab
  let s2 := updPart s1 who i fun y => { y with decoded := true, ladder := { y.ladder with step := 5, due := false } }
  match who with
  | .order r => settle (updReq s2 r fun q => { q with read := q.read.map fun p => { p with unrec := true } }) r (s.tb.count + 1)
  | .device d => setDev s2 d ((getDev s2 d).map fun y => { y with unrec := true })

/-- A codeword enters a stage of the ladder. -/
def ladderMove (s : State) (who : Reader) (i : Nat) (x : RdPart) (l : Ladder) : State :=
  let s1 := leaveSoft s who i
  if l.step = 5 ∨ (l.step = 4 ∧ (noRebuild s who || !rebuildable s x) = true) then ladderEnd s1 who i x
  else updPart s1 who i fun y => { y with ladder := l, sensed := if l.senses = 0 then y.sensed else none }

/-- The values under which a ladder runs are those in force as it starts (R165). -/
def ladderStart (s : State) : Ladder :=
  { noLadder with soft := rdForce s R.MED_LADDER_SOFT_EN != 0, retry := rdForce s R.MED_LADDER_RETRY_MAX }

/-- A read-around is abandoned (R163): its companions go, and every codeword that it was to rebuild is read directly, as soon as
its die takes reads. -/
def abandonAround (s : State) (rid : Nat) : State :=
  updReq s rid fun q => { q with read := q.read.map fun p =>
    { p with around := false, voided := true, segs := []
             parts := (p.parts.filter fun x => !x.companion).map fun x =>
               if x.rebuilding then { x with ladder := { x.ladder with due := true } } else x } }

/-- HARD_DECODE_FAIL: the promise is void, and the codeword starts down the ladder (R162); a companion ends its
read-around (R163). -/
def decodeFail (s : State) (who : Reader) (i : Nat) (x : RdPart) (parchk : Bool) : State :=
  let s1 := bumpAt s R.FCH_HARD_FAIL_CNT_HARD_FAIL (0x1000 * dieChan x.die) 0 1
  match who with
  | .order r =>
    let s2 := updReq s1 r fun q => { q with read := q.read.map fun p => { p with voided := true } }
    if x.companion && !parchk then abandonAround s2 r else ladderMove s2 who i x (ladderStart s2).next
  | .device _ => ladderMove s1 who i x (ladderStart s1).next

/-- A codeword decodes with so many bits corrected. -/
def decodeOk (s : State) (who : Reader) (i : Nat) (x : RdPart) (bits : Nat) : State :=
  let s1 := if bits = 0 then s else bumpAt s R.FCH_CORR_CNT_CORR (0x1000 * dieChan x.die) 0 1
  let s2 := if rdForce s R.MED_LADDER_REFRESH_TH < bits then markFailing s1 x.slab else s1
  updPart s2 who i fun y => { y with decoded := true }

/-- The codewords of a reader whose data came in before the present strike are decoded, as the flash tells. -/
def decodeRead (s : State) (e : StrikeEnv) (who : Reader) (parchk : Bool) : State :=
  let parts := readerParts s who
  let due := parts.zipIdx.filter fun y => y.1.need != 0 && y.1.moved == y.1.need && !y.1.decoded && y.1.ladder == noLadder
  due.foldl (fun t y =>
    -- an abandoned read-around has renumbered the parts: what is left decodes in the next strike
    if (readerParts t who).length != parts.length then t
    else match e.decodes.find? fun r => r.who == who && r.part == y.2 with
      | some r => match r.bits with
        | some b => decodeOk t who y.2 y.1 b
        | none => decodeFail t who y.2 y.1 parchk
      | none => decodeOk t who y.2 y.1 0) s

/-- The companions that follow a codeword rebuilt by read-around. -/
def companionsOf (l : List RdPart) (i : Nat) : List RdPart := (l.drop (i + 1)).takeWhile (·.companion)

/-- The parity segment of a companion in strike n: it runs where it was reserved if the data is there, and otherwise in the
first later strike in which the engine has room above the floor (R40). -/
def runSeg (s : State) (rid i n : Nat) (x : RdPart) : State :=
  match x.seg with
  | some (e, m) =>
    if x.segRun || !x.decoded || decide (n < m) then s
    else if m = n then updPart s (.order rid) i fun y => { y with segRun := true }
    else if pxRoom s e n = 0 then s
    else
      let s1 := { s with fl := { s.fl with engines := Tbl.upd nat0 s.fl.engines (pxKey e n) (· + 1) } }
      updPart s1 (.order rid) i fun y => { y with seg := some (e, n), segRun := true }
  | none => s

/-- The segments of a read in the present strike. -/
def runSegs (s : State) (rid : Nat) : State :=
  match (getReq s rid).bind (·.read) with
  | some p => p.parts.zipIdx.foldl (fun t y => runSeg t rid y.2 s.tb.count y.1) s
  | none => s

/-- A companion's segment has run in an earlier strike. -/
def RdPart.xored (x : RdPart) (n : Nat) : Bool := x.segRun && (x.seg.map fun g => decide (g.2 < n)).getD true

/-- Codewords rebuilt by read-around are done when their closing segment has run in an earlier strike (R40, R99). -/
def aroundRead (s : State) (rid : Nat) : State :=
  match (getReq s rid).bind (·.read) with
  | some p =>
    let n := s.tb.count
    let l := p.parts.zipIdx.map fun y =>
      if y.1.rebuilding && (companionsOf p.parts y.2).all (·.xored n) && decide (y.1.slast < n) then { y.1 with decoded := true }
      else y.1
    updReq s rid fun q => { q with read := q.read.map fun r => { r with parts := l } }
  | none => s

/-- Every reader with parts: the admitted reads, and the reads of the device. -/
def readers (s : State) : List Reader :=
  ((s.ord.reqs.filter fun e => (e.2.bind (·.read)).isSome).map fun e => Reader.order e.1) ++ s.fl.devs.map fun e => Reader.device e.1

/-- The decodes of a strike, for every reader. -/
def decodeAll (s : State) (e : StrikeEnv) : State :=
  (readers s).foldl (fun t w => match w with
    | .order r =>
      let u := decodeRead t e w (((getReq t r).map (·.op)) == some 0x57)
      settle (aroundRead (runSegs u r) r) r t.tb.count
    | .device _ => decodeRead t e w false) s

/-- Decoders of a pool (R163), and the decodes that one has. -/
def poolSize : Nat := 8
def poolJobs (q : List SoftJob) (k : Nat) : Nat := (q.filter fun e => e.pool == some k).length

/-- A decode that waits takes a free decoder of a pool that serves, the lower first; one that has a decoder runs on (R163, Table
14.6). The decodes before it, and itself. -/
def seatJob (s : State) (before : List SoftJob) (e : SoftJob) : SoftJob :=
  { e with pool := e.pool.orElse fun _ =>
      [0, 1].find? fun k => domServes s (ldDom k) && decide (poolJobs before k < poolSize) }

/-- Every decode in arrival order: those with a decoder keep it. -/
def seatJobs (s : State) : List SoftJob :=
  let held := s.fl.softQ.filter (·.pool.isSome)
  s.fl.softQ.foldl (fun l e => l ++ [if e.pool.isSome then e
    else seatJob s ((l.filter fun x => !held.contains x) ++ held) e]) []

/-- The iterations that a soft decoder runs in a strike, and the most that a decode takes (Tables 2.2 and 6.7). -/
def softGrant (s : State) : Nat := 5 * perQ s / 4
def softMost : Nat := 20

/-- The senses of a stage are planned at the end of the die's read sequence, with D = 0, as soon as the die takes reads (R162);
so is the direct read of a codeword whose read-around was abandoned (R163). -/
def ladderSense (s : State) (who : Reader) (i : Nat) (x : RdPart) : State :=
  let n := max 1 x.ladder.senses
  match (List.range n).foldl (fun (r : Option (Nat × Nat × State)) _ => r.bind fun t =>
      planSense t.2.2 x.die t.2.2.tb.count who i) (some (0, 0, s)) with
  | none => s
  | some (si, sd, t) => updPart t who i fun y =>
      if y.ladder.step = 0 then
        { y with si := si, sd := sd, slast := sd, need := cwBursts t (dieChan x.die), sensed := none, ladder := noLadder }
      else { y with ladder := { y.ladder with due := false } }

/-- The companions of a rebuild are read (R162 step 4, R179): the other pages of the stripe that no buffer serves. -/
def rebuildStart (s : State) (who : Reader) (i : Nat) (x : RdPart) : State :=
  let ready := fun (t : State) => updPart t who i fun y => { y with ladder := { y.ladder with due := false } }
  if placeBuffered s { course := x.course, page := x.page, cw := 0 } then ready s
  else
    let pages := ((List.range 16).filter (· != x.page % 16)).map fun p => x.page / 16 * 16 + p
    match pages.foldl (fun (r : Option State) p => r.bind fun t =>
        planPage t (.ladder who i) x.course p (pageCws t x.course p)) (some s) with
    | some t => ready t
    | none => s

/-- The rebuild of a codeword on its engine. -/
def ladderJob (s : State) (who : Reader) (i : Nat) : Option Rebuild := s.fl.rebuilds.find? fun x => x.what == .ladder who i

/-- Whether step 4 has ended, and how: from a buffer at once; else once the companions are in and the 60 segments have run; not,
when a companion is not recovered (R163, R185). -/
def rebuildOutcome (s : State) (who : Reader) (i : Nat) (x : RdPart) : Option Bool :=
  if placeBuffered s { course := x.course, page := x.page, cw := 0 } then some true
  else
    let l := devsOf s (.ladder who i)
    if !l.all (·.2.finished) then none
    else if l.any (·.2.unrec) then some false
    else match ladderJob s who i with
      | some j => if j.left = 0 then some true else none
      | none => none

/-- One codeword on the ladder in one strike: its senses or companions are planned, it joins the soft decoders when the data of a
soft stage is in, or its rebuild goes to a parity engine. -/
def ladderPart (s : State) (who : Reader) (i : Nat) (x : RdPart) : State :=
  let dataIn := x.ladder.senses == 0 && x.moved == x.need
  if x.decoded then s
  else if x.ladder.due then
    if x.ladder.step ≠ 4 then ladderSense s who i x
    else if noRebuild s who || !rebuildable s x then ladderEnd s who i x
    else rebuildStart s who i x
  else if x.ladder.step = 4 then
    if (rebuildOutcome s who i x).isNone && (devsOf s (.ladder who i)).all (·.2.finished) && (ladderJob s who i).isNone then
      let j : Rebuild := { what := .ladder who i, engine := engineFor s x.course, left := 60 }
      { s with fl := { s.fl with rebuilds := s.fl.rebuilds ++ [j] } }
    else s
  else if x.ladder.inSoft && dataIn && !(s.fl.softQ.any fun e => e.who == who && e.part == i) then
    let job : SoftJob := { who := who, part := i, pool := none, ran := 0 }
    reachSoft { s with fl := { s.fl with softQ := s.fl.softQ ++ [job] } }
  else s

/-- The ladder's share of a strike, with the iterations of the soft decoders (R26, R163). -/
def ladderStrike (s : State) : State :=
  let s1 := (readers s).foldl (fun t w => (readerParts t w).zipIdx.foldl (fun u y => ladderPart u w y.2 y.1) t) s
  { s1 with fl := { s1.fl with softQ := (seatJobs s1).map fun e =>
    if e.pool.isSome then { e with ran := min softMost (e.ran + softGrant s1) } else e } }

/-- Whether a stage of a codeword can end so: a soft decode with data after its first iterations, and without after the last
one; a hard decode of a retry entry once its data is in; a rebuild as it has come out. -/
def ladderRuns (s : State) (who : Reader) (i : Nat) (x : RdPart) (ok : Bool) : Bool :=
  let l := x.ladder
  let ran := (s.fl.softQ.find? fun e => e.who == who && e.part == i).any fun e =>
    e.pool.isSome && decide ((if ok then 1 else softMost) ≤ e.ran)
  !x.decoded && !l.due && l.senses == 0 && x.moved == x.need
    && (match l.step with
        | 2 => ran
        | 3 => !l.inSoft || ran
        | 4 => rebuildOutcome s who i x == some ok
        | _ => false)

/-- A codeword is recovered at a step: counted, and in step 4 its page stands as rebuilt (R162, R165, R190). -/
def ladderFound (s : State) (who : Reader) (i : Nat) (x : RdPart) : State :=
  match x.ladder.step with
  | 2 => bump s R.MED_SOFT_CNT_SOFT
  | 3 => bump s R.MED_RETRY_CNT_RETRY
  | _ =>
    let s1 := bump s R.MED_REBUILD_CNT_REBUILD
    match getCourse s x.course, ladderJob s who i with
    | some c, some _ => rebuildPage s1 x.course c (x.page / 16, x.page % 16) true
    | _, _ => s1

/-- LADDER_STEP_DONE: the step yields correct data, which marks the slab failing, or the ladder moves on (R161 to R163). -/
def ladderStepDone (s : State) (who : Reader) (i : Nat) (x : RdPart) (ok : Bool) : State :=
  let clear := fun (t : State) => dropDevs t (· == .ladder who i) (· == .ladder who i)
  if ok then
    let s1 := clear (leaveSoft (ladderFound s who i x) who i)
    settleReader (updPart (markFailing s1 x.slab) who i fun y => { y with decoded := true }) who
  else ladderMove (clear s) who i x x.ladder.next

/-- LADDER_STEP_DONE (R162). -/
def execLadderStepDone (who : Reader) (part : Nat) (ok : Bool) (s : State) : Answer :=
  match (readerParts s who)[part]? with
  | some x => stepIf s (ladderRuns s who part x ok) (ladderStepDone s who part x ok)
  | none => .next s

/-! ## Timeouts and lost dies (R160, R196) -/

/-- Whether an operation of a die has run for longer than OP_MS. -/
def timedOut (s : State) (x : Die) : Bool :=
  let limit := 4000 * max 1 (rd s R.FCH_TIMEOUT_OP_MS)
  let sense := match x.sensing with
    | some p => decide (limit < (s.tb.count - p.si) * perQ s)
    | none => x.bg.isSome && decide (limit < (s.tb.count + senseStrikes s - x.tailSd) * perQ s)
  (x.busyOp && x.st != .suspended && decide (limit < x.runTotal)) || sense

/-- DIE_OP_TIMEOUT: the channel sends LUN Reset (R196). -/
def execDieOpTimeout (die : Nat) (s : State) : Answer :=
  let x := getDie s die
  stepIf s (x.present && !x.lost && !x.resetting && timedOut s x)
    (emit (bumpAt (setDie s die { x with resetting := true }) R.FCH_TIMEOUT_CNT_TIMEOUT (0x1000 * dieChan die) 0 1)
      (.lunReset die))

/-- The die is back in service, and the operation that timed out has failed (R196 step 3); where a window read timed out, so
has the suspended operation that the reset ended with it (DESIGN CHOICE, log entry 38); a suspended erase fails as any other
(log entry 41). -/
def timeoutFailed (s : State) (d : Nat) : State :=
  let x := getDie s d
  let again := match x.sensing with
    | some p => [{ p with si := s.tb.count + 1, sd := s.tb.count + 1 + senseStrikes s }]
    | none => []
  let s1 := setDie s d { x with resetting := false, sensing := none, bg := none, seq := x.seq ++ again
                                st := if x.st = .reading then .idle else x.st }
  if x.target.isSome then programFailed s1 d
  else if x.erasing then eraseFailed s1 d
  else s1

/-- The promise of a read whose die is lost: it is void, but where P passed while the die timed out it is a breach, with cause
1 (R41, R196). -/
def lostPlan (n : Nat) (r : ReadPlan) : ReadPlan :=
  if r.voided then r else if n < r.promise then { r with voided := true } else { r with cause := some 1 }

/-- The reads on a lost die go to the last steps of the ladder: they are completed from a buffer or by rebuild, or end unrecovered
(R160 step 1). -/
def lostReads (s : State) (d : Nat) : State :=
  (readers s).foldl (fun t w =>
    let ps := readerParts t w
    let around := ps.any fun x => x.die == d && x.companion && !x.decoded
    match w, around with
    | .order r, true => abandonAround t r
    | _, _ => ps.zipIdx.foldl (fun u y =>
        if y.1.die == d && !y.1.decoded && y.1.ladder.step != 4 && y.1.need != 0 then
          let v := match w with
            | .order r => updReq u r fun q => { q with read := q.read.map (lostPlan s.tb.count) }
            | .device _ => u
          ladderMove v w y.2 y.1 ((ladderStart v).stage 4 0 0 false)
        else u) t) s

/-- What a course does about a slab on a lost die: a destination is given up, an open collection course takes another slab, a
replacement is replaced, and all others mend, zone or conventional (R157, R158, R160). -/
def lostCourse (s : State) (d id : Nat) : State :=
  match getCourse s id with
  | none => s
  | some c =>
    let on := fun (a : Nat) => slabDie a == d
    let s1 := (c.mends.filter fun m => on m.slab).foldl (fun t m => remend t id m.pos 4) s
    if c.kind == .dest then (if c.slabs.any on then dropMigration s1 id else s1)
    else if c.kind == .collect && c.isOpen then
      (List.range 16).foldl (fun t p => match getCourse t id with
        | some k => if on (k.slabs.getD p 0) && !k.slabs.isEmpty then replaceCollect t id p k else t
        | none => t) s1
    else startMends s1 id

/-- DIE_LOST: its slabs retire, reserved ones being replaced, and its courses mend. What only the lost die held of a Standard course
is recorded as the mend comes to it (R132, R160). -/
def dieLost (s : State) (d : Nat) : State :=
  let s1 := raise (setDie s d { die0 0 with lost := true }) (event (dieChan d) 0x0302 [(2, d)])
  let mine := (s1.med.slabs.filter fun e => slabDie e.1 == d && e.2.st != .retired).map (·.1)
  let s2 := mine.foldl (fun t a =>
    let t1 := bump t R.MED_PROG_FAIL_CNT_PROG_FAIL
    if (getSlab t a).reserved then replaceReserved t1 a 4
    else
      let o := (getSlab t a).course
      let u := repaySlab (retireSlab t1 a 4) a
      setSlab u a { getSlab u a with fail := 4, course := o }) s1
  lostReads (s2.med.courses.foldl (fun t e => lostCourse t d e.1) s2) d

/-- LUN_RESET_DONE (R196). -/
def execLunResetDone (die : Nat) (idOk : Bool) (s : State) : Answer :=
  stepIf s (getDie s die).resetting (if idOk then timeoutFailed s die else dieLost s die)

/-! ## Training (R199 to R202) -/

/-- The rate at which a channel starts its training: the lower of MAX_RATE and RATE_CAP (R199). -/
def startRate (s : State) (c : Nat) : Nat :=
  max (min 2 (famField s 3 1)) (min 2 (rdAt s R.FCH_CTRL_RATE_CAP (0x1000 * c) 0))

/-- The reading that gives a channel's temperature. -/
def chanTemp (s : State) (c : Nat) : Int := (getInput s (rdForceAt s R.FCH_TRAIN_SENSOR (0x1000 * c) 0)).reading

/-- A channel's training ends: READY at a rate, or FAULT with all its dies excluded. -/
def trained (s : State) (c : Nat) (rate : Option (Fin 3)) : State :=
  let x := getChan s c
  match rate with
  | some r =>
    let s1 := setChan s c { x with st := .ready, rate := r.val, retained := true, tempAt := chanTemp s c, recentre := 0
                                   wpHigh := true }
    if startRate s c < r.val then wrAt s1 R.FCH_STATUS_TRAIN_FAIL (0x1000 * c) 0 1 else s1
  | none =>
    let s1 := setChan s c { x with st := .fault, retained := false, recentre := 0, wpHigh := false }
    let s2 := (List.range 32).foldl (fun t i => if (getDie t (32 * c + i)).present then
        setDie t (32 * c + i) { getDie t (32 * c + i) with present := false } else t) s1
    raise (wrAt s2 R.FCH_STATUS_TRAIN_FAIL (0x1000 * c) 0 1) (event c 0x0401 [(1, c), (1, 2)])

/-- CHANNEL_TRAINING_DONE (R199). -/
def execChannelTrainingDone (ch : Nat) (rate : Option (Fin 3)) (s : State) : Answer :=
  stepIf s ((getChan s ch).st == .training && (rate.map fun r => decide (startRate s ch ≤ r.val)).getD true)
    (trained s ch rate)

/-- A re-centre ends: the new values hold, or the old ones are kept and EYE_LOW sets (R202). -/
def recentred (s : State) (c : Nat) (narrow : Bool) : State :=
  let x := getChan s c
  let s1 := bumpAt (setChan s c { x with recentre := 0, tempAt := chanTemp s c }) R.FCH_RETRAIN_CNT_RETRAIN (0x1000 * c) 0 1
  if narrow then raise (wrAt s1 R.FCH_STATUS_EYE_LOW (0x1000 * c) 0 1) (event c 0x0402 [(1, c), (1, x.rate)]) else s1

/-- RECENTRE_DONE (R202): all the steps are done. -/
def execRecentreDone (ch : Nat) (narrow : Bool) (s : State) : Answer :=
  stepIf s ((getChan s ch).recentre == 1) (recentred s ch narrow)

end Sys2Proof.Machine
end

