-- ==== Sys2Proof/Machine/Recovery.lean ====
section
/-! DEFINITION. Media bring-up: identification (R138, R198, R199), the first format (R134, R142 to R145, R421), the
division of DRAM (R310, R311), and the recovery of the media and of the tenants at a boot or a wake (R122, R133, R147,
R184, R242, R335, R362). -/

namespace Sys2Proof.Machine

/-! ## DRAM (R306, R310, R311); sizes in MiB -/

/-- Installed capacity. -/
def dramMib (s : State) : Nat := 4 * 16384 * 2 ^ min 2 (rd s R.DRM_POP_CAP)

/-- A size rounded up to whole 256 MiB. -/
def round256 (mib : Nat) : Nat := ceilDiv mib 256 * 256

/-- Bytes of region 4 at a format (R145). -/
def region4Bytes (s : State) (courses pool : Nat) : Nat :=
  32 * (2048 * dieSlabs s) + 96 * (courses + 2048 + ceilDiv pool 8) + 64 * 2 ^ 20

/-- Regions 1 to 6 of Table 13.2. -/
def dramRegions (region4 pool : Nat) : Nat := 1024 + 256 + 1024 + round256 (ceilDiv region4 (2 ^ 20)) + 3072 + 1024 * pool

/-- The DRAM buffer pool that is left, and whether it is large enough. -/
def dramPool (s : State) : Nat := dramMib s - dramRegions s.med.region4 s.med.mapPool
def poolFits (s : State) : Bool := decide (dramRegions s.med.region4 s.med.mapPool + 2048 ≤ dramMib s)

/-! ## Channels (R198, R199) -/

/-- Whether the descriptor lets media bring-up start (R198). -/
def descriptorOk (s : State) : Bool := famField s 0 2 == 1 && decide (1664 ≤ famField s 0x2C 2)

/-- A die that is excluded is recorded with its reason. -/
def excludeDie (s : State) (c : Nat) (e : Nat × Nat) : State := raise s (event c 0x0301 [(2, 32 * c + e.1), (1, e.2)])

/-- The reason of Table 17.2 for which a LUN is excluded, 0 where it is not: its ID is none of the family's, its parameter page
fails its CRC, or its geometry is not the descriptor's or lies outside Table 6.1 (R138, R198). -/
def lunFault (s : State) (l : LunReport) : Nat :=
  let ids := (List.range 4).map fun k => (List.range 8).map fun i => BitVec.ofNat 8 (famField s (4 + 8 * k + i) 1)
  let known := ids.any fun x => x == l.id && x.any (· != 0)
  let same := l.planes == planes s && l.cell == famField s 0x25 1 && l.blkMib == blkMib s && l.blocks == dieSlabs s
  let fits := decide (512 ≤ l.gbit ∧ l.gbit ≤ 4096 ∧ 4 ≤ l.planes ∧ l.planes ≤ 6 ∧ 1 ≤ l.cell ∧ l.cell ≤ 2
    ∧ 8 ≤ l.blkMib ∧ l.blkMib ≤ 256 ∧ l.blocks ≤ 65536)
  if !known then 1 else if !l.crcOk then 2 else if !(same && fits) then 3 else 0

/-- Identification and training of one channel. A channel that is not in use stays OFF, and a lost die is never
identified again. -/
def bringChannel (s : State) (r : ChannelReport) : State :=
  if rdAt s R.FCH_CTRL_EN (0x1000 * r.ch) 0 = 0 ∨ channelCount ≤ r.ch then s
  else
    let s1 := (r.luns.filter fun l => decide (l.lun < 32)).foldl (fun t l =>
      let d := getDie t (32 * r.ch + l.lun)
      if d.lost then t
      else if lunFault s l ≠ 0 then excludeDie t r.ch (l.lun, lunFault s l)
      else setDie t (32 * r.ch + l.lun) { d with present := true }) s
    trained s1 r.ch r.rate

/-- Media bring-up stops (R198, R311, R421): the device then has no namespaces. -/
def bringupFault (s : State) (cause : Nat) : State :=
  raise { s with med := { s.med with bringupFault := true } } (event 234 0x0308 [(1, cause)])

/-! ## The first format (R421) -/

/-- The block that a slab position of a die has on each plane, where all are good (R139): with PAIR_FREE the plane's good block of
that number in order, else the same block on every plane. -/
def slabBlocks (s : State) (b : BootReport) (die k : Nat) : Option (List Nat) :=
  let bad := fun (p x : Nat) => b.badBlocks.contains (die, p, x)
  let got := (List.range (planes s)).filterMap fun p =>
    if famField s 0x2E 1 = 1 then ((List.range (dieSlabs s)).filter fun x => !bad p x)[k]? else if bad p k then none else some k
  if got.length = planes s then some got else none

/-- Good slab positions in address order, which runs over the channels first, with their blocks. -/
def goodSlabs (s : State) (b : BootReport) : List (Nat × List Nat) :=
  (List.range (2048 * dieSlabs s)).filterMap fun a =>
    if (getDie s (slabDie a)).present then (slabBlocks s b (slabDie a) (slabIndex a)).map fun x => (a, x) else none

/-- Slabs of one flush area (R142). -/
def areaSlabs (s : State) : Nat :=
  if slabBytes s = 0 then 0 else ceilDiv (ceilDiv (4160 * 2 ^ 20 * cellBits s) (slabBytes s)) 64 * 64

/-- Slabs of the system area (R143). -/
def systemSlabs (s : State) (good : Nat) : Nat :=
  max (ceilDiv (rd s R.MED_SYS_SIZE_FRAC * good) 10000)
    ((if slabBytes s = 0 then 0 else ceilDiv (2 * rd s R.MED_MAP_POOL_GIB * 2 ^ 30) (slabBytes s)) + 512)

/-- The slabs of a list that lie on a channel, from a place, so many. -/
def onChannel (l : List Nat) (c from_ n : Nat) : List Nat := ((l.filter fun a => slabChan a == c).drop from_).take n

/-- Format the media: the accounts of Table 6.4, the flush areas spread over the channels, the system area, and every
other good slab waiting for its erase. The journal's ring is the last 512 slabs of the system area (log entry 61), and the
format's own checkpoint is its first. -/
def format (s : State) (b : BootReport) : State :=
  let g := goodSlabs s b
  let l := g.map (·.1)
  let n := areaSlabs s
  let good := l.length
  let sys := systemSlabs s good
  let target := ceilDiv (25 * good) 1000
  let courses := (good - 2 * n - sys - target) / 16
  let per := n / 64
  let a := (List.range 64).flatMap fun c => onChannel l c 0 per
  let bb := (List.range 64).flatMap fun c => onChannel l c per per
  let rest := l.filter fun x => !a.contains x && !bb.contains x
  let sysl := rest.take sys
  let stOf := fun (x : Nat) => if a.contains x || bb.contains x then SlabState.slcReserve
    else if sysl.contains x then SlabState.system else SlabState.erasePending
  let slabs := g.map fun x =>
    (x.1, { st := stOf x.1, blocks := x.2, pe := 0, erasedAt := 0, course := none, fail := 0, failedPe := none })
  let m : Image := { noImageOf with slabs := slabs }
  { s with med := { s.med with
      formatted := true
      slabs := slabs, jrn := { emptyJournal with slabs := sysl.drop (sys - 512), now := m, flash := m, ckpt := m }
      good := good, retiredCnt := 0, slcReserve := 2 * n, systemArea := sys, dataCourses := courses
      factory := good - 2 * n - sys - 16 * courses, mapPool := rd s R.MED_MAP_POOL_GIB
      region4 := region4Bytes s courses (rd s R.MED_MAP_POOL_GIB), areaA := a, areaB := bb, armedB := false } }

/-- Whether the good slabs leave the factory spare pool that R144 asks for. -/
def spareFits (s : State) (good : Nat) : Bool :=
  decide (2 * areaSlabs s + systemSlabs s good + ceilDiv (25 * good) 1000 ≤ good)

/-! ## What the flush and the parking covered (R335, R359, R362) -/

/-- Codewords of the ledger that are still dirty, oldest first: course and data offset. -/
def dirtyCws (s : State) : List (Nat × Nat) :=
  s.med.ledger.flatMap fun e => match getCourse s e.1 with
    | none => []
    | some c => ((List.range (ceilDiv e.2.2 4096)).map fun j => e.2.1 + 4096 * j).filterMap fun o =>
        let p := pagePlace c.bedrock (o / 16384)
        if c.verifiedRows p.2 ≤ rowOf s p.1 then some (e.1, o) else none

/-- Whether rows that an earlier recovery restored, or that were parked, still hold a codeword in the used area. -/
def inUsedArea (s : State) (x : Nat × Nat) : Bool := s.med.restored.any fun r => r.1 == x.1 && decide (x.2 < r.2)

/-- The blocks of a codeword at a data offset of a course: by LBA, and by their offsets. -/
def offsetBlocks (s : State) (x : Nat × Nat) : List Nat :=
  match getCourse s x.1 with
  | some c =>
    let p := pagePlace c.bedrock (x.2 / 16384)
    cwBlocks s { course := x.1, page := p.1 * 16 + p.2, cw := x.2 % 16384 / 4096 }
  | none => []
def offsetOffs (s : State) (x : Nat × Nat) : List Nat :=
  match getCourse s x.1 with
  | some c => (List.range (4096 / courseBlock s c)).map fun j => x.2 / 4096 * 4096 + j * courseBlock s c
  | none => []

/-- The data of every dirty codeword, oldest admission first, by course and offset (R335, R359). -/
def dirtyData (s : State) : List (Nat × Nat × List Byte) :=
  (dirtyCws s).flatMap fun x => (offsetOffs s x).filterMap fun o => (blockAt s x.1 o).map fun b => (x.1, o, b)

/-- Bytes of host data that a flush saved: what its last record covers, beyond the recovery records (R359, R360). -/
def flushedBytes (b : Bellows) : Nat := b.recBytes - b.recRecs

/-- The dirty codewords that are gone: after a flush those beyond what it saved, after a reset without one all of them. -/
def lostCws (s : State) : List (Nat × Nat) :=
  let l := dirtyCws s
  let kept := if !s.blw.recOpen then 0 else if s.blw.recFinal then l.length else flushedBytes s.blw / 4096
  (l.drop kept).filter fun x => !inUsedArea s x

/-- Blocks of an incomplete flush read unrecovered; its loss is reported (R362 step 4). -/
def loseFlushed (s : State) (lost : List (Nat × Nat)) : State :=
  let ks := lost.flatMap (offsetBlocks s)
  let s1 := { s with med := { s.med with unrec := s.med.unrec ++ ks.filter fun k => !s.med.unrec.contains k
                                         lossWarn := true } }
  raise (wr s1 R.BLW_STATUS_FLUSH_INCOMPLETE 1) (event 242 0x0907 [(8, 4096 * lost.length)])

/-- Blocks that a reset without a flush took from the write buffer hold free values (log entry 30). -/
def loseUnflushed (s : State) (lost : List (Nat × Nat)) : State :=
  (lost.flatMap fun x => (offsetOffs s x).map fun o => (x.1, o)).foldl (fun t e =>
    match blockAt t e.1 e.2 with
    | none => t
    | some b => { storeBlock t e.1 e.2 (Config.freeBytes t.freeCtr b.length) with freeCtr := t.freeCtr + 1 }) s

/-! ## The journal (R147) -/

/-- Whether the records that were staged are in the flush area: they are the first bytes of a flush (R359). -/
def recordsKept (b : Bellows) : Bool := b.recOpen && (b.recFinal || decide (b.recRecs ≤ b.recBytes))

/-- The boot loads the last checkpoint and replays the journal, and then the staged records that a flush has saved. Without them
the structures are as the journal in flash has them (R147, R362 steps 1 and 2). -/
def replayJournal (s : State) : State :=
  let j := s.med.jrn
  if recordsKept s.blw then setJrn s { j with going := [], staged := ((s.blw.image.map (·.recs)).getD j.staged) }
  else
    { s with med := { s.med with
        zones := j.flash.zones, slabs := j.flash.slabs, courses := j.flash.courses, map := j.flash.map
        jrn := { j with going := [], staged := [], now := j.flash } } }

/-! ## Replay (R133, R184) -/

/-- Copies of a collection that were not journalled are undone, unless the entry has changed since, and its course is closed (R147,
R150, R151). -/
def undoCollection (s : State) (k : Nat) (d : Domain) : State :=
  let nsid := k / 2 ^ 16
  let s1 := match d.run with
    | none => s
    | some r => r.copies.foldl (fun t x =>
        if x.mapped && unitAt t nsid x.unit == some x.dest then setUnitAt t nsid x.unit (some x.src) else t) s
  let s2 := match d.dest with
    | some c => updCourse s1 c fun x => { x with isOpen := false, finished := true }
    | none => s1
  setDomain s2 nsid (k % 2 ^ 16) (some { d with run := none, dest := none })

/-- The dirty data of a flush returns to the write buffer (R362 step 3). -/
def restoreData (s : State) (m : FlushImage) : State := m.data.foldl (fun t e => storeBlock t e.1 e.2.1 e.2.2) s

/-- The Mortar sets of a flush return with their descriptors (R184). -/
def restoreSets (s : State) (m : FlushImage) : State :=
  m.sets.foldl (fun t x =>
    let accs := x.accs.zipIdx.foldl (fun (a : Tbl (List Byte)) e => Tbl.set page0 a (x.set * 16 + e.2) e.1) t.med.accs
    updCourse { t with med := { t.med with accs := accs } } x.course fun c => { c with units := x.units, set := some x.set }) s

/-- A unit that was being sent is XORed out of its set with its data from the flush area, and is NONE (R184). -/
def backOut (s : State) (id pos : Nat) : State :=
  match getCourse s id with
  | none => s
  | some c =>
    let u := c.unit pos
    if u.st = .sending then
      let t := match c.set with
        | some n => xorSegments s n id c u.row pos 0 (bitCount u.bitmap)
        | none => s
      setCourse t id (some (c.setUnit pos { row := 0, bitmap := 0, st := .none, moved := 0, sensed := 0 }))
    else s

/-- The pages of a course that cannot be read are rebuilt by R180, with the descriptors as the flush kept them; those that nothing
rebuilds are recorded (R132, R184). -/
def rebuildAtBoot (s : State) (id : Nat) (pages : List Nat) : State :=
  match getCourse s id with
  | none => s
  | some c =>
    let r := rebuildLost s id c (pages.map fun p => (p / 16, p % 16))
    losePages r.1 id (r.2.map fun x => x.1 * 16 + x.2)

/-- The Keystone pages of a course's complete rows that were not verified are computed again from the data (R178). -/
def remakeKeystone (s : State) (id : Nat) : State :=
  match getCourse s id with
  | none => s
  | some c =>
    if !c.bedrock then s
    else
      let from_ := c.done.foldl min (rowsReady s c)
      ((List.range (rowsReady s c)).filter fun r => decide (from_ ≤ r)).foldl (fun t r =>
        (List.range (unitPages t r)).foldl (fun v q => makeKeystone v id c (rowStart v r + q)) t) s

/-- A course after the recovery: no mend runs, every complete row is programmed and verified but at the positions that failed,
incomplete rows lie in the write buffer. A set is kept while its course is still open, which no zone's is after a boot, or while
a position is still to be sent again (R133, R184, R362 step 3). -/
def settleCourse (s : State) (id : Nat) (fails : List (Nat × Nat)) : State :=
  match getCourse s id with
  | none => s
  | some c =>
    let bad := fun (p : Nat) => fails.contains (id, p) && decide (c.doneAt p < rowsReady s c)
    let again := (List.range 16).any bad
    let set := if again then c.set.orElse (fun _ => freeSet s) else if c.kind == .conv && c.isOpen then c.set else none
    setCourse s id (some { c with
      mends := [], units := noUnits, sent := rowsReady s c, keyLeft := 0, set := set
      done := (List.range 16).map fun p => if bad p then c.doneAt p else rowsReady s c })

/-- A unit that fails its read-back in the recovery is handled as a program failure (R184). -/
def recoveryFail (s : State) (f : Nat × Nat) : State := if (getCourse s f.1).isSome then verifyFailed s f.1 f.2 false else s

/-- Zones that were open become Closed, or Empty if nothing is written and no extension is set (R122). -/
def bootZoneClose (s : State) : State :=
  s.med.zones.foldl (fun t e =>
    let nsid := e.1 / 2 ^ 32
    let k := e.1 % 2 ^ 32
    let z := getZone t nsid k
    match getNs t nsid with
    | none => t
    | some n =>
      if !z.st.isOpen then t
      else if z.wp = 0 ∧ z.ext.isNone then emptyZone t n nsid k .empty
      else
        let t1 := setZone t nsid k { z with st := .closed }
        match z.course with
        | some c => setOpen t1 c false
        | none => t1) s

/-- Slabs that wait for their erase are queued at their dies again. -/
def queueErases (s : State) : State :=
  s.med.slabs.foldl (fun t e =>
    if e.2.st = .erasePending || t.med.jrn.dirty.contains e.1 then
      let d := getDie t (slabDie e.1)
      setDie t (slabDie e.1) (d.queueErase e.1)
    else t) s

/-- Relocations after a boot: a migration whose cut-over was recorded takes effect, and every other one is discarded, with every
mend (R133). -/
def replayMoves (s : State) : State :=
  let s1 := s.med.zones.foldl (fun t e =>
    let n := e.1 / 2 ^ 32
    let k := e.1 % 2 ^ 32
    abandonMoves (if e.2.cutAt.isSome then cutMigration t n k else t) n k) s
  s1.med.courses.foldl (fun t e => dropMends t e.1) s1

/-- The recovery of the parity (R184), of the collections (R150) and of the relocations: the units that fail are `fails`, and the
pages that cannot be read are `pages`, both by course. -/
def replay (s : State) (fails pages : List (Nat × Nat)) : State :=
  let s1 := replayMoves (s.med.domains.foldl (fun t e => match e.2 with
    | some d => undoCollection t e.1 d
    | none => t) s)
  let ids := s1.med.courses.map (·.1)
  let s2 := ids.foldl (fun t id => (List.range 16).foldl (fun u p => backOut u id p) t) s1
  let s3 := ids.foldl (fun t id => rebuildAtBoot t id ((pages.filter fun p => p.1 == id).map (·.2))) s2
  let s4 := ids.foldl (fun t id => settleCourse (remakeKeystone t id) id fails) s3
  let sets := s4.med.courses.foldl (fun (m : Tbl (Option Nat)) e => match e.2.bind (·.set) with
    | some n => Tbl.set Tbl.absent m n (some e.1)
    | none => m) []
  let s5 := { s4 with med := { s4.med with
    sets := sets, resident := [], accs := []
    releases := Tbl.mapAll Tbl.absent s4.med.releases fun _ x => x.map fun r => { r with until_ := 0 } } }
  queueErases (fails.foldl recoveryFail s5)

/-- The recovery of the media at a boot: the journal, the flush or its absence, the parity, and the dirty bytes that stay (R147,
R362). -/
def recoverMedia (s : State) (fails pages : List (Nat × Nat)) : State :=
  let s0 := replayJournal s
  let lost := lostCws s0
  let s1 := if !s.blw.recOpen then loseUnflushed s0 lost
    else
      let t := match s.blw.image with
        | some m => if s.blw.recFinal then restoreSets (restoreData s0 m) m else restoreData s0 m
        | none => s0
      let u := if s.blw.recFinal then t else loseFlushed t lost
      { u with blw := { u.blw with
          recOpen := false, recFinal := false, recBytes := 0, recRecs := 0, recSupply := false, recovered := true
          lossCnt := if u.blw.recSupply then min (u.blw.lossCnt + 1) 0xFFFFFFFF else u.blw.lossCnt } }
  let s2 := replay s1 fails pages
  let dirty := s2.med.courses.filterMap fun e => match e.2 with
    | some c => if courseDirty s2 c = 0 then none else some (e.1, c.fill)
    | none => none
  let s3 := { s2 with med := { s2.med with ledger := s2.med.ledger.filter fun e => dirty.any fun r => r.1 == e.1 } }
  if s.blw.recOpen then { s3 with med := { s3.med with restored := dirty, areaHeld := true } } else s3

/-! ## Bring-up as a whole -/

/-- The format of a blank device, or the recovery of a formatted one. -/
def bringMedia (s : State) (b : BootReport) : State :=
  if s.med.formatted then
    if poolFits s then recoverMedia { s with mem := { s.mem with dramFree := 256 * dramPool s } } b.verifyFails b.lostPages
    else bringupFault s 2
  else
    let good := (goodSlabs s b).length
    let f := format s b
    if !spareFits s good then bringupFault (fresh s).2 ((fresh s).1.toNat % 256)
    else if poolFits f then queueErases { f with mem := { f.mem with dramFree := 256 * dramPool f } }
    else bringupFault s 2

/-- Media bring-up (R198). -/
def mediaBringup (s : State) (b : BootReport) : State :=
  let s0 := { s with med := { s.med with bringupFault := false } }
  if descriptorOk s0 then bringMedia (setPads (b.channels.foldl bringChannel s0)) b else bringupFault s0 1

/-! ## Tenants (R242) -/

/-- A tenant as its shadow restores it: both buckets full, dirty-page logging off, a modify that was answered in force. -/
def restoreTenant (x : Tenant) : Tenant :=
  if x.st = .none ∨ x.st = .destroying then ten0 0
  else
    let b := match x.mods with
      | some (m, c) => x.blk.overlay c m
      | none => x.blk
    { st := .active, gen := (x.gen + 1) % 65536, blk := b, mods := none, rd := b.rdDepth, wr := b.wrDepth, since := 0
      resetAt := none
      flrWaiting := false, dirty := dirtyOff }

/-- Restore every tenant. -/
def restoreTenants (s : State) : State := { s with ten := Tbl.mapAll ten0 s.ten fun _ x => restoreTenant x }

/-! ## Readiness of namespaces -/

/-- Namespaces of a kind become ready, or stop being so. -/
def nsReady (s : State) (p : Namespace → Bool) (v : Bool) : State :=
  { s with med := { s.med with ns := Tbl.mapAll Tbl.absent s.med.ns fun _ n => n.map fun x => if p x then { x with ready := v } else x } }

/-- The bytes that lie in the used flush area have all verified (R362 step 5). -/
def restoredVerified (s : State) : Bool := s.med.restored.all fun r => match getCourse s r.1 with
  | some c => courseDirty s { c with fill := min c.fill r.2 } == 0
  | none => true

/-- The energy covers everything at risk, after a test has passed (R362 step 5). -/
def restoredCovered (s : State) : Bool := s.blw.passed && decide (energyNeed s ≤ energyAt s (gateVolts s))

/-- The other flush area is armed, and the erases of the used one are queued (R142). -/
def rearm (s : State) : State :=
  let used := if s.med.armedB then s.med.areaB else s.med.areaA
  let s1 := used.foldl (fun t a => setDie t (slabDie a) ((getDie t (slabDie a)).queueErase a)) s
  { s1 with
    med := { s1.med with areaHeld := false, restored := [], armedB := !s1.med.armedB }
    blw := { s1.blw with image := none } }

/-- FLUSH_AREA_REARM: the other area is armed, and the used one erased (R142, R335, R362). -/
def execFlushAreaRearm (s : State) : Answer :=
  stepIf s (s.med.areaHeld && s.blw.flush.isNone && strikesRun s && (restoredCovered s || restoredVerified s))
    (rearm s)

end Sys2Proof.Machine
end

