-- ==== Sys2Proof/Machine/Domains.lean ====
section
/-! DEFINITION. The switched domains: their users and tolerances (R258, R259), automatic gating (R338, Table 14.5),
power-down on the manager's order (R339, R340, Table 14.6, R406), and the pad banks (R203, R204, R341). -/

namespace Sys2Proof.Machine

/-! ## Groups of R337 -/

/-- The index of a domain in its group, for a group that begins at `lo` and has `n` domains. -/
def inGroup (d lo n : Nat) : Bool := decide (lo ≤ d) && decide (d < lo + n)

/-- Groups: FC, SC, CL, AS, PX, LD, DM, EP0 and EP1 and RT, PE, CK, SB. -/
def isFc (d : Nat) : Bool := inGroup d 3 64
def isSc (d : Nat) : Bool := inGroup d 67 16
def isCl (d : Nat) : Bool := inGroup d 83 24
def isAs (d : Nat) : Bool := inGroup d 107 8
def isPx (d : Nat) : Bool := inGroup d 115 8
def isLd (d : Nat) : Bool := inGroup d 123 2
def isDm (d : Nat) : Bool := inGroup d 125 4
def isPort (d : Nat) : Bool := inGroup d 129 4
def isCk (d : Nat) : Bool := inGroup d 133 4
def isSb (d : Nat) : Bool := inGroup d 137 32

/-- Domains that are gated automatically by the rules of Table 14.5 alone: DM and SB have mechanisms of their own. -/
def autoGates (d : Nat) : Bool := isFc d || isSc d || isCl d || isAs d || isPx d || isLd d

/-! ## Tolerance (R258, R259) -/

/-- Whether an attached namespace of a tenant holds a course with a slab on a channel. -/
def courseOn (s : State) (t c : Nat) : Bool := s.med.courses.any fun e => match e.2 with
  | some x => attachedTo s x.nsid t && x.slabs.any fun a => slabChan a == c
  | none => false

/-- Whether a tenant uses a domain (Table 10.7). -/
def usesDomain (s : State) (d t : Nat) (x : Tenant) : Bool :=
  if isFc d then ((List.range 256).any fun b => x.blk.bays.getLsbD b && (bayMask s b).getLsbD (d - 3)) || courseOn s t (d - 3)
  else if isSc d then x.blk.cluster == d - 67
  else if isPort d then (if d = 132 then !x.blk.fabric else x.blk.fabric)
  else if isCk d then s.boot.cfgMode != 0
  else decide (3 ≤ d)

/-- The tolerance of a domain in strikes: the smallest WAKE_STK among its users; MF always counts. -/
def tolerance (s : State) (d : Nat) : Nat :=
  s.ten.foldl (fun n e => if e.2.there && (e.1 == 0 || usesDomain s d e.1 e.2) then min n e.2.blk.wakeStk else n) 65535

/-- t_SRX and t_PHY in ns (Table 13.4). -/
def srxNs (s : State) : Nat := rd s R.DRM_TIM_SR_T_RES + rd s R.DRM_TIM_REF_TRFC1 + rd s R.DRM_TIM_SR_T_RESUME
def phyNs (s : State) : Nat := 100 * rd s R.DRM_TIM_SR_T_PHY

/-- The wake time of a domain in ns (Table 14.5). -/
def wakeNs (s : State) (d : Nat) : Nat :=
  if isFc d then 250 * fcWakeQ s (d - 3)
  else if isSc d || isLd d then 2000
  else if isDm d then phyNs s + srxNs s
  else if isSb d then 500
  else 1000

/-- Whether the tolerance of a domain allows a wake of so many ns. -/
def allowsNs (s : State) (d ns : Nat) : Bool := decide (ceilDiv ns (250 * perQ s) ≤ tolerance s d)

/-- Whether a domain may be gated automatically now (R259, R338). -/
def gateAllowed (s : State) (d : Nat) : Bool := allowsNs s d (wakeNs s d) && (!isFc d || (getChan s (d - 3)).retained)

/-! ## Idle and drained (Tables 14.5 and 14.6) -/

/-- A lane with an empty queue and a free hold buffer. -/
def laneEmpty (s : State) (l : Nat) : Bool :=
  let x := getLane s l
  x.queue.isEmpty && x.serving.isNone && !x.holdFull && x.releasing.isNone && x.finished.isEmpty

/-- Whether a domain is idle in the sense of Table 14.5. An engine that has run has restarted its own count. -/
def domIdle (s : State) (d : Nat) : Bool :=
  if isFc d then channelIdle s (d - 3)
  else if isSc d then !(s.ord.slots.any fun e => (e.2.st == .runnable || e.2.st == .running) && clusterOf s e.2 == d - 67)
  else if isCl d then laneEmpty s (d - 83)
  else if isAs d then !(s.asy.ctxs.any fun e => e.2.busy && homeGroup e.1 == d - 107)
  else if isLd d then poolJobs s.fl.softQ (d - 123) == 0
  else true

/-- Whether a domain that drains has drained (Table 14.6). -/
def domDrained (s : State) (d : Nat) : Bool :=
  if isFc d then channelQuiet s (d - 3)
  else if isSc d then !(s.ord.slots.any fun e => e.2.st == .running && e.2.smith / smithsPer == d - 67)
  else if isCl d then laneEmpty s (d - 83)
  else if isLd d then poolJobs s.fl.softQ (d - 123) == 0
  else true

/-! ## Power-down and power-up of a domain -/

/-- What the power-down of a domain takes with it: an FC domain off on the manager's order loses its training values and
its channel is OFF (R202, R203); a link port is off; a DRAM channel is gated (R318). -/
def powerDown (s : State) (d : Nat) (mgr : Bool) : State :=
  let s1 := if isFc d && mgr then
      setChan s (d - 3) { getChan s (d - 3) with st := .off, retained := false, recentre := 0, wpHigh := false }
    else if isCk d then setCk s (d - 133) (port0 0)
    else if isDm d then setDram s (d - 125) { getDram s (d - 125) with gated := true }
    else s
  setPads s1

/-- What a domain does when it has powered up: a channel without training values trains in full (R199), a link port
trains (R393). -/
def powerUp (s : State) (d : Nat) : State :=
  let s1 := if isFc d && !(getChan s (d - 3)).retained && rdAt s R.FCH_CTRL_EN (0x1000 * (d - 3)) 0 != 0 then
      setChan s (d - 3) { getChan s (d - 3) with st := .training }
    else if isCk d then setCk s (d - 133) { port0 0 with st := .training }
    else s
  setPads s1

/-! ## Automatic gating (R338) -/

/-- Domains whose drain for automatic gating work has ended are ON again (R43). -/
def backStrike (s : State) : State :=
  (List.range domCount).foldl (fun t d =>
    let x := getDom t d
    if x.back then setDom t d { x with back := false, st := if x.st == .draining && !x.mgr then .on else x.st } else t) s

/-- The idle counts of a strike. -/
def idleStrike (s : State) : State :=
  (List.range domCount).foldl (fun t d =>
    let x := getDom t d
    if autoGates d && x.st == .on then setDom t d { x with idle := if domIdle t d then x.idle + 1 else 0 } else t) s

/-- Domains that are gated, or drain for it, beyond what the tolerance now allows are woken (R259), and all of them while
PWR_AUTO.EN is 0 (R338). -/
def toleranceStrike (s : State) : State :=
  (List.range domCount).foldl (fun t d =>
    let x := getDom t d
    if autoGates d && (x.st == .autoOff || (x.st == .draining && !x.mgr)) && (!flag t R.PWR_AUTO_EN || !gateAllowed t d) then
      useDomain t d else t) s

/-- AUTO_GATE_IDLE_EXPIRY. -/
def execAutoGateIdleExpiry (dom : Nat) (s : State) : Answer :=
  let x := getDom s dom
  stepIf s (s.pwr.st == .hot && strikesRun s && autoGates dom && x.st == .on && flag s R.PWR_AUTO_EN
      && decide (rd s R.PWR_AUTO_IDLE ≤ x.idle) && domIdle s dom && gateAllowed s dom)
    (setDom s dom { x with st := .draining, mgr := false })

/-- AUTO_DRAIN_DONE. -/
def execAutoDrainDone (dom : Nat) (s : State) : Answer :=
  let x := getDom s dom
  stepIf s (x.st == .draining && !x.mgr && !x.back && domDrained s dom)
    (powerDown (setDom s dom { x with st := .autoOff, idle := 0 }) dom false)

/-- DOMAIN_WAKE_DONE: the wake time has passed; a request of the manager that waited for it ends with OK. -/
def execDomainWakeDone (dom : Nat) (s : State) : Answer :=
  let x := getDom s dom
  let gated := isDm dom && (getDram s (dom - 125)).gated
  let s1 := setDom s dom { x with st := .on, mgr := false, idle := 0, busy := false, result := if x.busy then St.ok else x.result }
  stepIf s (x.st == .waking)
    (powerUp (if gated then setDram s1 (dom - 125) { getDram s1 (dom - 125) with gated := false } else s1) dom)

/-! ## Power-down on the manager's order (R339, R340) -/

/-- The domain that a requester selected. -/
def selDom (s : State) (req : Nat) : Nat := selOf s req R.PWR_DOM_SEL_DOMAIN

/-- A request ends with a result. -/
def domResult (s : State) (d : Nat) (st : W16) : State := setDom s d { getDom s d with result := st, busy := false }

/-- Whether another lane or pool could take the work of domain d among those from `lo`. -/
def otherServes (s : State) (d lo n : Nat) : Bool :=
  (List.range n).any fun i => lo + i != d && (let x := getDom s (lo + i); x.st == .on || x.st == .autoOff)

/-- Bank groups of the Crucible that lie wholly in the tenant buffer pool (Table 13.5). -/
def poolGroup (s : State) (g : Nat) : Bool := decide (poolBase s ≤ g * 2 ^ 22)

/-- Whether a Mortar set is homed on a parity engine (R175). -/
def setHomed (s : State) (e : Nat) : Bool := s.med.sets.any fun x => x.2.isSome && x.1 % 8 == e

/-- An off request that is refused at once (Table 14.6, R406). -/
def offRefused (s : State) (d : Nat) : Bool :=
  if d < 3 || isDm d then true
  else if isSc d then s.ten.any fun e => e.2.there && e.2.blk.cluster == d - 67
  else if isCl d then !otherServes s d 83 24
  else if isPx d then setHomed s (d - 115)
  else if isLd d then !otherServes s d 123 2
  else if d = 129 ∨ d = 130 then portEnabled s (d - 129)
  else if d = 131 then flag s R.ETH_RT_CTRL_RT_EN
  else if d = 132 then s.port.perstHigh
  else if isCk d then (let x := getCk s (d - 133); x.st != .down && x.st != .miswired)
  else if isSb d then !poolGroup s (d - 137) || (getGroup s (d - 137)).used != 0
  else false

/-- An on request that is refused at once (R235, R406). -/
def onRefused (s : State) (d : Nat) : Bool := (isCk d && s.boot.cfgMode == 0) || (isPort d && isMember s)

/-- An on request: it wakes the domain or abandons its drain. -/
def domainOn (s : State) (d : Nat) : State :=
  let x := getDom s d
  if s.pwr.entry.isSome then domResult s d St.inProgress
  else if onRefused s d then domResult s d St.notIdle
  else if x.busy && !(x.st == .draining && x.mgr) then s
  else match x.st with
    | .on => domResult s d St.ok
    | .draining => setDom s d { x with st := .on, mgr := false, busy := false, result := St.ok, idle := 0 }
    | .waking => setDom s d { x with busy := true }
    | _ => setPads (setDom s d { x with st := .waking, mgr := false, busy := true })

/-- An off request: it is refused at once, or starts a drain. -/
def domainOff (s : State) (d : Nat) : State :=
  let x := getDom s d
  if s.pwr.entry.isSome then domResult s d St.inProgress
  else if x.st == .mgrOff || (x.st == .draining && x.mgr) then setDom s d { x with result := St.inProgress }
  else if x.busy then s
  else if offRefused s d then domResult s d St.notIdle
  else setDom s d { x with st := .draining, mgr := true, busy := true, drainAt := s.tb.count }

/-- DOMAIN_ON_REQUEST: a write of 1 to PWR_DOM_CTRL.REQ; only MF orders domains on and off. -/
def execDomainOnRequest (req : Nat) (s : State) : Answer :=
  stepIf s (windowOpen s) (if forMf req then domainOn s (selDom s req) else s)

/-- DOMAIN_OFF_REQUEST: a write of 2. -/
def execDomainOffRequest (req : Nat) (s : State) : Answer :=
  stepIf s (windowOpen s) (if forMf req then domainOff s (selDom s req) else s)

/-- DOMAIN_DRAINED. -/
def execDomainDrained (dom : Nat) (s : State) : Answer :=
  let x := getDom s dom
  stepIf s (x.st == .draining && x.mgr && domDrained s dom)
    (powerDown (setDom s dom { x with st := .mgrOff, busy := false, result := St.ok, idle := 0 }) dom true)

/-- The drain limit in strikes (Table 14.10). -/
def drainLimit (s : State) : Nat := max 1 (rd s R.PWR_DRAIN_LIMIT_STRIKES)

/-- DOMAIN_DRAIN_LIMIT_EXPIRY. -/
def execDomainDrainLimitExpiry (dom : Nat) (s : State) : Answer :=
  let x := getDom s dom
  stepIf s (x.st == .draining && x.mgr && decide (x.drainAt + drainLimit s ≤ s.tb.count))
    (bump (setDom s dom { x with st := .on, mgr := false, busy := false, result := St.notIdle, idle := 0 }) R.PWR_DRAIN_FAIL_CNT_FAIL)

end Sys2Proof.Machine
end

