-- ==== Sys2Proof/Machine/Regs.lean ====
section
/-! DEFINITION. The management register window (R5 to R8, R426 to R434): what every register reads as, and what a write of
it does, by its access code or as its chapter gives. -/

namespace Sys2Proof.Machine

/-! ## Which cell a requester's access reaches (R428) -/

/-- The entry that a selected register belongs to, for a requester. -/
def selEntry (s : State) (req : Nat) : Sel → Nat
  | .none => 0
  | .req => req
  | .bay => selOf s req R.MED_BAY_SEL_BAY
  | .lport => selOf s req R.ETH_LPORT_SEL_LPORT
  | .ip => 4 * selOf s req R.ETH_LPORT_SEL_LPORT + selOf s req R.ETH_LPORT_SEL_IP
  | .tenant => selOf s req R.TEN_SEL_TENANT
  | .kek => selOf s req R.CPH_KEK_SEL_TENANT
  | .slot => selOf s req R.CPH_SLOT_SEL_SLOT
  | .arb => selOf s req R.CRS_ARB_SEL_INDEX
  | .dom => selOf s req R.PWR_DOM_SEL_DOMAIN
  | .hkp => selOf s req R.HKP_SEL_INPUT
  | .route => selOf s req R.GLB_ROUTE_SEL_DEST

/-- The cell of a register at an address. -/
def cellOf (s : State) (req addr : Nat) (r : RegDesc) : Nat := addr + selEntry s req r.sel * selStride

/-- The key of a requester's capture and staging (R7). -/
def pairKey (req addr : Nat) : Nat := req * selStride + addr

/-! ## Live values: what the read-only fields show -/

/-- A mask with bit i set where a test of i holds. -/
def maskWhere (n : Nat) (p : Nat → Bool) : Nat := (List.range n).foldl (fun m i => if p i then m + 2 ^ i else m) 0

/-- The two halves of a 64-bit value. -/
def loHalf (v : Nat) : Nat := v % 2 ^ 32
def hiHalf (v : Nat) : Nat := v / 2 ^ 32 % 2 ^ 32

/-- Members of the Wall that are live. -/
def liveCount (s : State) : Nat := ((List.range 64).filter fun k => s.wall.live.getLsbD k).length

/-- The code of a link state (Table 18.6). -/
def LinkState.code : LinkState → Nat
  | .off => 0
  | .training => 1
  | .up => 2
  | .down => 3
  | .miswired => 4

/-- GLB registers (Tables 18.4, 19.6, 20.2). -/
def liveGlb (s : State) (req addr : Nat) : Nat :=
  let b := s.boot
  if addr = 0x0 then 0x5E977640
  else if addr = 0x4 then Config.stepping.toNat + 256 * Config.romVersion.toNat
  else if addr = 0x8 then b2n Config.gradeCA + 2 * b2n Config.secretOk + 4 * b2n Config.rootOk
  else if addr = 0xC then loHalf Config.serial.toNat
  else if addr = 0x10 then hiHalf Config.serial.toNat
  else if addr = 0x14 then
    b2n b.ioReady + 2 * b2n b.locked + 4 * b2n s.med.roLatch + 8 * b2n s.hm.degraded + 16 * b2n s.blw.bankSw
  else if addr = 0x18 then critWarn s
  else if addr = 0x24 then (assertedLines s).toNat
  else if addr = 0x100 then b.cause.toNat
  else if addr = 0x104 then bootStatus b
  else if addr = 0x108 then b.cfgMode.toNat + 4 * b.memberId.toNat
  else if addr = 0x10C then b2n b.locked
  else if addr = 0x110 then 256 * b2n b.wdtRunning
  else if addr = 0x118 then
    b2n b.activeB + 2 * b.pendingSlot + 8 * b.tries + 32 * b2n (b.commit.isSome || b.commitSlot.isSome)
  else if addr = 0x8004 then
    b.cfgMode.toNat % 4 + 4 * memberNumber s + 256 * b2n s.wall.formed + 512 * liveCount s
  else if addr = 0x8008 then loHalf s.wall.live.toNat
  else if addr = 0x800C then hiHalf s.wall.live.toNat
  else if 0x8010 ≤ addr ∧ addr < 0x8020 then
    let p := getCk s ((addr - 0x8010) / 4)
    p.st.code + 8 * (p.peer % 64) + 4096 * (p.delay % 4096)
  else if addr = 0x8034 then
    match Tbl.get Tbl.absent s.wall.routes (selEntry s req .route) with
    | some r => r.port + 4 * min r.hops 15 + 64
    | none => 0
  else 0

/-- The code of a device state (Table 14.1). -/
def PState.code : PState → Nat
  | .hot => 0
  | .banked => 1
  | .ember => 2
  | .cold => 3

/-- PWR_STATE: the state, and an entry in progress. -/
def powerWord (s : State) : Nat :=
  s.pwr.st.code + (match s.pwr.entry with
    | some e => 4 + 8 * e.target.code + 32 * e.step
    | none => 0)

/-- The code of a domain state (Table 14.10). -/
def DomState.code : DomState → Nat
  | .on => 0
  | .draining => 1
  | .autoOff => 2
  | .mgrOff => 3
  | .waking => 4

/-- Last domain number (R337). -/
def lastDomain : Nat := 168

/-- PWR registers (Table 14.9). -/
def livePwr (s : State) (req addr : Nat) : Nat :=
  if addr = 0x100000 then powerWord s
  else if addr = 0x100014 then
    let d := getDom s (selEntry s req .dom)
    d.st.code + 8 * b2n d.busy + 65536 * d.result.toNat
  else if 0x100020 ≤ addr ∧ addr < 0x100038 then
    let k := (addr - 0x100020) / 4
    maskWhere 32 fun j => decide (32 * k + j ≤ lastDomain)
      && ((getDom s (32 * k + j)).st == .on || (getDom s (32 * k + j)).st == .draining)
  else if addr = 0x100044 then s.pwr.emberNeed
  else if addr = 0x100050 then s.pwr.wakeCause.toNat
  else if addr = 0x100060 then
    s.pwr.cur + 8 * ((s.pwr.seq.map (·.target)).getD s.pwr.cur) + 64 * b2n s.pwr.seq.isSome
  else if addr = 0x100068 then s.pwr.padEn.toNat
  else 0

/-- The lowest operating point of a period (Table 2.1). -/
def minOp (q : Nat) : Nat := if q ≤ 3 then 3 else if q ≤ 7 then 2 else if q ≤ 15 then 1 else 0

/-- STK registers (Tables 2.5 and 18.4). -/
def liveStk (s : State) (addr : Nat) : Nat :=
  if addr = 0x200004 then
    b2n s.tb.perPend.isSome + 4 * b2n (isMember s) + 16 * s.tb.perActive + 512 * minOp s.tb.perActive
  else if addr = 0x200008 then loHalf s.tb.count
  else if addr = 0x20000C then hiHalf s.tb.count
  else if addr = 0x200040 then
    let w := s.wall
    b2n (w.locked || isHead s) + 2 * b2n w.holdover + 4 * b2n w.far + 256 * (w.err % 256).toNat + 65536 * w.hops
  else 0

/-- SMT registers (Table 3.9). -/
def liveSmt (s : State) (addr : Nat) : Nat :=
  if addr = 0x300004 then slotsFree s
  else if addr = 0x30001C then patFree s
  else if 0x300040 ≤ addr ∧ addr < 0x300080 then
    let c := (addr - 0x300040) / 4
    (if domServes s (scDom c) && strikesRun s && flag s R.SMT_CTRL_EXEC_EN then 255 else 0)
      + 65536 * min 65535 (s.ord.slots.filter fun e => e.2.st == .runnable && clusterOf s e.2 == c).length
  else 0

/-- Zones of a state in every namespace. -/
def zonesIn (s : State) (p : ZState → Bool) : Nat := (s.med.zones.filter fun e => p e.2.st).length

/-- MED registers (Tables 5.7, 6.8 and 7.6). -/
def liveMed (s : State) (req addr : Nat) : Nat :=
  if addr = 0x400000 then b2n s.med.roLatch + 2 * b2n (spareLow s) + 4 * b2n (spareFloor s)
  else if addr = 0x400004 then zonesIn s ZState.active
  else if addr = 0x400008 then zonesIn s ZState.isOpen
  else if addr = 0x40000C then s.blw.openCap
  else if addr = 0x400010 then spareCount s
  else if addr = 0x40001C then loHalf (bayMask s (selEntry s req .bay)).toNat
  else if addr = 0x400020 then hiHalf (bayMask s (selEntry s req .bay)).toNat
  else if addr = 0x400030 then
    famField s 0x24 1 % 8 + 8 * (famField s 0x25 1 % 4) + 32 * (famField s 0x2E 1 % 2) + 65536 * (famField s 0x26 2 % 512)
  else if addr = 0x400034 then s.med.good
  else if addr = 0x400038 then s.med.retiredCnt
  else if addr = 0x40003C then s.med.factory
  else if addr = 0x400048 then 65536 * convOpen s
  else if addr = 0x40005C then
    (nativePes s).foldl max 0 + 65536 * averagePe s
  else if addr = 0x400084 then
    (s.med.sets.filter fun e => e.2.isSome).length + 65536 * s.med.resident.length
  else 0

/-- The code of a channel state (Table 8.9). -/
def ChState.code : ChState → Nat
  | .off => 0
  | .training => 1
  | .ready => 2
  | .draining => 3
  | .fault => 4

/-- The state of a channel as FCH_STATUS shows it: a READY channel whose FC domain is DRAINING has work left and is
DRAINING (R205, Table 8.9). -/
def shownChannel (s : State) (c : Nat) : ChState :=
  if (getChan s c).st == .ready && (getDom s (fcDom c)).st == .draining then .draining else (getChan s c).st

/-- FCH registers (Table 8.7). -/
def liveFch (s : State) (addr : Nat) : Nat :=
  let c := (addr - 0x500000) / 0x1000
  let o := (addr - 0x500000) % 0x1000
  if addr ≥ 0x540000 then 0
  else if o = 4 then
    (shownChannel s c).code + 8 * (getChan s c).rate + 128 * b2n (s.pwr.padEn.getLsbD (c / 4))
  else if o = 8 then maskWhere 32 fun i => (getDie s (32 * c + i)).present
  else if o = 0xC then maskWhere 32 fun i => (getDie s (32 * c + i)).lost
  else 0

/-- TEN registers (Table 10.8). -/
def liveTen (s : State) (req addr : Nat) : Nat :=
  let t := selEntry s req .tenant
  let d := (getTen s t).dirty
  if addr = 0x600004 then tenStat s t
  else if addr = 0x600008 then slotsUsed s t
  else if addr = 0x600010 then poolSlots s
  else if addr = 0x600014 then poolPcie s + 65536 * poolFabric s
  else if addr = 0x600018 then poolActive s + 65536 * poolAssay s
  else if addr = 0x60001C then poolCru s
  else if addr = 0x600020 then poolBedrock s
  else if addr = 0x600030 then 4 * b2n d.busy + 8 * b2n d.outRange
  else if addr = 0x600040 then loHalf d.cur.toNat
  else if addr = 0x600044 then hiHalf d.cur.toNat
  else if addr = 0x600048 then loHalf d.old.toNat
  else if addr = 0x60004C then hiHalf d.old.toNat
  else 0

/-- CPH registers (Table 11.4). -/
def liveCph (s : State) (req addr : Nat) : Nat :=
  let k := getKey s (selEntry s req .slot)
  if addr = 0x700004 then maskWhere 24 fun l => !domOff s (clDom l) && s.pwr.st == .hot
  else if addr = 0x70000C then (epochOf s (selEntry s req .kek)).toNat
  else if addr = 0x700014 then
    match k with
    | some r => r.ktype + 4 * (r.usage.toNat % 128) + 512 * r.tenant
    | none => 0
  else if addr = 0x700018 then
    match k with
    | some r => r.keyId.toNat
    | none => 0
  else 0

/-- The owner of a context as DG_STATUS shows it. -/
def CtxOwner.code : CtxOwner → Nat
  | .free => 0
  | .register => 1
  | .order _ _ => 2
  | .quench _ => 3

/-- DG registers of a context's page (Table 12.5). The result and the record of a context that the registers do not own
read as zero (R287). -/
def liveCtx (s : State) (c o : Nat) : Nat :=
  let x := getCtx s c
  if o = 4 then
    b2n (x.busy || x.finishing) + 2 * b2n x.valid + 4 * b2n x.ovr + 8 * b2n x.err + 16 * b2n x.cmdRefused
      + 32 * x.owner.code + 128 * b2n x.sha512 + 256 * homeGroup c
  else if o = 0x18 then loHalf x.count
  else if o = 0x1C then hiHalf x.count
  else if 0x40 ≤ o ∧ o < 0x80 then (if x.valid && regOwned s c then leAt x.result (o - 0x40) 4 else 0)
  else if 0x80 ≤ o ∧ o < 0xE0 then (if regOwned s c then (Tbl.get w32z x.record ((o - 0x80) / 4)).toNat else 0)
  else 0

/-- DG registers and the trust registers (Table 12.5). -/
def liveDg (s : State) (req addr : Nat) : Nat :=
  if addr < 0x810000 then liveCtx s ((addr - 0x800000) / 0x100) ((addr - 0x800000) % 0x100)
  else if addr = 0x810004 then s.asy.allocRes.toNat
  else if addr = 0x81000C then ((List.range ctxCount).filter fun c => (getCtx s c).owner == .free).length
  else if addr = 0xE00104 then arbValue s (selEntry s req .arb)
  else if addr = 0xE00108 then
    b2n s.asy.kmHash.isSome + 2 * b2n s.asy.chainNew + 8 * s.asy.floor0 + 1024 * s.asy.floor1
  else 0

/-- DRM and CRU registers (Table 13.7). -/
def liveMem (s : State) (addr : Nat) : Nat :=
  if addr = 0x900004 then
    maskWhere 4 (fun c => (getDram s c).sr) + 16 * maskWhere 4 (fun c => (getDram s c).gated)
      + 256 * maskWhere 4 (fun c => flag s R.DRM_CTRL_EN && (getDram s c).uninit == 0)
  else if addr = 0x900028 then s.mem.dramFree / 256
  else if addr = 0xA00004 then maskWhere 32 fun g => !domOff s (sbDom g) && !(getGroup s g).retention
  else if addr = 0xA00008 then cruFree s
  else 0

/-- BLW registers (Table 15.5). -/
def liveBlw (s : State) (addr : Nat) : Nat :=
  let b := s.blw
  if addr = 0xB00004 then
    b2n b.armed + 2 * b2n b.chgEn + 4 * b2n b.bankSw + 8 * b2n b.passed + 16 * b2n b.testing + 32 * b2n b.capLow
      + 64 * b2n b.bleeding + 128 * b2n b.bankFault + 256 * b2n b.uncovered + 2048 * b2n b.recovered
  else if addr = 0xB00024 then b.capUf
  else if addr = 0xB0002C then b.vbank + 65536 * b.vhv
  else if addr = 0xB00030 then min (b.eAvail / 10 ^ 9) 65535 + 65536 * min (b.eNeed / 10 ^ 9) 65535
  else if addr = 0xB00034 then min 8191 (ceilDiv (dirtyBytes s + 262144 * charges s) (2 ^ 20))
  else if addr = 0xB00038 then b.lossCnt
  else 0

/-- HKP registers (Table 16.3). -/
def liveHkp (s : State) (req addr : Nat) : Nat :=
  let x := getInput s (selEntry s req .hkp)
  if addr = 0xC00004 then
    b2n s.hkp.thermSd + 2 * b2n (s.hkp.inputs.any fun e => e.2.brokenOpen || e.2.brokenShort)
      + 4 * ((List.range 64).foldl (fun m c => max m (fcLevel s c)) 0)
      + 32 * maskWhere 4 fun k => (getInput s (28 + k)).outside
  else if addr = 0xC00020 then
    (x.reading % 4096).toNat + 4096 * b2n x.brokenOpen + 8192 * b2n x.brokenShort + 16384 * x.level
  else if 0xC00040 ≤ addr ∧ addr < 0xC00060 then
    let k := (addr - 0xC00040) / 4
    (List.range 8).foldl (fun m j => m + fcLevel s (8 * k + j) * 16 ^ j) 0
  else 0

/-- HM registers (Table 17.3). -/
def liveHm (s : State) (req addr : Nat) : Nat :=
  let held := Tbl.get Tbl.absent s.hm.rd req
  if addr = 0xD00000 then hmStatus s.hm
  else if addr = 0xD00004 then s.hm.head
  else if addr = 0xD00008 then s.hm.tailNow
  else if addr = 0xD00010 then
    match held with
    | some (fb, _) => 1 + 2 * b2n fb
    | none => 0
  else if 0xD00020 ≤ addr ∧ addr < 0xD00040 then
    match held with
    | some (_, r) => leAt r.bytes (addr - 0xD00020) 4
    | none => 0
  else if addr = 0xD00040 then s.hm.cycle.toNat
  else if addr = 0xD00044 then loHalf s.hm.opMs
  else if addr = 0xD00048 then hiHalf s.hm.opMs
  else 0

/-- ETH and PCI registers (Tables 9.6 and 9.12). What the host set in the SR-IOV capability is free: no command of the
table writes it. -/
def livePorts (s : State) (req addr : Nat) : Nat :=
  let mac := (Config.macAddress (selEntry s req .lport)).toNat
  if addr = 0xF00008 then maskWhere 8 fun p => (getLPort s p).up
  else if addr = 0xF0001C then loHalf mac
  else if addr = 0xF00020 then hiHalf mac
  else if addr = 0xF00044 then qpUsed s
  else if addr = 0xF00048 then creditSum s
  else if addr = 0x1000004 then
    s.port.linkSpeed + 8 * s.port.linkWidth + 128 * b2n s.port.linkFlit + 256 * b2n s.port.linkUp
  else if addr = 0x1000008 then
    let v := (fresh s).1.toNat
    v % 1024 + 65536 * (v / 1024 % 2)
  else 0

/-- The read-only part of a register, by block (Table 20.1). -/
def liveBits (s : State) (req addr : Nat) : Nat :=
  let k := addr / 0x100000
  if k = 0 then liveGlb s req addr
  else if k = 1 then livePwr s req addr
  else if k = 2 then liveStk s addr
  else if k = 3 then liveSmt s addr
  else if k = 4 then liveMed s req addr
  else if k = 5 then liveFch s addr
  else if k = 6 then liveTen s req addr
  else if k = 7 then liveCph s req addr
  else if k = 8 ∨ k = 14 then liveDg s req addr
  else if k = 9 ∨ k = 10 then liveMem s addr
  else if k = 11 then liveBlw s addr
  else if k = 12 then liveHkp s req addr
  else if k = 13 then liveHm s req addr
  else if k = 15 ∨ k = 16 then livePorts s req addr
  else 0

/-- Fields that can be written and that the state holds in a place of its own, not in the register file. -/
def Fld.held (f : Fld) : Bool :=
  [R.GLB_BOOT_LOCK_LOCK, R.MED_BAY_MASK_LO_MASK, R.MED_BAY_MASK_HI_MASK, R.CPH_KEK_EPOCH_EPOCH, R.TEN_DIRTY_CTRL_OUT_RANGE,
    R.HKP_STATUS_THERM_SD, R.DG_STATUS_CMD_REFUSED].contains f
    || (decide (R.DG_STATE0_RECORD.addr ≤ f.addr) && decide (f.addr < R.DG_STATE0_RECORD.addr + 0x60))

/-- The bits of a register whose contents stand in the register file, or elsewhere. -/
def RegDesc.fileMask (r : RegDesc) (inFile : Bool) : Nat :=
  r.flds.foldl (fun m f => if (f.acc.stored && !f.held) == inFile then m ||| f.mask else m) 0

/-- What a register reads as: the fields that the register file holds and those held elsewhere; 0 at a reserved address
(R6). -/
def regValue (s : State) (req addr : Nat) : W32 :=
  match regAt addr with
  | none => 0
  | some r =>
    (regWord s (cellOf s req addr r) &&& BitVec.ofNat 32 (r.fileMask true))
      ||| (BitVec.ofNat 32 (liveBits s req addr) &&& BitVec.ofNat 32 (r.fileMask false))

/-! ## Writes by access code (R6, R8) -/

/-- The stored word after a write: RW fields take the value, RWL fields only while the boot lock is not applied, W1C fields
lose the bits written as 1, all others stay. -/
def writeWord (s : State) (r : RegDesc) (old v : W32) : W32 :=
  let rw := BitVec.ofNat 32 (r.maskOf fun a => a == .rw || (a == .rwl && !s.boot.locked))
  let w1c := BitVec.ofNat 32 (r.maskOf (· == .w1c))
  (old &&& ~~~rw &&& ~~~(v &&& w1c)) ||| (v &&& rw)

/-- A write that does no more than its access codes say. -/
def plainWrite (s : State) (req addr : Nat) (v : W32) : State :=
  match regAt addr with
  | none => s
  | some r => setWord s (cellOf s req addr r) (writeWord s r (regWord s (cellOf s req addr r)) v)

/-- A write whose fields are stored with some of them replaced first. -/
def clampWrite (s : State) (req addr : Nat) (f : Fld) (top : Nat) (v : W32) : State :=
  plainWrite s req addr (if top < f.of v then f.put v top else v)

/-- A write that is ignored where a test of the written value fails. -/
def guardWrite (s : State) (req addr : Nat) (ok : Bool) (v : W32) : State := if ok then plainWrite s req addr v else s

/-- The value of a field after a write, which the boot lock may have kept. -/
def fieldAfter (s : State) (f : Fld) (v : W32) : Nat := if f.acc == .rwl && s.boot.locked then rd s f else f.of v

/-! ## Writes with a meaning of their own -/

/-- Whether the members of a formed Wall keep its head from a new period: their operating points stand outside the head,
so the answer is free (R405). -/
def membersRefuse (s : State) : Bool × State :=
  if isHead s && s.wall.formed && decide (1 < liveCount s) then ((fresh s).1.getLsbD 0, (fresh s).2) else (false, s)

/-- STK_PERIOD (R24, R25): a member follows the head and takes no write; a period outside 2 to 16 has no operating point
and is refused. While an OPSET runs the lower of its points counts (R344). -/
def periodWrite (s : State) (q : Nat) : State :=
  let op := match s.pwr.seq with
    | some x => min s.pwr.cur x.target
    | none => s.pwr.cur
  let m := membersRefuse s
  if isMember s then s
  else if q < 2 ∨ 16 < q ∨ op < minOp q then wr s R.STK_STATUS_PER_REFUSED 1
  else if m.1 then wr m.2 R.STK_STATUS_PER_REFUSED 1
  else
    let s1 := wr m.2 R.STK_PERIOD_PER_Q q
    if s.tb.perActive ≤ q then { s1 with tb := { s1.tb with perPend := none, perNext := some q } }
    else { s1 with tb := { s1.tb with perPend := some q, perNext := none } }

/-- The boot lock (R418). -/
def applyLock (s : State) : State := { s with boot := { s.boot with locked := true } }

/-- SMT_CTRL: setting EXEC_EN first applies the lock, and stops the watchdog (R418, R419). -/
def smtCtrlWrite (s : State) (req addr : Nat) (v : W32) : State :=
  if v.getLsbD 0 then
    let s1 := plainWrite (applyLock s) req addr v
    { s1 with boot := { s1.boot with wdtRunning := false } }
  else plainWrite s req addr v

/-- A Bay mask (R120): fewer than 16 channels are refused. -/
def bayWrite (s : State) (bay mask : Nat) : State :=
  let m := BitVec.ofNat 64 mask
  if ((List.range 64).filter fun c => m.getLsbD c).length < 16 then wr s R.MED_STATUS_BAY_REFUSED 1
  else { s with med := { s.med with bays := Tbl.set bay0 s.med.bays bay m } }

/-- ETH_PORT_CFG (Table 9.7): MODE 3 is ignored, EN ignores writes in a member; enabling the
port takes the mode for its logical ports (R208), and a port that is not enabled has no link. -/
def portCfgWrite (s : State) (req addr : Nat) (v : W32) : State :=
  let ep := (addr - 0xF00000) / 4
  let v1 := if R.ETH_PORT_CFG_MODE.of v = 3 then R.ETH_PORT_CFG_MODE.put v (rdAt s R.ETH_PORT_CFG_MODE (4 * ep) 0) else v
  let v2 := if isMember s then R.ETH_PORT_CFG_EN.put v1 (rdAt s R.ETH_PORT_CFG_EN (4 * ep) 0) else v1
  let s1 := plainWrite s req addr v2
  if v2.getLsbD 0 && portEnabled s ep then s1
  else if v2.getLsbD 0 then
    (List.range 4).foldl (fun t i => setLPort t (4 * ep + i)
      { getLPort t (4 * ep + i) with mode := R.ETH_PORT_CFG_MODE.of v2 }) s1
  else (List.range 4).foldl (fun t i => setLPort t (4 * ep + i) { getLPort t (4 * ep + i) with up := false }) s1

/-- ETH_IP_CTRL: the selected IP entry is committed with the address words written before (R210). -/
def ipCommit (s : State) (req : Nat) (v : W32) : State :=
  let e := selEntry s req .ip
  let s1 := plainWrite s req R.ETH_IP_CTRL_VALID.addr v
  let a := (List.range 4).foldl (fun n k => n + rdAt s R.ETH_IP_ADDR_ADDR (4 * k) e * 2 ^ (32 * k)) 0
  let v6 := R.ETH_IP_CTRL_V6.of v = 1
  let ip : IpAddr := { v6 := v6, addr := BitVec.ofNat 128 (if v6 then a else a % 2 ^ 32) }
  let x := if v.getLsbD 0 then some (ip, R.ETH_IP_CTRL_PREFIX.of v) else none
  { s1 with port := { s1.port with ips := Tbl.set Tbl.absent s1.port.ips e x } }

/-- TEN_DIRTY_CTRL (R261, R262, Table 10.10). -/
def dirtyCtrlWrite (s : State) (req : Nat) (v : W32) : State :=
  let t := selEntry s req .tenant
  let x := getTen s t
  let s1 := if v.getLsbD 3 then setTen s t { x with dirty := { x.dirty with outRange := false } } else s
  let s2 := if v.getLsbD 0 then dirtyOn s1 t else dirtyStop s1 t
  if v.getLsbD 1 then dirtySwap s2 t else s2

/-- DG_CTRL: ALGO is stored for a context the registers own, and CMD acts (R287, R292). -/
def dgCtrlWrite (s : State) (c : Nat) (v : W32) : State :=
  let algo := v.getLsbD 2
  let cmd := R.DG_CTRL_CMD.of v
  if cmd = 1 then dgInit s c algo
  else if cmd = 2 then dgExport s c algo
  else if cmd = 3 then dgImport s c algo
  else if regOwned s c then wrAt s R.DG_CTRL_ALGO (dgPage c) 0 (b2n algo) else s

/-- The registers of a context's page (R287 to R292). -/
def ctxWrite (s : State) (c o : Nat) (v : W32) : State :=
  let x := getCtx s c
  if o = 0 then dgCtrlWrite s c v
  else if o = 4 then (if v.getLsbD 4 then setCtx s c { x with cmdRefused := false } else s)
  else if o = 8 then dgData s c v
  else if o = 0xC then
    (if regOwned s c && decide (R.DG_LAST_CNT_BYTES.of v ≤ 4) then
      wrAt s R.DG_LAST_CNT_BYTES (dgPage c) 0 (R.DG_LAST_CNT_BYTES.of v) else s)
  else if o = 0x10 then dgLast s c v
  else if 0x80 ≤ o ∧ o < 0xE0 then
    (if regOwned s c then setCtx s c { x with record := Tbl.set w32z x.record ((o - 0x80) / 4) v } else s)
  else s

/-- BLW_CTRL (R350, R354, R361): ARM is only ever set. -/
def bellowsCtrlWrite (s : State) (v : W32) : State :=
  let s1 := if v.getLsbD 0 then armBellows s else s
  let s2 := if v.getLsbD 1 then testRequest s1 else s1
  if v.getLsbD 2 then faultClear s2 else s2

/-- PWR_DOM_CTRL: for MF alone (R339). -/
def domCtrlWrite (s : State) (req : Nat) (v : W32) : State :=
  if forMf req then
    (if R.PWR_DOM_CTRL_REQ.of v = 1 then domainOn s (selDom s req)
     else if R.PWR_DOM_CTRL_REQ.of v = 2 then domainOff s (selDom s req) else s)
  else s

/-- HM_RD_SEQ: the record is fetched, or the data reads as zero (R386). -/
def hmFetch (s : State) (req : Nat) (v : W32) : State :=
  let s1 := plainWrite s req R.HM_RD_SEQ_SEQ.addr v
  { s1 with hm := { s1.hm with rd := Tbl.set Tbl.absent s1.hm.rd req (s1.hm.find v.toNat) } }

/-- GLB_EVT_FORCE: a status bit sets with no record (R433). -/
def forceEvent (s : State) (v : W32) : State := setStat s (R.GLB_EVT_FORCE_SOURCE.of v)

/-- GLB_EVT_STATk: bits clear, and every line still asserted sends a message (R434). -/
def statClear (s : State) (k : Nat) (v : W32) : State :=
  sendLines (setWord s (statKey k) (regWord s (statKey k) &&& ~~~v)) true

/-- The bits of GLB_EVT_ENk that belong to sources. -/
def sourceMask (k : Nat) : W32 := BitVec.ofNat 32 (maskWhere 32 fun i => decide (32 * k + i ≤ lastSource))

/-- GLB_EVT_ENk (R434, Table 20.5). -/
def enableWrite (s : State) (k : Nat) (v : W32) : State := sendLines (setWord s (enKey k) (v &&& sourceMask k)) true

/-- GLB_EVT_LINEk: a line that becomes asserted by it sends its message (R434). -/
def lineWrite (s : State) (req addr : Nat) (v : W32) : State := sendLines (plainWrite s req addr v) false

/-- GLB_WALL_CFG: a member keeps what FORM taught it (Table 18.5). -/
def wallCfgWrite (s : State) (req addr : Nat) (v : W32) : State :=
  if isMember s then s
  else
    let s1 := plainWrite s req addr v
    { s1 with wall := { s1.wall with size := rd s1 R.GLB_WALL_CFG_SIZE, skip := rd s1 R.GLB_WALL_CFG_SKIP } }

/-- GLB registers. -/
def writeGlb (s : State) (req addr : Nat) (v : W32) : State :=
  if 0x200 ≤ addr ∧ addr < 0x230 then statClear s ((addr - 0x200) / 4) v
  else if 0x240 ≤ addr ∧ addr < 0x270 then enableWrite s ((addr - 0x240) / 4) v
  else if 0x300 ≤ addr ∧ addr < 0x3C0 then lineWrite s req addr v
  else if addr = 0x400 then forceEvent s v
  else if addr = 0x10C then (if v.getLsbD 0 then applyLock s else s)
  else if addr = 0x8000 then wallCfgWrite s req addr v
  else plainWrite s req addr v

/-- PWR registers. -/
def writePwr (s : State) (req addr : Nat) (v : W32) : State :=
  if addr = 0x10000C then guardWrite s req addr (decide (R.PWR_DOM_SEL_DOMAIN.of v ≤ lastDomain)) v
  else if addr = 0x100010 then domCtrlWrite s req v
  else plainWrite s req addr v

/-- STK registers. -/
def writeStk (s : State) (req addr : Nat) (v : W32) : State :=
  if addr = 0x200000 then periodWrite s (R.STK_PERIOD_PER_Q.of v)
  else if addr = 0x200014 then clampWrite s req addr R.STK_BUS_WR_FLOOR 8 v
  else if addr = 0x200018 then clampWrite s req addr R.STK_RA_CTRL_RA_SHARE 8 v
  else plainWrite s req addr v

/-- MED registers. A threshold that a write moves past the spares is reached by it (R134, R135). -/
def writeMed (s : State) (req addr : Nat) (v : W32) : State :=
  if addr = 0x400014 then
    spareCheck (guardWrite s req addr (decide (R.MED_SPARE_TH_FLOOR.of v < R.MED_SPARE_TH_LOW.of v)) v)
  else if addr = 0x40004C then guardWrite s req addr (decide (R.MED_GC_CTRL_URGENT.of v < R.MED_GC_CTRL_START.of v)) v
  else plainWrite s req addr v

/-- ETH and PCI registers; RT_EN ignores writes in a member (R235). -/
def writePorts (s : State) (req addr : Nat) (v : W32) : State :=
  if addr = 0xF00000 ∨ addr = 0xF00004 then portCfgWrite s req addr v
  else if addr = 0xF00018 then
    guardWrite s req addr (decide (1500 ≤ R.ETH_LPORT_MTU_MTU.of v ∧ R.ETH_LPORT_MTU_MTU.of v ≤ 9216)) v
  else if addr = 0xF00034 then ipCommit s req v
  else if addr = 0xF00040 ∧ isMember s = true then plainWrite s req addr (R.ETH_RT_CTRL_RT_EN.put v (rd s R.ETH_RT_CTRL_RT_EN))
  else plainWrite s req addr v

/-- TEN registers. -/
def writeTen (s : State) (req addr : Nat) (v : W32) : State :=
  if addr = 0x600030 then dirtyCtrlWrite s req v else plainWrite s req addr v

/-- CPH registers. -/
def writeCph (s : State) (req addr : Nat) (v : W32) : State :=
  if addr = 0x70000C then kekEpochWrite s (selEntry s req .kek) v else plainWrite s req addr v

/-- DG registers. -/
def writeDg (s : State) (req addr : Nat) (v : W32) : State :=
  if addr < 0x810000 then ctxWrite s ((addr - 0x800000) / 0x100) ((addr - 0x800000) % 0x100) v
  else if addr = 0x810000 then dgAlloc s v
  else if addr = 0x810008 then dgFree s v
  else plainWrite s req addr v

/-- BLW registers: TH outside 55 to 360 is ignored (Table 15.6). -/
def writeBlw (s : State) (req addr : Nat) (v : W32) : State :=
  if addr = 0xB00000 then bellowsCtrlWrite s v
  else if addr = 0xB00008 then
    let th := fieldAfter s R.BLW_LOSS_TH_TH v
    plainWrite s req addr (if th < 55 ∨ 360 < th then R.BLW_LOSS_TH_TH.put v (rd s R.BLW_LOSS_TH_TH) else v)
  else plainWrite s req addr v

/-- HKP registers. -/
def writeHkp (s : State) (req addr : Nat) (v : W32) : State :=
  if addr = 0xC00004 then (if v.getLsbD 0 then { s with hkp := { s.hkp with thermSd := false } } else s)
  else plainWrite s req addr v

/-- The effect of an aligned 32-bit write of one register (R8); the pairs with halves that are written go through
`pairHiWrite`. -/
def singleWrite (s : State) (req addr : Nat) (v : W32) : State :=
  let k := addr / 0x100000
  if (regAt addr).isNone then s
  else if k = 0 then writeGlb s req addr v
  else if k = 1 then writePwr s req addr v
  else if k = 2 then writeStk s req addr v
  else if k = 3 then (if addr = 0x300000 then smtCtrlWrite s req addr v else plainWrite s req addr v)
  else if k = 4 then writeMed s req addr v
  else if k = 6 then writeTen s req addr v
  else if k = 7 then writeCph s req addr v
  else if k = 8 then writeDg s req addr v
  else if k = 9 then
    (if addr = 0x900008 ∧ R.DRM_POP_CAP.of v = 3 then plainWrite s req addr (R.DRM_POP_CAP.put v (rd s R.DRM_POP_CAP))
     else plainWrite s req addr v)
  else if k = 11 then writeBlw s req addr v
  else if k = 12 then writeHkp s req addr v
  else if addr = 0xD0000C then hmFetch s req v
  else if k = 15 ∨ k = 16 then writePorts s req addr v
  else plainWrite s req addr v

/-! ## Pairs (R7) -/

/-- The lower half of the DG_COUNT of an Assay context, one in every context's page (Table 12.5). -/
def dgCountLow (addr : Nat) : Bool := decide (0x800000 ≤ addr ∧ addr < 0x810000 ∧ addr % 0x100 = 0x18)

/-- Whether an address is the lower half of a pair, or the upper half of one. -/
def isLow (addr : Nat) : Bool := pairLows.contains addr || dgCountLow addr
def isHigh (addr : Nat) : Bool := decide (4 ≤ addr) && isLow (addr - 4)

/-- Whether the halves of a pair are writable. -/
def pairWritable (lo : Nat) : Bool := [0x40001C, 0x600038, 0xC00018].contains lo

/-- Both halves of a pair are written together: a Bay mask is judged whole (R120); the map of an input that governs no
channel is ignored (Table 16.4). -/
def pairCommit (s : State) (req lo : Nat) (l h : W32) : State :=
  if lo = 0x40001C then bayWrite s (selEntry s req .bay) (l.toNat + h.toNat * 2 ^ 32)
  else if lo = 0xC00018 ∧ 28 ≤ selEntry s req .hkp then s
  else if pairWritable lo then plainWrite (plainWrite s req lo l) req (lo + 4) h
  else s

/-- Writing a lower half stages it. -/
def pairLoWrite (s : State) (req lo : Nat) (v : W32) : State :=
  { s with reg := { s.reg with staging := Tbl.set Tbl.absent s.reg.staging (pairKey req lo) (some v) } }

/-- Writing an upper half commits the staged lower half, or the present one, with it, and consumes the staging. -/
def pairHiWrite (s : State) (req lo : Nat) (v : W32) : State :=
  let staged := Tbl.get Tbl.absent s.reg.staging (pairKey req lo)
  let s1 := { s with reg := { s.reg with staging := Tbl.set Tbl.absent s.reg.staging (pairKey req lo) none } }
  pairCommit s1 req lo (staged.getD (regValue s req lo)) v

/-- Answer a requester's read. -/
def answer (s : State) (req : Nat) (w : W32) : State :=
  { s with reg := { s.reg with rdData := Tbl.set w32z s.reg.rdData req w } }

/-- Reading a lower half captures the upper half of the same moment. -/
def pairLoRead (s : State) (req lo : Nat) : State :=
  answer { s with reg := { s.reg with
    capture := Tbl.set Tbl.absent s.reg.capture (pairKey req lo) (some (regValue s req (lo + 4))) } } req (regValue s req lo)

/-- Reading an upper half returns the capture and consumes it, or the half as it stands. -/
def pairHiRead (s : State) (req lo : Nat) : State :=
  let held := Tbl.get Tbl.absent s.reg.capture (pairKey req lo)
  answer { s with reg := { s.reg with capture := Tbl.set Tbl.absent s.reg.capture (pairKey req lo) none } } req
    (held.getD (regValue s req (lo + 4)))

/-- A write of any register, as a program or the board record makes it. -/
def regWrite (s : State) (req addr : Nat) (v : W32) : State :=
  if isLow addr && pairWritable addr then pairLoWrite s req addr v
  else if isHigh addr && pairWritable (addr - 4) then pairHiWrite s req (addr - 4) v
  else singleWrite s req addr v

/-! ## Reads that clear (R8) -/

/-- After a read, the RC fields stand at 0. -/
def clearRc (s : State) (req addr : Nat) : State :=
  match regAt addr with
  | none => s
  | some r =>
    let key := cellOf s req addr r
    if r.maskOf (· == .rc) = 0 then s
    else setWord s key (regWord s key &&& ~~~BitVec.ofNat 32 (r.maskOf (· == .rc)))

/-- A read of a register that is no half of a pair. SMT_SLOT_MIN counts on from the slots free now (Table 3.11): it shows
0 until the next slot is taken. -/
def singleRead (s : State) (req addr : Nat) : State :=
  let s1 := clearRc (answer s req (regValue s req addr)) req addr
  if addr = 0x1000008 then (fresh s1).2
  else if addr = R.SMT_SLOT_MIN_MIN.addr then { s1 with ord := { s1.ord with minFrom := some (slotsFree s) } }
  else s1

/-- A read of any register. A narrower or unaligned access has no effect on the register, and returns zero (R5). -/
def regRead (s : State) (req addr size : Nat) : State :=
  if size ≠ 4 ∨ addr % 4 ≠ 0 then answer s req 0
  else if isLow addr then pairLoRead s req addr
  else if isHigh addr then pairHiRead s req (addr - 4)
  else singleRead s req addr

/-! ## The commands -/

/-- Whether an access of a requester is answered: in HOT, from one of the ten requesters (R427, R429). -/
def accessOpen (s : State) (req : Nat) : Bool := windowOpen s && decide (req < requesterCount)

/-- REGISTER_WRITE: a narrower or unaligned access has no effect (R5). The key of a software reset resets the device as
SOFTWARE_RESET does, with the pins as they stood at the last reset (log entry 35). -/
def execRegisterWrite (req addr size : Nat) (value : W32) (s : State) : Answer :=
  stepIf s (accessOpen s req)
    (if size ≠ 4 ∨ addr % 4 ≠ 0 then s
     else if addr = R.GLB_SW_RESET_KEY.addr then softwareReset s req value s.boot.pins
     else regWrite s req addr value)

/-- RC_REGISTER_READ: an RC field returns its value and clears; a field of another code returns its value. -/
def execRcRegisterRead (req addr size : Nat) (s : State) : Answer :=
  stepIf s (accessOpen s req) (regRead s req addr size)

/-- REG_PAIR_LO_READ. -/
def execRegPairLoRead (req addr size : Nat) (s : State) : Answer :=
  stepIf s (accessOpen s req) (regRead s req addr size)

/-- REG_PAIR_HI_READ. -/
def execRegPairHiRead (req addr size : Nat) (s : State) : Answer :=
  stepIf s (accessOpen s req) (regRead s req addr size)

/-- REG_PAIR_LO_WRITE. -/
def execRegPairLoWrite (req addr : Nat) (value : W32) (s : State) : Answer :=
  stepIf s (accessOpen s req) (if isLow addr then pairLoWrite s req addr value else regWrite s req addr value)

/-- REG_PAIR_HI_WRITE. -/
def execRegPairHiWrite (req addr : Nat) (value : W32) (s : State) : Answer :=
  stepIf s (accessOpen s req) (if isHigh addr then pairHiWrite s req (addr - 4) value else regWrite s req addr value)

/-- BAY_MASK_WRITE: MED_BAY_MASK_HI of the Bay that the requester selected. -/
def execBayMaskWrite (req : Nat) (value : W32) (s : State) : Answer :=
  stepIf s (accessOpen s req) (pairHiWrite s req R.MED_BAY_MASK_LO_MASK.addr value)

/-- IP_ENTRY_COMMIT. -/
def execIpEntryCommit (req : Nat) (value : W32) (s : State) : Answer :=
  stepIf s (accessOpen s req) (ipCommit s req value)

/-- EVENT_FORCE_WRITE. -/
def execEventForceWrite (req : Nat) (value : W32) (s : State) : Answer :=
  stepIf s (accessOpen s req) (forceEvent s value)

/-- EVENT_STATUS_CLEAR. -/
def execEventStatusClear (req k : Nat) (value : W32) (s : State) : Answer :=
  stepIf s (accessOpen s req && decide (k < 12)) (statClear s k value)

/-- EVENT_ENABLE_WRITE. -/
def execEventEnableWrite (req k : Nat) (value : W32) (s : State) : Answer :=
  stepIf s (accessOpen s req && decide (k < 12)) (enableWrite s k value)

/-- HM_RD_SEQ_WRITE. -/
def execHmRdSeqWrite (req : Nat) (value : W32) (s : State) : Answer :=
  stepIf s (accessOpen s req) (hmFetch s req value)

/-- KEK_EPOCH_WRITE. -/
def execKekEpochWrite (req : Nat) (value : W32) (s : State) : Answer :=
  stepIf s (accessOpen s req) (kekEpochWrite s (selEntry s req .kek) value)

/-- STK_PERIOD_WRITE. -/
def execStkPeriodWrite (req : Nat) (value : W32) (s : State) : Answer :=
  stepIf s (accessOpen s req) (periodWrite s (R.STK_PERIOD_PER_Q.of value))

/-- BOOT_LOCK_WRITE: the lock cannot be cleared (Table 19.7). -/
def execBootLockWrite (req : Nat) (value : W32) (s : State) : Answer :=
  stepIf s (accessOpen s req) (if value.getLsbD 0 then applyLock s else s)

/-- EXEC_EN_WRITE: a write of SMT_CTRL. -/
def execExecEnWrite (req : Nat) (value : W32) (s : State) : Answer :=
  stepIf s (accessOpen s req) (smtCtrlWrite s req R.SMT_CTRL_EXEC_EN.addr value)

end Sys2Proof.Machine
end

