-- ==== Sys2Proof/Machine/Boot.lean ====
section
/-! DEFINITION. The bring-up after the ROM (R414, R417, R418), the commit of images (R298, R423), and firmware updates
(R422 to R424). -/

namespace Sys2Proof.Machine

/-! ## The board record (R414) -/

/-- The requester whose register writes the record's entries are: MC0, a management core. -/
def boardReq : Nat := 1

/-- The addresses that the record may name. -/
def boardAddr (a : Nat) : Bool :=
  [1, 2, 4, 5, 9, 10, 11, 12, 15, 16].contains (a / 0x100000) || [0x8000, 0x110, 0x20, 0x300000].contains a
    || (decide (0x240 ≤ a) && decide (a < 0x270)) || (decide (0x300 ≤ a) && decide (a < 0x3C0))

/-- One entry: a register write, with EXEC_EN taken as 0, or skipped. -/
def boardEntry (s : State) (e : Nat × W32) : State :=
  if !boardAddr e.1 then { s with boot := { s.boot with boardSkip := true } }
  else if e.1 % 4 ≠ 0 then s
  else regWrite s boardReq e.1 (if e.1 = R.SMT_CTRL_EXEC_EN.addr then R.SMT_CTRL_EXEC_EN.put e.2 0 else e.2)

/-- Stage 5: the record is applied in order, or ignored whole. -/
def applyBoard (s : State) : State :=
  let b := s.boot.flash.board
  if b.formatOk && b.crcOk then b.entries.foldl boardEntry s else { s with boot := { s.boot with boardBad := true } }

/-! ## The commit of the running images (R298, R423) -/

/-- Raise the counter of an image to its SVN, and its floor with it when FUSE is set. -/
def raiseCounter (s : State) (k : Nat) (i : FwImage) : State :=
  let v := max (arbValue s k) (imageSvn i)
  let up := fun (f : Nat) => if imageFuse i then max f (min 64 (imageSvn i)) else f
  { s with asy := { s.asy with
    arb := Tbl.set w32z s.asy.arb k (BitVec.ofNat 32 v), arbBad := s.asy.arbBad.filter (· != k)
    floor0 := if k = 0 then up s.asy.floor0 else s.asy.floor0
    floor1 := if k = 1 then up s.asy.floor1 else s.asy.floor1 } }

/-- The images that run have reached I/O ready: their counters rise, and a slot that was PENDING becomes ACTIVE. -/
def commitImages (s : State) : State :=
  let x := slotImages s.boot.flash s.boot.slotB
  let s1 := raiseCounter (raiseCounter s 0 x.sec) 1 x.mgmt
  if s.boot.pendingSlot = 1 + b2n s.boot.slotB then
    { s1 with boot := { s1.boot with activeB := s.boot.slotB, pendingSlot := 0, tries := 0 } }
  else s1

/-! ## The stages (Table 19.4) -/

/-- Stage 6: DRAM is enabled and trained, and all of it is uninitialised, in regions of 1 MiB (R319). -/
def bringDram (s : State) : State :=
  let s1 := wr s R.DRM_CTRL_EN 1
  (List.range 4).foldl (fun t c => setDram t c { dram0 c with uninit := dramMib t / 4 }) s1

/-- Stage 9: media bring-up, the recoveries, and the tenants. On a formatted device MED_MAP_POOL shows the shadow's
value (Table 6.8). -/
def bringStore (s : State) (b : BootReport) : State :=
  let s1 := restoreTenants (bootZoneClose (mediaBringup s b))
  wr s1 R.MED_MAP_POOL_GIB s1.med.mapPool

/-- Whether the zoned namespaces may report ready: after a good bring-up, and in a member once the Wall is formed and the
member live (R417). -/
def mayServe (s : State) : Bool :=
  !s.med.bringupFault && (!isMember s || (s.wall.formed && s.wall.live.getLsbD s.boot.memberId.toNat))

/-- Controllers that hosts have enabled become ready. -/
def readyControllers (s : State) : State :=
  s.port.funcs.foldl (fun t e => if e.2.en && functionWorks t e.1 then setFunc t e.1 { e.2 with rdy := true } else t) s

/-- Stage 10: I/O ready. A member uses no host port (R235). How many groups the resume image needs is free (R334). -/
def ioReadyStage (s : State) : State :=
  let s1 := smtCtrlWrite s boardReq R.SMT_CTRL_EXEC_EN.addr (regWord s R.SMT_CTRL_EXEC_EN.addr ||| 1#32)
  let s2 := if isMember s then s1 else readyControllers (wr s1 R.ETH_RT_CTRL_RT_EN 1)
  let s3 := if mayServe s2 then nsReady s2 (·.zoned) true else s2
  let s4 := commitImages { s3 with boot := { s3.boot with ioReady := true } }
  let v := fresh s4
  { v.2 with pwr := { v.2.pwr with emberNeed := v.1.toNat % 33 } }

/-- Stage 11: the conventional maps are loaded, and their namespaces report ready as the zoned ones do. -/
def mapStage (s : State) : State :=
  let s1 := if mayServe s then nsReady s (fun n => !n.zoned) true else s
  { s1 with boot := { s1.boot with mapsLoaded := true } }

/-- In a Wall the Course links train once N and S are fixed (R393, R394). -/
def trainLinks (s : State) : State :=
  if s.boot.cfgMode = 0 then s
  else (List.range 4).foldl (fun t p => if domServes t (133 + p) then setCk t p { port0 0 with st := .training } else t) s

/-- What the stage in progress has done when it ends. -/
def stageWork (s : State) (b : BootReport) : State :=
  match s.boot.stage with
  | 5 => applyBoard s
  | 6 => bringDram s
  | 7 => armBellows s
  | 8 => trainLinks (applyLock s)
  | 9 => bringStore s b
  | 10 => ioReadyStage s
  | _ => mapStage s

/-- The end of a stage: its work, and the next stage begins. -/
def stageDone (s : State) (b : BootReport) : State :=
  let s1 := stageWork s b
  { s1 with boot := { s1.boot with stage := min 11 (s.boot.stage + 1) } }

/-- BOOT_STAGE_DONE. -/
def execBootStageDone (b : BootReport) (s : State) : Answer :=
  stepIf s (decide (5 ≤ s.boot.stage ∧ s.boot.stage ≤ 11) && !s.boot.mapsLoaded && windowOpen s) (stageDone s b)

/-! ## Firmware (R422 to R424) -/

/-- NVMe statuses of firmware commands (PRESUMED codes, log entry 21). -/
def nvInvalidSlot : Nat × Nat := (1, 0x06)
def nvInvalidImage : Nat × Nat := (1, 0x07)
def nvActivationProhibited : Nat × Nat := (1, 0x13)

/-- Bytes of a package at most. -/
def packageMax : Nat := 8 * 2 ^ 20

/-- A piece of the package: pieces follow one another without a gap or an overlap. -/
def downloadPiece (s : State) (slot offset : Nat) (piece : List Byte) : State :=
  if offset % 4 ≠ 0 ∨ piece.length % 4 ≠ 0 ∨ offset ≠ s.boot.package.length ∨ packageMax < offset + piece.length then
    admin s slot nvInvalidField []
  else admin { s with boot := { s.boot with package := s.boot.package ++ piece } } slot nvOk []

/-- FIRMWARE_IMAGE_DOWNLOAD: only MF downloads. -/
def execFirmwareImageDownload (slot : Nat) (piece : List Byte) (s : State) : Answer :=
  let offset := 4 * (getSlot s slot).cmd.dw11.toNat
  stepIf s (windowOpen s && adminAt s slot 0x11)
    (if senderOf s slot = 0 then downloadPiece s slot offset piece else admin s slot nvInvalidOpcode [])

/-- The slot that FS names, 0 for the inactive one; none where it names the active slot or no slot. -/
def commitTarget (s : State) (fs : Nat) (zero : Bool) : Option Bool :=
  if fs = 0 then (if zero then some (!s.boot.activeB) else none)
  else if fs ≤ 2 ∧ decide (fs = 2) ≠ s.boot.activeB then some (decide (fs = 2))
  else none

/-- The checks of both images (R296 steps 1 to 5). -/
def imagesStatus (s : State) (x : SlotImages) : Nat × Nat :=
  if !imageGenuine x.sec 1 || !imageGenuine x.mgmt 2 then nvInvalidImage
  else if !slotPasses s x then nvActivationProhibited
  else nvOk

/-- A commit cannot begin while another one runs or an entry is in progress (R424). -/
def commitBusy (s : State) : Bool := s.boot.commit.isSome || s.pwr.entry.isSome

/-- Commit Actions 0 and 1: after the checks the slot is being written; until its read-back ends it holds no whole
image. -/
def commitWrite (s : State) (slot fs action : Nat) (x : SlotImages) : State :=
  if commitBusy s then admin s slot nvSequenceError []
  else match commitTarget s fs true with
    | none => admin s slot nvInvalidSlot []
    | some b =>
      if imagesStatus s x ≠ nvOk then admin s slot (imagesStatus s x) []
      else
        let f := s.boot.flash
        let none2 : SlotImages := ⟨noImage, noImage⟩
        let s1 := adminHold s slot
        { s1 with boot := { s1.boot with
          commit := some (b, x, action), commitSlot := some (slot, (getSlot s slot).gen)
          flash := if b then { f with slotB := none2 } else { f with slotA := none2 } } }

/-- Whether the images that a commit reads are those of the package: the first of them begins as the package does. -/
def packageHolds (s : State) (x : SlotImages) : Bool := !x.sec.complete || s.boot.package.take 256 == x.sec.header

/-- FIRMWARE_COMMIT_WRITE: Commit Action 0. -/
def execFirmwareCommitWrite (slot : Nat) (p : SlotImages) (s : State) : Answer :=
  let c := (getSlot s slot).cmd
  stepIf s (windowOpen s && packageHolds s p && adminAt s slot 0x10 && commitAction c == 0)
    (if senderOf s slot = 0 then commitWrite s slot (commitSlotOf c) 0 p else admin s slot nvInvalidOpcode [])

/-- FIRMWARE_COMMIT_WRITE_PENDING: Commit Action 1. -/
def execFirmwareCommitWritePending (slot : Nat) (p : SlotImages) (s : State) : Answer :=
  let c := (getSlot s slot).cmd
  stepIf s (windowOpen s && packageHolds s p && adminAt s slot 0x10 && commitAction c == 1)
    (if senderOf s slot = 0 then commitWrite s slot (commitSlotOf c) 1 p else admin s slot nvInvalidOpcode [])

/-- A slot becomes PENDING with no tries. -/
def setPending (s : State) (b : Bool) : State := { s with boot := { s.boot with pendingSlot := 1 + b2n b, tries := 0 } }

/-- Commit Action 2: a slot that already passes becomes PENDING. -/
def commitPending (s : State) (slot fs : Nat) : State :=
  if commitBusy s then admin s slot nvSequenceError []
  else match commitTarget s fs false with
    | none => admin s slot nvInvalidSlot []
    | some b =>
      let st := imagesStatus s (slotImages s.boot.flash b)
      if st ≠ nvOk then admin s slot st [] else admin (setPending s b) slot nvOk []

/-- FIRMWARE_COMMIT_PENDING. -/
def execFirmwareCommitPending (slot : Nat) (s : State) : Answer :=
  let c := (getSlot s slot).cmd
  stepIf s (windowOpen s && adminAt s slot 0x10 && commitAction c == 2)
    (if senderOf s slot = 0 then commitPending s slot (commitSlotOf c) else admin s slot nvInvalidOpcode [])

/-- Complete the commit's command, if it still waits in its slot. -/
def commitAnswer (s : State) (c : Option (Nat × Nat)) (st : Nat × Nat) : State :=
  match c with
  | some (k, gen) => if adminWaits s k gen then admin s k st [] else s
  | none => s

/-- The slot is written and read back. The NVMe status of a read-back that fails is free: the spec gives none. -/
def slotWritten (s : State) (b : Bool) (x : SlotImages) (action : Nat) (readback : Bool) : State :=
  let s1 := { s with boot := { s.boot with commit := none, commitSlot := none } }
  if readback then
    let f := s.boot.flash
    let s2 := { s1 with boot := { s1.boot with flash := if b then { f with slotB := x } else { f with slotA := x } } }
    commitAnswer (if action = 1 then setPending s2 b else s2) s.boot.commitSlot nvOk
  else
    let v := (fresh s1).1.toNat
    commitAnswer (fresh s1).2 s.boot.commitSlot (v % 8, v / 8 % 256)

/-- FIRMWARE_SLOT_WRITTEN. -/
def execFirmwareSlotWritten (readback : Bool) (s : State) : Answer :=
  match s.boot.commit with
  | none => .next s
  | some (b, x, a) => stepIf s (windowOpen s) (slotWritten s b x a readback)

end Sys2Proof.Machine
end

