-- ==== Sys2Proof/Machine/Power.lean ====
section
/-! DEFINITION. Power states: requests, the steps of an entry, what each state keeps, and the wake events (R326 to R336,
R400, R407); the operating points (R342 to R345); the change of the strike period (R24); HMREAD (R385). -/

namespace Sys2Proof.Machine

/-! ## Requests for a device state (R327, R331, R332, R334, R424) -/

/-- The device states by their codes (R107). -/
def PState.ofCode (n : Nat) : PState :=
  match n with
  | 0 => .hot
  | 1 => .banked
  | 2 => .ember
  | _ => .cold

/-- Answer a request: a POWER by its result, Set Features by its completion (Table 3.6), a member to its head (R400). -/
def powerAnswer (s : State) (b : PowerReq) (st : W16) : State :=
  match b with
  | .order rid => complete s rid st none
  | .feature k gen => if adminWaits s k gen then endAdmin s k (St.nvme st false false) else s
  | .wall => emit s (.memberEntry st)

/-- Bank groups that PWR_RETAIN names, and whether it names one of SB00 to SB13. -/
def retainCount (s : State) : Nat := ((List.range 32).filter fun g => (rd s R.PWR_RETAIN_GROUPS).testBit g).length
def retainLow (s : State) : Bool := rd s R.PWR_RETAIN_GROUPS % 2 ^ 14 != 0

/-- A domain drains on the manager's order. -/
def managerDrains (s : State) : Bool :=
  (List.range domCount).any fun d => let x := getDom s d; x.st == .draining && x.mgr

/-- Step 1: the status with which an entry is refused (R332, R334, R424). -/
def entryRefusal (s : State) (target : PState) : W16 :=
  if s.pwr.entry.isSome || s.pwr.seq.isSome || s.boot.commit.isSome || managerDrains s then St.inProgress
  else if target == .ember && (decide (retainCount s < s.pwr.emberNeed) || retainLow s) then St.notIdle
  else St.ok

/-- An entry begins: from the next strike fetching and crediting stop; a Wall head commands its members (R329, R400). -/
def beginEntry (s : State) (b : PowerReq) (target : PState) : State :=
  let e : Entry := { target := target, step := 1, startAt := s.tb.count + 1, by_ := b, abort := [], heldHot := [],
                     failing := false }
  let s1 := { s with pwr := { s.pwr with entry := some e } }
  if isHead s then emit s1 (.powerCommand target.code false) else s1

/-- A request for HOT: the present state, a wake to come, or the end of an entry at its next safe point (R327, R332). -/
def requestHot (s : State) (b : PowerReq) : State :=
  match s.pwr.entry with
  | none => powerAnswer s b St.ok
  | some e =>
    let e1 := if e.step = 6 then { e with heldHot := e.heldHot ++ [b] } else { e with abort := e.abort ++ [b] }
    { s with pwr := { s.pwr with entry := some e1 } }

/-- A request for a state. -/
def powerRequest (s : State) (b : PowerReq) (target : PState) : State :=
  if target = .hot then requestHot s b
  else if entryRefusal s target ≠ St.ok then powerAnswer s b (entryRefusal s target)
  else beginEntry s b target

/-- POWER as an asynchronous instruction: for the manager alone, and on the head alone (R107, R400). -/
def powerOp (s : State) (k : Nat) (f : Fields) : AsyncOp :=
  let x := getSlot s k
  { wellUsed := unusedZero f false false false 8 2, reads := [], writes := [], ctx := none
    check := fun t => if x.tenant ≠ 0 ∨ isMember t then St.illegalOp else St.ok
    start := fun t rid => powerRequest t (.order rid) (.ofCode (f.i 1 0)) }

/-- POWER. -/
def execPower (slot : Nat) (f : Fields) (s : State) : Answer :=
  stepIf s (atWord s slot 0xE0 f) (asyncWord s slot 0xE0 f (powerOp s slot f))

/-- A Set Features command for the power state that stands in its slot. -/
def featureSlot (s : State) (k : Nat) : Bool :=
  adminAt s k 0x09 && (getSlot s k).cmd.dw10.toNat % 256 == 0xC0 && windowOpen s

/-- SET_FEATURES_POWER_STATE: Invalid Field in Command from any function but MF's. -/
def execSetFeaturesPowerState (slot : Nat) (s : State) : Answer :=
  let x := getSlot s slot
  stepIf s (featureSlot s slot)
    (if x.tenant ≠ 0 then endAdmin s slot (0, 0x02, true)
     else powerRequest (adminHold s slot) (.feature slot x.gen) (.ofCode (x.cmd.dw11.toNat % 4)))

/-- GET_FEATURES_POWER_STATE: DW0 of the answer. -/
def execGetFeaturesPowerState (slot : Nat) (s : State) : Answer :=
  stepIf s (endpointOpen s && adminAt s slot 0x0A && (getSlot s slot).cmd.dw10.toNat % 256 == 0xC0)
    (if senderOf s slot ≠ 0 then admin s slot nvInvalidField [] else adminDw0 s slot (powerWord s % 32))

/-- GET_LOG_PAGE_HALLMARK (R387). -/
def execGetLogPageHallmark (slot : Nat) (s : State) : Answer :=
  let c := (getSlot s slot).cmd
  let base := captureBase s (senderOf s slot) (logOffset c)
  stepIf s (endpointOpen s && logPageAt s slot 0xC8)
    (admin (setCapture s (senderOf s slot) base) slot nvOk (hallmarkBytes s.hm base (logOffset c) (logBytes c)))

/-! ## What the low states keep (R326, R328) -/

/-- Every incomplete row stands in the flush area, with its data (R335). -/
def parkRows (s : State) : State :=
  let l := s.med.courses.filterMap fun e => match e.2 with
    | some c => if courseDirty s c = 0 then none else some (e.1, c.fill)
    | none => none
  { s with
    med := { s.med with restored := l, areaHeld := s.med.areaHeld || !l.isEmpty }
    blw := { s.blw with image := some { recs := [], data := dirtyData s, sets := [] } } }

/-- VDD_CORE in mV at an operating point (Table 14.7). -/
def opMv (op : Nat) : Nat :=
  match op with
  | 0 => 550
  | 1 => 600
  | 2 => 650
  | 3 => 700
  | 4 => 770
  | _ => 850

/-- BANKED: clocks and strikes stop, the DRAM refreshes itself, VDD_CORE falls to 0.55 V; everything is kept. -/
def bankedState (s : State) : State :=
  let s1 := { s with
    pwr := { s.pwr with st := .banked, entry := none, opAtEntry := s.pwr.cur }
    tb := { s.tb with stopped := true }
    hm := { s.hm with opMsStored := s.hm.opMs } }
  emit ((List.range 4).foldl (fun t c => setDram t c { getDram t c with sr := true, entering := false, exiting := false }) s1)
    (.avsWrite 550)

/-- COLD: AON and the Cornerstone are left. -/
def coldState (s : State) : State :=
  let p := if s.pwr.parked then parkRows s else s
  let b := bareState p
  { b with
    pwr := { b.pwr with st := .cold, padEn := (padsAtReset s).pwr.padEn }
    hm := { b.hm with opMsStored := b.hm.opMs } }

/-- A register word as the configuration shadow restores it: its writable fields. -/
def shadowWord (key : Nat) (w : W32) : W32 :=
  match regAt (key % selStride) with
  | none => resetWord key
  | some r =>
    if aonAddr (key % selStride) then w
    else
      let m := BitVec.ofNat 32 (r.maskOf fun a => match a with
        | .rw | .rwl => true
        | _ => false)
      (w &&& m) ||| (resetWord key &&& ~~~m)

/-- The channels of a device in EMBER: their training values are lost. -/
def untrained (_ : Nat) (x : Chan) : Chan :=
  { chan0 0 with st := match x.st with
      | .off => .off
      | .fault => .fault
      | _ => .training }

/-- EMBER: with AON and the Cornerstone, what the resume image and the configuration shadows bring back (R328, R334): the
written registers, the dies in service, the boot as far as it had come, IP addresses and port modes. -/
def emberState (s : State) : State :=
  let c := coldState s
  { c with
    reg := { c.reg with file := Tbl.mapAll resetWord s.reg.file shadowWord }
    fl := { c.fl with
      dies := Tbl.mapAll die0 s.fl.dies fun k x =>
        { die0 k with present := x.present, lost := x.lost, aged := x.aged, levelling := x.levelling }
      chans := Tbl.mapAll chan0 s.fl.chans untrained }
    port := { c.port with ips := s.port.ips, lports := Tbl.mapAll lport0 s.port.lports fun k x => { lport0 k with mode := x.mode } }
    asy := { c.asy with mSec := s.asy.mSec, mMgmt := s.asy.mMgmt, mCfg := s.asy.mCfg }
    boot := { s.boot with package := [], commit := none, commitSlot := none, mapsLoaded := false }
    wall := { c.wall with size := s.wall.size, skip := s.wall.skip }
    pwr := { c.pwr with st := .ember } }

/-! ## Wakes (R333 to R335, R372, R407) -/

/-- A head that wakes from EMBER or COLD wakes its members (R407). -/
def wakeMembers (s : State) : State := if isHead s then emit s .wakePulse else s

/-- The wake from BANKED: the point at entry, voltage first, the clocks, the DRAM, the strikes; a head's members follow over
the Course links (R333, R400). -/
def wakeBanked (s : State) (cause : BitVec 6) : State :=
  let s1 := { s with
    pwr := { s.pwr with st := .hot, wakeCause := cause, cur := s.pwr.opAtEntry }
    tb := { s.tb with stopped := false } }
  let s2 := (List.range 4).foldl (fun t c =>
    let d := getDom t (dmDom c)
    let t1 := setDram t c { getDram t c with sr := false, gated := false }
    if d.st == .autoOff then setDom t1 (dmDom c) { d with st := .on } else t1) s1
  let s3 := emit s2 (.avsWrite (opMv s.pwr.opAtEntry))
  if isHead s then emit s3 (.powerCommand 0 false) else s3

/-- The wake from COLD: a full boot with the straps as they were sampled (R333). -/
def coldBoot (s : State) (cause : BitVec 6) (w : WakeEnv) : State :=
  wakeMembers (rom { s with pwr := { s.pwr with st := .hot, wakeCause := cause } } w.pins)

/-- Parked rows are read back into the write buffer (R335). -/
def readParked (s : State) : State :=
  match s.blw.image with
  | some m => restoreData s m
  | none => s

/-- The wake from EMBER that resumes: DRAM holds nothing, the tenants come back with their generations raised, the media
as after a boot, the strike counter at 0; the maps are still to be loaded (R22, R122, R133, R242, R319, R328, R334). -/
def emberResume (s : State) (cause : BitVec 6) : State :=
  let s1 := { s with
    pwr := { s.pwr with st := .hot, wakeCause := cause }
    tb := { s.tb with stopped := false, count := 0 } }
  let s2 := restoreTenants (bootZoneClose (replay (readParked (bringDram s1)) [] []))
  let s3 := { s2 with mem := { s2.mem with dramFree := 256 * dramPool s2 } }
  let s4 := periodWrite (wr s3 R.STK_PERIOD_PER_Q 4) (rd s R.STK_PERIOD_PER_Q)
  let s5 := trainLinks (if mayServe s4 then nsReady s4 (·.zoned) true else s4)
  wakeMembers { setPads s5 with reg := { s5.reg with inForce := s5.reg.file } }

/-- The retained image does not hash to its record: a COLD boot, and Hallmark records it (R334). -/
def emberMismatch (s : State) (cause : BitVec 6) (w : WakeEnv) : State :=
  let b := bareState s
  raise (coldBoot { b with pwr := { b.pwr with st := .cold } } cause w) (event 230 0x0103 [])

/-- A wake of a device in a low state. -/
def wakeNow (s : State) (cause : BitVec 6) (w : WakeEnv) : State :=
  match s.pwr.st with
  | .hot => s
  | .banked => wakeBanked s cause
  | .ember => if w.imageOk then emberResume s cause else emberMismatch s cause w
  | .cold => coldBoot s cause w

/-- A wake event acts when its bit of PWR_WAKE_EN is set; after a thermal shutdown the first one is held (R333, R372). -/
def wakeEvent (s : State) (bit : Nat) (w : WakeEnv) : State :=
  let cause := BitVec.ofNat 6 (2 ^ bit)
  if !(rd s R.PWR_WAKE_EN_EN).testBit bit then s
  else if s.hkp.shutdown then
    (if s.pwr.thermHeld.isNone then { s with pwr := { s.pwr with thermHeld := some cause } } else s)
  else wakeNow s cause w

/-- A device in a low state that is not halted. -/
def asleep (s : State) : Bool := s.pwr.st != .hot && !s.pwr.halted

/-- PWR_WAKE_N_ASSERT. -/
def execPwrWakeNAssert (w : WakeEnv) (s : State) : Answer :=
  stepIf s (!s.pwr.halted) (wakeEvent s 3 w)

/-- WAKE_TIMER_EXPIRY: PWR_WAKE_TIMER ms after entry, when nonzero. -/
def execWakeTimerExpiry (w : WakeEnv) (s : State) : Answer :=
  stepIf s (asleep s && rd s R.PWR_WAKE_TIMER_MS != 0) (wakeEvent s 4 w)

/-- PERST_WAKE: PERST_N rises, in Single and in a Wall head. -/
def execPerstWake (w : WakeEnv) (s : State) : Answer :=
  stepIf s (asleep s && !isMember s && s.pwr.st != .banked)
    (wakeEvent { s with port := { s.port with perstHigh := true } } 2 w)

/-- WALL_WAKE_PULSE: the head's pulse on PWR_WAKE_N reaches a member. -/
def execWallWakePulse (w : WakeEnv) (s : State) : Answer :=
  stepIf s (isMember s && !s.pwr.halted) (wakeEvent s 3 w)

/-- What a wake from BANKED meets: nothing is booted. -/
def noEnv (s : State) : WakeEnv := { pins := { s.boot.pins with reflash := none }, imageOk := true }

/-- The receive buffer of a logical port, and where PFC pauses (R211). -/
def rxBuffer : Nat := 2 ^ 20
def rxPause : Nat := 3 * 2 ^ 18

/-- Whether a logical port has sent a pause for the priority. -/
def pausing (s : State) (lport : Nat) (x : LPort) : Bool :=
  lportField s R.ETH_LPORT_CFG_PFC_EN lport == 1 && decide (rxPause < x.wakeBuf)

/-- A packet during BANKED is held, with pause frames above 75 %; with PFC off a packet beyond the buffer is dropped
(R211, R212). -/
def holdPacket (s : State) (lport len : Nat) : State :=
  let x := getLPort s lport
  let pfc := lportField s R.ETH_LPORT_CFG_PFC_EN lport == 1
  if rxBuffer < x.wakeBuf + len then (if pfc then s else dropFrame s)
  else
    let s1 := setLPort s lport { x with wakeBuf := x.wakeBuf + len }
    if pausing s1 lport (getLPort s1 lport) then emit s1 (.pauseFrame lport) else s1

/-- WAKE_PACKET: a RoCEv2 packet, or an ARP or Neighbour Discovery request, for a local address. -/
def execWakePacket (lport : Nat) (target : IpAddr) (len : Nat) (s : State) : Answer :=
  stepIf s (asleep s && s.pwr.st == .banked && !isMember s && (getLPort s lport).up && ownAddress s lport target)
    (if (rd s R.PWR_WAKE_EN_EN).testBit 0 then wakeEvent (holdPacket s lport len) 0 (noEnv s) else s)

/-- WAKE_TLP: a TLP is held in the 64 KiB receive buffer, and answered after the wake. -/
def execWakeTlp (fn len : Nat) (s : State) : Answer :=
  stepIf s (asleep s && s.pwr.st == .banked && !isMember s && s.port.linkUp && decide (fn ≤ 1023)
      && decide (s.port.heldTlps + len ≤ 65536))
    (if (rd s R.PWR_WAKE_EN_EN).testBit 1 then
      wakeEvent { s with port := { s.port with heldTlps := s.port.heldTlps + len } } 1 (noEnv s) else s)

/-! ## The steps of an entry (R329, R330) -/

/-- The slot of a request, and its request. -/
def PowerReq.slot (s : State) : PowerReq → Option Nat
  | .order rid => (getReq s rid).map (·.slot)
  | .feature k _ => some k
  | .wall => none
def PowerReq.rid : PowerReq → Option Nat
  | .order rid => some rid
  | _ => none

/-- The requests that an entry has to answer. -/
def Entry.asked (e : Entry) : List PowerReq := e.by_ :: e.abort ++ e.heldHot

/-- Step 2: every other slot is FREE, every engine queue is empty, and no domain is DRAINING. -/
def drained (s : State) (e : Entry) : Bool :=
  let slots := e.asked.filterMap (·.slot s)
  let rids := e.asked.filterMap (·.rid)
  (s.ord.slots.all fun x => x.2.st == .free || slots.contains x.1)
    && (s.ord.reqs.all fun x => x.2.isNone || rids.contains x.1)
    && (s.cph.lanes.all fun x => laneEmpty s x.1) && s.fl.softQ.isEmpty && (s.asy.ctxs.all fun x => !x.2.busy)
    && s.ord.quenchQ.isEmpty && ((List.range domCount).all fun d => (getDom s d).st != .draining)

/-- Step 3: every complete row is programmed and verified, every unit stands at NONE, and the journal's staging is in flash. -/
def rowsDone (s : State) : Bool := s.med.jrn.staged.isEmpty && s.med.courses.all fun e => match e.2 with
  | some c => (List.range 16).all fun p => decide (rowsReady s c ≤ c.doneAt p)
  | none => true

/-- Step 5: the issuing order's completion is posted and its slot quenched. -/
def answered (s : State) (e : Entry) : Bool := match e.by_.slot s with
  | some k => (getSlot s k).st != .posting && (getSlot s k).st != .quench
  | none => true

/-- Whether the step in progress may end. -/
def entryReady (s : State) (e : Entry) : Bool :=
  match e.step with
  | 1 => decide (e.startAt ≤ s.tb.count)
  | 2 => drained s e
  | 3 => rowsDone s
  | 5 => answered s e
  | _ => true

/-- The order ends with 0x0000, Set Features completes, a member tells its head (R331, R400). -/
def postEntry (s : State) (e : Entry) : State :=
  match e.by_ with
  | .order rid => match getReq s rid with
    | some q => if awaited s rid q then finishOrder s q.slot St.ok else s
    | none => s
  | b => powerAnswer s b St.ok

/-- Forget the request of a POWER that has been answered. -/
def dropRequest (s : State) (b : PowerReq) : State :=
  match b with
  | .order rid => setReq s rid none
  | _ => s

/-- An entry is abandoned at a safe point: HOT requests complete, parked data is discarded, and fetching and crediting
resume at the next strike (R330, R332). -/
def abandonEntry (s : State) (e : Entry) (st : W16) : State :=
  let s1 := { s with pwr := { s.pwr with entry := none, parked := false, resumeAt := s.tb.count + 1 } }
  let s2 := if e.step = 5 then dropRequest s1 e.by_ else powerAnswer s1 e.by_ st
  let s3 := e.abort.foldl (fun t b => powerAnswer t b St.ok) s2
  if isHead s then emit s3 (.powerCommand 0 true) else s3

/-- The next step begins. Step 4 has parked the incomplete rows and written the resume image and its hash. -/
def nextStep (s : State) (e : Entry) : State :=
  let n := if e.step = 2 ∧ e.target = .banked then 5 else e.step + 1
  let s1 := { s with pwr := { s.pwr with entry := some { e with step := n } } }
  let s2 := if e.step = 4 then
      (let s3 := { s1 with pwr := { s1.pwr with parked := true } }
       if e.target = .ember then
         { s3 with freeCtr := s3.freeCtr + 1, pwr := { s3.pwr with imageHash := Config.freeBytes s3.freeCtr 64 } }
       else s3)
    else s1
  let s4 := if n = 5 then postEntry s2 e else s2
  if n = 6 then dropRequest s4 e.by_ else s4

/-- Step 6 ends: the state is reached, and a held request for HOT wakes the device at once (R332). -/
def reachState (s : State) (e : Entry) : State :=
  let s1 := match e.target with
    | .banked => bankedState s
    | .ember => emberState s
    | _ => coldState s
  if e.heldHot.isEmpty then s1
  else
    let s2 := wakeNow s1 s1.pwr.wakeCause (noEnv s1)
    if e.target = .banked then e.heldHot.foldl (fun t b => powerAnswer t b St.ok) s2 else s2

/-- The end of a step. -/
def entryStep (s : State) (e : Entry) : State :=
  if e.step = 6 then reachState s e
  else if e.failing then abandonEntry (bump s R.PWR_DRAIN_FAIL_CNT_FAIL) e St.notIdle
  else if !e.abort.isEmpty then abandonEntry s e St.inProgress
  else nextStep s e

/-- POWER_ENTRY_STEP_DONE. -/
def execPowerEntryStepDone (s : State) : Answer :=
  match s.pwr.entry with
  | none => .next s
  | some e => stepIf s (entryReady s e && windowOpen s && s.blw.flush.isNone) (entryStep s e)

/-- ENTRY_DRAIN_LIMIT_EXPIRY: steps 2 to 4 have not ended within the limit; the entry is abandoned at the end of the step
in progress (R330). -/
def execEntryDrainLimitExpiry (s : State) : Answer :=
  match s.pwr.entry with
  | none => .next s
  | some e =>
    stepIf s (decide (2 ≤ e.step ∧ e.step ≤ 4) && !e.failing && decide (e.startAt + drainLimit s ≤ s.tb.count))
      { s with pwr := { s.pwr with entry := some { e with failing := true } } }

/-- The head's word that the entry is over: at the next safe point the member is back in HOT (R400). -/
def memberAbandon (s : State) : State :=
  match s.pwr.entry with
  | some e => if e.step = 6 then s else { s with pwr := { s.pwr with entry := some { e with abort := e.abort ++ [.wall] } } }
  | none => s

/-- What a member does with its head's command. -/
def memberCommand (s : State) (target : Nat) (abandon : Bool) : State :=
  if abandon then memberAbandon s
  else if s.pwr.st = .banked then (if target = 0 then wakeBanked s s.pwr.wakeCause else s)
  else powerRequest s .wall (.ofCode target)

/-- MEMBER_POWER_COMMAND: a Course link carries it in HOT and BANKED. -/
def execMemberPowerCommand (target : Nat) (abandon : Bool) (s : State) : Answer :=
  stepIf s (isMember s && endpointOpen s && decide (target < 4)) (memberCommand s target abandon)

/-! ## Operating points (R342 to R345) -/

/-- The period that an operating point must suit: the pending one, or the one announced in a Wall (R344, R405). -/
def comingPeriod (s : State) : Nat := match s.wall.announced with
  | some (p, _) => p
  | none => s.tb.perPend.getD s.tb.perActive

/-- The checks of OPSET at issue (R344). -/
def opsetRefusal (s : State) (target : Nat) : W16 :=
  if target < minOp (comingPeriod s) then St.opRefused
  else if s.pwr.seq.isSome || s.pwr.entry.isSome then St.inProgress
  else St.ok

/-- OPSET as an asynchronous instruction: points 6 and 7 are undefined, and the point in force takes no step. -/
def opsetOp (s : State) (k : Nat) (f : Fields) : AsyncOp :=
  let x := getSlot s k
  let target := f.i 2 0
  { wellUsed := unusedZero f false false false 8 3 && decide (target < 6), reads := [], writes := [], ctx := none
    check := fun t => if x.tenant ≠ 0 then St.illegalOp else opsetRefusal t target
    start := fun t rid =>
      if target = t.pwr.cur then complete t rid St.ok none
      else { t with pwr := { t.pwr with
        seq := some { rid := rid, target := target, up := decide (t.pwr.cur < target), phase := .waitStart } } } }

/-- OPSET. -/
def execOpset (slot : Nat) (f : Fields) (s : State) : Answer :=
  stepIf s (atWord s slot 0xE4 f) (asyncWord s slot 0xE4 f (opsetOp s slot f))

/-- The sequencer goes to a phase, or ends with a result. -/
def opPhase (s : State) (q : OpSeq) (p : OpPhase) : State := { s with pwr := { s.pwr with seq := some { q with phase := p } } }
def opEnd (s : State) (q : OpSeq) (st : W16) : State := complete { s with pwr := { s.pwr with seq := none } } q.rid st none

/-- The sequencer at a strike boundary (R343): it starts, or FCLK switches. -/
def opStrike (s : State) : State :=
  match s.pwr.seq with
  | none => s
  | some q => match q.phase with
    | .waitStart => if q.up then emit (opPhase s q .voltage) (.avsWrite (opMv q.target)) else opPhase s q .lockPll
    | .switch =>
      let s1 := { s with pwr := { s.pwr with cur := q.target } }
      if q.up then opEnd s1 q St.ok else emit (opPhase s1 q .lowering) (.avsWrite (opMv q.target))
    | _ => s

/-- AVS_VOLTAGE_REACHED. -/
def execAvsVoltageReached (s : State) : Answer :=
  match s.pwr.seq with
  | none => .next s
  | some q => match q.phase with
    | .voltage => .next (opPhase s q .switch)
    | .lowering => .next (opEnd s q St.ok)
    | _ => .next s

/-- PLL_LOCKED. -/
def execPllLocked (s : State) : Answer :=
  match s.pwr.seq with
  | none => .next s
  | some q => stepIf s (q.phase == .lockPll) (opPhase s q .switch)

/-- AVS_SETTLE_TIMEOUT: an AVS_TIMEOUT record, and OPSET faults; FCLK stays as it is (R345). -/
def execAvsSettleTimeout (lastMv : Nat) (s : State) : Answer :=
  match s.pwr.seq with
  | none => .next s
  | some q => stepIf s (q.phase == .voltage || q.phase == .lowering)
      (opEnd (raise s (event 235 0x0801 [(1, q.target), (2, lastMv)])) q St.opRefused)

/-! ## The strike period (R24) -/

/-- Whether a read admitted under a longer period than the pending one is outstanding. -/
def longReads (s : State) (p : Nat) : Bool := s.ord.reqs.any fun e => match e.2 with
  | some q => (match q.read with
    | some r => decide (p < r.period)
    | none => false)
  | none => false

/-- A new period is in force; the budgets are set anew (R26), by a write of the period in force too (DESIGN CHOICE, log entry
39). -/
def setPeriod (s : State) (p : Nat) : State :=
  { s with
    tb := { s.tb with perActive := p, perPend := none, perNext := none, sinceSet := 0 }
    ten := Tbl.mapAll ten0 s.ten fun _ x => if x.there then { x with since := 0 } else x
    cph := { s.cph with sinceSet := 0 } }

/-- The head of a formed Wall announces a new period with a strike at least 16 ahead; any other device changes at once
(R405). -/
def changePeriod (s : State) (p : Nat) : State :=
  if isHead s && s.wall.formed then
    let n := s.tb.count + 16
    emit { s with wall := { s.wall with announced := some (p, n) }, tb := { s.tb with perNext := none } } (.periodAnnounce p n)
  else setPeriod s p

/-- The change that is due at a strike, if any: one that was announced, a longer period, a pending shorter one. A head
counts the reads of its members as well, which PERIOD_CHANGE_EFFECT reports. -/
def periodStrike (s : State) : State :=
  match s.wall.announced with
  | some (p, n) => if n ≤ s.tb.count then setPeriod { s with wall := { s.wall with announced := none } } p else s
  | none => match s.tb.perNext, s.tb.perPend with
    | some p, _ => changePeriod s p
    | none, some p => if longReads s p || (isHead s && s.wall.formed) then s else setPeriod s p
    | none, none => s

/-- PERIOD_CHANGE_EFFECT: a pending shorter period takes effect at the first strike at which it may. -/
def execPeriodChangeEffect (s : State) : Answer :=
  match s.tb.perPend with
  | none => .next s
  | some p => stepIf s (strikesRun s && !longReads s p && s.wall.announced.isNone) (changePeriod s p)

/-! ## HMREAD (R385) -/

/-- The held records of a range of sequence numbers, whole; one zero record when none is held. -/
def heldRecords (s : State) (first n : Nat) : List Byte :=
  let l := (List.range n).filterMap fun i => (s.hm.find (first + i)).map fun r => r.2.bytes
  if l.isEmpty then List.replicate 32 0 else l.flatten

/-- HMREAD as an asynchronous instruction. -/
def hmreadOp (s : State) (k : Nat) (f : Fields) : AsyncOp :=
  let x := getSlot s k
  let n := f.i 15 0
  { wellUsed := unusedZero f true true false 8 16, reads := [], writes := bufsOf [x.hdl f.a], ctx := none
    check := fun t =>
      if x.tenant ≠ 0 ∨ n = 0 then St.illegalOp
      else firstFault [needHandles t [x.hdl f.a] [],
        if ((x.hdl f.a).map fun d => hdlHolds t d (32 * n)).getD false then St.ok else St.bufferSize]
    start := fun t rid => match getReq t rid with
      | some q => complete (produce t q (heldRecords t (x.val f.b).toNat n)) rid St.ok none
      | none => t }

/-- HMREAD. -/
def execHmread (slot : Nat) (f : Fields) (s : State) : Answer :=
  stepIf s (atWord s slot 0xE5 f) (asyncWord s slot 0xE5 f (hmreadOp s slot f))

end Sys2Proof.Machine
end

