-- ==== Sys2Proof/Machine/Loss.lean ====
section
/-! DEFINITION. The power-loss sequence and the flush (R183, R336, R358 to R360), which a thermal shutdown and an
uncorrectable line in the media structures run as well (R322, R371). -/

namespace Sys2Proof.Machine

/-! ## The start (R336, R358, R371) -/

/-- A flush that starts at the next strike. -/
def newFlush (thermal supply : Bool) : FlushRun :=
  { thermal := thermal, supply := supply, started := false, recs := 0, total := 0, written := 0 }

/-- The pins at a supply loss: the bank is on the rail, the charger, the charge FET and the bleed are off, and a test is
abandoned. -/
def bankIn (b : Bellows) : Bellows :=
  { b with bankSw := true, chgEn := false, chgFet := false, bleedEn := false, bleeding := false, test := .none }

/-- A sequence begins from where the device is: BANKED wakes, and an entry in progress is aborted at once (R336). A
sequence that runs already goes on (R371). -/
def beginFlush (s : State) (thermal supply : Bool) : State :=
  if s.blw.flush.isSome then s
  else
    let s1 := if s.pwr.st = .banked then wakeBanked s s.pwr.wakeCause else s
    { s1 with
      pwr := { s1.pwr with entry := none, parked := false }
      blw := { s1.blw with flush := some (newFlush thermal supply) } }

/-- SUPPLY_LOSS: in EMBER and COLD nothing is at risk, and nothing is flushed. -/
def execSupplyLoss (s : State) : Answer :=
  stepIf s (s.blw.armed && !s.pwr.halted && !s.blw.bankSw)
    (if s.pwr.st = .ember ∨ s.pwr.st = .cold then s else beginFlush { s with blw := bankIn s.blw } false true)

/-! ## Strike s1 (Table 15.3) -/

/-- A die at s1: senses and erases stop, suspended programs resume, nothing more is launched. -/
def Die.stop (x : Die) : Die :=
  let y := { x with
    sensing := none, bg := none, seq := [], winSeq := [], wins := [], served := 0, susSent := false, erases := [], eraseWait := [],
    progs := [] }
  if y.erasing then { y with st := .idle, erasing := false, run := 0, runTotal := 0, suspends := 0 }
  else match y.st with
    | .suspended => { y with st := .programming, run := 0 }
    | .reading => { y with st := .idle }
    | _ => y

/-- Every die stops; each die that erased receives LUN Reset, and its slab stays ERASE_PENDING. -/
def stopDies (s : State) : State :=
  let s1 := { s with fl := { s.fl with
    dies := Tbl.mapAll die0 s.fl.dies fun _ x => x.stop, softQ := [], devs := [], rebuilds := [] } }
  s.fl.dies.foldl (fun t e => if e.2.erasing then emit t (.lunReset e.1) else t) s1

/-- Admitted reads are abandoned; they are not late (R41). -/
def dropReads (s : State) : State :=
  { s with ord := { s.ord with reqs := Tbl.mapAll Tbl.absent s.ord.reqs fun _ q => if q.any (·.read.isSome) then none else q } }

/-- Dirty bytes that are placed, and sets that hold a unit other than NONE (R183, R359). -/
def dirtyPlaced (s : State) : Nat := s.med.courses.foldl (fun n e => match e.2 with
  | some c => n + courseDirty s c
  | none => n) 0
def heldSets (s : State) : Nat := (s.med.courses.filter fun e => match e.2 with
  | some c => c.set.isSome && c.units.toList.any fun u => u.st != .none
  | none => false).length

/-- What the flush writes: the staged records, the data of every dirty codeword, oldest admission first, and the sets that hold a
unit other than NONE, with their descriptors (R183, R359). -/
def flushImage (s : State) : FlushImage :=
  { recs := s.med.jrn.staged
    data := dirtyData s
    sets := s.med.courses.filterMap fun e => match e.2, e.2.bind (·.set) with
      | some c, some n => if c.units.toList.any fun u => u.st != .none then
          some { set := n, course := e.1, units := c.units, accs := (List.range 16).map (accBytes s n) } else none
      | _, _ => none }

/-- The domains that a thermal flush does not use: the Smiths, the cipher lanes, the Assay, the ports, the Course links
(R371). -/
def gateUnused (s : State) : State :=
  (List.range domCount).foldl (fun t d =>
    if isSc d || isCl d || isAs d || isPort d || isCk d then setDom t d { getDom t d with st := .autoOff, busy := false } else t) s

/-- Strike s1: everything stops, and the flush-open record is written. The recovery records hold the staged records of the journal,
256 bytes for the descriptor of each set (R188) and the index of the write buffer, whose length is free within the 64 MiB of
them all (log entry 63). A Wall member sends its DOWN notice (R397). -/
def flushStart (s : State) (f : FlushRun) : State :=
  let v := fresh s
  let sure := min (2 ^ 26) (32 * s.med.jrn.staged.length + 256 * heldSets s + 1)
  let recs := sure + v.1.toNat % (2 ^ 26 - sure + 1)
  let s1 := dropReads (stopDies v.2)
  let total := recs + dirtyPlaced s + 262144 * heldSets s
  let s2 := { s1 with blw := { s1.blw with
    flush := some { f with started := true, recs := recs, total := total, written := 0 }
    recOpen := true, recFinal := false, recBytes := 0, recRecs := recs, recSupply := f.supply, image := some (flushImage s1) } }
  let s3 := if f.thermal then gateUnused s2 else s2
  if isMember s && !f.thermal then emit s3 .downNotice else s3

/-! ## The flush and its end (R205, R359, R360, R371) -/

/-- Bytes that one SLC program writes: a page on every plane. -/
def flushUnit (s : State) : Nat := 16384 * max 1 (planes s)

/-- Every switched domain is off. -/
def domainsOff (s : State) : State :=
  (List.range domCount).foldl (fun t d => setDom t d { getDom t d with st := .autoOff, busy := false }) s

/-- The halt after the final record: WP_N low, the Bellows outputs low, every domain off. -/
def haltFlushed (s : State) : State :=
  let s1 := domainsOff { s with fl := { s.fl with chans := Tbl.mapAll chan0 s.fl.chans fun _ x => { x with wpHigh := false } } }
  { s1 with
    tb := { s1.tb with stopped := true }
    hm := { s1.hm with opMsStored := s1.hm.opMs }
    blw := { s1.blw with flush := none, chgEn := false, chgFet := false, bankSw := false, bleedEn := false }
    pwr := { s1.pwr with halted := true } }

/-- After a thermal shutdown the device enters COLD; the cause is in the Cornerstone (R371). -/
def thermalCold (s : State) : State :=
  let c := coldState s
  { c with
    blw := { c.blw with flush := none }
    hkp := { c.hkp with thermSd := true, thermWarn := true, shutdown := true } }

/-- The last flush program has passed: the final record, and the halt or COLD. -/
def flushEnd (s : State) (f : FlushRun) : State :=
  let s1 := { s with blw := { s.blw with recFinal := true, recBytes := f.total } }
  let s2 := { s1 with fl := { s1.fl with chans := Tbl.mapAll chan0 s1.fl.chans fun _ x => { x with wpHigh := false } } }
  if f.thermal then thermalCold s2 else haltFlushed s2

/-- One more program has passed; after every 64 MiB a progress record. -/
def flushProgram (s : State) (f : FlushRun) : State :=
  let w := min f.total (f.written + flushUnit s)
  if w = f.total then flushEnd s f
  else
    let s1 := { s with blw := { s.blw with flush := some { f with written := w } } }
    if f.written / 2 ^ 26 < w / 2 ^ 26 then { s1 with blw := { s1.blw with recBytes := w } } else s1

/-- FLUSH_PROGRAM_DONE. -/
def execFlushProgramDone (s : State) : Answer :=
  match s.blw.flush with
  | none => .next s
  | some f => stepIf s (f.started && !s.pwr.halted) (flushProgram s f)

end Sys2Proof.Machine
end

