-- ==== Sys2Proof/Machine/Management.lean ====
section
/-! DEFINITION. The commands of the management endpoint (R237). -/

namespace Sys2Proof.Machine

/-- Answer a command of the endpoint. -/
def miAnswer (s : State) (st : MiStatus) (data : List Byte) : State := emit s (.miReply st data)

/-- What a health poll reports, as far as the spec gives it: the Critical Warning byte, the Composite Temperature, Available
Spare and Percentage Used; the packet's layout is NVMe-MI's (log entry 33). -/
def healthBytes (s : State) : List Byte :=
  leBytes 1 (critWarn s) ++ leBytes 2 (compositeKelvin s) ++ leBytes 1 (availableSpare s) ++ leBytes 1 (percentUsed s)

/-- A command that only HOT and BANKED answer in full; its data is free where another standard gives it. -/
def miFree (s : State) (len : Nat) : State :=
  if endpointOpen s then miAnswer { s with freeCtr := s.freeCtr + 1 } .success (Config.freeBytes s.freeCtr len)
  else miAnswer s .controllerNotReady []

/-- MI_HEALTH_STATUS_POLL: answered in every power state. -/
def execMiHealthStatusPoll (s : State) : Answer := .next (miAnswer s .success (healthBytes s))

/-- MI_CONTROLLER_HEALTH_POLL. -/
def execMiControllerHealthPoll (s : State) : Answer :=
  .next (if endpointOpen s then miAnswer s .success (healthBytes s) else miAnswer s .controllerNotReady [])

/-- MI_READ_DATA_STRUCTURE: the layout of a data structure is NVMe-MI's. -/
def execMiReadDataStructure (_dtyp : Nat) (s : State) : Answer := .next (miFree s 32)

/-- MI_VPD_READ. -/
def execMiVpdRead (_offset len : Nat) (s : State) : Answer := .next (miFree s len)

/-- MI_CONFIGURATION_GET: the value last set; before that it is free. -/
def execMiConfigurationGet (cfg : Nat) (s : State) : Answer :=
  .next (match Tbl.get Tbl.absent s.port.miCfg cfg with
    | some v => if endpointOpen s then miAnswer s .success (leBytes 4 v) else miAnswer s .controllerNotReady []
    | none => miFree s 4)

/-- The identifier of the wake event (R237, Table 14.4). -/
def wakeIdentifier : Nat := 0xC0

/-- A Configuration Set with the wake identifier: success and a wake, or Controller Not Ready where its bit is clear in
EMBER and COLD. -/
def miWake (s : State) (w : WakeEnv) : State :=
  if endpointOpen s || (rd s R.PWR_WAKE_EN_EN).testBit 5 then wakeEvent (miAnswer s .success []) 5 w
  else miAnswer s .controllerNotReady []

/-- MI_CONFIGURATION_SET. -/
def execMiConfigurationSet (cfg value : Nat) (w : WakeEnv) (s : State) : Answer :=
  .next (if cfg = wakeIdentifier then (if s.pwr.halted then miAnswer s .controllerNotReady [] else miWake s w)
    else if endpointOpen s then
      miAnswer { s with port := { s.port with miCfg := Tbl.set Tbl.absent s.port.miCfg cfg (some value) } } .success []
    else miAnswer s .controllerNotReady [])

/-- Admin commands that the endpoint always takes: Identify, Get Log Page, Get Features. -/
def tunnelAllowed (opcode : BitVec 8) : Bool := opcode == 0x06 || opcode == 0x02 || opcode == 0x0A

/-- The number under which the endpoint holds its own capture of the Hallmark log page (R387). -/
def miController : Nat := 1024

/-- The Hallmark log page over the endpoint (R387). -/
def miHallmark (s : State) (c : NvmeCmd) : State :=
  let base := captureBase s miController (logOffset c)
  miAnswer (setCapture s miController base) .success (hallmarkBytes s.hm base (logOffset c) (logBytes c))

/-- MI_TUNNELLED_ADMIN: the vendor log page is answered as R387 has it, and what the device reports as R134, R164 and others have
it; other data is NVMe's. -/
def execMiTunnelledAdmin (cmd : NvmeCmd) (s : State) : Answer :=
  .next (if endpointOpen s && !tunnelAllowed cmd.opcode && !flag s R.PCI_MI_CTRL_ADMIN_WR then miAnswer s .invalidOpcode []
    else if endpointOpen s && cmd.opcode == 0x02 && logId cmd == 0xC8 then miHallmark s cmd
    else match (reportedData s 0 cmd).filter fun _ => endpointOpen s with
      | some l => miAnswer (fresh s).2 .success l
      | none => miFree s 4096)

end Sys2Proof.Machine
end

