-- ==== Sys2Proof/Machine/DramQueue.lean ====
section
/-! DEFINITION. How a DRAM channel chooses its next request: the ports with their hints and levels (R312), the order of
ports, the bank queues and the picks among banks and within a bank (R313), and the rows that accesses leave open (R314).

Which address a requester names is the business of the engines: its bank and its row are free (log entry 31). -/

namespace Sys2Proof.Machine

/-! ## Ports (R312, Table 13.3) -/

/-- The DRAM ports, the banks of a channel as the model counts them, and the entries of a bank queue. -/
def dramPorts : Nat := 12
def dramBanks : Nat := 64
def bankQueue : Nat := 16

/-- The page hint that a port sends (Table 13.3): ports 0, 1 and 11 send CLOSE, the others OPEN or STREAM, and both leave
the row open. -/
def closesRow (port : Nat) : Bool := port == 0 || port == 1 || port == 11

/-- The level of a port in DRM_PRIO, as it stands since the last strike. -/
def portLevel (s : State) (port : Nat) : Nat := rdForce s R.DRM_PRIO_LEVEL / 4 ^ port % 4

/-- Whether a request of an operation is under way. -/
def opsUnderWay (s : State) (p : Req → Bool) : Bool := s.ord.reqs.any fun e => match e.2 with
  | some q => p q
  | none => false

/-- Whether a course has pages in the write buffer. -/
def dirtyCourse (s : State) : Bool := s.med.courses.any fun e => match e.2 with
  | some c => courseDirty s c != 0
  | none => false

/-- Whether the requesters of a port (Table 13.3) are at work on the DRAM. -/
def portActive (s : State) (x : DramCh) (port : Nat) : Bool :=
  let live := s.ord.slots.any fun e => e.2.st != .free
  let collecting := s.med.domains.any fun e => (e.2.bind (·.run)).isSome
  match port with
  | 0 => live
  | 1 => opsUnderWay s fun q => decide (0x50 ≤ q.op ∧ q.op ≤ 0x57)
  | 2 => opsUnderWay s fun q => q.phase == .merging || q.phase == .placed
  | 3 => (dirtyCourse s || collecting) && (List.range 32).any fun c => !domOff s (fcDom c)
  | 4 => (dirtyCourse s || collecting) && (List.range 32).any fun c => !domOff s (fcDom (32 + c))
  | 5 => opsUnderWay s fun q => q.onWire && (getSlot s q.slot).qp.isSome
  | 6 => opsUnderWay s fun q => q.onWire && (getSlot s q.slot).pcie.isSome
  | 7 => dirtyCourse s
  | 8 => (s.cph.lanes.any fun e => e.2.serving.isSome) || s.asy.ctxs.any fun e => e.2.busy
  | 9 => opsUnderWay s fun q => q.onWire && (getSlot s q.slot).qp.isNone && (getSlot s q.slot).pcie.isNone
  | 10 => !s.med.jrn.staged.isEmpty
  | _ => x.uninit != 0 || !s.ord.quenchQ.isEmpty

/-! ## From a port to a bank queue (R313, items 1 to 3) -/

/-- Time that a request has waited, in ns. -/
def waitedNs (s : State) (r : DramReq) : Nat := (s.tb.count - r.since) * perQ s * 250

/-- The level of a request at its port: 3 once it has waited longer than DRM_AGE.NS. -/
def atPortLevel (s : State) (r : DramReq) : Nat :=
  if rdForce s R.DRM_AGE_NS < waitedNs s r then 3 else portLevel s r.port

/-- The request at the head of a port whose bank queue has room; a port whose queue is full is passed over. -/
def portHead (x : DramCh) (port : Nat) : Option DramReq :=
  match Tbl.get (fun _ => []) x.ports port with
  | r :: _ => if (Tbl.get (fun _ => []) x.banks r.bank).length < bankQueue then some r else none
  | [] => none

/-- The request chosen among the ports: the highest level, and within a level the port that follows the last in
rotation. -/
def choosePort (s : State) (x : DramCh) : Option DramReq :=
  let turn := (List.range dramPorts).map fun i => (x.lastPort + 1 + i) % dramPorts
  (turn.filterMap (portHead x)).foldl (fun m r => match m with
    | none => some r
    | some b => if atPortLevel s b < atPortLevel s r then some r else some b) none

/-- The chosen request joins the queue of its bank, with the level it had. -/
def joinBank (s : State) (x : DramCh) (r : DramReq) : DramCh :=
  { x with
    ports := Tbl.upd (fun _ => []) x.ports r.port (·.drop 1)
    banks := Tbl.upd (fun _ => []) x.banks r.bank (· ++ [{ r with level := atPortLevel s r }])
    lastPort := r.port }

/-- Requests join while one can be chosen. -/
def fillBanks (s : State) : Nat → DramCh → DramCh
  | 0, x => x
  | n + 1, x => match choosePort s x with
    | some r => fillBanks s n (joinBank s x r)
    | none => x

/-! ## From a bank queue to the bus (R313, items 4 and 5; R314) -/

/-- The place in a bank queue of the request that goes next: of the highest level the oldest, or the first row hit that
passes at most HIT_MAX older requests of that level (DEDUCED, log entry 31). -/
def pickInBank (hitMax : Nat) (row : Option Nat) (l : List DramReq) : Option Nat :=
  let top := l.foldl (fun m r => max m r.level) 0
  let same := l.zipIdx.filter fun e => e.1.level == top
  match ((same.zipIdx.filter fun e => decide (e.2 ≤ hitMax)).find? fun e => some e.1.1.row == row) with
  | some e => some e.1.2
  | none => same.head?.map (·.2)

/-- The bank that follows the last in rotation and has a request. -/
def chooseBank (x : DramCh) : Option Nat :=
  ((List.range dramBanks).map fun i => (x.lastBank + 1 + i) % dramBanks).find? fun b =>
    !(Tbl.get (fun _ => []) x.banks b).isEmpty

/-- The row that a bank has open. -/
def openRow (x : DramCh) (bank : Nat) : Option Nat :=
  if x.openRows.contains bank then some (Tbl.get nat0 x.rows bank) else none

/-- An access: another row of the bank closes, and a CLOSE hint closes this one (R314). -/
def accessRow (x : DramCh) (r : DramReq) : DramCh :=
  if closesRow r.port then { x with openRows := x.openRows.filter (· != r.bank) }
  else { x with
    openRows := if x.openRows.contains r.bank then x.openRows else x.openRows ++ [r.bank]
    rows := Tbl.set nat0 x.rows r.bank r.row }

/-- The channel serves one request. -/
def serveDram (s : State) (x : DramCh) : DramCh :=
  match chooseBank x with
  | none => x
  | some b =>
    let l := Tbl.get (fun _ => []) x.banks b
    match pickInBank (rdForce s R.DRM_PAGE_HIT_MAX) (openRow x b) l with
    | none => x
    | some i => match l[i]? with
      | some r => accessRow { x with banks := Tbl.set (fun _ => []) x.banks b (l.eraseIdx i), lastBank := b } r
      | none => x

/-- The channel serves so many requests. -/
def serveMany (s : State) : Nat → DramCh → DramCh
  | 0, x => x
  | n + 1, x => serveMany s n (serveDram s x)

/-! ## A strike of a channel -/

/-- The ports whose requesters are at work present a request each; its bank and row are free. -/
def presentReqs (s : State) (c : Nat) : State :=
  (List.range dramPorts).foldl (fun t p =>
    if portActive t (getDram t c) p then
      let v := fresh t
      let r : DramReq := { port := p, bank := v.1.toNat % dramBanks, row := v.1.toNat / dramBanks % 65536, since := s.tb.count, level := 0 }
      let x := getDram v.2 c
      setDram v.2 c { x with ports := Tbl.upd (fun _ => []) x.ports p (· ++ [r]) }
    else t) s

/-- Requests that wait in a channel. -/
def dramWaiting (x : DramCh) : Nat :=
  x.ports.foldl (fun n e => n + e.2.length) 0 + x.banks.foldl (fun n e => n + e.2.length) 0

/-- The channel's traffic in a strike: the requests join their bank queues, and a free number of those that wait is
served. -/
def dramTraffic (s : State) (c : Nat) : State :=
  let s1 := presentReqs s c
  let v := fresh s1
  let x := fillBanks v.2 (dramWaiting (getDram v.2 c)) (getDram v.2 c)
  setDram v.2 c (serveMany v.2 (v.1.toNat % (dramWaiting x + 1)) x)

end Sys2Proof.Machine
end

