-- ==== Sys2Proof/Machine/Memory.lean ====
section
/-! DEFINITION. The DRAM channels (R307 to R319), the Crucible's bank groups (R320, R323), and uncorrectable lines (R308,
R320, R322). -/

namespace Sys2Proof.Machine

/-! ## DRAM channels -/

/-- The channel of an address (R307). -/
def dramChannel (a : Nat) : Nat := (a / 2 ^ 12 % 4) ^^^ (a / 2 ^ 20 % 4) ^^^ (a / 2 ^ 28 % 4)

/-- A channel works: trained, in HOT, and not halted or flushing. -/
def dramRuns (s : State) : Bool := flag s R.DRM_CTRL_EN && s.pwr.st == .hot && strikesRun s

/-- Whether requests reach the DRAM in a strike: an order, a request, Quench, the write path or a collection is at work, or
port 11 initialises the channel (Table 13.3, log entry 31). -/
def dramBusy (s : State) (x : DramCh) : Bool :=
  (s.ord.slots.any fun e => e.2.st != .free) || (s.ord.reqs.any fun e => e.2.isSome) || !s.ord.quenchQ.isEmpty
    || x.uninit != 0 || (s.med.domains.any fun e => (e.2.bind (·.run)).isSome)
    || s.med.courses.any fun e => match e.2 with
      | some c => courseDirty s c != 0
      | none => false

/-- Whether a channel decides to enter self-refresh (R316). -/
def entersSelfRefresh (s : State) (c : Nat) (x : DramCh) : Bool :=
  !x.sr && !x.entering && rdForce s R.DRM_SR_CTRL_SR_EN == 1 && decide (rdForce s R.DRM_SR_CTRL_IDLE ≤ x.idle)
    && allowsNs s (dmDom c) (srxNs s)

/-- One channel at a strike: its idle count, the regions initialised in the background, its requests, and the decision to
enter self-refresh. How many regions port 11 finishes is free. -/
def dramChStrike (s : State) (c : Nat) : State :=
  let x := getDram s c
  let busy := dramBusy s x
  let y := { x with idle := if busy then 0 else x.idle + 1 }
  if busy && !x.sr then
    let v := fresh s
    dramTraffic (setDram v.2 c { y with uninit := x.uninit - v.1.toNat % (x.uninit + 1) }) c
  else if entersSelfRefresh s c y then setDram s c { y with entering := true, openRows := [] }
  else setDram s c y

/-- A channel whose domain may no longer be gated wakes (R259). -/
def dmTolerance (s : State) (c : Nat) : State :=
  let x := getDom s (dmDom c)
  if (x.st == .autoOff || (x.st == .draining && !x.mgr)) && !gateAllowed s (dmDom c) then useDomain s (dmDom c) else s

/-- The DRAM's share of a strike. -/
def dramStrike (s : State) : State :=
  if dramRuns s then (List.range 4).foldl (fun t c => dmTolerance (dramChStrike t c) c) s else s

/-- SELF_REFRESH_ENTRY: the refreshes owed are issued, and SRE (R316). -/
def execSelfRefreshEntry (ch : Nat) (s : State) : Answer :=
  let x := getDram s ch
  stepIf s (dramRuns s && x.entering)
    (setDram s ch { x with entering := false, sr := true, exiting := false, openRows := [], owed := [], idle := 0 })

/-- A request reaches a channel that enters self-refresh or is in it (R317, R318): before SRE the entry is abandoned, after
it the exit begins, and a gated domain wakes first. -/
def selfRefreshRequest (s : State) (c : Nat) : State :=
  let x := getDram s c
  if x.entering then bump (setDram s c { x with entering := false, idle := 0 }) R.DRM_SR_ABANDON_CNT_ABANDON
  else useDomain (bump (setDram s c { x with exiting := true, idle := 0 }) R.DRM_SR_WAIT_CNT_WAIT) (dmDom c)

/-- SELF_REFRESH_INTERRUPT. -/
def execSelfRefreshInterrupt (ch : Nat) (s : State) : Answer :=
  let x := getDram s ch
  stepIf s (dramRuns s && (x.entering || (x.sr && !x.exiting))) (selfRefreshRequest s ch)

/-- SELF_REFRESH_EXIT_DONE: t_XS has passed, and the request is served. -/
def execSelfRefreshExitDone (ch : Nat) (s : State) : Answer :=
  let x := getDram s ch
  stepIf s (dramRuns s && x.sr && x.exiting && !x.gated && domServes s (dmDom ch))
    (setDram s ch { x with sr := false, exiting := false, idle := 0 })

/-- DM_GATE_IDLE_EXPIRY: the PHY begins to stop; AUTO_DRAIN_DONE ends it (R318, R338). -/
def execDmGateIdleExpiry (ch : Nat) (s : State) : Answer :=
  let x := getDram s ch
  let d := getDom s (dmDom ch)
  stepIf s (dramRuns s && x.sr && !x.exiting && !x.gated && d.st == .on && rdForce s R.DRM_SR_CTRL_GATE_EN == 1
      && decide (rdForce s R.DRM_SR_CTRL_GATE_IDLE ≤ x.idle) && gateAllowed s (dmDom ch))
    (setDom s (dmDom ch) { d with st := .draining, mgr := false })

/-- A same-bank refresh falls due: the bank's row closes; while level-3 requests wait it is postponed, until four intervals
are owed (R314, R315). -/
def refreshBank (x : DramCh) (bank : Nat) (busy : Bool) : DramCh :=
  let owed := Tbl.get nat0 x.owed bank + 1
  { x with
    openRows := x.openRows.filter (· != bank)
    owed := Tbl.set nat0 x.owed bank (if busy && decide (owed < 4) then owed else 0) }

/-- REFRESH_DUE. -/
def execRefreshDue (ch bank : Nat) (busy : Bool) (s : State) : Answer :=
  let x := getDram s ch
  stepIf s (dramRuns s && !x.sr) (setDram s ch (refreshBank x bank busy))

/-- OPEN_ROW_TIMEOUT: the bank's row closes (R314). -/
def execOpenRowTimeout (ch bank : Nat) (s : State) : Answer :=
  let x := getDram s ch
  stepIf s (dramRuns s && x.openRows.contains bank)
    (setDram s ch { x with openRows := x.openRows.filter (· != bank) })

/-! ## Uncorrectable lines (R322, Table 13.6) -/

/-- The row of Table 13.6. -/
def poisonRow (p : PoisonPlace) : Nat :=
  match p with
  | .buffer _ _ => 1
  | .context _ => 2
  | .readStaging _ => 3
  | .holdBuffer _ => 4
  | .writeBufferDone _ _ _ => 5
  | .writeBufferSending _ _ _ => 6
  | .writeBufferPlain _ _ => 7
  | .accumulator _ => 8
  | .patternPage _ _ => 9
  | .structures => 10

/-- Whether a page of a course lies in the write buffer, with its unit in one of some states. -/
def bufferedUnit (s : State) (course pos page : Nat) (p : UnitState → Bool) : Bool :=
  match getCourse s course with
  | some c => pageBuffered s c page && (pagePlace c.bedrock page).2 == pos && p (c.unit pos).st
  | none => false

/-- The request whose plaintext a hold buffer takes. -/
def holdOwner (s : State) (l : Nat) : Option Nat :=
  let x := getLane s l
  (x.releasing.toList ++ x.serving.toList ++ x.finished).find? fun r => ((getReq s r).map (·.held)).getD false

/-- Whether the place that a line names exists, in the memory that the line names (Tables 13.2 and 13.5). -/
def placeThere (s : State) (l : PoisonLine) : Bool :=
  match l.place with
  | .buffer b off => (match getBuf s b with
    | some x => x.dram != l.crucible && decide (off < x.size)
    | none => false)
  | .context k => let x := getSlot s k; x.st == .runnable || x.st == .running || x.st == .suspended
  | .readStaging r => l.crucible && ((getReq s r).bind (·.read)).isSome
  | .holdBuffer n => l.crucible && (getLane s n).holdFull
  | .writeBufferDone c p g => !l.crucible && bufferedUnit s c p g fun u => u == .programmed || u == .verifying
  | .writeBufferSending c p g => !l.crucible && bufferedUnit s c p g (· == .sending)
  | .writeBufferPlain c g => !l.crucible && ((getCourse s c).map fun x => pageBuffered s x g).getD false
  | .accumulator n => (Tbl.get Tbl.absent s.med.sets n).isSome && s.med.resident.contains n == l.crucible
  | .patternPage t n => decide (n < 0x100) || (loadedBody s t n).isSome
  | .structures => !l.crucible

/-- A line of a buffer is poisoned: its first byte within the buffer. -/
def poisonBuffer (s : State) (b off : Nat) : State :=
  match getBuf s b with
  | some x => let l := off / 64 * 64
    if x.poison.contains l then s else setBuf s b (some { x with poison := x.poison ++ [l] })
  | none => s

/-- A read is issued again at the end of its dies' read sequences, with its promise void (R322): at once where the die takes reads,
as soon as it does elsewhere, and from the ladder's step 4 where it is lost. -/
def reissueRead (s : State) (rid : Nat) : State :=
  match (getReq s rid).bind (·.read) with
  | none => s
  | some p =>
    let again := fun (x : RdPart) => { x with
      need := 0, moved := 0, bursts := [], sensed := none, decoded := false, ladder := { noLadder with due := true } }
    let r := (p.parts.filter fun x => !x.companion).zipIdx.foldl (fun (a : State × List RdPart) e =>
      if (getDie a.1 e.1.die).lost then (a.1, a.2 ++ [{ again e.1 with ladder := { noLadder with step := 4, due := true } }])
      else match planSense a.1 e.1.die s.tb.count (.order rid) e.2 with
        | some (si, sd, t) => (t, a.2 ++ [{ again e.1 with
            si := si, sd := sd, slast := sd, need := cwBursts t (dieChan e.1.die), ladder := noLadder }])
        | none => (a.1, a.2 ++ [again e.1])) (s, [])
    updReq r.1 rid fun q => { q with
      phase := .admitted, read := q.read.map fun y => { y with parts := r.2, around := false, voided := true, segs := [] } }

/-- The hold buffer is zeroed and the OPEN faults; nothing is released. -/
def dropHold (s : State) (l : Nat) : State :=
  match holdOwner s l with
  | none => s
  | some r =>
    let x := getLane s l
    let keep := fun (o : Option Nat) => if o = some r then none else o
    let s1 := setLane s l { x with
      holdFull := false, releasing := keep x.releasing, unreleased := if x.releasing = some r then 0 else x.unreleased
      serving := keep x.serving, left := if x.serving = some r then 0 else x.left, finished := x.finished.filter (· != r) }
    complete s1 r St.mediaUnrecovered none

/-- A page that neither flash nor Mortar holds is lost: its blocks are unrecovered. -/
def losePage (s : State) (id page : Nat) : State :=
  match getCourse s id with
  | none => s
  | some c =>
    let p := pagePlace c.bedrock page
    unrecover s (c.slabs.getD p.2 0)
      ((List.range 4).flatMap fun k => cwBlocks s { course := id, page := p.1 * 16 + p.2, cw := k })

/-- A tenant's pattern is unloaded; device patterns come again from the firmware image. -/
def unloadPattern (s : State) (t n : Nat) : State :=
  if n < 0x100 then s
  else match loadedBody s t n with
    | none => s
    | some b =>
      let s1 := setBody s b ((getBody s b).map fun p => { p with retired := true })
      reapBodies { s1 with ord := { s1.ord with loaded := Tbl.set Tbl.absent s1.ord.loaded (patKey t n) none } }

/-- The outcome of Table 13.6. A page in flash, an accumulator and its contributions are at hand, so what they rebuild is
what was there. -/
def poisonOutcome (s : State) (l : PoisonLine) : State :=
  match l.place with
  | .buffer b off => poisonBuffer s b off
  | .context k => finishOrder s k St.mediaUnrecovered
  | .readStaging r => reissueRead s r
  | .holdBuffer n => dropHold s n
  | .writeBufferDone _ _ _ => s
  | .writeBufferSending _ _ _ => bump s R.MED_PAR_MORTAR_CNT_MORTAR
  | .writeBufferPlain c g => losePage s c g
  | .accumulator _ => s
  | .patternPage t n => unloadPattern s t n
  | .structures => beginFlush { s with mem := { s.mem with poison := s.mem.poison ++ [(l.crucible, l.addr / 64 * 64)] } } false false

/-- A line that bears its mark already was counted when it was poisoned. -/
def poisonedBefore (s : State) (l : PoisonLine) : Bool :=
  match l.place with
  | .buffer b off => ((getBuf s b).map fun x => x.poison.contains (off / 64 * 64)).getD false
  | _ => s.mem.poison.contains (l.crucible, l.addr / 64 * 64)

/-- A line that cannot be corrected: counted, recorded but for the first row of Table 13.6, and handled. -/
def poisonLine (s : State) (l : PoisonLine) : State :=
  if poisonedBefore s l then s
  else
    let s1 := bump s (if l.crucible then R.CRU_UE_CNT_UE else R.DRM_UE_CNT_UE)
    let s2 := if poisonRow l.place = 1 then s1
      else raise s1 (if l.crucible then event (164 + l.addr / 2 ^ 22 % 32) 0x0502 [(8, l.addr), (1, poisonRow l.place)]
        else event (160 + dramChannel l.addr) 0x0501 [(8, l.addr), (1, poisonRow l.place)])
    poisonOutcome s2 l

/-- UNCORRECTABLE_LINE. -/
def execUncorrectableLine (line : PoisonLine) (s : State) : Answer :=
  stepIf s (s.pwr.st == .hot && strikesRun s && placeThere s line) (poisonLine s line)

/-! ## Scrubs (R309, R320) -/

/-- PATROL_SCRUB: lines of a channel are read, those with an error written back corrected, and those beyond it poisoned; a
channel in self-refresh is skipped. -/
def execPatrolScrub (ch : Nat) (corrected : List Nat) (bad : List PoisonLine) (s : State) : Answer :=
  let x := getDram s ch
  stepIf s (dramRuns s && !x.sr && rd s R.DRM_SCRUB_HOURS != 0 && (corrected.all fun a => dramChannel a == ch)
      && (bad.all fun l => !l.crucible && dramChannel l.addr == ch && placeThere s l))
    (bad.foldl poisonLine (bumpAt (if x.entering then selfRefreshRequest s ch else setDram s ch { x with idle := 0 })
      R.DRM_CE_CNT_CE 0 0 corrected.length))

/-- CRUCIBLE_SCRUB. -/
def execCrucibleScrub (corrected : List Nat) (bad : List PoisonLine) (s : State) : Answer :=
  stepIf s (s.pwr.st == .hot && strikesRun s && bad.all fun l => l.crucible && placeThere s l)
    (bad.foldl poisonLine (bumpAt s R.CRU_CE_CNT_CE 0 0 corrected.length))

/-! ## Bank groups (R323) -/

/-- Whether a bank group is accessed: the context cache by any order, the device's regions by any request, the pool by a
request on a buffer with granules there, and by Quench. -/
def groupBusy (s : State) (g : Nat) : Bool :=
  if g < 4 then s.ord.slots.any fun e => e.2.st != .free
  else
    let touches := fun (b : Nat) => match getBuf s b with
      | some x => x.groups.any fun y => y.1 == g
      | none => false
    (s.ord.reqs.any fun e => match e.2 with
      | some q => decide (g < 14) || (q.reads ++ q.writes).any touches
      | none => false)
    || s.ord.quenchQ.any fun y => !y.1 && touches y.2

/-- The groups that hold a resident Mortar set (Table 13.5). -/
def setGroupOf (s : State) (g : Nat) : Bool :=
  s.med.resident.zipIdx.any fun e => (54 * 4 + e.2) / 16 == g

/-- A group that never enters retention: the context cache while a Smith cluster is powered, a group with a resident set
while a parity engine is. -/
def neverRetained (s : State) (g : Nat) : Bool :=
  (decide (g < 4) && (List.range 16).any fun c => !domOff s (scDom c))
    || (setGroupOf s g && (List.range 8).any fun e => !domOff s (pxDom e))

/-- One group at a strike: an access wakes it, and so does a tolerance that no longer allows its wake (R259). -/
def groupStrike (s : State) (g : Nat) : State :=
  let x := getGroup s g
  if groupBusy s g then setGroup s g { x with idle := 0, retention := false }
  else setGroup s g { x with idle := x.idle + 1, retention := x.retention && allowsNs s (sbDom g) 500 && !neverRetained s g }

/-- All groups. -/
def groupStrikes (s : State) : State := (List.range 32).foldl groupStrike s

/-- CRUCIBLE_RETENTION_ENTRY. -/
def execCrucibleRetentionEntry (group : Nat) (s : State) : Answer :=
  let x := getGroup s group
  stepIf s (s.pwr.st == .hot && strikesRun s && !x.retention && (getDom s (sbDom group)).st == .on
      && decide (rd s R.CRU_CTRL_IDLE ≤ x.idle) && !groupBusy s group && !neverRetained s group
      && allowsNs s (sbDom group) 500)
    (setGroup s group { x with retention := true })

end Sys2Proof.Machine
end

