-- ==== Sys2Proof/Machine/Security.lean ====
section
/-! DEFINITION. Security protocol 0xF0: identity, quotes, the key manager and KEK export (R301 to R304). -/

namespace Sys2Proof.Machine

/-! ## Answers (R302 to R304) -/

/-- The seeds of the attestation key, which the SEC firmware holds. -/
def attestKey (s : State) : List Byte := attestSeeds s.asy.mSec s.asy.mMgmt s.asy.mCfg

/-- The 368-byte body of a quote. -/
def quoteBody (s : State) (nonce binding : List Byte) : List Byte :=
  leBytes 2 1 ++ leBytes 2 (b2n s.med.roLatch) ++ leBytes 4 0 ++ nonce ++ leBytes 8 s.tb.count
    ++ s.asy.mSec ++ s.asy.mMgmt ++ s.asy.mCfg ++ countersBytes s ++ binding

/-- A quote: its body and the attestation key's signature, fresh each time. -/
def quote (s : State) (nonce binding : List Byte) : List Byte × State :=
  let body := quoteBody s nonce binding
  (body ++ Config.slhSign s.freeCtr (attestKey s) body, { s with freeCtr := s.freeCtr + 1 })

/-- The answer of operation 0x0001. -/
def identityAnswer (s : State) : List Byte := s.asy.identity.getD [] ++ Config.slhPublic (attestKey s) ++ s.asy.cert

/-- Enrolment (R303): the first key without a signature, a later one signed by the enrolled key over the new key. A
SLH-DSA-SHA2-256s public key has 64 bytes. -/
def enrolOk (s : State) (key sig : List Byte) : Bool :=
  key.length == 64 && (s.asy.kmHash.isNone || Config.slhVerify s.asy.kmKey key sig)
def enrol (s : State) (key sig : List Byte) : (Nat × Nat) × State :=
  if enrolOk s key sig then (nvOk, { s with asy := { s.asy with kmHash := some (sha false key), kmKey := key } })
  else (nvInvalidField, s)

/-- What the key manager signs: the request's fields in order (log entry 32). -/
def kekMessage (r : KekRequest) : List Byte := leBytes 2 r.tenant ++ leBytes 4 r.epoch.toNat ++ r.nonce ++ r.ek

/-- The conditions of a KEK export (R304). -/
def kekOk (s : State) (r : KekRequest) : Bool :=
  s.asy.kmHash.isSome && Config.slhVerify s.asy.kmKey (kekMessage r) r.sig && (getTen s r.tenant).st != .none
    && r.epoch == epochOf s r.tenant

/-- The part of a KEK export's answer that precedes its quote: the ciphertext, the IV, the wrapped KEK and the tag. -/
def kekWrap (s : State) (r : KekRequest) : List Byte × State :=
  let e := Config.kemEncaps s.freeCtr r.ek
  let iv := Config.freshIv s.freeCtr
  let aad := leBytes 2 r.tenant ++ leBytes 4 r.epoch.toNat
  let key := kdf e.1 (label "TRELON-KEKX") aad 32
  let ct := gcmCrypt key iv (kekOf s r.tenant)
  (e.2 ++ iv ++ ct ++ gcmTag key iv aad ct, { s with freeCtr := s.freeCtr + 1 })

/-- A KEK export, with the quote bound to what precedes it. -/
def kekExport (s : State) (r : KekRequest) : (Nat × Nat) × List Byte × State :=
  if kekOk s r then
    let w := kekWrap s r
    let q := quote w.2 r.nonce (sha true w.1)
    (nvOk, w.1 ++ q.1, q.2)
  else (nvInvalidField, [], s)

/-- What an operation yields: status, answer and the state after it. -/
def secRun (s : State) (r : SecReq) : (Nat × Nat) × List Byte × State :=
  match r with
  | .identity => (nvOk, identityAnswer s, s)
  | .quote n => let q := quote s n (List.replicate 64 0); (nvOk, q.1, q.2)
  | .enrol k g => let e := enrol s k g; (e.1, [], e.2)
  | .kek r => kekExport s r

/-! ## The queue of SEC core 1 (R301) -/

/-- The SP Specific value of an operation. -/
def SecReq.code : SecReq → Nat
  | .identity => 1
  | .quote _ => 2
  | .enrol _ _ => 3
  | .kek _ => 4

/-- Requests that SEC core 1 holds at most. -/
def secQueue : Nat := 8

def setSecOps (s : State) (l : List SecOp) : State := { s with asy := { s.asy with secOps := l } }

/-- The first operation that is not done ends; a Receive that waits for it completes, and it is held no more. -/
def secFinish (s : State) : State :=
  match s.asy.secOps.findIdx? (!·.fin) with
  | none => s
  | some i => match s.asy.secOps[i]? with
    | none => s
    | some o =>
      let r := secRun s o.req
      match o.asked with
      | some (k, gen) =>
        let s1 := setSecOps r.2.2 (s.asy.secOps.eraseIdx i)
        if adminWaits s1 k gen then admin s1 k r.1 r.2.1 else s1
      | none => setSecOps r.2.2 (s.asy.secOps.set i { o with fin := true, status := r.1, answer := r.2.1 })

/-- Operation 0x0001 takes no time: it ends as soon as none stands before it. -/
def secSettle : Nat → State → State
  | 0, s => s
  | fuel + 1, s => match s.asy.secOps.find? (!·.fin) with
    | some o => if o.req.code = 1 then secSettle fuel (secFinish s) else s
    | none => s

/-- A Security Send: of MF alone, at most eight held, and a nonce of 32 bytes. -/
def secSend (s : State) (slot : Nat) (r : SecReq) : State :=
  let formOk := match r with
    | .quote n => n.length == 32
    | .kek q => q.nonce.length == 32 && q.ek.length == 1568
    | _ => true
  if senderOf s slot ≠ 0 then admin s slot nvInvalidOpcode []
  else if secQueue ≤ s.asy.secOps.length then admin s slot nvSequenceError []
  else if !formOk then admin s slot nvInvalidField []
  else
    let o : SecOp := { req := r, fin := false, status := nvOk, answer := [], asked := none }
    secSettle secQueue (admin (setSecOps s (s.asy.secOps ++ [o])) slot nvOk [])

/-- Whether a slot holds a Security Send of an operation of protocol 0xF0. -/
def sendAt (s : State) (k op : Nat) : Bool :=
  let c := (getSlot s k).cmd
  adminAt s k 0x81 && secProtocol c == 0xF0 && secOperation c == op

/-- SP_GET_IDENTITY. -/
def execSpGetIdentity (slot : Nat) (s : State) : Answer := stepIf s (windowOpen s && sendAt s slot 1) (secSend s slot .identity)

/-- SP_QUOTE. -/
def execSpQuote (slot : Nat) (nonce : List Byte) (s : State) : Answer :=
  stepIf s (windowOpen s && sendAt s slot 2) (secSend s slot (.quote nonce))

/-- SP_ENROL_KEY_MANAGER. -/
def execSpEnrolKeyManager (slot : Nat) (key sig : List Byte) (s : State) : Answer :=
  stepIf s (windowOpen s && sendAt s slot 3) (secSend s slot (.enrol key sig))

/-- SP_KEK_EXPORT. -/
def execSpKekExport (slot : Nat) (r : KekRequest) (s : State) : Answer :=
  stepIf s (windowOpen s && sendAt s slot 4) (secSend s slot (.kek r))

/-- SECURITY_OP_DONE. -/
def execSecurityOpDone (s : State) : Answer :=
  stepIf s (windowOpen s && s.asy.secOps.any (!·.fin)) (secSettle secQueue (secFinish s))

/-- A Security Receive: the result of the oldest Send of its operation that no Receive has taken; while that work runs it
waits. -/
def secReceive (s : State) (slot op : Nat) : State :=
  if senderOf s slot ≠ 0 then admin s slot nvInvalidOpcode []
  else match s.asy.secOps.findIdx? fun o => o.req.code == op && o.asked.isNone with
    | none => admin s slot nvSequenceError []
    | some i => match s.asy.secOps[i]? with
      | none => s
      | some o =>
        if o.fin then admin (setSecOps s (s.asy.secOps.eraseIdx i)) slot o.status o.answer
        else setSecOps (adminHold s slot) (s.asy.secOps.set i { o with asked := some (slot, (getSlot s slot).gen) })

/-- SECURITY_RECEIVE. -/
def execSecurityReceive (slot : Nat) (s : State) : Answer :=
  let c := (getSlot s slot).cmd
  stepIf s (windowOpen s && adminAt s slot 0x82 && secProtocol c == 0xF0) (secReceive s slot (secOperation c))

end Sys2Proof.Machine
end

