-- ==== Sys2Proof/Machine/Standard.lean ====
section
/-! DEFINITION. The standard I/O commands: each runs its device pattern on a Smith (R73 to R75, Table 3.8). A pattern goes
in stages: one firing of its row issues the next instruction of the pattern, attached, or ends the order. Data longer than
an instruction can move goes in pieces of at most 2 MiB (log entry 13). An order may call these patterns too, and the
library pattern ZRANGE_READ, whose stages EXECUTE_WORK_ORDER then runs (R64, R109, log entry 9). -/

namespace Sys2Proof.Machine

/-! ## What the patterns share -/

/-- A slot that runs the device pattern of an opcode now. -/
def stdReady (s : State) (k op : Nat) : Bool :=
  let x := getSlot s k
  x.st == .running && decide (0 < x.sliceLeft) && x.kind == .standard && x.cmd.opcode.toNat == op && strikesRun s

/-- One firing of a pattern's row. -/
def stdStep (s : State) (k op : Nat) (body : State) : Answer := stepIf s (stdReady s k op) body

/-- The starting LBA in CDW10 and CDW11, the number of blocks in CDW12, the namespace in v7 (R73). -/
def stdLba (x : Slot) : Nat := (x.val 1).toNat % 2 ^ 32 + (x.val 2).toNat % 2 ^ 32 * 2 ^ 32
def stdBlocks (x : Slot) : Nat := (x.val 3).toNat % 65536 + 1
def stdNsid (x : Slot) : Nat := (x.val 7).toNat % 2 ^ 32

/-- Bytes of a logical block of the command's namespace, and whether it is zoned. -/
def stdSize (s : State) (x : Slot) : Nat := ((getNs s (stdNsid x)).map (·.lbaSize)).getD 4096
def stdZoned (s : State) (x : Slot) : Bool := ((getNs s (stdNsid x)).map (·.zoned)).getD true

/-- Blocks of a piece, and those that remain from piece p on. -/
def pieceBlocks (size : Nat) : Nat := 2097152 / size
def pieceLeft (s : State) (x : Slot) (p : Nat) : Nat := stdBlocks x - p * pieceBlocks (stdSize s x)
def pieceLen (s : State) (x : Slot) (p : Nat) : Nat := min (pieceBlocks (stdSize s x)) (pieceLeft s x p)

/-- End the order with an NVMe status that no Clapex status converts to. Of a Compare that finds different bytes, and of
protection information that fails its check, the spec gives no Clapex status: the order ends with 0x0000 and the NVMe status
(DESIGN CHOICE, log entry 36). -/
def endReply (s : State) (k : Nat) (r : Nat × Nat × Bool) : State :=
  finishOrder (updSlot s k fun x => { x with reply := some r }) k St.ok

/-- A fault of the pattern: its handler posts the status (R75); a description of another length is a transfer's fault. -/
def stdFault (s : State) (k : Nat) (st : W16) : State :=
  if st = St.lengthMismatch then transferFault s k (getSlot s k).position else orderFault s k st (getSlot s k).position

/-- The end of a pattern: a standard command ends, and a pattern that an order called ends with END. -/
def stdEnd (s : State) (k : Nat) : State :=
  if (getSlot s k).kind = .standard then finishOrder s k St.ok else endWord s k true

/-- Whether the command's data is described with another length than so many bytes (Table 9.4). PRP entries describe no
length (log entry 151), and a by-pointer order has no data of its own (R95). -/
def badLength (x : Slot) (bytes : Nat) : Bool := modeAllowed x 0 && (describedFrom x 0).any (· != bytes)

/-- A private buffer of the device staging, of which so many bytes are used. -/
def stageBuf (s : State) (k : Nat) (i : BitVec 4) (bytes : Nat) : State :=
  let x := getSlot s k
  match x.hdl i with
  | some d => updSlot s k (·.setHdl i (some { d with off := 0, len := bytes }))
  | none =>
    let id := s.ord.nextBuf
    let b : Buf := { dram := false, granules := max 512 (granulesOf bytes), bytes := [], tenant := x.tenant, slot := k,
                     orphan := false, staged := true, quench := none, groups := [], poison := [] }
    let s1 := setBuf s id (some b)
    updSlot { s1 with ord := { s1.ord with nextBuf := id + 1 } } k
      (·.setHdl i (some { buf := id, off := 0, len := bytes }))

/-- Go to the next stage. -/
def nextStage (s : State) (k : Nat) : State := updSlot s k fun x => { x with stage := x.stage + 1 }

/-- Operand fields of the patterns' words: the private buffer 8 in a, the LBA in v8, the namespace in v7. -/
def stdFields (a : BitVec 4) (imm : Nat) : Fields := { a := a, b := 8, c := 7, mod := 0, imm := BitVec.ofNat 40 imm }

/-- A word of a pattern: the state in which it is executed, its opcode, its operands and what it does. -/
structure StdWord where
  at_ : State
  op : Nat
  f : Fields
  work : AsyncOp

/-- Execute a word of a pattern and go to the next stage; a word that is held is tried again in its stage. -/
def stageWord (k : Nat) (w : StdWord) : State :=
  asyncWord (if wordHeld w.at_ k w.f w.work then w.at_ else nextStage w.at_ k) k w.op w.f w.work

/-- Fetch bytes of the command's data into a handle (HGET, mode 0): detached, so that the pattern comes to the media
instruction that uses them within the slice, or attached (R75, log entry 54). -/
def stdHget (s : State) (k : Nat) (i : BitVec 4) (off len : Nat) (detached : Bool) : StdWord :=
  let f : Fields := { a := i, b := 0, c := 0, mod := if detached then 8 else 0, imm := BitVec.ofNat 40 off }
  let s1 := stageBuf s k i len
  { at_ := s1, op := 0x40, f := f, work := hgetOp s1 k f }

/-- Send the private buffer to the command's data (HPUT, mode 0). -/
def stdHput (s : State) (k : Nat) (off : Nat) : StdWord :=
  let f : Fields := { a := 8, b := 0, c := 0, mod := 0, imm := BitVec.ofNat 40 off }
  { at_ := s, op := 0x41, f := f, work := hputOp s k f }

/-- Read blocks into the private buffer with D = 0 (R74). -/
def stdRead (s : State) (k lba len : Nat) : StdWord :=
  let z := stdZoned s (getSlot s k)
  let s1 := updSlot (stageBuf s k 8 len) k (·.setVal 8 (BitVec.ofNat 64 lba))
  { at_ := s1, op := if z then 0x50 else 0x54, f := stdFields 8 0, work := readOp s1 k (stdFields 8 0) z }

/-- The type of protection information of the command's namespace; 0 without (R111). -/
def piType (s : State) (x : Slot) : Nat := ((getNs s (stdNsid x)).map fun n => if n.lbaf = 1 then n.pi else 0).getD 0

/-- A Zone Append under type 1 has its reference tags raised to the places of its blocks (log entry 66). -/
def remapOp (on : Bool) (o : AsyncOp) : AsyncOp :=
  if on then { o with start := fun t rid => updReq (o.start t rid) rid fun q =>
    { q with write := q.write.map fun w => { w with remap := true } } }
  else o

/-- Write the private buffer at an LBA. -/
def stdWrite (s : State) (k lba : Nat) (append : Bool) : StdWord :=
  let x := getSlot s k
  let s1 := updSlot s k (·.setVal 8 (BitVec.ofNat 64 lba))
  let f := stdFields 8 0
  if append then
    { at_ := s1, op := 0x51, f := f, work := remapOp (piType s x == 1) (zoneWriteOp s1 k f true) }
  else if stdZoned s x then { at_ := s1, op := 0x52, f := f, work := zoneWriteOp s1 k f false }
  else { at_ := s1, op := 0x55, f := f, work := cwriteOp s1 k f }

/-- Deallocate blocks. -/
def stdTrim (s : State) (k lba blocks : Nat) : StdWord :=
  let s1 := updSlot s k fun x => (x.setVal 8 (BitVec.ofNat 64 lba)).setVal 9 (BitVec.ofNat 64 blocks)
  { at_ := s1, op := 0x56, f := stdFields 9 0, work := ctrimOp s1 k (stdFields 9 0) }

/-- The checks that a pattern makes of its whole range before it starts: the media's, and, for a command with data, that
the description holds just so many bytes (Table 9.4). -/
def stdCheck (s : State) (k : Nat) (zoned data : Bool) (bytes : Nat) (go : State) : State :=
  let x := getSlot s k
  let st := mediaCheck s x.tenant (stdNsid x) (stdLba x) (stdBlocks x * stdSize s x) zoned false
  if st ≠ St.ok then stdFault s k st
  else if data && badLength x bytes then stdFault (countTransferFail s x) k St.lengthMismatch
  else go

/-! ## Protection information (Table 5.1, R111)

The device patterns generate and check it as NVMe defines: PRINFO in CDW12, the expected or initial reference tag in CDW14,
the application tag and its mask in CDW15 (PRESUMED, log entry 66). -/

/-- PRACT, and the bits of PRCHK: 0 the reference tag, 1 the application tag, 2 the guard. -/
def piAct (x : Slot) : Bool := (x.val 3).getLsbD 29
def piChk (x : Slot) (i : Nat) : Bool := (x.val 3).getLsbD (26 + i)

/-- The reference tag of the i-th block of the command. -/
def piRef (s : State) (x : Slot) (i : Nat) : Nat :=
  ((x.val 5).toNat + (if piType s x = 1 then i else 0)) % 2 ^ 32

/-- Bytes of a block as the host transfers it: with PRACT the protection information stays on the device. -/
def hostSize (s : State) (x : Slot) : Nat := if piType s x ≠ 0 ∧ piAct x = true then 4096 else stdSize s x

/-- A block with the protection information that the command generates. -/
def protect (s : State) (x : Slot) (i : Nat) (data : List Byte) : List Byte :=
  let d := sub data 0 4096
  d ++ beBytes 2 (dif16 d) ++ beBytes 2 ((x.val 6).toNat % 65536) ++ beBytes 4 (piRef s x i)

/-- The status of a block whose protection information fails a check. Tags of all ones turn the checks off. -/
def piFault (s : State) (x : Slot) (i : Nat) (b : List Byte) : Option (Nat × Nat × Bool) :=
  let tag := (x.val 6).toNat
  let app := ofBe (sub b 4098 2)
  let ref := ofBe (sub b 4100 4)
  if app = 0xFFFF ∧ (piType s x = 1 ∨ ref = 0xFFFFFFFF) then none
  else if piChk x 2 && ofBe (sub b 4096 2) != dif16 (sub b 0 4096) then some (2, 0x82, true)
  else if piChk x 1 && (app ^^^ tag % 65536) &&& (tag / 65536 % 65536) != 0 then some (2, 0x83, true)
  else if piType s x == 1 && piChk x 0 && ref != piRef s x i then some (2, 0x84, true)
  else none

/-- The blocks in the private buffer 8. -/
def stagedBlocks (s : State) (x : Slot) (size n : Nat) : List (List Byte) :=
  let l := ((x.hdl 8).map (hdlBytes s)).getD []
  (List.range n).map fun i => sub l (i * size) size

/-- Replace the bytes of the private buffer 8. -/
def restage (s : State) (k : Nat) (bytes : List Byte) : State :=
  match (getSlot s k).hdl 8 with
  | some d => updSlot (writeBuf s d.buf d.off bytes) k (·.setHdl 8 (some { d with len := bytes.length }))
  | none => s

/-- The first failure in the blocks that the private buffer holds, from the first-th of the command on. -/
def piFailure (s : State) (x : Slot) (first n : Nat) : Option (Nat × Nat × Bool) :=
  if piType s x = 0 then none
  else ((stagedBlocks s x (stdSize s x) n).zipIdx).findSome? fun e => piFault s x (first + e.2) e.1

/-- Whether the command has the device generate the protection information, or keep it. -/
def piOurs (s : State) (x : Slot) : Bool := piType s x != 0 && piAct x

/-- The check that blocks from the host fail: of protection information that the device generates there is none. -/
def piRefuses (s : State) (k first n : Nat) : Option (Nat × Nat × Bool) :=
  if piOurs s (getSlot s k) then none else piFailure s (getSlot s k) first n

/-- Blocks from the host with the protection information that the device generates. -/
def piIn (s : State) (k first n : Nat) : State :=
  let x := getSlot s k
  if piOurs s x then
    restage s k ((stagedBlocks s x 4096 n).zipIdx.flatMap fun e => protect s x (first + e.2) e.1)
  else s

/-- Blocks from the media without the protection information that stays on the device. -/
def piOut (s : State) (k n : Nat) : State :=
  let x := getSlot s k
  if piOurs s x then restage s k ((stagedBlocks s x 4104 n).flatMap (·.take 4096)) else s

/-- Invalid Protection Information. -/
def nvInvalidPi : Nat × Nat × Bool := (1, 0x81, true)

/-- Whether under type 1 a reference tag that the command checks or generates starts at the command's LBA. -/
def piStarts (s : State) (x : Slot) (writes : Bool) : Bool :=
  !(piType s x == 1 && (piChk x 0 || (writes && piAct x)) && (x.val 5).toNat % 2 ^ 32 != stdLba x % 2 ^ 32)

/-- A pattern starts, where its reference tag does. -/
def piStart (s : State) (k : Nat) (writes : Bool) (go : State) : State :=
  if piStarts s (getSlot s k) writes then go else endReply s k nvInvalidPi

/-- Whether the write of the private buffer 8 is held, for the data is still on its way. -/
def stdWriteHeld (s : State) (k : Nat) : Bool := wordHeld s k (stdFields 8 0) (zoneWriteOp s k (stdFields 8 0) true)

/-- Write the blocks that have come from the host; a failure of their protection information ends the command. -/
def stdWriteIn (s : State) (k lba first n : Nat) (append : Bool) : State :=
  if stdWriteHeld s k then stageWord k (stdWrite s k lba append)
  else match piRefuses s k first n with
    | some r => endReply s k r
    | none => stageWord k (stdWrite (piIn s k first n) k lba append)

/-! ## The commands -/

/-- NVME_FLUSH: nothing is awaited (R15). -/
def execNvmeFlush (slot : Nat) (s : State) : Answer := stdStep s slot 0x00 (stdEnd s slot)

/-- The stages of Write: each piece is fetched, then written. -/
def writeStage (s : State) (k : Nat) : State :=
  let x := getSlot s k
  let p := x.stage / 2
  let size := stdSize s x
  let n := pieceLen s x p
  let off := p * pieceBlocks size
  if x.stage % 2 = 1 then stdWriteIn s k (stdLba x + off) off n false
  else if n = 0 then stdEnd s k
  else stageWord k (stdHget s k 8 (off * hostSize s x) (n * hostSize s x) true)

/-- The pattern of NVME_WRITE. -/
def writeBody (s : State) (k : Nat) : State :=
  let x := getSlot s k
  if x.stage = 0 then
    stdCheck s k (stdZoned s x) true (stdBlocks x * hostSize s x) (piStart s k true (writeStage s k))
  else writeStage s k

/-- NVME_WRITE. -/
def execNvmeWrite (slot : Nat) (s : State) : Answer := stdStep s slot 0x01 (writeBody s slot)

/-- The stages of Read: each piece is read, then sent. -/
def readStage (s : State) (k : Nat) : State :=
  let x := getSlot s k
  let p := x.stage / 2
  let size := stdSize s x
  let n := pieceLen s x p
  let off := p * pieceBlocks size
  if x.stage % 2 = 1 then
    match piFailure s x off n with
    | some r => endReply s k r
    | none => stageWord k (stdHput (piOut s k n) k (off * hostSize s x))
  else if n = 0 then stdEnd s k
  else stageWord k (stdRead s k (stdLba x + off) (n * size))

/-- The pattern of NVME_READ. -/
def readBody (s : State) (k : Nat) : State :=
  let x := getSlot s k
  if x.stage = 0 then
    stdCheck s k (stdZoned s x) true (stdBlocks x * hostSize s x) (piStart s k false (readStage s k))
  else readStage s k

/-- NVME_READ. -/
def execNvmeRead (slot : Nat) (s : State) : Answer := stdStep s slot 0x02 (readBody s slot)

/-- Compare Failure. -/
def nvCompareFailure : Nat × Nat × Bool := (2, 0x85, true)

/-- Whether the two buffers of a comparison hold the same bytes. -/
def sameBytes (s : State) (x : Slot) : Bool := (x.hdl 8).map (hdlBytes s) == (x.hdl 9).map (hdlBytes s)

/-- The stages of Compare: each piece is read, the host's bytes are fetched, and the two are compared. -/
def compareStage (s : State) (k : Nat) : State :=
  let x := getSlot s k
  let p := x.stage / 2
  let size := stdSize s x
  let n := pieceLen s x p
  let off := p * pieceBlocks size
  if x.stage % 2 = 1 then
    match piFailure s x off n with
    | some r => endReply s k r
    | none => stageWord k (stdHget s k 9 (off * size) (n * size) false)
  else if x.stage ≠ 0 ∧ sameBytes s x = false then endReply s k nvCompareFailure
  else if n = 0 then stdEnd s k
  else stageWord k (stdRead s k (stdLba x + off) (n * size))

/-- The pattern of NVME_COMPARE. -/
def compareBody (s : State) (k : Nat) : State :=
  let x := getSlot s k
  if x.stage = 0 then
    stdCheck s k (stdZoned s x) true (stdBlocks x * stdSize s x) (piStart s k false (compareStage s k))
  else compareStage s k

/-- NVME_COMPARE. -/
def execNvmeCompare (slot : Nat) (s : State) : Answer := stdStep s slot 0x05 (compareBody s slot)

/-- The stages of Verify: each piece is read and checked, and nothing is sent. -/
def verifyStage (s : State) (k : Nat) : State :=
  let x := getSlot s k
  let size := stdSize s x
  let n := pieceLen s x x.stage
  let before := x.stage - 1
  match if x.stage = 0 then none else piFailure s x (before * pieceBlocks size) (pieceLen s x before) with
  | some r => endReply s k r
  | none =>
    if n = 0 then stdEnd s k
    else stageWord k (stdRead s k (stdLba x + x.stage * pieceBlocks size) (n * size))

/-- The pattern of NVME_VERIFY. -/
def verifyBody (s : State) (k : Nat) : State :=
  let x := getSlot s k
  if x.stage = 0 then stdCheck s k (stdZoned s x) false 0 (piStart s k false (verifyStage s k)) else verifyStage s k

/-- NVME_VERIFY. -/
def execNvmeVerify (slot : Nat) (s : State) : Answer := stdStep s slot 0x0C (verifyBody s slot)

/-- The DEAC bit of Write Zeroes, CDW12 bit 25. -/
def deac (x : Slot) : Bool := (x.val 3).getLsbD 25

/-- Blocks of zeros in the private buffer; their protection information is generated, or all ones (log entry 66). -/
def stageZeros (s : State) (k first n : Nat) : State :=
  let x := getSlot s k
  let s1 := stageBuf s k 8 (n * stdSize s x)
  if piType s x = 0 then s1
  else restage s1 k ((List.range n).flatMap fun i =>
    if piAct x then protect s x (first + i) [] else sub [] 0 4096 ++ List.replicate 8 0xFF)

/-- The stages of Write Zeroes: the range is deallocated, or written piece by piece from a buffer that reads as zeros. -/
def zeroesStage (s : State) (k : Nat) : State :=
  let x := getSlot s k
  let size := stdSize s x
  let n := pieceLen s x x.stage
  if deac x then (if x.stage = 0 then stageWord k (stdTrim s k (stdLba x) (stdBlocks x)) else stdEnd s k)
  else if n = 0 then stdEnd s k
  else stageWord k
    (stdWrite (stageZeros s k (x.stage * pieceBlocks size) n) k (stdLba x + x.stage * pieceBlocks size) false)

/-- The pattern of NVME_WRITE_ZEROES. -/
def zeroesBody (s : State) (k : Nat) : State :=
  let x := getSlot s k
  if x.stage = 0 then stdCheck s k false false 0 (piStart s k true (zeroesStage s k)) else zeroesStage s k

/-- NVME_WRITE_ZEROES. -/
def execNvmeWriteZeroes (slot : Nat) (s : State) : Answer := stdStep s slot 0x08 (zeroesBody s slot)

/-- Ranges of Dataset Management: CDW10 [7:0] counts them from 0. -/
def dsmRanges (x : Slot) : Nat := (x.val 1).toNat % 256 + 1

/-- The LBA and the length of a range of the list that the private buffer holds. -/
def dsmRange (s : State) (x : Slot) (r : Nat) : Nat × Nat :=
  let b := sub (((x.hdl 8).map (hdlBytes s)).getD []) (16 * r) 16
  (leAt b 8 8, leAt b 4 4)

/-- The stages of Dataset Management: the list is fetched, then each range of it is deallocated. -/
def dsmStage (s : State) (k : Nat) : State :=
  let x := getSlot s k
  let e := dsmRange s x (x.stage - 1)
  if x.stage = 0 then stageWord k (stdHget s k 8 0 (16 * dsmRanges x) false)
  else if dsmRanges x ≤ x.stage - 1 then stdEnd s k
  else if e.2 = 0 then nextStage s k
  else stageWord k (stdTrim s k e.1 e.2)

/-- The pattern of NVME_DATASET_MANAGEMENT: only Deallocate, CDW11 bit 2, has an effect. -/
def dsmBody (s : State) (k : Nat) : State :=
  let x := getSlot s k
  if !(x.val 2).getLsbD 2 then stdEnd s k
  else if x.stage = 0 ∧ badLength x (16 * dsmRanges x) = true then stdFault (countTransferFail s x) k St.lengthMismatch
  else dsmStage s k

/-- NVME_DATASET_MANAGEMENT. -/
def execNvmeDatasetManagement (slot : Nat) (s : State) : Answer :=
  stdStep s slot 0x09 (dsmBody s slot)

/-- The immediate of a ZMGMT word for Zone Management Send (R115): the action, Select All, and the class of CDW13. -/
def sendImm (x : Slot) : Nat :=
  let d := (x.val 4).toNat
  d % 256 + 512 * bits d 8 8 + 1024 * bits d 16 16 + 2048 * bits d 17 17

/-- The ZMGMT action of Zone Management Send. -/
def sendAction (s : State) (k : Nat) : StdWord :=
  let x := getSlot s k
  let f := stdFields (if (x.val 4).toNat % 256 = 0x10 then 8 else 0) (sendImm x)
  let s1 := updSlot s k (·.setVal 8 (BitVec.ofNat 64 (stdLba x)))
  { at_ := s1, op := 0x53, f := f, work := actionOp s1 k f }

/-- The pattern of ZONE_MANAGEMENT_SEND: action 0x10 first fetches the 64-byte extension. -/
def sendBody (s : State) (k : Nat) : State :=
  let x := getSlot s k
  let ext := (x.val 4).toNat % 256 == 0x10
  if x.stage = 0 ∧ ext = true then
    (if badLength x 64 then stdFault (countTransferFail s x) k St.lengthMismatch
     else stageWord k (stdHget s k 8 0 64 true))
  else if x.stage = (if ext then 1 else 0) then stageWord k (sendAction s k)
  else stdEnd s k

/-- ZONE_MANAGEMENT_SEND. -/
def execZoneManagementSend (slot : Nat) (s : State) : Answer :=
  stdStep s slot 0x79 (sendBody s slot)

/-- Bytes that Zone Management Receive asks for: CDW12 counts dwords from 0. -/
def receiveLen (x : Slot) : Nat := 4 * ((x.val 3).toNat % 2 ^ 32 + 1)

/-- The report of Zone Management Receive: ZRA in CDW13 [7:0], the option in [15:8], Partial Report in [16]. -/
def receiveReport (s : State) (k : Nat) : StdWord :=
  let x := getSlot s k
  let d := (x.val 4).toNat
  let f := stdFields 8 (d % 256 + 256 + 65536 * bits d 15 8 + 2 ^ 20 * bits d 16 16)
  let s1 := updSlot (stageBuf s k 8 (receiveLen x)) k (·.setVal 8 (BitVec.ofNat 64 (stdLba x)))
  { at_ := s1, op := 0x53, f := f, work := reportOp s1 k f (d % 256 == 1) }

/-- Send the report, filled with zeros up to the bytes asked for. -/
def sendReport (s : State) (k : Nat) : StdWord := stdHput (stageBuf s k 8 (receiveLen (getSlot s k))) k 0

/-- The pattern of ZONE_MANAGEMENT_RECEIVE (R126): an option that is not defined, or an action other than the two reports,
is an invalid field. -/
def receiveBody (s : State) (k : Nat) : State :=
  let x := getSlot s k
  let d := (x.val 4).toNat
  if x.stage = 0 then
    (if 7 < bits d 15 8 ∨ 1 < d % 256 then stdFault s k St.illegalOp
     else if badLength x (receiveLen x) then stdFault (countTransferFail s x) k St.lengthMismatch
     else stageWord k (receiveReport s k))
  else if x.stage = 1 then stageWord k (sendReport s k)
  else stdEnd s k

/-- ZONE_MANAGEMENT_RECEIVE. -/
def execZoneManagementReceive (slot : Nat) (s : State) : Answer :=
  stdStep s slot 0x7A (receiveBody s slot)

/-- The pattern of ZONE_APPEND: the data of one ZAPPEND is at most 2 MiB, and a longer command has an invalid field (log
entry 25). -/
def appendBody (s : State) (k : Nat) : State :=
  let x := getSlot s k
  let bytes := stdBlocks x * hostSize s x
  let remap := (x.val 3).getLsbD 25
  if x.stage = 0 then
    (if 2097152 < stdBlocks x * stdSize s x then stdFault s k St.illegalOp
     else stdCheck s k true true bytes
       (if piType s x = 1 ∧ remap = false ∨ piType s x = 3 ∧ remap = true then endReply s k nvInvalidPi
        else piStart s k true (stageWord k (stdHget s k 8 0 bytes true))))
  else if x.stage = 1 then stdWriteIn s k (stdLba x) 0 (stdBlocks x) true
  else stdEnd s k

/-- ZONE_APPEND. -/
def execZoneAppend (slot : Nat) (s : State) : Answer := stdStep s slot 0x7D (appendBody s slot)

/-! ## The library pattern ZRANGE_READ (R109, Table 4.15) -/

/-- Bytes of a logical block of the range, whose namespace v2 names, and the bytes of whole blocks in one piece. -/
def zrangeSize (s : State) (x : Slot) : Nat := ((getNs s ((x.val 2).toNat % 2 ^ 32)).map (·.lbaSize)).getD 4096

/-- Bytes of the range that the pieces before a stage have moved. -/
def zrangeDone (size : Nat) (x : Slot) : Nat := x.stage / 2 * (pieceBlocks size * size)

/-- Send the private buffer to the command's data at v4 and what has been sent before (HPUT, mode 0). -/
def zrangePut (s : State) (k : Nat) : State :=
  let x := getSlot s k
  let f : Fields := { a := 8, b := 0, c := 0, mod := 0, imm := BitVec.ofNat 40 ((x.val 4).toNat + zrangeDone (zrangeSize s x) x) }
  stageWord k { at_ := s, op := 0x41, f := f, work := hputOp s k f }

/-- Read the next piece into the private buffer: the namespace is in v2, and D is 0. -/
def zrangeGet (s : State) (k : Nat) : State :=
  let x := getSlot s k
  let z := ((getNs s ((x.val 2).toNat % 2 ^ 32)).map (·.zoned)).getD true
  let size := zrangeSize s x
  let f : Fields := { a := 8, b := 8, c := 2, mod := 0, imm := 0 }
  let s1 := stageBuf s k 8 (min (pieceBlocks size * size) ((x.val 3).toNat - zrangeDone size x))
  let s2 := updSlot s1 k (·.setVal 8 (x.val 1 + BitVec.ofNat 64 (zrangeDone size x / size)))
  stageWord k { at_ := s2, op := if z then 0x50 else 0x54, f := f, work := readOp s2 k f z }

/-- ZRANGE_READ: pieces of up to 2 MiB, each read and then sent, until the bytes in v3 are done. -/
def zrangeBody (s : State) (k : Nat) : State :=
  let x := getSlot s k
  if x.stage % 2 = 1 then zrangePut s k
  else if (x.val 3).toNat ≤ zrangeDone (zrangeSize s x) x then stdEnd s k
  else zrangeGet s k

/-! ## Device patterns that an order runs (R64) -/

/-- The next stage of a device pattern. -/
def deviceStage (s : State) (k n : Nat) : State :=
  match n with
  | 0x01 => writeBody s k
  | 0x02 => readBody s k
  | 0x05 => compareBody s k
  | 0x08 => zeroesBody s k
  | 0x09 => dsmBody s k
  | 0x0C => verifyBody s k
  | 0x79 => sendBody s k
  | 0x7A => receiveBody s k
  | 0x7D => appendBody s k
  | 0x82 => zrangeBody s k
  | _ => stdEnd s k

/-- The device pattern in stages that a running order is in. -/
def stagedPattern (s : State) (k : Nat) : Option Nat :=
  let x := getSlot s k
  if x.st == .running && decide (0 < x.sliceLeft) && x.kind != .standard && strikesRun s && (codeAt s x).isNone then x.pc.pat else none

end Sys2Proof.Machine
end

