-- ==== Sys2Proof/Machine/Thermal.lean ====
section
/-! DEFINITION. Housekeeping: samples, broken sensors, throttle levels, supply windows, thermal shutdown and the release
after it (R365 to R373), and the start of a re-centre by drift (R201). -/

namespace Sys2Proof.Machine

/-! ## Limits (R368); temperatures count 0.25 °C -/

/-- A field of the limit set of an input. -/
def limOf (s : State) (f : Fld) (k : Nat) : Nat := rdAt s f 0 k

/-- Threshold Tk of an input; T5 is the shutdown threshold. -/
def threshold (s : State) (input k : Nat) : Int :=
  4 * Int.ofNat (limOf s R.HKP_LIM_BASE input + (k - 1) * max 1 (limOf s R.HKP_LIM_STEP input))

/-- The level of an input after a good sample (R369). -/
def levelAfter (s : State) (input old : Nat) (v : Int) : Nat :=
  let hyst : Int := 4 * Int.ofNat (limOf s R.HKP_LIM_HYST input)
  match [4, 3, 2, 1].find? fun k => decide (old < k) && decide (threshold s input k ≤ v) with
  | some k => k
  | none => ([4, 3, 2, 1].find? fun k => decide (k ≤ old) && decide (threshold s input k - v < hyst)).getD 0

/-- The FC domains of HKP_MAP of an input. -/
def mapOf (s : State) (input : Nat) : Nat := rdAt s R.HKP_MAP_LO_MAP 0 input + 2 ^ 32 * rdAt s R.HKP_MAP_HI_MAP 0 input

/-- Whether an input is enabled, and whether it is broken. -/
def inputOn (s : State) (k : Nat) : Bool := (rd s R.HKP_EN_EN).testBit k
def HkInput.broken (x : HkInput) : Bool := x.brokenOpen || x.brokenShort

/-- The level of an FC domain: the highest among the enabled inputs that govern it (R369). -/
def domainLevel (s : State) (c : Nat) : Nat :=
  (List.range 28).foldl (fun m k =>
    let x := getInput s k
    if inputOn s k && x.map.testBit c then max m x.level else m) 0

/-- Levels that have changed apply from this strike: each change is recorded, and each rise is counted (R369). -/
def levelStrike (s : State) : State :=
  (List.range 64).foldl (fun t c =>
    let old := fcLevel s c
    let new := domainLevel s c
    if old = new then t
    else
      let t1 := { t with hkp := { t.hkp with fcLvl := Tbl.set nat0 t.hkp.fcLvl c new } }
      let t2 := raise t1 (event (64 + c) 0x0A03 [(1, c), (1, old), (1, new)])
      if old < new then bump t2 R.HKP_THROTTLE_CNT_THROTTLE else t2) s

/-! ## Re-centring by drift (R201) -/

/-- Steps of a re-centre: read deskew, write deskew and ZQ short for each die of the channel, and one more that ends it. -/
def recentreSteps (s : State) (c : Nat) : Nat :=
  1 + 3 * (s.fl.dies.filter fun e => dieChan e.1 == c && e.2.present).length

/-- A channel whose temperature has moved beyond DRIFT_C starts a re-centre; a supply monitor or a disabled input never
starts one (R374). -/
def driftCheck (s : State) (input : Nat) : State :=
  if 28 ≤ input ∨ inputOn s input = false then s
  else (List.range 64).foldl (fun t c =>
    let x := getChan t c
    let drift : Int := 4 * Int.ofNat (rdForceAt t R.FCH_TRAIN_DRIFT_C (0x1000 * c) 0)
    let moved := decide (drift < chanTemp t c - x.tempAt) || decide (drift < x.tempAt - chanTemp t c)
    if x.st == .ready && x.recentre == 0 && rdForceAt t R.FCH_TRAIN_SENSOR (0x1000 * c) 0 == input && moved then
      setChan t c { x with recentre := recentreSteps t c }
    else t) s

/-! ## Thermal shutdown (R371) -/

/-- Thermal shutdown starts: the record, the flush from the next strike, in a Wall member its DOWN notice (R397). In EMBER
and COLD nothing runs. -/
def thermalShutdown (s : State) (input : Nat) : State :=
  if s.blw.flush.isSome || s.pwr.halted || s.pwr.st == .ember || s.pwr.st == .cold then s
  else
    let s1 := raise s (event (128 + input) 0x0A04 [(1, input), (2, ((getInput s input).reading % 65536).toNat)])
    beginFlush (if isMember s then emit s1 .downNotice else s1) true false

/-- CRITICAL_COMPARATOR_TRIP. -/
def execCriticalComparatorTrip (sensor : Nat) (s : State) : Answer := .next (thermalShutdown s sensor)

/-- FLUSH_OVERTEMP_HALT: the device halts at once with the flush incomplete, and goes COLD. -/
def execFlushOvertempHalt (_sensor : Nat) (s : State) : Answer :=
  match s.blw.flush with
  | none => .next s
  | some f => stepIf s (f.thermal && !s.pwr.halted) (thermalCold (haltNow s))

/-- Whether it is cool enough for a boot (R372). -/
def coolEnough (s : State) : Bool :=
  ([24, 25, 26, 27].all fun k => decide ((getInput s k).reading ≤ 4 * Int.ofNat (rd s R.HKP_CRIT_RESTART)))
    && ((List.range 28).all fun k =>
      let x := getInput s k
      !inputOn s k || x.broken || decide (x.reading < threshold s k 1))

/-- THERMAL_RESTART_RELEASE: the held wake event starts the boot. -/
def execThermalRestartRelease (w : WakeEnv) (s : State) : Answer :=
  match s.pwr.thermHeld with
  | none => .next s
  | some c => stepIf s (s.hkp.shutdown && asleep s && coolEnough s)
      (wakeNow { s with hkp := { s.hkp with shutdown := false }, pwr := { s.pwr with thermHeld := none } } c w)

/-! ## Samples (R365, R367, R369, R373) -/

/-- What a broken input reads: 150 °C. -/
def brokenReading : Int := 0x258

/-- A faulty sample: the second in a row breaks the input, which drives its domains to T4. -/
def faultySample (s : State) (k : Nat) (x : HkInput) (open_ : Bool) : State :=
  let y := { x with faultRun := x.faultRun + 1, goodRun := 0 }
  if x.broken || y.faultRun < 2 then setInput s k y
  else
    let s1 := setInput s k { y with reading := brokenReading, brokenOpen := open_, brokenShort := !open_, level := 4 }
    raise (bump s1 R.HKP_BROKEN_CNT_BROKEN) (event (128 + k) 0x0A01 [(1, k), (1, if open_ then 1 else 2)])

/-- A good reading is taken: the level, and the shutdown threshold. -/
def takeReading (s : State) (k : Nat) (x : HkInput) (v : Int) : State :=
  let s1 := setInput s k { x with reading := v, level := levelAfter s k x.level v }
  if threshold s k 5 ≤ v then thermalShutdown s1 k else s1

/-- A good sample: the fourth in a row repairs a broken input. -/
def goodSample (s : State) (k : Nat) (x : HkInput) (v : Int) : State :=
  let y := { x with faultRun := 0, goodRun := x.goodRun + 1 }
  if !x.broken then takeReading s k y v
  else if y.goodRun < 4 then setInput s k y
  else
    let s1 := raise s (event (128 + k) 0x0A02 [(1, k), (1, if x.brokenOpen then 1 else 2)])
    takeReading s1 k { y with brokenOpen := false, brokenShort := false, goodRun := 0 } v

/-- The window of a supply monitor in mV (R373); none while an OPSET is in progress, for VDD_CORE. -/
def supplyWindow (s : State) (k : Nat) : Option (Nat × Nat) :=
  if k = 28 then (if s.pwr.seq.isSome then none else some (opMv s.pwr.cur - 50, opMv s.pwr.cur + 50))
  else some (rdAt s R.HKP_SUP_LIM_UV 0 k, rdAt s R.HKP_SUP_LIM_OV 0 k)

/-- A sample of a supply monitor: a reading outside the window is recorded. -/
def supplySample (s : State) (k : Nat) (v : Int) : State :=
  let x := { getInput s k with reading := v }
  match supplyWindow s k with
  | none => setInput s k x
  | some w =>
    let out := decide (v < Int.ofNat w.1) || decide (Int.ofNat w.2 < v)
    let s1 := setInput s k { x with outside := out }
    if out then raise s1 (event (128 + k) 0x0A05 [(1, k), (2, (v % 65536).toNat)]) else s1

/-- One conversion of an input; the map of the input is taken with it (Table 16.7). -/
def sample (s : State) (k : Nat) (c : Conversion) : State :=
  let x := { getInput s k with map := mapOf s k }
  if 28 ≤ k then (match c with
    | .good v => supplySample s k v
    | _ => s)
  else driftCheck (match c with
    | .good v => goodSample s k x v
    | .opened => faultySample s k x true
    | .short => faultySample s k x false) k

/-- HOUSEKEEPING_SAMPLE: the slot of an enabled input. A reading has 12 bits; an on-die sensor has no leads to break. -/
def execHousekeepingSample (input : Nat) (c : Conversion) (s : State) : Answer :=
  let fits := match c with
    | .good v => decide (-2048 ≤ v ∧ v < if 28 ≤ input then 4096 else 2048)
    | _ => decide (input < 24)
  stepIf s (inputOn s input && fits) (sample s input c)

end Sys2Proof.Machine
end

