-- ==== Sys2Proof/Machine/Wall.lean ====
section
/-! DEFINITION. Course links and the Wall: links and their training (R392, R393), formation (R394), routes (R395), packets
sent again (R396), failed members (R397), and strike markers (R403, R404). -/

namespace Sys2Proof.Machine

/-! ## Routes (Table 18.1, R395) -/

/-- The peer of a member at a port, in a Wall of n members with skip distance k. -/
def peerAt (n k a p : Nat) : Nat :=
  match p with
  | 0 => (a + 1) % n
  | 1 => (a + n - 1) % n
  | 2 => (a + k) % n
  | _ => (a + n - k) % n

/-- The port at the other end of a link. -/
def farPort (p : Nat) : Nat :=
  match p with
  | 0 => 1
  | 1 => 0
  | 2 => 3
  | _ => 2

/-- Links that are down, named by one of their ends: those of the report, and the device's own. -/
def downLinks (s : State) (far : List (Nat × Nat)) : List (Nat × Nat) :=
  far ++ ((List.range 4).filter fun p => (getCk s p).st != .up).map fun p => (memberNumber s, p)

/-- Whether the link of a member at a port is UP. -/
def linkUp (n k : Nat) (down : List (Nat × Nat)) (a p : Nat) : Bool :=
  !down.contains (a, p) && !down.contains (peerAt n k a p, farPort p)

/-- Routes with one more hop: among the shortest paths the one whose first hop leaves on the lowest port. -/
def spread (n k : Nat) (down : List (Nat × Nat)) (me : Nat) (r : List (Option Route)) (h : Nat) : List (Option Route) :=
  r.zipIdx.map fun e => match e.1 with
    | some x => some x
    | none =>
      let ports := (List.range 4).filterMap fun p =>
        let y := peerAt n k e.2 p
        if linkUp n k down e.2 p then
          match r.getD y none with
          | some q => if q.hops = h then some (if y = me then farPort p else q.port) else none
          | none => none
        else none
      ports.min?.map fun p => { port := p, hops := h + 1 }

/-- The routes of a member to every member; to itself it has a path of no hop. -/
def routesOf (n k : Nat) (down : List (Nat × Nat)) (me : Nat) : List (Option Route) :=
  let r := (List.range n).map fun x => if x = me then some { port := 0, hops := 0 } else none
  (List.range n).foldl (spread n k down me) r

/-- The table of a list of routes. -/
def routeTable (me : Nat) (r : List (Option Route)) : Tbl (Option Route) :=
  Tbl.ofList Tbl.absent ((r.zipIdx.filter fun e => e.2 != me).map fun e => (e.2, e.1))

/-- The last member before a destination on the way that packets take from a member: each member on it uses its own
table. -/
def lastHop (n k : Nat) (down : List (Nat × Nat)) (dest : Nat) : Nat → Nat → Nat
  | 0, a => a
  | fuel + 1, a =>
    match (routesOf n k down a).getD dest none with
    | some q => let b := peerAt n k a q.port
      if b = dest then a else lastHop n k down dest fuel b
    | none => n

/-! ## Links (R392, R393) -/

/-- The route engine has work when a link changes state (R395). -/
def linkChange (s : State) (p : Nat) (x : CkPort) : State :=
  let s1 := setCk s p x
  { s1 with wall := { s1.wall with recompute := true } }

/-- A link goes DOWN, and is retrained at once. -/
def linkDown (s : State) (p : Nat) : State :=
  linkChange (bump s R.GLB_CK_DOWN_CNT_DOWN) p { getCk s p with st := .down, replays := 0 }

/-- FLIT_CRC_FAIL: the flit is replayed; once three replays of it have failed the link goes DOWN. -/
def execFlitCrcFail (port : Fin 4) (s : State) : Answer :=
  let x := getCk s port.val
  stepIf s (x.st == .up && !s.pwr.halted)
    (if 3 ≤ x.replays then linkDown s port.val
     else bump (setCk s port.val { x with replays := x.replays + 1 }) R.GLB_CK_RETRY_CNT_RETRY)

/-- LINK_ELECTRICAL_IDLE. -/
def execLinkElectricalIdle (port : Fin 4) (s : State) : Answer :=
  let x := getCk s port.val
  stepIf s ((x.st == .up || x.st == .miswired) && !s.pwr.halted) (linkDown s port.val)

/-- Whether a trained link is the one that Table 18.1 names, with the same N and S at both ends; a member that has not yet
heard FORM knows neither. -/
def wiredRight (s : State) (p : Nat) (r : LinkReport) : Bool :=
  (isMember s && !s.wall.formed)
    || (r.peer == peerAt s.wall.size s.wall.skip (memberNumber s) p && r.size == s.wall.size && r.skip == s.wall.skip)

/-- Training ends: the link is UP with its peer and delay, or MISWIRED; without a pass it goes on. The head sends FORM to
a member that it reaches (R394). -/
def linkTrained (s : State) (p : Nat) (r : LinkReport) : State :=
  if !r.passed then s
  else if wiredRight s p r then
    let s1 := linkChange s p { st := .up, peer := r.peer, delay := r.delay, replays := 0 }
    if isHead s && !s.wall.formed then emit s1 (.formMessage s.wall.size s.wall.skip s.tb.count) else s1
  else linkChange s p { port0 0 with st := .miswired }

/-- LINK_TRAINING_DONE. -/
def execLinkTrainingDone (port : Fin 4) (r : LinkReport) (s : State) : Answer :=
  let x := getCk s port.val
  stepIf s ((x.st == .training || x.st == .down) && s.boot.cfgMode != 0 && !s.pwr.halted)
    (linkTrained s port.val r)

/-! ## Forming (R394, R417) -/

/-- Namespaces that may report ready now do. -/
def serveNow (s : State) : State :=
  if s.boot.ioReady && mayServe s then
    let s1 := nsReady s (·.zoned) true
    if s.boot.mapsLoaded then nsReady s1 (fun n => !n.zoned) true else s1
  else s

/-- What a member learns from FORM: N, S, and the strike number; a link whose peer is then the wrong one is MISWIRED. -/
def formed (s : State) (size skip strike : Nat) : State :=
  let me := memberNumber s
  let s1 := { s with
    wall := { s.wall with
      size := size, skip := skip, formed := true, recompute := true, live := s.wall.live ||| 1 ||| BitVec.ofNat 64 (2 ^ me) }
    tb := { s.tb with count := if s.wall.formed then s.tb.count else strike } }
  serveNow ((List.range 4).foldl (fun t p =>
    let x := getCk t p
    if x.st == .up && x.peer != peerAt size skip me p then setCk t p { port0 0 with st := .miswired } else t) s1)

/-- A member outside the Wall answers no FORM, and its links stay MISWIRED. -/
def notFormed (s : State) : State :=
  (List.range 4).foldl (fun t p => if (getCk t p).st == .up then setCk t p { port0 0 with st := .miswired } else t) s

/-- FORM_MESSAGE. -/
def execFormMessage (size skip : Nat) (strike : W64) (s : State) : Answer :=
  stepIf s (isMember s && !s.pwr.halted && (List.range 4).any fun p => (getCk s p).st == .up)
    (if memberNumber s < size then formed s size skip strike.toNat else notFormed s)

/-- Members of a mask. -/
def maskCount (m : BitVec 64) : Nat := ((List.range 64).filter fun k => m.getLsbD k).length

/-- FORMATION_TIMEOUT: the Wall forms, and members not reached count as failed. -/
def execFormationTimeout (s : State) : Answer :=
  stepIf s (isHead s && !s.wall.formed && !s.pwr.halted
      && (List.range 4).any fun p => let x := getCk s p; x.st != .off && x.st != .training)
    (bumpAt { s with wall := { s.wall with formed := true } } R.GLB_WALL_FAIL_CNT_FAIL 0 0
      (s.wall.size - maskCount (s.wall.live ||| 1)))

/-! ## Tables in force (R395, R397) -/

/-- The members of a list of routes. -/
def reached (r : List (Option Route)) : BitVec 64 :=
  BitVec.ofNat 64 (r.zipIdx.foldl (fun m e => if e.1.isSome then m + 2 ^ e.2 else m) 0)

/-- The head sends a member that is reachable again FORM and the tenant records (R394, R397). -/
def welcome (s : State) : State :=
  s.ten.foldl (fun t e => if e.2.there then emit t (.tenantRecord e.1 e.2.gen) else t)
    (emit s (.formMessage s.wall.size s.wall.skip s.tb.count))

/-- Whether each of a member's links is named down, at either end. -/
def allDown (n k : Nat) (down : List (Nat × Nat)) (m : Nat) : Bool := (List.range 4).all fun p => !linkUp n k down m p

/-- The links of the members that have sent a DOWN notice: nothing is sent over them any more (R397). -/
def noticedLinks (l : List Nat) : List (Nat × Nat) := l.flatMap fun m => (List.range 4).map fun p => (m, p)

/-- New tables at the head: members that no route reaches have failed, those reached again are back, and the Wall is
formed once every member is reached. A member that has sent a DOWN notice is not reached again before its links have been
down. -/
def routesHead (s : State) (far : List (Nat × Nat)) : State :=
  let down := downLinks s far
  let w := { s.wall with noticed := s.wall.noticed.filter fun m => !allDown s.wall.size s.wall.skip down m }
  let r := routesOf w.size w.skip (down ++ noticedLinks w.noticed) 0
  let m := reached r
  let lost := (List.range 64).filter fun k => w.live.getLsbD k && !m.getLsbD k && !w.failedAt.contains k
  let back := (List.range 64).filter fun k => k != 0 && m.getLsbD k && !w.live.getLsbD k
  let s1 := { s with wall := { w with
    routes := routeTable 0 r, recompute := false, failedAt := w.failedAt ++ lost, live := w.live ||| m
    formed := w.formed || decide (maskCount m = w.size) } }
  back.foldl (fun t _ => welcome t) s1

/-- A member that loses every route to the head: its host transfers end under R68 and R69 (R397). -/
def loseHead (s : State) : State :=
  s.ord.reqs.foldl (fun t e => match e.2 with
    | some q => let x := getSlot t q.slot
      if q.onWire && x.qp.isNone && x.pcie.isNone then failTransfer (zeroFail t e.1) e.1 else t
    | none => t) s

/-- New tables at a member: its own routes, the live members, and the ports on which it forwards markers. -/
def routesMember (s : State) (far : List (Nat × Nat)) : State :=
  let w := s.wall
  let me := memberNumber s
  let down := downLinks s far
  let m := reached (routesOf w.size w.skip down 0)
  let out := (List.range 4).filter fun p =>
    linkUp w.size w.skip down me p && lastHop w.size w.skip down (peerAt w.size w.skip me p) w.size 0 == me
  let s1 := { s with wall := { w with
    routes := routeTable me (routesOf w.size w.skip down me), recompute := false, live := m, markOut := out } }
  if m.getLsbD me then serveNow s1 else loseHead s1

/-- ROUTE_TABLES_IN_FORCE: `far` names the links of other members that are not UP. -/
def execRouteTablesInForce (far : List (Nat × Nat)) (s : State) : Answer :=
  stepIf s (s.boot.cfgMode != 0 && s.wall.recompute && !s.pwr.halted)
    (if isHead s then routesHead s far else routesMember s far)

/-! ## Packets and failed members (R396, R397) -/

/-- END_TO_END_ACK_TIMEOUT: 64 µs have passed. -/
def execEndToEndAckTimeout (pkt : Nat) (s : State) : Answer :=
  match Tbl.get Tbl.absent s.wall.packets pkt with
  | none => .next s
  | some p =>
    let w := { s.wall with packets := Tbl.set Tbl.absent s.wall.packets pkt (some { p with sentAt := s.tb.count }) }
    stepIf s (decide (256 ≤ (s.tb.count - p.sentAt) * perQ s) && strikesRun s)
      (emit (bump { s with wall := w } R.GLB_WALL_RESEND_CNT_RESEND) (.packetAgain p.dest (p.seq % 2 ^ 32)))

/-- DOWN_NOTICE: the head learns that a member has failed; from the next strike it acts on it. -/
def execDownNotice (member : Nat) (s : State) : Answer :=
  stepIf s (isHead s && !s.pwr.halted && s.wall.live.getLsbD member && member != 0 && !s.wall.failedAt.contains member)
    { s with wall := { s.wall with
      failedAt := s.wall.failedAt ++ [member], noticed := s.wall.noticed ++ [member], recompute := true } }

/-- The head's commands for a failed member are posted with STATE_NOT_IDLE, and the routes are computed again (R395). -/
def failMember (s : State) (m : Nat) : State :=
  let s1 := { s with wall := { s.wall with
    live := s.wall.live &&& ~~~BitVec.ofNat 64 (2 ^ m), credits := Tbl.set nat0 s.wall.credits m 0, recompute := true
    packets := s.wall.packets.filter fun e => (e.2.map fun (p : Packet) => p.dest) != some m } }
  bump (s1.ord.slots.foldl (fun t e =>
    if e.2.st == .suspended && e.2.member == some m then setSlot t e.1 { e.2 with st := .posting, status := St.notIdle } else t) s1)
    R.GLB_WALL_FAIL_CNT_FAIL

/-! ## Strike markers (R403 to R405) -/

/-- The strike number that a marker carries. -/
def markerStrike (n : Nat) : Nat := if n % 1024 = 0 then n % 2 ^ 64 else n % 65536

/-- A signed error in the eight bits of STK_ALIGN_STAT.ERR. -/
def errByte (e : Int) : Int := max (-128) (min 127 e)

/-- What a member takes from a marker: its error, its hops, a period announced, and the end of a holdover. -/
def takeMarker (s : State) (m : Marker) : State :=
  let s1 := { s with wall := { s.wall with
    locked := true, holdover := false, noMarker := 0, err := errByte m.err, hops := min 15 m.hops, far := decide (8 < m.hops)
    announced := match m.period with
      | some (p, n) => some (p, n.toNat)
      | none => s.wall.announced } }
  s.wall.markOut.foldl (fun t p => emit t (.marker p m.strike.toNat)) (raiseTo s1 R.STK_ALIGN_MAX_MAX (min 255 m.err.natAbs))

/-- STRIKE_MARKER: the strike timer follows at 1 ns per strike at most; the strike number does not change. -/
def execStrikeMarker (m : Marker) (s : State) : Answer :=
  stepIf s (isMember s && s.wall.formed && strikesRun s && (List.range 4).any fun p => (getCk s p).st == .up)
    (takeMarker s m)

/-- MARKER_HOLDOVER. -/
def execMarkerHoldover (s : State) : Answer :=
  stepIf s (isMember s && s.wall.formed && strikesRun s && !s.wall.holdover && decide (4 ≤ s.wall.noMarker))
    { s with wall := { s.wall with holdover := true } }

/-- Command credits that the live members have granted since the last strike: their free slots stand outside the head, so
the numbers are free (R401). -/
def memberCredits (s : State) : State :=
  (List.range 64).foldl (fun t m =>
    if m != 0 && t.wall.live.getLsbD m then
      let v := fresh t
      { v.2 with wall := { v.2.wall with
        credits := Tbl.set nat0 t.wall.credits m (min slotCount (Tbl.get nat0 t.wall.credits m + v.1.toNat % slotCount)) } }
    else t) s

/-- The Wall's share of a strike. -/
def wallStrike (s : State) : State :=
  if s.boot.cfgMode = 0 then s
  else
    let s1 := { s with wall := { s.wall with ports := Tbl.mapAll port0 s.wall.ports fun _ x => { x with replays := 0 } } }
    if isHead s then
      let s2 := s.wall.failedAt.foldl failMember { s1 with wall := { s1.wall with failedAt := [] } }
      let s3 := (List.range 4).foldl (fun t p =>
        if (getCk t p).st == .up then emit t (.marker p (markerStrike t.tb.count)) else t) s2
      if s.wall.formed then memberCredits s3 else s3
    else if s.wall.formed then { s1 with wall := { s1.wall with noMarker := s1.wall.noMarker + 1 } }
    else s1

end Sys2Proof.Machine
end

