-- ==== Sys2Proof/Machine/WorkOrder.lean ====
section
/-! DEFINITION. A work order's slice as one command (R46, R59), and the arrival of awaited results (R63, R277 to R279). -/

namespace Sys2Proof.Machine

/-! ## The instruction that a word names (R84, Tables 4.5 to 4.14) -/

/-- The step of a ZMGMT word, by its direction and its action (R97, R126). -/
def zmgmtWord (slot : Nat) (f : Fields) (s : State) : Answer :=
  if f.imm.getLsbD 8 then
    (if f.i 7 0 = 0x00 then execReportZones slot f s
     else if f.i 7 0 = 0x01 then execExtendedReportZones slot f s
     else execZoneOpen slot f s)
  else match f.i 7 0 with
    | 0x01 => execZoneClose slot f s
    | 0x02 => execZoneFinish slot f s
    | 0x04 => execZoneReset slot f s
    | 0x05 => execZoneOffline slot f s
    | 0x10 => execZoneSetExtension slot f s
    | _ => execZoneOpen slot f s

/-- The step of a TENANT word, by its action. -/
def tenantStep (slot : Nat) (f : Fields) (s : State) : Answer :=
  match f.i 2 0 with
  | 1 => execTenantModify slot f s
  | 2 => execTenantReset slot f s
  | 3 => execTenantDestroy slot f s
  | 4 => execTenantQuery slot f s
  | _ => execTenantCreate slot f s

/-- Words of the arithmetic and control families. -/
def wordLow (op slot : Nat) (f : Fields) (s : State) : Answer :=
  match op with
  | 0x00 => execAdd slot f s
  | 0x01 => execSub slot f s
  | 0x02 => execAnd slot f s
  | 0x03 => execOr slot f s
  | 0x04 => execXor slot f s
  | 0x05 => execShl slot f s
  | 0x06 => execShr slot f s
  | 0x07 => execLdi slot f s
  | 0x08 => execCmp slot f s
  | 0x09 => execSel slot f s
  | 0x20 => execBr slot f s
  | 0x21 => execBz slot f s
  | 0x22 => execBnz slot f s
  | 0x23 => execCallp slot f s
  | 0x24 => execEndOrder slot f s
  | 0x25 => execFault slot f s
  | 0x26 => execYield slot f s
  | 0x30 => execBalloc slot f s
  | 0x31 => execBfree slot f s
  | 0x32 => execBfill slot f s
  | 0x33 => execBcopy slot f s
  | 0x34 => execBslice slot f s
  | 0x40 => execHget slot f s
  | 0x41 => execHput slot f s
  | _ => .next s

/-- Words of the media, cipher, waiting and manager families. -/
def wordHigh (op slot : Nat) (f : Fields) (s : State) : Answer :=
  match op with
  | 0x50 => execZread slot f s
  | 0x51 => execZappend slot f s
  | 0x52 => execZwrite slot f s
  | 0x53 => zmgmtWord slot f s
  | 0x54 => execCread slot f s
  | 0x55 => execCwrite slot f s
  | 0x56 => execCtrim slot f s
  | 0x57 => execParchk slot f s
  | 0x70 => execSeal slot f s
  | 0x71 => execOpenRecord slot f s
  | 0x72 => execMac slot f s
  | 0x73 => execDgfeed slot f s
  | 0x74 => execDgfin slot f s
  | 0x75 => execDgload slot f s
  | 0x80 => execWait slot f s
  | 0x81 => execFence slot f s
  | 0x82 => execTime slot f s
  | 0x83 => execPlumb slot f s
  | 0x90 => execPost slot f s
  | 0x91 => execNote slot f s
  | 0xE0 => execPower slot f s
  | 0xE1 => tenantStep slot f s
  | 0xE2 => execKeyload slot f s
  | 0xE3 => execPatload slot f s
  | 0xE4 => execOpset slot f s
  | 0xE5 => execHmread slot f s
  | _ => .next s

/-- The present word of a slot; a device pattern that goes in stages has none (log entry 9). -/
def presentWord (s : State) (k : Nat) : Option W64 :=
  let x := getSlot s k
  (codeAt s x).bind fun ws => ws[x.pc.word]?

/-- Execute the present word, or the next stage of a device pattern. -/
def stepWord (slot : Nat) (s : State) : Answer :=
  match presentWord s slot with
  | none => match stagedPattern s slot with
    | none => .next s
    | some n => .next (deviceStage s slot n)
  | some w => if wordOp w < 0x50 then wordLow (wordOp w) slot (wordFields w) s else wordHigh (wordOp w) slot (wordFields w) s

/-- Execute words while the slice lasts. -/
def runSlice (slot : Nat) : Nat → State → State
  | 0, s => s
  | fuel + 1, s =>
    match stepWord slot s with
    | .next t => runSlice slot fuel t
    | _ => s

/-- Instructions of a slice at most (Table 2.2). -/
def sliceWords : Nat := 32

/-- EXECUTE_WORK_ORDER: the order that a Smith runs executes its slice, to its end or to a suspension (log entry 34). -/
def execExecuteWorkOrder (slot : Nat) (s : State) : Answer :=
  match stepWord slot s with
  | .next t => .next (runSlice slot (sliceWords - 1) t)
  | _ => .next s

/-! ## Results (R63) -/

/-- What the host side answers to an OPEN that writes past the hold buffer: its plaintext is complete, or it is zeroed, or
the transfer has failed (R277 to R279). -/
def openAnswer (s : State) (rid : Nat) (q : Req) (r : HostReply) : State :=
  let x := getSlot s q.slot
  let fail := failTransfer (countTransferFail (zeroFail s rid) x) rid
  match r with
  | .done _ pages => if q.phase = .zeroing then zeroed s rid q pages else deliver (markPages s q.tenant pages) rid St.ok none
  | .accessError => match x.qp with
    | some qp => qpError fail qp
    | none => fail
  | _ => fail

/-- Whether the result of a request can arrive now: it is complete, or the host answers it. A hold buffer's release has a
row of its own. -/
def canArrive (q : Req) : Bool := q.phase == .done || (q.onWire && q.phase != .readWait && !(q.phase == .releasing && q.held))

/-- A result arrives. -/
def arriveResult (s : State) (rid : Nat) (q : Req) (r : HostReply) : State :=
  if q.phase = .done then deliverDone s rid
  else if q.isHost then nextRead (hostAnswer s rid q r) (getSlot s q.slot)
  else openAnswer s rid q r

/-- RESULT_ARRIVAL: a result of an old generation has a row of its own (R252). -/
def execResultArrival (rid : Nat) (r : HostReply) (s : State) : Answer :=
  match getReq s rid with
  | none => .next s
  | some q => stepIf s (canArrive q && q.gen == (getTen s q.tenant).gen && strikesRun s) (arriveResult s rid q r)

end Sys2Proof.Machine
end

