-- ==== Sys2Proof/Machine/Strike.lean ====
section
/-! DEFINITION. The strike (R29): what SCHED does when the strike timer fires. -/

namespace Sys2Proof.Machine

/-! ## Changes that fall due (R24, R29, R250, R267, R343, R369, R430) -/

/-- What BANKED held is handed on once strikes run again, and the buffers that this empties release their pauses (R211,
R212, R333). -/
def handHeld (s : State) : State :=
  let s1 := (List.range 8).foldl (fun t l => if pausing s l (getLPort s l) then emit t (.pauseRelease l) else t) s
  { s1 with port := { s1.port with
    heldTlps := 0, lports := Tbl.mapAll lport0 s1.port.lports fun _ x => { x with wakeBuf := 0 } } }

/-- The changes of a strike. -/
def changesDue (s : State) : State :=
  let s1 := latchStrike (migrationStrike (wallStrike (opStrike (periodStrike (backStrike s)))))
  let s2 := levelStrike (keyStrike (tenantsStrike s1))
  handHeld { s2 with reg := { s2.reg with inForce := s2.reg.file } }

/-! ## Budgets (R26, R248, Table 2.2) -/

/-- The tokens of a strike, for both buckets of a tenant, at the n-th strike since its share was set (R26, R248). -/
def grantTokens (s : State) (x : Tenant) : Tenant :=
  { x with
    since := x.since + 1
    rd := min x.blk.rdDepth (x.rd + grantOf (x.blk.rdRate * perQ s) 1024 (x.since + 1))
    wr := min x.blk.wrDepth (x.wr + grantOf (x.blk.wrRate * perQ s) 1024 (x.since + 1)) }

/-- A table that gives each Smith the same number. -/
def forSmiths (n : Nat) : Tbl Nat := Tbl.ofList nat0 ((List.range (16 * smithsPer)).map fun m => (m, n))

/-- What the units receive in a strike. -/
def grantBudgets (s : State) : State :=
  let s1 := { s with tb := { s.tb with sinceSet := s.tb.sinceSet + 1 }, cph := { s.cph with sinceSet := s.cph.sinceSet + 1 } }
  let cycles := fclkCycles s1 - 64
  hashGrant { s1 with
    ten := Tbl.mapAll ten0 s1.ten fun _ x => if x.there then grantTokens s1 x else x
    ord := { s1.ord with cycles := forSmiths cycles, slices := forSmiths (cycles / 512) } }

/-! ## Contexts (R54, R59, R105) -/

/-- A slice does not outlive its strike: a context still on a Smith is runnable again. -/
def endSlices (s : State) : State :=
  { s with ord := { s.ord with slots := Tbl.mapAll slot0 s.ord.slots fun _ x =>
    if x.st == .running then { x with st := .runnable, sliceLeft := 0, from_ := s.tb.count } else x } }

/-- Orders that waited for this strike are runnable in it. -/
def wakeByStrike (s : State) : State :=
  s.ord.slots.foldl (fun t e => match e.2.waiting with
    | .strike n => if e.2.st == .suspended && decide (n ≤ t.tb.count) then runnableAt t e.1 t.tb.count else t
    | _ => t) s

/-- A runnable context that is not in the cache is fetched where there is room, and is eligible from the strike after; it
keeps its place among the runnable ones (R54, R59). -/
def fetchContext (s : State) (k : Nat) : State :=
  let x := getSlot s k
  if x.st == .runnable && !x.cached && decide (x.from_ ≤ s.tb.count) then
    let r := cacheRoom (bump s R.SMT_CTX_MISS_MISS) x.hasText
    if r.2 then updSlot r.1 k fun y => { y with cached := true, elig := s.tb.count + 1 } else r.1
  else s
def fetchContexts (s : State) : State := (s.ord.slots.map (·.1)).foldl fetchContext s

/-- Every Smith starts its slices. -/
def startSlices (s : State) : State := (List.range 16).foldl startCluster s

/-! ## Quench (R257, Table 10.6) -/

/-- Bytes that Quench zeroes in the Crucible and the pattern store in a strike, and granules in the DRAM. -/
def quenchBytes : Nat := 524288
def quenchGranules : Nat := 64

/-- Give back what a zeroed buffer held. -/
def returnBuffer (s : State) (id : Nat) (b : Buf) : State :=
  let s1 := setBuf s id none
  if b.staged then s1
  else if b.dram then { s1 with mem := { s1.mem with dramFree := s1.mem.dramFree + b.granules } }
  else b.groups.foldl (fun t e => setGroup t e.1 { getGroup t e.1 with used := (getGroup t e.1).used - e.2 }) s1

/-- What a strike's Quench has left: the state, its two budgets, and the resources that wait on. -/
structure QuenchRun where
  s : State
  bytes : Nat
  granules : Nat
  rest : List (Bool × Nat)
  deriving DecidableEq, Repr

/-- One pattern body: pages of 512 bytes. -/
def quenchBody (r : QuenchRun) (id : Nat) (p : Pattern) : QuenchRun :=
  let need := p.quench.getD 0
  let n := min need (r.bytes / 512)
  if n = need then { r with s := setBody r.s id none, bytes := r.bytes - 512 * n }
  else { r with
    s := setBody r.s id (some { p with quench := some (need - n) }), bytes := r.bytes - 512 * n, rest := r.rest ++ [(true, id)] }

/-- One buffer: granules of 4 KiB. -/
def quenchBuffer (r : QuenchRun) (id : Nat) (b : Buf) : QuenchRun :=
  let need := b.quench.getD 0
  let n := min need (if b.dram then r.granules else r.bytes / 4096)
  let r1 := if b.dram then { r with granules := r.granules - n } else { r with bytes := r.bytes - 4096 * n }
  if n = need then { r1 with s := returnBuffer r1.s id b }
  else { r1 with s := setBuf r1.s id (some { b with quench := some (need - n) }), rest := r1.rest ++ [(false, id)] }

/-- Quench in a strike: in the order in which the resources entered. -/
def quenchStrike (s : State) : State :=
  let r := s.ord.quenchQ.foldl (fun (r : QuenchRun) e =>
    if e.1 then (match getBody r.s e.2 with
      | some p => quenchBody r e.2 p
      | none => r)
    else (match getBuf r.s e.2 with
      | some b => quenchBuffer r e.2 b
      | none => r)) { s := s, bytes := quenchBytes, granules := quenchGranules, rest := [] }
  { r.s with ord := { r.s.ord with quenchQ := r.rest } }

/-! ## Media (R37, R38, R99, R157, R359) -/

/-- The results that a strike posts: reads whose strike it is, and everything complete in it. -/
def endOfStrike (s : State) : State :=
  deliverAll ((s.ord.reqs.map (·.1)).foldl (fun t r => if postDue t r then postRead t r else t) s)

/-- Host bytes that are verified leave the ledger (R359). -/
def pruneLedger (s : State) : State :=
  { s with med := { s.med with ledger := s.med.ledger.filter fun e => match getCourse s e.1 with
    | some c => (List.range (e.2.2 / 16384 + 2)).any fun k =>
        decide ((e.2.1 / 16384 + k) * 16384 < e.2.1 + e.2.2) && pageBuffered s c (e.2.1 / 16384 + k)
    | none => false } }

/-- Dies, channels, parity engines, the device's own reads and what they serve, collections, and the journal in strike n. -/
def mediaStrike (s : State) (e : StrikeEnv) (n : Nat) : State :=
  let s1 := admitAll (ladderStrike (decodeAll s e))
  let s2 := parityStrikes (channelStrikes (dieSteps s1 n) n) n
  pruneContent (pruneLedger (journalStrike (collectStartAll (copyStrikes s2))))

/-! ## The other units -/

/-- Copies, cipher lanes and Assay contexts. -/
def engineStrikes (s : State) : State :=
  let s1 := (s.ord.reqs.map (·.1)).foldl copyStrike s
  ctxStrike ((List.range laneCount).foldl laneStrike (laneRetry s1))

/-- Quench, memories and domains. -/
def serviceStrikes (s : State) : State := toleranceStrike (idleStrike (groupStrikes (dramStrike (quenchStrike s))))

/-! ## The strike -/

/-- The counter moves, and the operations on the dies have run for one strike more. -/
def countStrike (s : State) : State :=
  let s1 := runTimes s
  { s1 with tb := { s1.tb with count := s1.tb.count + 1 } }

/-- A strike in which the device works. -/
def workStrike (s : State) (e : StrikeEnv) : State :=
  let s1 := grantBudgets (changesDue (countStrike (endOfStrike s)))
  let s2 := fetchContexts (wakeByStrike (endSlices s1))
  let s3 := mediaStrike s2 e s2.tb.count
  let s4 := gateStrike (engineStrikes s3)
  startSlices (memberGrant <| creditTopup (reapQps (serviceStrikes s4)))

/-- STRIKE: from strike s1 of the power-loss sequence on, only the flush goes on (Table 15.3). -/
def execStrike (e : StrikeEnv) (s : State) : Answer :=
  stepIf s (!s.tb.stopped && !s.pwr.halted)
    (match s.blw.flush with
     | some f => if f.started then countStrike s else flushStart (countStrike s) f
     | none => workStrike s e)

end Sys2Proof.Machine
end

