-- ==== Sys2Proof/Machine/Dispatch.lean ====
section
/-! DEFINITION. The meaning of every command, one arm per constructor. -/

namespace Sys2Proof.Machine

def exec (i : Instr) (s : State) : Host.Outcome State Fault Refusal :=
  match i with
  | .strike e => Sys2Proof.Machine.execStrike e s
  | .stkPeriodWrite req value => Sys2Proof.Machine.execStkPeriodWrite req value s
  | .periodChangeEffect => Sys2Proof.Machine.execPeriodChangeEffect s
  | .programAged die => Sys2Proof.Machine.execProgramAged die s
  | .senseDone die => Sys2Proof.Machine.execSenseDone die s
  | .suspendDone die ended => Sys2Proof.Machine.execSuspendDone die ended s
  | .ladderStepDone who part ok => Sys2Proof.Machine.execLadderStepDone who part ok s
  | .readResultPosted rid => Sys2Proof.Machine.execReadResultPosted rid s
  | .programDone die => Sys2Proof.Machine.execProgramDone die s
  | .programFail die => Sys2Proof.Machine.execProgramFail die s
  | .eraseDone die => Sys2Proof.Machine.execEraseDone die s
  | .eraseFail die => Sys2Proof.Machine.execEraseFail die s
  | .verifyPass course pos bits => Sys2Proof.Machine.execVerifyPass course pos bits s
  | .verifyFail course pos => Sys2Proof.Machine.execVerifyFail course pos s
  | .unitXorOutDone course pos => Sys2Proof.Machine.execUnitXorOutDone course pos s
  | .rowDataInStart course => Sys2Proof.Machine.execRowDataInStart course s
  | .dieOpTimeout die => Sys2Proof.Machine.execDieOpTimeout die s
  | .lunResetDone die idOk => Sys2Proof.Machine.execLunResetDone die idOk s
  | .channelTrainingDone ch rate => Sys2Proof.Machine.execChannelTrainingDone ch rate s
  | .recentreDone ch narrow => Sys2Proof.Machine.execRecentreDone ch narrow s
  | .slabRelease rel => Sys2Proof.Machine.execSlabRelease rel s
  | .courseFormationResume rid => Sys2Proof.Machine.execCourseFormationResume rid s
  | .zoneActionEffect rid => Sys2Proof.Machine.execZoneActionEffect rid s
  | .migrationCutover course => Sys2Proof.Machine.execMigrationCutover course s
  | .mendCutover course => Sys2Proof.Machine.execMendCutover course s
  | .collectionVictimDone nsid dom => Sys2Proof.Machine.execCollectionVictimDone nsid dom s
  | .mediaInstructionResume rid => Sys2Proof.Machine.execMediaInstructionResume rid s
  | .capsuleReceived qp cap => Sys2Proof.Machine.execCapsuleReceived qp cap s
  | .sqEntryFetch fn sq cmd => Sys2Proof.Machine.execSqEntryFetch fn sq cmd s
  | .orderTextFetched slot r => Sys2Proof.Machine.execOrderTextFetched slot r s
  | .resultArrival rid r => Sys2Proof.Machine.execResultArrival rid r s
  | .completionPosted slot => Sys2Proof.Machine.execCompletionPosted slot s
  | .slotQuenchDone slot => Sys2Proof.Machine.execSlotQuenchDone slot s
  | .add slot f => Sys2Proof.Machine.execAdd slot f s
  | .sub slot f => Sys2Proof.Machine.execSub slot f s
  | .and slot f => Sys2Proof.Machine.execAnd slot f s
  | .or slot f => Sys2Proof.Machine.execOr slot f s
  | .xor slot f => Sys2Proof.Machine.execXor slot f s
  | .shl slot f => Sys2Proof.Machine.execShl slot f s
  | .shr slot f => Sys2Proof.Machine.execShr slot f s
  | .ldi slot f => Sys2Proof.Machine.execLdi slot f s
  | .cmp slot f => Sys2Proof.Machine.execCmp slot f s
  | .sel slot f => Sys2Proof.Machine.execSel slot f s
  | .br slot f => Sys2Proof.Machine.execBr slot f s
  | .bz slot f => Sys2Proof.Machine.execBz slot f s
  | .bnz slot f => Sys2Proof.Machine.execBnz slot f s
  | .callp slot f => Sys2Proof.Machine.execCallp slot f s
  | .endOrder slot f => Sys2Proof.Machine.execEndOrder slot f s
  | .fault slot f => Sys2Proof.Machine.execFault slot f s
  | .yield slot f => Sys2Proof.Machine.execYield slot f s
  | .balloc slot f => Sys2Proof.Machine.execBalloc slot f s
  | .bfree slot f => Sys2Proof.Machine.execBfree slot f s
  | .bfill slot f => Sys2Proof.Machine.execBfill slot f s
  | .bcopy slot f => Sys2Proof.Machine.execBcopy slot f s
  | .bslice slot f => Sys2Proof.Machine.execBslice slot f s
  | .hget slot f => Sys2Proof.Machine.execHget slot f s
  | .hput slot f => Sys2Proof.Machine.execHput slot f s
  | .zread slot f => Sys2Proof.Machine.execZread slot f s
  | .zappend slot f => Sys2Proof.Machine.execZappend slot f s
  | .zwrite slot f => Sys2Proof.Machine.execZwrite slot f s
  | .zoneOpen slot f => Sys2Proof.Machine.execZoneOpen slot f s
  | .zoneClose slot f => Sys2Proof.Machine.execZoneClose slot f s
  | .zoneFinish slot f => Sys2Proof.Machine.execZoneFinish slot f s
  | .zoneReset slot f => Sys2Proof.Machine.execZoneReset slot f s
  | .zoneOffline slot f => Sys2Proof.Machine.execZoneOffline slot f s
  | .zoneSetExtension slot f => Sys2Proof.Machine.execZoneSetExtension slot f s
  | .reportZones slot f => Sys2Proof.Machine.execReportZones slot f s
  | .extendedReportZones slot f => Sys2Proof.Machine.execExtendedReportZones slot f s
  | .cread slot f => Sys2Proof.Machine.execCread slot f s
  | .cwrite slot f => Sys2Proof.Machine.execCwrite slot f s
  | .ctrim slot f => Sys2Proof.Machine.execCtrim slot f s
  | .parchk slot f => Sys2Proof.Machine.execParchk slot f s
  | .seal slot f => Sys2Proof.Machine.execSeal slot f s
  | .openRecord slot f => Sys2Proof.Machine.execOpenRecord slot f s
  | .mac slot f => Sys2Proof.Machine.execMac slot f s
  | .dgfeed slot f => Sys2Proof.Machine.execDgfeed slot f s
  | .dgfin slot f => Sys2Proof.Machine.execDgfin slot f s
  | .dgload slot f => Sys2Proof.Machine.execDgload slot f s
  | .wait slot f => Sys2Proof.Machine.execWait slot f s
  | .fence slot f => Sys2Proof.Machine.execFence slot f s
  | .time slot f => Sys2Proof.Machine.execTime slot f s
  | .plumb slot f => Sys2Proof.Machine.execPlumb slot f s
  | .post slot f => Sys2Proof.Machine.execPost slot f s
  | .note slot f => Sys2Proof.Machine.execNote slot f s
  | .power slot f => Sys2Proof.Machine.execPower slot f s
  | .tenantCreate slot f => Sys2Proof.Machine.execTenantCreate slot f s
  | .tenantModify slot f => Sys2Proof.Machine.execTenantModify slot f s
  | .tenantReset slot f => Sys2Proof.Machine.execTenantReset slot f s
  | .tenantDestroy slot f => Sys2Proof.Machine.execTenantDestroy slot f s
  | .tenantQuery slot f => Sys2Proof.Machine.execTenantQuery slot f s
  | .keyload slot f => Sys2Proof.Machine.execKeyload slot f s
  | .patload slot f => Sys2Proof.Machine.execPatload slot f s
  | .opset slot f => Sys2Proof.Machine.execOpset slot f s
  | .hmread slot f => Sys2Proof.Machine.execHmread slot f s
  | .nvmeFlush slot => Sys2Proof.Machine.execNvmeFlush slot s
  | .nvmeWrite slot => Sys2Proof.Machine.execNvmeWrite slot s
  | .nvmeRead slot => Sys2Proof.Machine.execNvmeRead slot s
  | .nvmeCompare slot => Sys2Proof.Machine.execNvmeCompare slot s
  | .nvmeWriteZeroes slot => Sys2Proof.Machine.execNvmeWriteZeroes slot s
  | .nvmeDatasetManagement slot => Sys2Proof.Machine.execNvmeDatasetManagement slot s
  | .nvmeVerify slot => Sys2Proof.Machine.execNvmeVerify slot s
  | .zoneManagementSend slot => Sys2Proof.Machine.execZoneManagementSend slot s
  | .zoneManagementReceive slot => Sys2Proof.Machine.execZoneManagementReceive slot s
  | .zoneAppend slot => Sys2Proof.Machine.execZoneAppend slot s
  | .executeWorkOrder slot => Sys2Proof.Machine.execExecuteWorkOrder slot s
  | .namespaceCreate slot p => Sys2Proof.Machine.execNamespaceCreate slot p s
  | .namespaceDelete slot => Sys2Proof.Machine.execNamespaceDelete slot s
  | .namespaceAttach slot tenant => Sys2Proof.Machine.execNamespaceAttach slot tenant s
  | .namespaceDetach slot tenant => Sys2Proof.Machine.execNamespaceDetach slot tenant s
  | .managerRequest slot data => Sys2Proof.Machine.execManagerRequest slot data s
  | .managerAnswer slot => Sys2Proof.Machine.execManagerAnswer slot s
  | .getLogPageMailbox slot => Sys2Proof.Machine.execGetLogPageMailbox slot s
  | .getLogPageHallmark slot => Sys2Proof.Machine.execGetLogPageHallmark slot s
  | .createIoSubmissionQueue slot => Sys2Proof.Machine.execCreateIoSubmissionQueue slot s
  | .createIoCompletionQueue slot base => Sys2Proof.Machine.execCreateIoCompletionQueue slot base s
  | .setFeaturesPowerState slot => Sys2Proof.Machine.execSetFeaturesPowerState slot s
  | .getFeaturesPowerState slot => Sys2Proof.Machine.execGetFeaturesPowerState slot s
  | .spGetIdentity slot => Sys2Proof.Machine.execSpGetIdentity slot s
  | .spQuote slot nonce => Sys2Proof.Machine.execSpQuote slot nonce s
  | .spEnrolKeyManager slot key sig => Sys2Proof.Machine.execSpEnrolKeyManager slot key sig s
  | .spKekExport slot r => Sys2Proof.Machine.execSpKekExport slot r s
  | .securityOpDone => Sys2Proof.Machine.execSecurityOpDone s
  | .securityReceive slot => Sys2Proof.Machine.execSecurityReceive slot s
  | .firmwareImageDownload slot piece => Sys2Proof.Machine.execFirmwareImageDownload slot piece s
  | .firmwareCommitWrite slot p => Sys2Proof.Machine.execFirmwareCommitWrite slot p s
  | .firmwareCommitWritePending slot p => Sys2Proof.Machine.execFirmwareCommitWritePending slot p s
  | .firmwareCommitPending slot => Sys2Proof.Machine.execFirmwareCommitPending slot s
  | .firmwareSlotWritten readback => Sys2Proof.Machine.execFirmwareSlotWritten readback s
  | .connect qp c => Sys2Proof.Machine.execConnect qp c s
  | .responseRnrNak slot => Sys2Proof.Machine.execResponseRnrNak slot s
  | .qpTransportError qp => Sys2Proof.Machine.execQpTransportError qp s
  | .qpDisconnect qp => Sys2Proof.Machine.execQpDisconnect qp s
  | .keepAliveExpiry assoc => Sys2Proof.Machine.execKeepAliveExpiry assoc s
  | .ceMarkedPacket qp us => Sys2Proof.Machine.execCeMarkedPacket qp us s
  | .cnpReceived qp => Sys2Proof.Machine.execCnpReceived qp s
  | .rateIncreaseTimer qp => Sys2Proof.Machine.execRateIncreaseTimer qp s
  | .alphaDecayTimer qp => Sys2Proof.Machine.execAlphaDecayTimer qp s
  | .pfcPauseReceived lport prio quanta => Sys2Proof.Machine.execPfcPauseReceived lport prio quanta s
  | .addressResolutionRequest lport target vlan => Sys2Proof.Machine.execAddressResolutionRequest lport target vlan s
  | .icmpEchoRequest lport target vlan payload => Sys2Proof.Machine.execIcmpEchoRequest lport target vlan payload s
  | .foreignFrame lport => Sys2Proof.Machine.execForeignFrame lport s
  | .hostRdmaAccess qp => Sys2Proof.Machine.execHostRdmaAccess qp s
  | .doorbellWrite fn idx value => Sys2Proof.Machine.execDoorbellWrite fn idx value s
  | .controllerEnable fn en sqSize cqSize acq => Sys2Proof.Machine.execControllerEnable fn en sqSize cqSize acq s
  | .functionLevelReset fn => Sys2Proof.Machine.execFunctionLevelReset fn s
  | .pcieReset perst => Sys2Proof.Machine.execPcieReset perst s
  | .deferredFlrEffect tenant => Sys2Proof.Machine.execDeferredFlrEffect tenant s
  | .miHealthStatusPoll => Sys2Proof.Machine.execMiHealthStatusPoll s
  | .miControllerHealthPoll => Sys2Proof.Machine.execMiControllerHealthPoll s
  | .miReadDataStructure dtyp => Sys2Proof.Machine.execMiReadDataStructure dtyp s
  | .miConfigurationGet cfg => Sys2Proof.Machine.execMiConfigurationGet cfg s
  | .miConfigurationSet cfg value w => Sys2Proof.Machine.execMiConfigurationSet cfg value w s
  | .miVpdRead offset len => Sys2Proof.Machine.execMiVpdRead offset len s
  | .miTunnelledAdmin cmd => Sys2Proof.Machine.execMiTunnelledAdmin cmd s
  | .staleResultDiscard rid => Sys2Proof.Machine.execStaleResultDiscard rid s
  | .tenantResetEnd tenant => Sys2Proof.Machine.execTenantResetEnd tenant s
  | .tenantDestroyEnd tenant => Sys2Proof.Machine.execTenantDestroyEnd tenant s
  | .dirtyLogEnable req => Sys2Proof.Machine.execDirtyLogEnable req s
  | .dirtyLogSwap req => Sys2Proof.Machine.execDirtyLogSwap req s
  | .dirtyLogDisable req => Sys2Proof.Machine.execDirtyLogDisable req s
  | .dirtyLogFlushDone tenant => Sys2Proof.Machine.execDirtyLogFlushDone tenant s
  | .laneRequestDone lane => Sys2Proof.Machine.execLaneRequestDone lane s
  | .holdReleaseDone lane pages => Sys2Proof.Machine.execHoldReleaseDone lane pages s
  | .zeroingDone lane pages => Sys2Proof.Machine.execZeroingDone lane pages s
  | .kekEpochWrite req value => Sys2Proof.Machine.execKekEpochWrite req value s
  | .dgAllocRequest req value => Sys2Proof.Machine.execDgAllocRequest req value s
  | .dgFreeWrite req value => Sys2Proof.Machine.execDgFreeWrite req value s
  | .dgInit ctx algo => Sys2Proof.Machine.execDgInit ctx algo s
  | .dgExport ctx algo => Sys2Proof.Machine.execDgExport ctx algo s
  | .dgImport ctx algo => Sys2Proof.Machine.execDgImport ctx algo s
  | .dgDataWrite ctx value => Sys2Proof.Machine.execDgDataWrite ctx value s
  | .dgLastWrite ctx value => Sys2Proof.Machine.execDgLastWrite ctx value s
  | .blockCompressed ctx => Sys2Proof.Machine.execBlockCompressed ctx s
  | .selfRefreshEntry ch => Sys2Proof.Machine.execSelfRefreshEntry ch s
  | .selfRefreshInterrupt ch => Sys2Proof.Machine.execSelfRefreshInterrupt ch s
  | .selfRefreshExitDone ch => Sys2Proof.Machine.execSelfRefreshExitDone ch s
  | .dmGateIdleExpiry ch => Sys2Proof.Machine.execDmGateIdleExpiry ch s
  | .refreshDue ch bank busy => Sys2Proof.Machine.execRefreshDue ch bank busy s
  | .openRowTimeout ch bank => Sys2Proof.Machine.execOpenRowTimeout ch bank s
  | .patrolScrub ch corrected bad => Sys2Proof.Machine.execPatrolScrub ch corrected bad s
  | .crucibleScrub corrected bad => Sys2Proof.Machine.execCrucibleScrub corrected bad s
  | .uncorrectableLine line => Sys2Proof.Machine.execUncorrectableLine line s
  | .crucibleRetentionEntry group => Sys2Proof.Machine.execCrucibleRetentionEntry group s
  | .powerEntryStepDone => Sys2Proof.Machine.execPowerEntryStepDone s
  | .entryDrainLimitExpiry => Sys2Proof.Machine.execEntryDrainLimitExpiry s
  | .pwrWakeNAssert w => Sys2Proof.Machine.execPwrWakeNAssert w s
  | .wakeTimerExpiry w => Sys2Proof.Machine.execWakeTimerExpiry w s
  | .perstWake w => Sys2Proof.Machine.execPerstWake w s
  | .wakePacket lport target len => Sys2Proof.Machine.execWakePacket lport target len s
  | .wakeTlp fn len => Sys2Proof.Machine.execWakeTlp fn len s
  | .domainOnRequest req => Sys2Proof.Machine.execDomainOnRequest req s
  | .domainOffRequest req => Sys2Proof.Machine.execDomainOffRequest req s
  | .domainDrained dom => Sys2Proof.Machine.execDomainDrained dom s
  | .domainDrainLimitExpiry dom => Sys2Proof.Machine.execDomainDrainLimitExpiry dom s
  | .autoGateIdleExpiry dom => Sys2Proof.Machine.execAutoGateIdleExpiry dom s
  | .autoDrainDone dom => Sys2Proof.Machine.execAutoDrainDone dom s
  | .domainWakeDone dom => Sys2Proof.Machine.execDomainWakeDone dom s
  | .avsVoltageReached => Sys2Proof.Machine.execAvsVoltageReached s
  | .pllLocked => Sys2Proof.Machine.execPllLocked s
  | .avsSettleTimeout lastMv => Sys2Proof.Machine.execAvsSettleTimeout lastMv s
  | .bellowsArm => Sys2Proof.Machine.execBellowsArm s
  | .voltageSample vhv vbank => Sys2Proof.Machine.execVoltageSample vhv vbank s
  | .bleedCheckTimer => Sys2Proof.Machine.execBleedCheckTimer s
  | .faultClear => Sys2Proof.Machine.execFaultClear s
  | .chargeTimeout => Sys2Proof.Machine.execChargeTimeout s
  | .capTestRequest => Sys2Proof.Machine.execCapTestRequest s
  | .periodicTestTimer => Sys2Proof.Machine.execPeriodicTestTimer s
  | .capTestBleedStart v1 => Sys2Proof.Machine.execCapTestBleedStart v1 s
  | .capTestBleedEnd v2 us => Sys2Proof.Machine.execCapTestBleedEnd v2 us s
  | .capTestRetryTimer => Sys2Proof.Machine.execCapTestRetryTimer s
  | .supplyLoss => Sys2Proof.Machine.execSupplyLoss s
  | .flushProgramDone => Sys2Proof.Machine.execFlushProgramDone s
  | .bellowsRestart p => Sys2Proof.Machine.execBellowsRestart p s
  | .bankDepleted p => Sys2Proof.Machine.execBankDepleted p s
  | .flushAreaRearm => Sys2Proof.Machine.execFlushAreaRearm s
  | .housekeepingSample input c => Sys2Proof.Machine.execHousekeepingSample input c s
  | .criticalComparatorTrip sensor => Sys2Proof.Machine.execCriticalComparatorTrip sensor s
  | .flushOvertempHalt sensor => Sys2Proof.Machine.execFlushOvertempHalt sensor s
  | .thermalRestartRelease w => Sys2Proof.Machine.execThermalRestartRelease w s
  | .eventArrival e => Sys2Proof.Machine.execEventArrival e s
  | .recordCommitDone => Sys2Proof.Machine.execRecordCommitDone s
  | .repeatRewriteDone => Sys2Proof.Machine.execRepeatRewriteDone s
  | .commitReadbackFail => Sys2Proof.Machine.execCommitReadbackFail s
  | .hmRdSeqWrite req value => Sys2Proof.Machine.execHmRdSeqWrite req value s
  | .opMsPersistTimer elapsedMs => Sys2Proof.Machine.execOpMsPersistTimer elapsedMs s
  | .flitCrcFail port => Sys2Proof.Machine.execFlitCrcFail port s
  | .linkElectricalIdle port => Sys2Proof.Machine.execLinkElectricalIdle port s
  | .linkTrainingDone port r => Sys2Proof.Machine.execLinkTrainingDone port r s
  | .formMessage size skip strike => Sys2Proof.Machine.execFormMessage size skip strike s
  | .formationTimeout => Sys2Proof.Machine.execFormationTimeout s
  | .routeTablesInForce far => Sys2Proof.Machine.execRouteTablesInForce far s
  | .endToEndAckTimeout pkt => Sys2Proof.Machine.execEndToEndAckTimeout pkt s
  | .downNotice member => Sys2Proof.Machine.execDownNotice member s
  | .strikeMarker m => Sys2Proof.Machine.execStrikeMarker m s
  | .markerHoldover => Sys2Proof.Machine.execMarkerHoldover s
  | .commandForward slot => Sys2Proof.Machine.execCommandForward slot s
  | .memberHostTransfer t => Sys2Proof.Machine.execMemberHostTransfer t s
  | .wallWakePulse w => Sys2Proof.Machine.execWallWakePulse w s
  | .wallResetMessage p => Sys2Proof.Machine.execWallResetMessage p s
  | .porstNReset p => Sys2Proof.Machine.execPorstNReset p s
  | .sysRstNReset p => Sys2Proof.Machine.execSysRstNReset p s
  | .nvmSubsystemReset p value => Sys2Proof.Machine.execNvmSubsystemReset p value s
  | .softwareReset req value p => Sys2Proof.Machine.execSoftwareReset req value p s
  | .bootWatchdogExpiry p => Sys2Proof.Machine.execBootWatchdogExpiry p s
  | .bootStageDone b => Sys2Proof.Machine.execBootStageDone b s
  | .bootLockWrite req value => Sys2Proof.Machine.execBootLockWrite req value s
  | .execEnWrite req value => Sys2Proof.Machine.execExecEnWrite req value s
  | .railFault rail mv => Sys2Proof.Machine.execRailFault rail mv s
  | .aonUndervoltage p => Sys2Proof.Machine.execAonUndervoltage p s
  | .refclkStop => Sys2Proof.Machine.execRefclkStop s
  | .bayMaskWrite req value => Sys2Proof.Machine.execBayMaskWrite req value s
  | .ipEntryCommit req value => Sys2Proof.Machine.execIpEntryCommit req value s
  | .eventForceWrite req value => Sys2Proof.Machine.execEventForceWrite req value s
  | .eventStatusClear req k value => Sys2Proof.Machine.execEventStatusClear req k value s
  | .eventEnableWrite req k value => Sys2Proof.Machine.execEventEnableWrite req k value s
  | .regPairLoRead req addr size => Sys2Proof.Machine.execRegPairLoRead req addr size s
  | .regPairHiRead req addr size => Sys2Proof.Machine.execRegPairHiRead req addr size s
  | .regPairLoWrite req addr value => Sys2Proof.Machine.execRegPairLoWrite req addr value s
  | .regPairHiWrite req addr value => Sys2Proof.Machine.execRegPairHiWrite req addr value s
  | .rcRegisterRead req addr size => Sys2Proof.Machine.execRcRegisterRead req addr size s
  | .registerWrite req addr size value => Sys2Proof.Machine.execRegisterWrite req addr size value s
  | .keepAlive qp => Sys2Proof.Machine.execKeepAlive qp s
  | .connectionRequest lport => Sys2Proof.Machine.execConnectionRequest lport s
  | .ackTimeout qp => Sys2Proof.Machine.execAckTimeout qp s
  | .ethernetLinkChange lport up => Sys2Proof.Machine.execEthernetLinkChange lport up s
  | .pcieLinkUp speed width flit => Sys2Proof.Machine.execPcieLinkUp speed width flit s
  | .deleteIoQueue slot => Sys2Proof.Machine.execDeleteIoQueue slot s
  | .forwardedCommandReceived fwd => Sys2Proof.Machine.execForwardedCommandReceived fwd s
  | .memberCompletionReceived slot c => Sys2Proof.Machine.execMemberCompletionReceived slot c s
  | .memberPowerCommand target abandon => Sys2Proof.Machine.execMemberPowerCommand target abandon s
  | .memberTenantRecord r => Sys2Proof.Machine.execMemberTenantRecord r s
  | .endpointIdAssignment eid => Sys2Proof.Machine.execEndpointIdAssignment eid s

end Sys2Proof.Machine
end

