-- ==== Sys2Proof/Machine/Package.lean ====
section
/-! DEFINITION. The package: pin groups (R447), ball rows (Scope and Conventions), the balls of the flash channels and of the
control region (R448 to R451), the rails and clock inputs with their limits (R435 to R437, R445), and the thermal figures
(R452). Nothing here changes as the device runs. -/

namespace Sys2Proof.Machine

/-! ## Balls -/

/-- Letters of ball rows: the alphabet without I, O, Q, R, S, X and Z. -/
def rowLetters : List Char := "ABCDEFGHJKLMNPTUVWY".toList

/-- The name of a row by its index, from A = 1 to CN = 70 (R448). -/
def rowName (i : Nat) : String :=
  let letter := fun (k : Nat) => rowLetters.getD k 'A'
  let k := i - 1
  if k < 19 then String.ofList [letter k] else String.ofList [letter (k / 19 - 1), letter (k % 19)]

/-- A ball: row index and column. -/
structure Ball where
  row : Nat
  col : Nat
  deriving DecidableEq, Repr

/-- Its name. -/
def Ball.name (b : Ball) : String := rowName b.row ++ toString b.col

/-- The pin groups and their balls (Table 21.8). -/
def pinGroups : List (String × Nat) :=
  [("Flash channels", 1536), ("Flash pad bank references", 16), ("DDR5", 656), ("Ethernet", 46), ("PCIe", 37),
   ("Course links", 64), ("Bellows", 6), ("Housekeeping", 41), ("Boot flash", 22), ("Clock, reset, straps, wake", 29),
   ("SMBus, AVSBus, test access", 11), ("Power", 932), ("Ground", 1316)]

/-- The regions of Table 21.9, by row and column. -/
inductive BallRegion where
  | dram (low : Nat) | flashWest | core | flashEast | portsWest | control | portsEast
  deriving DecidableEq, Repr

def ballRegion (b : Ball) : BallRegion :=
  if b.row ≤ 9 then .dram (if b.col ≤ 35 then 0 else 1)
  else if b.row ≤ 49 then (if b.col ≤ 22 then .flashWest else if b.col ≤ 48 then .core else .flashEast)
  else if b.row ≤ 57 then (if b.col ≤ 22 then .portsWest else if b.col ≤ 48 then .control else .portsEast)
  else .dram (if b.col ≤ 35 then 2 else 3)

/-- The positions of a channel's signals in its block, row by row (Table 21.10). -/
def channelBlock : List (List String) :=
  [["CE_N[0]", "CE_N[1]", "CE_N[2]", "CE_N[3]", "WP_N"], ["CE_N[4]", "CE_N[5]", "CE_N[6]", "CE_N[7]", "CLE"],
   ["ALE", "WE_N", "RE_T", "RE_C", "VSS"], ["DQ[0]", "DQ[1]", "DQ[2]", "DQ[3]", "DQS_T"],
   ["DQ[4]", "DQ[5]", "DQ[6]", "DQ[7]", "DQS_C"]]

/-- The first ball of a channel's block (R449). -/
def channelBase (c : Nat) : Ball :=
  let k := c % 32
  { row := 10 + 5 * (k / 4), col := (if c < 32 then 1 else 51) + 5 * (k % 4) }

/-- The ball of a signal of a channel. -/
def channelBall (c : Nat) (signal : String) : Option Ball :=
  let b := channelBase c
  channelBlock.zipIdx.findSome? fun r => (r.1.findIdx? (· == signal)).map fun j => { row := b.row + r.2, col := b.col + j }

/-- The reference ball of a flash pad bank (R449). -/
def padBankZq (n : Nat) : Ball := { row := 14 + 5 * (n % 8), col := if n < 8 then 21 else 50 }

/-- A run of numbered signals. -/
def numbered (before : String) (n : Nat) (after : String) : List String :=
  (List.range n).map fun i => before ++ toString i ++ after

/-- The remote diode pairs from one number on. -/
def diodes (from_ n : Nat) : List String := (List.range n).flatMap fun i =>
  ["TD" ++ toString (from_ + i) ++ "_P", "TD" ++ toString (from_ + i) ++ "_N"]

/-- The rows of the control region from column 23 on, by row index (Table 21.11). -/
def controlRow (row : Nat) : List String :=
  match row with
  | 50 => ["REFCLK_P", "REFCLK_N", "VSS", "PORST_N", "SYS_RST_N", "CFG_MODE[0]", "CFG_MODE[1]"] ++ numbered "MEMBER_ID[" 6 "]"
      ++ ["PWR_WAKE_N", "BOOT_FAULT_N", "SMB_CLK", "SMB_DAT", "SMB_ALERT_N", "AVS_CLK", "AVS_MDATA", "AVS_SDATA", "TCK", "TMS",
          "TDI", "TDO", "TRST_N"]
  | 51 => numbered "PWR_EN[" 16 "]" ++ ["BOOT_SCK", "BOOT_CS_N", "BOOT_RST_N", "BOOT_DS[0]", "BOOT_DS[1]"]
      ++ List.replicate 5 "VDD_IO"
  | 52 => numbered "BOOT_DQ[" 16 "]" ++ ["CHG_EN", "CHGFET_EN", "BANKSW_EN", "BLEED_EN"] ++ List.replicate 6 "VSS"
  | 53 => diodes 0 13
  | 54 => diodes 13 3 ++ numbered "TH" 8 "" ++ ["HKP_VREF"] ++ List.replicate 11 "VSS"
  | _ => []

/-- The ball of a signal of the control region; the two sense inputs stand alone (R450). -/
def controlBall (signal : String) : Option Ball :=
  if signal = "VHV" then some { row := 56, col := 40 }
  else if signal = "VBANK" then some { row := 56, col := 46 }
  else [50, 51, 52, 53, 54].findSome? fun r => ((controlRow r).findIdx? (· == signal)).map fun j => { row := r, col := 23 + j }

/-- Whether a position is left unpopulated around VHV and VBANK (R451). -/
def keepOut (b : Ball) : Bool :=
  decide (55 ≤ b.row ∧ b.row ≤ 57) && ((decide (39 ≤ b.col ∧ b.col ≤ 41)) || decide (45 ≤ b.col ∧ b.col ≤ 47))
    && !(b.row == 56 && (b.col == 40 || b.col == 46))

/-! ## Limits -/

/-- A rail: nominal voltage, absolute maximum, and greatest current, in mV and mA (Tables 21.1 and 21.2); VDD_CORE follows
the operating point, and is given at OP2. -/
structure RailLimit where
  name : String
  mv : Nat
  maxMv : Nat
  maxMa : Nat
  deriving DecidableEq, Repr

def railLimits : List RailLimit :=
  [{ name := "VDD_CORE", mv := 650, maxMv := 1000, maxMa := 15000 }, { name := "VDD_SRAM", mv := 750, maxMv := 900, maxMa := 36000 },
   { name := "VDD_AON", mv := 750, maxMv := 900, maxMa := 600 }, { name := "VDDQ_DDR", mv := 1100, maxMv := 1400, maxMa := 3500 },
   { name := "VCCQ_NAND", mv := 1200, maxMv := 1500, maxMa := 7000 }, { name := "VDD_SER", mv := 750, maxMv := 900, maxMa := 7000 },
   { name := "VDDH_SER", mv := 1200, maxMv := 1500, maxMa := 2000 }, { name := "VDD_IO", mv := 1800, maxMv := 2200, maxMa := 200 }]

/-- The bounds of a rail at its total tolerance of 5 % (R436), rounded into it. -/
def RailLimit.low (r : RailLimit) : Nat := (r.mv * 95 + 99) / 100
def RailLimit.high (r : RailLimit) : Nat := r.mv * 105 / 100

/-- The highest junction temperature of rated operation, and the case limits of the grades, in °C (R437). -/
def junctionMax : Nat := 115
def caseMax (xa : Bool) : Int := if xa then 105 else 85
def caseMin (xa : Bool) : Int := if xa then -40 else 0

/-- The hottest junction, in hundredths of a degree, for a case temperature in °C and a power in W (R452: 0.06 K/W). -/
def junctionAt (caseC power : Nat) : Nat := 100 * caseC + 6 * power

end Sys2Proof.Machine
end

