-- ==== Sys2Proof/Machine/Pins.lean ====
section
/-! DEFINITION. What the device's pads do in each configuration (R204, R205, R234, R341, R348, R406, R412, R416), and its
clock domains (R346).

The levels of pads and clocks follow from the state: they are functions of it. -/

namespace Sys2Proof.Machine

/-! ## Pads -/

/-- What a pad does: it is driven high or low, it is an input, an open-drain output that is released, high impedance with
or without a weak keeper, electrical idle, clamped, float; a pair with its termination off; a pad that is never powered; and a pad
in use by its interface. -/
inductive PadLevel where
  | high | low | input | released | highZ | keeper | idle | clamped | float | termOff | unpowered | active
  deriving DecidableEq, Repr

/-- The signals of a flash channel (Table 8.3). -/
inductive FlashSignal where
  | ceN | wpN | weN | cle | ale | reT | reC | dqs | dq
  deriving DecidableEq, Repr

/-- The pads whose levels the configurations of R2 settle (Tables 8.5, 9.5, 15.1 and 18.3; R416). -/
inductive Pad where
  | flash (ch : Fin 64) (sig : FlashSignal)
  | pwrEn (bank : Fin 16)
  | epTx (ep : Fin 2)
  | epRx (ep : Fin 2)
  | peTx
  | peRx
  | perstN
  | clkreqN
  | wakeN
  | smb
  | ckTx (p : Fin 4)
  | ckRx (p : Fin 4)
  | pwrWakeN
  | chgEn
  | chgFetEn
  | bankSwEn
  | bleedEn
  | bootCsN
  | bootSck
  | bootDq
  | bootRstN
  | bootFaultN
  | ddr (ch : Fin 4)
  deriving DecidableEq, Repr

/-- Whether a switched domain has no power: ordered or gated off, or the device in EMBER or COLD, or halted after a
power-loss sequence (R327, R337, R360). -/
def unpowered (s : State) (d : Nat) : Bool :=
  domOff s d || s.pwr.st == .ember || s.pwr.st == .cold || s.pwr.halted

/-- Whether the pads of a flash channel stand as with its domain off: it is off, or media bring-up has not come to it
since the reset (R204, R412). -/
def flashOff (s : State) (c : Nat) : Bool := unpowered s (fcDom c) || (getChan s c).st == .off

/-- The domains of EP0, EP1 and PE, and of the Course links (R337). -/
def epDom (ep : Nat) : Nat := 129 + ep
def peDom : Nat := 132
def ckDom (p : Nat) : Nat := 133 + p

/-- Whether the pads of an Ethernet port stand as with its domain off (R234). -/
def epOff (s : State) (ep : Nat) : Bool := unpowered s (epDom ep) || !portEnabled s ep

/-- The same of the PCIe endpoint, which the firmware enables at stage 5 (Table 19.4). -/
def peOff (s : State) : Bool := unpowered s peDom || decide (s.boot.stage < 5) || s.boot.stage == 15

/-- A flash pad with its channel off (Table 8.5). -/
def flashIdle (single : Bool) (sig : FlashSignal) : PadLevel :=
  if single then match sig with
    | .ceN | .weN | .reT => .high
    | .wpN | .cle | .ale | .reC => .low
    | .dqs | .dq => .keeper
  else .float

/-- A pad of one of the three configurations of a host port with its domain off (Table 9.5). -/
def portIdle (s : State) (single : PadLevel) : PadLevel :=
  if isMember s then .unpowered else if isHead s then .float else single

/-- What a pad does. -/
def padLevel (s : State) (p : Pad) : PadLevel :=
  let single := s.boot.cfgMode == 0
  let halted := s.boot.stage == 15
  match p with
  | .flash c sig =>
    if flashOff s c.val then flashIdle single sig
    else if sig = .wpN then
      (if (getChan s c.val).wpHigh && shownChannel s c.val == .ready then .high else .low)
    else .active
  | .pwrEn k => if s.pwr.padEn.getLsbD k.val then .high else .low
  | .epTx n => if isMember s || epOff s n.val then portIdle s .idle else .active
  | .epRx n => if isMember s || epOff s n.val then portIdle s .termOff else .active
  | .peTx => if isMember s || peOff s then portIdle s .idle else .active
  | .peRx => if isMember s || peOff s then portIdle s .termOff else .active
  | .perstN => if isMember s then .low else if isHead s && peOff s then .float else .input
  | .clkreqN => if isMember s || peOff s then portIdle s .highZ else .active
  | .wakeN => if isMember s || peOff s then portIdle s .highZ else .active
  | .smb => .active
  | .ckTx q =>
    if single then .unpowered
    else if unpowered s (ckDom q.val) then .float
    else if (getCk s q.val).st == .up then .active
    else .idle
  | .ckRx q => if single then .unpowered else if unpowered s (ckDom q.val) then .float else .active
  | .pwrWakeN => if single then .input else .released
  | .chgEn => if s.blw.chgEn then .high else .low
  | .chgFetEn => if s.blw.chgFet then .high else .low
  | .bankSwEn => if s.blw.bankSw then .high else .low
  | .bleedEn => if s.blw.bleedEn then .high else .low
  | .bootCsN | .bootSck | .bootDq => if halted then .highZ else .active
  | .bootRstN => .high
  | .bootFaultN => if halted then .low else .released
  | .ddr c => if unpowered s (dmDom c.val) then .clamped else .active

/-! ## Clocks (R346, Table 14.8) -/

/-- The clock domains. -/
inductive Clock where
  | aon | stk | core | sc (c : Fin 16) | mgmt | sec | engine | crucible | flash (bank : Fin 16) | dram (ch : Fin 4)
  | ep (n : Fin 2) | rt | pe | ck (p : Fin 4) | d2d
  deriving DecidableEq, Repr

/-- All of them. -/
def allClocks : List Clock :=
  [.aon, .stk, .core, .mgmt, .sec, .engine, .crucible, .rt, .pe, .d2d] ++ (List.finRange 16).map .sc
    ++ (List.finRange 16).map .flash ++ (List.finRange 4).map .dram ++ (List.finRange 2).map .ep ++ (List.finRange 4).map .ck

/-- The switched domains that a clock serves. The die-to-die interfaces serve every domain (DEDUCED, log entry 69). -/
def Clock.serves : Clock → List Nat
  | .aon | .stk => []
  | .core => [2]
  | .sc c => [scDom c.val]
  | .mgmt => [0]
  | .sec => [1]
  | .engine => (List.range 24).map clDom ++ (List.range 8).map asDom ++ (List.range 8).map pxDom ++ (List.range 2).map ldDom
  | .crucible => (List.range 32).map sbDom
  | .flash k => (List.range 4).map fun i => fcDom (4 * k.val + i)
  | .dram c => [dmDom c.val]
  | .ep n => [epDom n.val]
  | .rt => [131]
  | .pe => [peDom]
  | .ck p => [ckDom p.val]
  | .d2d => List.range domCount

/-- Whether a clock runs: it stops when every domain that it serves is off, and in BANKED. AONCLK never stops, because the
wake timer and housekeeping run in every state; STKCLK runs while strikes fire (DEDUCED, log entry 69). -/
def clockRuns (s : State) (c : Clock) : Bool :=
  match c with
  | .aon => true
  | .stk => !s.tb.stopped
  | _ => s.pwr.st != .banked && c.serves.any fun d => !unpowered s d

/-- The clock of a pad bank in MHz: by the highest rate of its channels (Table 8.2; DEDUCED, log entry 69). -/
def bankMhz (s : State) (k : Nat) : Nat :=
  match ((List.range 4).map fun i => (getChan s (4 * k + i)).rate).min? with
  | some 0 => 1800
  | some 1 => 1200
  | _ => 800

/-- The frequency of a clock that runs, in MHz. -/
def clockMhz (s : State) (c : Clock) : Nat :=
  match c with
  | .aon => 25
  | .stk => 100
  | .core | .sc _ | .mgmt => fclkMhz s.pwr.cur
  | .sec => 400
  | .engine | .crucible | .rt | .pe => 1000
  | .flash k => bankMhz s k.val
  | .dram _ | .ep _ => 1600
  | .ck _ => 1750
  | .d2d => 2000

end Sys2Proof.Machine
end

