-- ==== Sys2Proof/Safety.lean ====
section
/-! DEFINITION. The terms in which statements about the device are made: when an instruction word has its own effect and
which state follows, and the properties that every step keeps. -/

namespace Sys2Proof.Machine

/-! ## An instruction word with its own effect (R61, R65, R84, R88) -/

/-- No limit of R65 stops the word, and its unused places are 0 (R84). -/
def wordRuns (s : State) (k : Nat) (wellUsed : Bool) : Bool := !overLimit s k && wellUsed

/-- The state after a word: it is counted and passed, it does what it does, and the end of the text or of the slice
follows. -/
def wordDone (s : State) (k cost : Nat) (body : State → W16 → State) : State :=
  afterWord (body (countWord s k cost) (getSlot s k).position) k

/-- What an arithmetic word writes (Table 4.4): its result to v[a], and Z, C and N; F stays. -/
def aluWrites (t : State) (k : Nat) (f : Fields) (r : Slot → W64) (c : Slot → Bool) : State :=
  updSlot t k fun x => { x.setVal f.a (r x) with flags := { z := r x == 0, c := c x, n := (r x).msb, f := x.flags.f } }

/-- A word that waits for tickets has nothing to wait for, and none of them holds a failure (R62, R88, R89). -/
def waitRuns (s : State) (k : Nat) (wellUsed : Bool) (mask : BitVec 4) : Bool :=
  wordRuns s k wellUsed && !outIn (getSlot s k) mask && (failedIn (getSlot s k) mask).isNone

/-- An asynchronous word is issued: it meets no limit, no clash and no lack of a ticket, and the checks at issue pass. -/
def asyncRuns (s : State) (k : Nat) (f : Fields) (o : AsyncOp) : Bool :=
  wordRuns s k o.wellUsed && hazards s (getSlot s k) o.reads o.writes o.ctx == 0
    && (!f.m 3 || (freeTicket (getSlot s k)).isSome) && o.check (countWord s k 8) == St.ok

/-- The state after an asynchronous word that is issued: the word is counted, and its request is sent, detached with
mod[3]. -/
def asyncDone (s : State) (k op : Nat) (f : Fields) (o : AsyncOp) : State :=
  let t := countWord s k 8
  afterWord (sendReq t k op f o (getSlot s k).position (if f.m 3 then freeTicket (getSlot t k) else none)) k

/-! ## A stage of a device pattern with its own effect (R73 to R75) -/

/-- The word that a stage issues meets no limit, no clash and no lack of a ticket, and its checks at issue pass. -/
def stdWordRuns (k : Nat) (w : StdWord) : Bool := asyncRuns (nextStage w.at_ k) k w.f w.work

/-- The state after a stage that issues a word: the pattern stands in its next stage, and the word's request is sent. -/
def stdWordDone (k : Nat) (w : StdWord) : State := asyncDone (nextStage w.at_ k) k w.op w.f w.work

/-- A pattern starts: the media checks of its whole range pass, data is described to its exact length, and the reference
tag of protection information that is checked or generated starts at the command's LBA. -/
def patternStarts (s : State) (k : Nat) (zoned data writes : Bool) (bytes : Nat) : Bool :=
  let x := getSlot s k
  mediaCheck s x.tenant (stdNsid x) (stdLba x) (stdBlocks x * stdSize s x) zoned false == St.ok
    && !(data && badLength x bytes) && piStarts s x writes

/-! ## Properties that every step keeps -/

/-- The register file and the words in force are canonical tables. -/
def registersCanonical (s : State) : Bool := Tbl.wf resetWord s.reg.file && Tbl.wf resetWord s.reg.inForce

/-- The Hallmark FIFO holds at most 64 entries (R382). -/
def fifoBounded (s : State) : Bool := decide (s.hm.fifo.length ≤ 64)

end Sys2Proof.Machine
end

