-- ==== Sys2Proof/Certificates/Slice0/Obligations.lean ====
section
/-! DEFINITION. The statements about the device, one per obligation of OBLIGATIONS.json: what each command does where it
completes, what it leaves unchanged, and what every step keeps. -/

open Sys2Proof Sys2Proof.Machine

/-- A step runs the command at the front of the queue; with an empty queue the block idles. Rests on
95_what_each_step_holds.md, 00_scope.md. -/
def Obligations.StepRunsFrontCommand : Prop :=
  (∀ (c : Instr) (rest : List Instr) (s : State),
    step { s with pending := c :: rest } = exec c { s with pending := rest }) ∧
  ∀ s : State, s.pending = [] → step s = .next s

/-- No command is refused and none stops: each answers a next state in every state (log entry 7). Rests on
95_what_each_step_holds.md. -/
def Obligations.CommandsAlwaysAnswerNextState : Prop :=
  ∀ (c : Instr) (s : State),
    ∃ t, exec c s = .next t

/-- At reset every register cell reads its reset word, the strike period is 1 µs, slots are free and only MF exists.
Rests on R22, R240, 20_registers.md, 02_strike.md. -/
def Obligations.ResetStateHoldsResetValues : Prop :=
  State.reset.pending = [] ∧ (∀ key, regWord State.reset key = resetWord key) ∧
  State.reset.tb.perActive = 4 ∧ State.reset.tb.count = 0 ∧
  (∀ k, (getSlot State.reset k).st = .free) ∧ (getTen State.reset 0).st = .active ∧
  (∀ t, t ≠ 0 → (getTen State.reset t).st = .none) ∧
  (∀ r, getReq State.reset r = none) ∧ (∀ b, getBuf State.reset b = none) ∧ (∀ n, getNs State.reset n = none) ∧
  (∀ c, getCourse State.reset c = none) ∧ State.reset.med.roLatch = false ∧
  registersCanonical State.reset = true ∧ fifoBounded State.reset = true

/-- ADD, SUB, AND, OR, XOR, SHL and SHR write v[a] and the flags Z, C and N, and leave F. Rests on
04_clapex_reference.md, R90, R81. -/
def Obligations.ArithmeticWordsWriteResultAndFlags : Prop :=
  ∀ (slot : Nat) (f : Fields) (s : State),
    (atWord s slot 0x00 f → wordRuns s slot (aluUnused f false) →
      exec (.add slot f) s = .next (wordDone s slot 2 fun t _ => aluWrites t slot f
        (fun x => x.val f.b + operandS x f) (fun x => decide (2 ^ 64 ≤ (x.val f.b).toNat + (operandS x f).toNat)))) ∧
    (atWord s slot 0x01 f → wordRuns s slot (aluUnused f false) →
      exec (.sub slot f) s = .next (wordDone s slot 2 fun t _ => aluWrites t slot f
        (fun x => x.val f.b - operandS x f) (fun x => decide ((x.val f.b).toNat < (operandS x f).toNat)))) ∧
    (atWord s slot 0x02 f → wordRuns s slot (aluUnused f false) →
      exec (.and slot f) s = .next (wordDone s slot 2 fun t _ => aluWrites t slot f
        (fun x => x.val f.b &&& operandS x f) (fun _ => false))) ∧
    (atWord s slot 0x03 f → wordRuns s slot (aluUnused f false) →
      exec (.or slot f) s = .next (wordDone s slot 2 fun t _ => aluWrites t slot f
        (fun x => x.val f.b ||| operandS x f) (fun _ => false))) ∧
    (atWord s slot 0x04 f → wordRuns s slot (aluUnused f false) →
      exec (.xor slot f) s = .next (wordDone s slot 2 fun t _ => aluWrites t slot f
        (fun x => x.val f.b ^^^ operandS x f) (fun _ => false))) ∧
    (atWord s slot 0x05 f → wordRuns s slot (aluUnused f false) →
      exec (.shl slot f) s = .next (wordDone s slot 2 fun t _ => aluWrites t slot f
        (fun x => x.val f.b <<< ((operandS x f).toNat % 64)) (fun x => (operandS x f).toNat % 64 != 0 && (x.val f.b).getLsbD (64 - (operandS x f).toNat % 64)))) ∧
    (atWord s slot 0x06 f → wordRuns s slot (aluUnused f true) →
      exec (.shr slot f) s = .next (wordDone s slot 2 fun t _ => aluWrites t slot f
        (fun x => if f.m 2 then (x.val f.b).sshiftRight ((operandS x f).toNat % 64) else x.val f.b >>> ((operandS x f).toNat % 64)) (fun x => (operandS x f).toNat % 64 != 0 && (x.val f.b).getLsbD ((operandS x f).toNat % 64 - 1))))

/-- LDI, CMP, SEL and TIME write what Tables 4.4 and 4.11 give. Rests on 04_clapex_reference.md, R90, R105. -/
def Obligations.LoadCompareSelectTimeWords : Prop :=
  ∀ (slot : Nat) (f : Fields) (s : State),
    (atWord s slot 0x07 f → wordRuns s slot (ldiUnused f) →
      exec (.ldi slot f) s = .next (wordDone s slot 1 fun t _ => updSlot t slot fun x => x.setVal f.a
        (if f.mod = 0 then f.imm.zeroExtend 64 else if f.mod = 1 then f.imm.signExtend 64
         else BitVec.ofNat 64 ((x.val f.a).toNat % 2 ^ 40 + f.i 23 0 * 2 ^ 40)))) ∧
    (atWord s slot 0x08 f → wordRuns s slot (aluUnused f false && f.a == 0) →
      exec (.cmp slot f) s = .next (wordDone s slot 2 fun t _ => updSlot t slot fun x => { x with flags :=
        { z := x.val f.b == operandS x f, c := decide ((x.val f.b).toNat < (operandS x f).toNat),
          n := decide ((x.val f.b).toInt < (operandS x f).toInt), f := x.flags.f } })) ∧
    (atWord s slot 0x09 f → wordRuns s slot (unusedZero f true true true 3 0) →
      exec (.sel slot f) s = .next (wordDone s slot 2 fun t _ => updSlot t slot fun x => x.setVal f.a
        (if [x.flags.z, x.flags.c, x.flags.n, x.flags.f].getD (f.mod.toNat % 4) false then x.val f.b else x.val f.c))) ∧
    (atWord s slot 0x82 f → wordRuns s slot (unusedZero f true false false 3 0 && f.mod != 3) →
      exec (.time slot f) s = .next (wordDone s slot 2 fun t _ => updSlot t slot fun x => x.setVal f.a
        (if f.mod.toNat % 4 = 0 then BitVec.ofNat 64 s.tb.count
         else if f.mod.toNat % 4 = 1 then BitVec.ofNat 64 (getSlot s slot).arrival
         else BitVec.ofNat 64 (getSlot s slot).executed)))

/-- BR, BZ and BNZ jump to their target, and CALLP enters a pattern with the return place on the stack. Rests on
04_clapex_reference.md, R91, R64. -/
def Obligations.BranchAndCallWords : Prop :=
  (∀ (slot : Nat) (f : Fields) (s : State),
    (atWord s slot 0x20 f →
      wordRuns s slot (if f.m 0 then unusedZero f true false false 1 0 else unusedZero f false false false 1 10) →
      exec (.br slot f) s = .next (wordDone s slot 4 fun t pos => jump t slot
        (if f.m 0 then ((getSlot t slot).val f.a).toNat % 1024 else f.i 9 0) pos)) ∧
    (atWord s slot 0x21 f → wordRuns s slot (branchUnused f) → branchZero s slot f →
      exec (.bz slot f) s = .next (wordDone s slot 4 fun t pos => jump t slot (f.i 9 0) pos)) ∧
    (atWord s slot 0x21 f → wordRuns s slot (branchUnused f) → branchZero s slot f = false →
      exec (.bz slot f) s = .next (wordDone s slot 2 fun t _ => t)) ∧
    (atWord s slot 0x22 f → wordRuns s slot (branchUnused f) → branchZero s slot f = false →
      exec (.bnz slot f) s = .next (wordDone s slot 4 fun t pos => jump t slot (f.i 9 0) pos)) ∧
    (atWord s slot 0x22 f → wordRuns s slot (branchUnused f) → branchZero s slot f →
      exec (.bnz slot f) s = .next (wordDone s slot 2 fun t _ => t)) ∧
    (atWord s slot 0x23 f → wordRuns s slot (unusedZero f false false false 0 10) →
      (getSlot s slot).stack.length < 4 → callable s (getSlot s slot).tenant (f.i 9 0) →
      exec (.callp slot f) s = .next (wordDone s slot 8 fun t _ => updSlot t slot fun y =>
        { y with stack := y.pc :: y.stack, pc := patStart t (getSlot s slot).tenant (f.i 9 0), stage := 0 }))) ∧
  (∀ (s : State) (k target : Nat) (pos : W16) (ws : List W64), codeAt s (getSlot s k) = some ws →
    (target < ws.length → jump s k target pos = updSlot s k fun x => { x with pc := { x.pc with word := target } }) ∧
    (ws.length ≤ target → jump s k target pos = orderFault s k St.illegalOp pos))

/-- END, POST, FAULT, YIELD, WAIT and FENCE do what Tables 4.5, 4.11 and R106 give. Rests on 04_clapex_reference.md,
R91, R105, R106, R62, R63. -/
def Obligations.EndingAndWaitingWords : Prop :=
  ∀ (slot : Nat) (f : Fields) (s : State),
    (atWord s slot 0x24 f → endReturns (getSlot s slot) → wordRuns s slot (unusedZero f false false false 0 0) →
      exec (.endOrder slot f) s = .next (wordDone s slot 4 fun t _ => returnCall t slot)) ∧
    (atWord s slot 0x24 f → endReturns (getSlot s slot) = false → waitRuns s slot (unusedZero f false false false 0 0) 15 →
      exec (.endOrder slot f) s = .next (wordDone s slot 4 fun t _ => finishOrder t slot 0x0000)) ∧
    (atWord s slot 0x90 f →
      waitRuns s slot (if f.m 0 then unusedZero f true false false 1 0 else unusedZero f false false false 1 16) 15 →
      exec (.post slot f) s = .next (wordDone s slot 2 fun t _ => finishOrder t slot
        (if (statusOperand (getSlot s slot) f).toNat / 4096 = 15 then 0x6001 else statusOperand (getSlot s slot) f))) ∧
    (atWord s slot 0x25 f →
      wordRuns s slot (if f.m 0 then unusedZero f true false false 1 0 else unusedZero f false false false 1 16) →
      exec (.fault slot f) s = .next (wordDone s slot 2 fun t pos => orderFault t slot
        (if statusOperand (getSlot s slot) f = 0 ∨ (statusOperand (getSlot s slot) f).toNat / 4096 = 15 then 0x6001
         else statusOperand (getSlot s slot) f) pos)) ∧
    (atWord s slot 0x26 f → wordRuns s slot (unusedZero f false false false 0 0) →
      pastEnd (countWord s slot 2) (getSlot (countWord s slot 2) slot) = false →
      exec (.yield slot f) s = .next (wordDone s slot 2 fun t _ =>
        leave (updSlot t slot fun x => { x with from_ := t.tb.count + 1 }) slot .runnable)) ∧
    (atWord s slot 0x80 f → f.m 0 = false → waitRuns s slot (unusedZero f false false false 1 4) (BitVec.ofNat 4 (f.i 3 0)) →
      exec (.wait slot f) s = .next (wordDone s slot 2 fun t _ => t)) ∧
    (atWord s slot 0x80 f → f.m 0 → wordRuns s slot (unusedZero f false true false 1 40) →
      ((getSlot s slot).val f.b + f.imm.zeroExtend 64).toNat ≤ s.tb.count →
      exec (.wait slot f) s = .next (wordDone s slot 2 fun t _ => t)) ∧
    (atWord s slot 0x80 f → f.m 0 → wordRuns s slot (unusedZero f false true false 1 40) →
      s.tb.count < ((getSlot s slot).val f.b + f.imm.zeroExtend 64).toNat →
      exec (.wait slot f) s = .next (suspend s slot (.strike ((getSlot s slot).val f.b + f.imm.zeroExtend 64).toNat))) ∧
    (atWord s slot 0x81 f → waitRuns s slot (unusedZero f false false false 0 0) 15 →
      exec (.fence slot f) s = .next (wordDone s slot 2 fun t _ => t))

/-- v0 reads 0 and drops writes; a word over RUN_LIMIT or with a used-up place faults as R65 and R84 say. Rests on R65,
R81, R84. -/
def Obligations.RegisterZeroAndWordFaults : Prop :=
  (∀ (x : Slot) (w : W64), x.val 0 = 0 ∧ x.setVal 0 w = x) ∧
  (∀ (x : Slot) (i j : BitVec 4) (w : W64), i ≠ 0 → (x.setVal i w).val i = w ∧ (j ≠ i → (x.setVal i w).val j = x.val j)) ∧
  ∀ (slot : Nat) (f : Fields) (s : State) (c : Instr) (op : Nat) (shr : Bool),
    (c, op, shr) ∈ [(Instr.add slot f, 0x00, false), (.sub slot f, 0x01, false), (.and slot f, 0x02, false),
      (.or slot f, 0x03, false), (.xor slot f, 0x04, false), (.shl slot f, 0x05, false), (.shr slot f, 0x06, true)] →
    atWord s slot op f →
    ((getSlot s slot).inHandler = false → (getSlot s slot).hdr.runLimit ≤ (getSlot s slot).executed →
      exec c s = .next (orderFault s slot 0x6002 (getSlot s slot).position)) ∧
    (overLimit s slot = false → aluUnused f shr = false →
      exec c s = .next (orderFault (countWord s slot 2) slot 0x6001 (getSlot s slot).position))

/-- A fault loads v13 and v14, sets F and runs the handler from the next strike, or ends the order. Rests on R66, R67,
03_work_orders.md. -/
def Obligations.FaultsEnterHandlerOrPost : Prop :=
  ∀ (s : State) (k : Nat) (st pos : W16), (getSlot s k).st = .suspended →
    (∀ p, (getSlot s k).inHandler = false → handlerOf s (getSlot s k) = some p →
      let y := getSlot (orderFault s k st pos) k
      y.st = .runnable ∧ y.pc = p ∧ y.val 13 = st.zeroExtend 64 ∧ y.val 14 = pos.zeroExtend 64 ∧ y.flags.f = true ∧
      y.from_ = s.tb.count + 1 ∧ y.original = st ∧ y.h = (getSlot s k).h ∧ y.tickets = (getSlot s k).tickets) ∧
    ((getSlot s k).inHandler = false → handlerOf s (getSlot s k) = none →
      (getSlot (orderFault s k st pos) k).st = .posting ∧ (getSlot (orderFault s k st pos) k).status = st) ∧
    ((getSlot s k).inHandler = true →
      (getSlot (orderFault s k st pos) k).st = .posting ∧
      (getSlot (orderFault s k st pos) k).status = (getSlot s k).original)

/-- Arithmetic and control words change nothing outside the orders, the fault counters and idle Smith clusters. Rests on
04_clapex_reference.md, R81, R82. -/
def Obligations.ControlWordsLeaveDeviceState : Prop :=
  ∀ (slot : Nat) (f : Fields) (s t : State) (c : Instr),
    c ∈ [Instr.add slot f, .sub slot f, .and slot f, .or slot f, .xor slot f, .shl slot f, .shr slot f, .ldi slot f, .cmp slot f, .sel slot f, .br slot f, .bz slot f, .bnz slot f, .callp slot f, .fault slot f, .yield slot f, .time slot f] →
    exec c s = .next t →
    t.med = s.med ∧ t.port = s.port ∧ t.ten = s.ten ∧ t.cph = s.cph ∧ t.asy = s.asy ∧ t.mem = s.mem ∧ t.pwr = s.pwr ∧
    t.blw = s.blw ∧ t.hkp = s.hkp ∧ t.hm = s.hm ∧ t.wall = s.wall ∧ t.boot = s.boot ∧ t.tb = s.tb ∧ t.fl = s.fl ∧
    t.pending = s.pending ∧ t.out = s.out ∧ t.ord.reqs = s.ord.reqs ∧ t.ord.mailbox = s.ord.mailbox

/-- BALLOC, BFILL, BCOPY, HGET, HPUT and NOTE are issued; BFREE frees and BSLICE aims a handle. Rests on R93, R94, R95,
R106, R61, 04_clapex_reference.md. -/
def Obligations.BufferAndTransferWordsIssue : Prop :=
  ∀ (slot : Nat) (f : Fields) (s : State),
    (atWord s slot 0x30 f → asyncRuns s slot f (ballocOp s slot f) →
      exec (.balloc slot f) s = .next (asyncDone s slot 0x30 f (ballocOp s slot f))) ∧
    (atWord s slot 0x32 f → asyncRuns s slot f (bfillOp s slot f) →
      exec (.bfill slot f) s = .next (asyncDone s slot 0x32 f (bfillOp s slot f))) ∧
    (atWord s slot 0x33 f → asyncRuns s slot f (bcopyOp s slot f) →
      exec (.bcopy slot f) s = .next (asyncDone s slot 0x33 f (bcopyOp s slot f))) ∧
    (atWord s slot 0x40 f → asyncRuns s slot f (hgetOp s slot f) →
      exec (.hget slot f) s = .next (asyncDone s slot 0x40 f (hgetOp s slot f))) ∧
    (atWord s slot 0x41 f → asyncRuns s slot f (hputOp s slot f) →
      exec (.hput slot f) s = .next (asyncDone s slot 0x41 f (hputOp s slot f))) ∧
    (atWord s slot 0x91 f → asyncRuns s slot f (noteOp s slot f) →
      exec (.note slot f) s = .next (asyncDone s slot 0x91 f (noteOp s slot f))) ∧
    (∀ d, atWord s slot 0x31 f → wordRuns s slot (unusedZero f true false false 0 0) → f.a.toNat < 8 →
      (getSlot s slot).hdl f.a = some d → outIn (getSlot s slot) (hazards s (getSlot s slot) [] [d.buf] none) = false →
      exec (.bfree slot f) s = .next (wordDone s slot 4 fun t _ => bfree t slot d.buf)) ∧
    (∀ d, atWord s slot 0x34 f → wordRuns s slot (unusedZero f true true (!f.m 0) 1 (if f.m 0 then 40 else 0)) →
      (getSlot s slot).hdl f.b = some d → outIn (getSlot s slot) (hazards s (getSlot s slot) [] [d.buf] none) = false →
      exec (.bslice slot f) s = .next (wordDone s slot 4 fun t pos => bslice t slot f pos))

/-- ZREAD, CREAD, PARCHK, PLUMB, ZAPPEND, ZWRITE, CWRITE and CTRIM are issued. Rests on R97, R99, R105, 05_zones.md. -/
def Obligations.MediaReadAndWriteWordsIssue : Prop :=
  ∀ (slot : Nat) (f : Fields) (s : State),
    (atWord s slot 0x50 f → asyncRuns s slot f (readOp s slot f true) →
      exec (.zread slot f) s = .next (asyncDone s slot 0x50 f (readOp s slot f true))) ∧
    (atWord s slot 0x54 f → asyncRuns s slot f (readOp s slot f false) →
      exec (.cread slot f) s = .next (asyncDone s slot 0x54 f (readOp s slot f false))) ∧
    (atWord s slot 0x57 f → asyncRuns s slot f (parchkOp s slot f) →
      exec (.parchk slot f) s = .next (asyncDone s slot 0x57 f (parchkOp s slot f))) ∧
    (atWord s slot 0x83 f → asyncRuns s slot f (plumbOp s slot f) →
      exec (.plumb slot f) s = .next (asyncDone s slot 0x83 f (plumbOp s slot f))) ∧
    (atWord s slot 0x51 f → asyncRuns s slot f (zoneWriteOp s slot f true) →
      exec (.zappend slot f) s = .next (asyncDone s slot 0x51 f (zoneWriteOp s slot f true))) ∧
    (atWord s slot 0x52 f → asyncRuns s slot f (zoneWriteOp s slot f false) →
      exec (.zwrite slot f) s = .next (asyncDone s slot 0x52 f (zoneWriteOp s slot f false))) ∧
    (atWord s slot 0x55 f → asyncRuns s slot f (cwriteOp s slot f) →
      exec (.cwrite slot f) s = .next (asyncDone s slot 0x55 f (cwriteOp s slot f))) ∧
    (atWord s slot 0x56 f → asyncRuns s slot f (ctrimOp s slot f) →
      exec (.ctrim slot f) s = .next (asyncDone s slot 0x56 f (ctrimOp s slot f)))

/-- The six zone actions and the two zone reports of ZMGMT are issued. Rests on R97, R123, R126, 04_clapex_reference.md. -/
def Obligations.ZoneManagementWordsIssue : Prop :=
  ∀ (slot : Nat) (f : Fields) (s : State),
    (atWord s slot 0x53 f → zmgmtIs f false 0x03 → asyncRuns s slot f (actionOp s slot f) →
      exec (.zoneOpen slot f) s = .next (asyncDone s slot 0x53 f (actionOp s slot f))) ∧
    (atWord s slot 0x53 f → zmgmtIs f false 0x01 → asyncRuns s slot f (actionOp s slot f) →
      exec (.zoneClose slot f) s = .next (asyncDone s slot 0x53 f (actionOp s slot f))) ∧
    (atWord s slot 0x53 f → zmgmtIs f false 0x02 → asyncRuns s slot f (actionOp s slot f) →
      exec (.zoneFinish slot f) s = .next (asyncDone s slot 0x53 f (actionOp s slot f))) ∧
    (atWord s slot 0x53 f → zmgmtIs f false 0x04 → asyncRuns s slot f (actionOp s slot f) →
      exec (.zoneReset slot f) s = .next (asyncDone s slot 0x53 f (actionOp s slot f))) ∧
    (atWord s slot 0x53 f → zmgmtIs f false 0x05 → asyncRuns s slot f (actionOp s slot f) →
      exec (.zoneOffline slot f) s = .next (asyncDone s slot 0x53 f (actionOp s slot f))) ∧
    (atWord s slot 0x53 f → zmgmtIs f false 0x10 → asyncRuns s slot f (actionOp s slot f) →
      exec (.zoneSetExtension slot f) s = .next (asyncDone s slot 0x53 f (actionOp s slot f))) ∧
    (atWord s slot 0x53 f → zmgmtIs f true 0x00 → asyncRuns s slot f (reportOp s slot f false) →
      exec (.reportZones slot f) s = .next (asyncDone s slot 0x53 f (reportOp s slot f false))) ∧
    (atWord s slot 0x53 f → zmgmtIs f true 0x01 → asyncRuns s slot f (reportOp s slot f true) →
      exec (.extendedReportZones slot f) s = .next (asyncDone s slot 0x53 f (reportOp s slot f true)))

/-- SEAL, OPEN, MAC, DGFEED, DGFIN, DGLOAD, KEYLOAD and PATLOAD are issued. Rests on R101, R103, R107, R268. -/
def Obligations.CipherAssayPatternWordsIssue : Prop :=
  ∀ (slot : Nat) (f : Fields) (s : State),
    (atWord s slot 0x70 f → asyncRuns s slot f (cipherOp s slot 0x70 f) →
      exec (.seal slot f) s = .next (asyncDone s slot 0x70 f (cipherOp s slot 0x70 f))) ∧
    (atWord s slot 0x71 f → asyncRuns s slot f (cipherOp s slot 0x71 f) →
      exec (.openRecord slot f) s = .next (asyncDone s slot 0x71 f (cipherOp s slot 0x71 f))) ∧
    (atWord s slot 0x72 f → asyncRuns s slot f (cipherOp s slot 0x72 f) →
      exec (.mac slot f) s = .next (asyncDone s slot 0x72 f (cipherOp s slot 0x72 f))) ∧
    (atWord s slot 0x73 f → asyncRuns s slot f (dgfeedOp s slot f) →
      exec (.dgfeed slot f) s = .next (asyncDone s slot 0x73 f (dgfeedOp s slot f))) ∧
    (atWord s slot 0x74 f → asyncRuns s slot f (dgfinOp s slot f) →
      exec (.dgfin slot f) s = .next (asyncDone s slot 0x74 f (dgfinOp s slot f))) ∧
    (atWord s slot 0x75 f → asyncRuns s slot f (dgloadOp s slot f) →
      exec (.dgload slot f) s = .next (asyncDone s slot 0x75 f (dgloadOp s slot f))) ∧
    (atWord s slot 0xE2 f → asyncRuns s slot f (keyloadOp s slot f) →
      exec (.keyload slot f) s = .next (asyncDone s slot 0xE2 f (keyloadOp s slot f))) ∧
    (atWord s slot 0xE3 f → asyncRuns s slot f (patloadOp s slot f) →
      exec (.patload slot f) s = .next (asyncDone s slot 0xE3 f (patloadOp s slot f)))

/-- The five TENANT actions, POWER, OPSET and HMREAD are issued for orders of MF. Rests on R107, R327, R344, R385,
10_tenants.md. -/
def Obligations.ManagerWordsIssue : Prop :=
  ∀ (slot : Nat) (f : Fields) (s : State),
    (atWord s slot 0xE1 f → f.i 2 0 = 0 → asyncRuns s slot f (tenantOp s slot f) →
      exec (.tenantCreate slot f) s = .next (asyncDone s slot 0xE1 f (tenantOp s slot f))) ∧
    (atWord s slot 0xE1 f → f.i 2 0 = 1 → asyncRuns s slot f (tenantOp s slot f) →
      exec (.tenantModify slot f) s = .next (asyncDone s slot 0xE1 f (tenantOp s slot f))) ∧
    (atWord s slot 0xE1 f → f.i 2 0 = 2 → asyncRuns s slot f (tenantOp s slot f) →
      exec (.tenantReset slot f) s = .next (asyncDone s slot 0xE1 f (tenantOp s slot f))) ∧
    (atWord s slot 0xE1 f → f.i 2 0 = 3 → asyncRuns s slot f (tenantOp s slot f) →
      exec (.tenantDestroy slot f) s = .next (asyncDone s slot 0xE1 f (tenantOp s slot f))) ∧
    (atWord s slot 0xE1 f → f.i 2 0 = 4 → asyncRuns s slot f (tenantOp s slot f) →
      exec (.tenantQuery slot f) s = .next (asyncDone s slot 0xE1 f (tenantOp s slot f))) ∧
    (atWord s slot 0xE0 f → asyncRuns s slot f (powerOp s slot f) →
      exec (.power slot f) s = .next (asyncDone s slot 0xE0 f (powerOp s slot f))) ∧
    (atWord s slot 0xE4 f → asyncRuns s slot f (opsetOp s slot f) →
      exec (.opset slot f) s = .next (asyncDone s slot 0xE4 f (opsetOp s slot f))) ∧
    (atWord s slot 0xE5 f → asyncRuns s slot f (hmreadOp s slot f) →
      exec (.hmread slot f) s = .next (asyncDone s slot 0xE5 f (hmreadOp s slot f)))

/-- A request is recorded under a fresh number with its operands, and awaited by the order or by its ticket. Rests on
R61, R85, R87, 04_clapex_reference.md. -/
def Obligations.IssuedRequestCapturesOperands : Prop :=
  ∀ (s : State) (k op : Nat) (f : Fields) (o : AsyncOp) (pos : W16),
    (∃ t, sendReq s k op f o pos none = o.start t s.ord.nextReq ∧ t.ord.nextReq = s.ord.nextReq + 1 ∧
     ∃ q, getReq t s.ord.nextReq = some q ∧ q.slot = k ∧ q.tenant = (getSlot s k).tenant ∧ q.gen = (getSlot s k).gen ∧
       q.issued = s.tb.count ∧ q.op = op ∧ q.mod = f.mod ∧ q.imm = f.imm ∧ q.va = (getSlot s k).val f.a ∧
       q.vb = (getSlot s k).val f.b ∧ q.vc = (getSlot s k).val f.c ∧ q.ha = (getSlot s k).hdl f.a ∧
       q.hb = (getSlot s k).hdl f.b ∧ q.reads = o.reads ∧ q.writes = o.writes ∧ q.phase = .presented ∧ q.ticket = none) ∧
    (∀ i, i < 4 → ∃ t, sendReq s k op f o pos (some i) = o.start t s.ord.nextReq ∧
      (getSlot t k).ticket i = .out s.ord.nextReq ∧ (getReq t s.ord.nextReq).map (·.ticket) = some (some i))

/-- An attached result goes to v15 and wakes the order; a detached one frees its ticket and its value is dropped. The
rules: R86. -/
def Obligations.ResultsReachOrderOrTicket : Prop :=
  ∀ (s : State) (rid : Nat) (q : Req), getReq s rid = some q → (getTen s q.tenant).gen = q.gen → awaited s rid q →
    (q.ticket = none → pastEnd s (getSlot s q.slot) = false →
      (∀ w, let t := deliver s rid 0x0000 (some w)
        (getSlot t q.slot).val 15 = w ∧ (getSlot t q.slot).st = .runnable ∧ (getSlot t q.slot).from_ = s.tb.count + 1 ∧
        getReq t rid = none) ∧
      (let t := deliver s rid 0x0000 none
       (getSlot t q.slot).v = (getSlot s q.slot).v ∧ (getSlot t q.slot).st = .runnable ∧ getReq t rid = none)) ∧
    (∀ i, q.ticket = some i → i < 4 → ∀ v, (getSlot s q.slot).st = .running →
      let t := deliver s rid 0x0000 v
      (getSlot t q.slot).ticket i = .free ∧ (getSlot t q.slot).v = (getSlot s q.slot).v ∧ getReq t rid = none)

/-- Capsules, fetched entries, fetched texts and forwarded commands take their slot and go to admission. Rests on R46,
R53, R217, R230, R396, R400, R401, R402. -/
def Obligations.CommandsEnterSlots : Prop :=
  (∀ (qp k : Nat) (cap : Capsule) (s : State), (getQp s qp).st = .live → flag s R.ETH_RT_CTRL_RT_EN → portsOpen s →
    isMember s = false → 0 < (getQp s qp).credit → 64 ≤ cap.sendLen → cap.sendLen ≤ 8256 → findSlot s = some k →
    exec (.capsuleReceived qp cap) s = .next (arrive (takeSlot
      (setQp s qp { getQp s qp with credit := (getQp s qp).credit - 1, rnrTries := 0, ackTries := 0 }) k (getQp s qp).tenant
      (if (getQp s qp).admin then .management else commandKind cap.cmd) cap.cmd none (some qp) cap.data) k)) ∧
  (∀ (qp : Nat) (cap : Capsule) (s : State), (getQp s qp).st = .live → flag s R.ETH_RT_CTRL_RT_EN → portsOpen s →
    isMember s = false → (getQp s qp).credit = 0 →
    exec (.capsuleReceived qp cap) s = .next (bump (emit s (.rnrNak qp)) R.ETH_RNR_CNT_RNR)) ∧
  (∀ (fn sq : Nat) (cmd : NvmeCmd) (s : State), portsOpen s → isMember s = false → nextFetch s = some (fn, sq) → ∀ k, findSlot s = some k →
    exec (.sqEntryFetch fn sq cmd) s =
      .next (arrive (takeSlot (popSq s fn sq) k fn (entryKind sq cmd) (entryCmd cmd) (some (fn, sq)) none []) k)) ∧
  (∀ (slot : Nat) (text : List Byte) (pages : List Nat) (s : State), (getSlot s slot).st = .arriving →
    (getSlot s slot).kind = .byPointer → ((getSlot s slot).stage = 1 ∨ (getSlot s slot).qp = none) → strikesRun s →
    exec (.orderTextFetched slot (.done text pages)) s = .next
      (nextRead (dispatchOrder (setSlot s slot { getSlot s slot with data := text }) slot) (getSlot s slot)) ∧
    exec (.orderTextFetched slot .failed) s = .next
      (nextRead (refuse (countTransferFail s (getSlot s slot)) slot St.lengthMismatch none) (getSlot s slot))) ∧
  (∀ (fwd : ForwardedOrder) (k : Nat) (s : State), isMember s → portsOpen s → findSlot s = some k →
    takesCommands s fwd.tenant → seenBefore s 0 fwd.seq = false →
    let t := spendGrant (noteSeq s 0 fwd.seq)
    ((getTen s fwd.tenant).gen = fwd.gen →
      exec (.forwardedCommandReceived fwd) s = .next (admitWork (updSlot (takeSlot t k fwd.tenant
        (if fwd.isAdmin then .management else commandKind fwd.cmd)
        { fwd.cmd with nsid := BitVec.ofNat 32 (fwd.cmd.nsid.toNat % 4096) } none none fwd.data) k
        fun x => { x with member := some fwd.headSlot, viaRdma := fwd.viaRdma }) k)) ∧
    ((getTen s fwd.tenant).gen ≠ fwd.gen →
      exec (.forwardedCommandReceived fwd) s = .next (bumpAt t R.TEN_STALE_CNT_STALE 0 fwd.tenant 1))) ∧
  (∀ (fwd : ForwardedOrder) (s : State), seenBefore s 0 fwd.seq → exec (.forwardedCommandReceived fwd) s = .next s)

/-- A slot that a command takes is ARRIVING with its tenant, generation, entry and data, and every other slot stays, but
for the cache. Rests on R52, R54, R56, R81, 03_work_orders.md. -/
def Obligations.TakenSlotHoldsTheCommand : Prop :=
  ∀ (s : State) (k t : Nat) (kind : OrderKind) (cmd : NvmeCmd) (pcie : Option (Nat × Nat)) (qp : Option Nat)
    (data : List Byte),
    let u := takeSlot s k t kind cmd pcie qp data
    let y := getSlot u k
    y.st = .arriving ∧ y.tenant = t ∧ y.gen = (getTen s t).gen ∧ y.kind = kind ∧ y.cmd = cmd ∧ y.pcie = pcie ∧ y.qp = qp ∧
    y.data = data ∧ y.arrival = s.tb.count ∧ (∀ i, y.val i = 0) ∧ y.h = Vector.replicate 8 none ∧
    y.tickets = Vector.replicate 4 .free ∧ ∀ j, j ≠ k →
      getSlot u j = { getSlot s j with cached := (getSlot u j).cached }

/-- A completion whose host writes are done is handed to its port, and a quenched slot is free. Rests on R52, R56, R59,
R63, R218, R221, R222. -/
def Obligations.CompletionsLeaveAndSlotsFree : Prop :=
  (∀ (slot : Nat) (s : State), (getSlot s slot).st = .posting → (getSlot s slot).handed = false → hostWritesDone s slot →
    (getSlot s slot).gen = (getTen s (getSlot s slot).tenant).gen → strikesRun s →
    exec (.completionPosted slot) s = .next (postCompletion s slot)) ∧
  (∀ (slot : Nat) (s : State), (getSlot s slot).st = .quench → (getSlot s slot).quenchAt ≤ s.tb.count →
    ∃ t, exec (.slotQuenchDone slot) s = .next t ∧ getSlot t slot = slot0 slot ∧ (∀ j, j ≠ slot → getSlot t j = getSlot s j) ∧
      t = { s with ord := { s.ord with slots := t.ord.slots } }) ∧
  (∀ (slot q : Nat) (s : State), (getSlot s slot).qp = some q → (getSlot s slot).st = .posting → (getQp s q).st = .live →
    hostWritesDone s slot →
    exec (.responseRnrNak slot) s = .next
      (if R.ETH_RT_CTRL_RNR_RETRY.of (getQp s q).rtWord = 7 then s
       else if (getQp s q).rnrTries < R.ETH_RT_CTRL_RNR_RETRY.of (getQp s q).rtWord then
         setQp s q { getQp s q with rnrTries := (getQp s q).rnrTries + 1 }
       else qpError s q)) ∧
  (∀ (rid : Nat) (q : Req) (r : HostReply) (s : State), getReq s rid = some q → q.gen = (getTen s q.tenant).gen → strikesRun s →
    q.phase = .done → exec (.resultArrival rid r) s = .next (deliver s rid q.result q.value)) ∧
  (∀ (rid : Nat) (q : Req) (r : HostReply) (s : State), getReq s rid = some q → q.gen = (getTen s q.tenant).gen → strikesRun s →
    q.phase = .queued → q.isHost →
    exec (.resultArrival rid r) s = .next (nextRead (hostAnswer s rid q r) (getSlot s q.slot))) ∧
  (∀ (rid : Nat) (q : Req) (r : HostReply) (s : State), getReq s rid = some q → q.gen = (getTen s q.tenant).gen → strikesRun s →
    q.op = 0x71 → q.mod.getLsbD 2 → (q.phase = .zeroing ∨ (q.phase = .releasing ∧ q.held = false)) →
    exec (.resultArrival rid r) s = .next (openAnswer s rid q r)) ∧
  (∀ (slot : Nat) (s : State), ∃ t, stepWord slot s = .next t ∧
    exec (.executeWorkOrder slot) s = .next (runSlice slot 31 t)) ∧
  (∀ (slot : Nat) (w : W64) (s : State), presentWord s slot = some w →
    (wordOp w = 0x00 → stepWord slot s = exec (.add slot (wordFields w)) s) ∧
    (wordOp w = 0x24 → stepWord slot s = exec (.endOrder slot (wordFields w)) s) ∧
    (wordOp w = 0x50 → stepWord slot s = exec (.zread slot (wordFields w)) s))

/-- The head forwards a command for a credit, posts a member's completion and carries a member's transfer. Rests on
R396, R401, R402, 18_wall.md. -/
def Obligations.WallCommandsTravel : Prop :=
  (∀ (slot m : Nat) (s : State), (getSlot s slot).member = some m → isHead s → (getSlot s slot).st = .suspended →
    (getSlot s slot).stage = 0 → 0 < Tbl.get nat0 s.wall.credits m → s.wall.live.getLsbD m → strikesRun s →
    ∃ t, exec (.commandForward slot) s = .next t ∧ Tbl.get nat0 t.wall.credits m = Tbl.get nat0 s.wall.credits m - 1 ∧
      t.wall.nextPkt = s.wall.nextPkt + 1 ∧ t.out = s.out ++ [.forward m slot] ∧ (getSlot t slot).stage = 1 ∧
      Tbl.get Tbl.absent t.wall.packets s.wall.nextPkt =
        some { dest := m, seq := s.wall.nextPkt, sentAt := s.tb.count, slot := some slot } ∧
      t.med = s.med ∧ t.reg = s.reg ∧ t.ten = s.ten ∧ t.port = s.port) ∧
  (∀ (slot : Nat) (r : MemberCompletion) (s : State), isHead s → (getSlot s slot).st = .suspended → (getSlot s slot).stage = 1 →
    (getSlot s slot).member.isSome → (getSlot s slot).gen = (getTen s (getSlot s slot).tenant).gen →
    seenBefore s ((getSlot s slot).member.getD 0) r.seq = false →
    ∃ t, exec (.memberCompletionReceived slot r) s = .next t ∧ (getSlot t slot).st = .posting ∧
      (getSlot t slot).status = r.status ∧ (getSlot t slot).faultPos = r.pos ∧
      (getSlot t slot).val 1 = headValue (getSlot s slot) r.value ∧ (getSlot t slot).reply = some (r.sct, r.sc, r.dnr) ∧
      (getSlot t slot).val 15 = r.value ∧ t.med = s.med ∧ t.reg = s.reg ∧ t.out = s.out) ∧
  (∀ (x : MemberTransfer) (s : State), isHead s → s.wall.live.getLsbD x.member → (getSlot s x.slot).st = .suspended →
    (getSlot s x.slot).member = some x.member →
    (seenBefore s x.member x.seq → exec (.memberHostTransfer x) s = .next s) ∧
    (seenBefore s x.member x.seq = false → x.gen = (getTen s x.tenant).gen → x.write →
      exec (.memberHostTransfer x) s = .next (emit (noteSeq s x.member x.seq) (.hostWrite x.slot x.mode x.rkey x.addr x.data))) ∧
    (seenBefore s x.member x.seq = false → x.gen = (getTen s x.tenant).gen → x.write = false →
      exec (.memberHostTransfer x) s = .next (emit (noteSeq s x.member x.seq) (.memberRead x.slot x.mode x.rkey x.addr))) ∧
    (seenBefore s x.member x.seq = false → x.gen ≠ (getTen s x.tenant).gen →
      exec (.memberHostTransfer x) s = .next (bumpAt (noteSeq s x.member x.seq) R.TEN_STALE_CNT_STALE 0 x.tenant 1)))

/-- Read, Compare and Verify issue a read for each piece, send or compare it, and end with 0x0000. Rests on R73, R74,
R75, R111, 03_work_orders.md. -/
def Obligations.StandardReadsRunTheirPatterns : Prop :=
  (∀ (slot : Nat) (s : State), stdReady s slot 0x02 →
    let x := getSlot s slot
    let size := stdSize s x
    let n := pieceLen s x (x.stage / 2)
    let off := x.stage / 2 * pieceBlocks size
    (x.stage % 2 = 0 → n ≠ 0 →
      (x.stage = 0 → patternStarts s slot (stdZoned s x) true false (stdBlocks x * hostSize s x)) →
      stdWordRuns slot (stdRead s slot (stdLba x + off) (n * size)) →
      exec (.nvmeRead slot) s = .next (stdWordDone slot (stdRead s slot (stdLba x + off) (n * size)))) ∧
    (x.stage % 2 = 1 → piFailure s x off n = none →
      stdWordRuns slot (stdHput (piOut s slot n) slot (off * hostSize s x)) →
      exec (.nvmeRead slot) s = .next (stdWordDone slot (stdHput (piOut s slot n) slot (off * hostSize s x)))) ∧
    (∀ r, x.stage % 2 = 1 → piFailure s x off n = some r → exec (.nvmeRead slot) s = .next (endReply s slot r)) ∧
    (x.stage % 2 = 0 → x.stage ≠ 0 → n = 0 → exec (.nvmeRead slot) s = .next (finishOrder s slot 0x0000))) ∧
  (∀ (slot : Nat) (s : State), stdReady s slot 0x05 →
    let x := getSlot s slot
    let size := stdSize s x
    let n := pieceLen s x (x.stage / 2)
    let off := x.stage / 2 * pieceBlocks size
    (x.stage % 2 = 0 → n ≠ 0 → (x.stage ≠ 0 → sameBytes s x) →
      (x.stage = 0 → patternStarts s slot (stdZoned s x) true false (stdBlocks x * size)) →
      stdWordRuns slot (stdRead s slot (stdLba x + off) (n * size)) →
      exec (.nvmeCompare slot) s = .next (stdWordDone slot (stdRead s slot (stdLba x + off) (n * size)))) ∧
    (x.stage % 2 = 1 → piFailure s x off n = none → stdWordRuns slot (stdHget s slot 9 (off * size) (n * size) false) →
      exec (.nvmeCompare slot) s = .next (stdWordDone slot (stdHget s slot 9 (off * size) (n * size) false))) ∧
    (∀ r, x.stage % 2 = 1 → piFailure s x off n = some r → exec (.nvmeCompare slot) s = .next (endReply s slot r)) ∧
    (x.stage % 2 = 0 → x.stage ≠ 0 → sameBytes s x = false →
      exec (.nvmeCompare slot) s = .next (endReply s slot (2, 0x85, true))) ∧
    (x.stage % 2 = 0 → x.stage ≠ 0 → sameBytes s x → n = 0 →
      exec (.nvmeCompare slot) s = .next (finishOrder s slot 0x0000))) ∧
  (∀ (slot : Nat) (s : State), stdReady s slot 0x0C →
    let x := getSlot s slot
    let size := stdSize s x
    let n := pieceLen s x x.stage
    let before := piFailure s x ((x.stage - 1) * pieceBlocks size) (pieceLen s x (x.stage - 1))
    (n ≠ 0 → (x.stage ≠ 0 → before = none) → (x.stage = 0 → patternStarts s slot (stdZoned s x) false false 0) →
      stdWordRuns slot (stdRead s slot (stdLba x + x.stage * pieceBlocks size) (n * size)) →
      exec (.nvmeVerify slot) s =
        .next (stdWordDone slot (stdRead s slot (stdLba x + x.stage * pieceBlocks size) (n * size)))) ∧
    (∀ r, x.stage ≠ 0 → before = some r → exec (.nvmeVerify slot) s = .next (endReply s slot r)) ∧
    (x.stage ≠ 0 → before = none → n = 0 → exec (.nvmeVerify slot) s = .next (finishOrder s slot 0x0000)))

/-- Write, Write Zeroes and Zone Append fetch or stage their blocks, write them and end with 0x0000. Rests on R13, R73,
R74, R75, R111, 03_work_orders.md. -/
def Obligations.StandardWritesRunTheirPatterns : Prop :=
  (∀ (slot : Nat) (s : State), stdReady s slot 0x01 →
    let x := getSlot s slot
    let size := stdSize s x
    let n := pieceLen s x (x.stage / 2)
    let off := x.stage / 2 * pieceBlocks size
    let host := hostSize s x
    (x.stage % 2 = 0 → n ≠ 0 → (x.stage = 0 → patternStarts s slot (stdZoned s x) true true (stdBlocks x * host)) →
      stdWordRuns slot (stdHget s slot 8 (off * host) (n * host) true) →
      exec (.nvmeWrite slot) s = .next (stdWordDone slot (stdHget s slot 8 (off * host) (n * host) true))) ∧
    (x.stage % 2 = 1 → stdWriteHeld s slot = false → piRefuses s slot off n = none →
      stdWordRuns slot (stdWrite (piIn s slot off n) slot (stdLba x + off) false) →
      exec (.nvmeWrite slot) s = .next (stdWordDone slot (stdWrite (piIn s slot off n) slot (stdLba x + off) false))) ∧
    (∀ r, x.stage % 2 = 1 → stdWriteHeld s slot = false → piRefuses s slot off n = some r →
      exec (.nvmeWrite slot) s = .next (endReply s slot r)) ∧
    (x.stage % 2 = 0 → x.stage ≠ 0 → n = 0 → exec (.nvmeWrite slot) s = .next (finishOrder s slot 0x0000))) ∧
  (∀ (slot : Nat) (s : State), stdReady s slot 0x08 →
    let x := getSlot s slot
    let n := pieceLen s x x.stage
    let off := x.stage * pieceBlocks (stdSize s x)
    (deac x → x.stage = 0 → patternStarts s slot false false true 0 →
      stdWordRuns slot (stdTrim s slot (stdLba x) (stdBlocks x)) →
      exec (.nvmeWriteZeroes slot) s = .next (stdWordDone slot (stdTrim s slot (stdLba x) (stdBlocks x)))) ∧
    (deac x = false → n ≠ 0 → (x.stage = 0 → patternStarts s slot false false true 0) →
      stdWordRuns slot (stdWrite (stageZeros s slot off n) slot (stdLba x + off) false) →
      exec (.nvmeWriteZeroes slot) s =
        .next (stdWordDone slot (stdWrite (stageZeros s slot off n) slot (stdLba x + off) false))) ∧
    (x.stage ≠ 0 → (deac x ∨ n = 0) → exec (.nvmeWriteZeroes slot) s = .next (finishOrder s slot 0x0000))) ∧
  (∀ (slot : Nat) (s : State), stdReady s slot 0x7D →
    let x := getSlot s slot
    let bytes := stdBlocks x * hostSize s x
    let remap := (x.val 3).getLsbD 25
    (x.stage = 0 → stdBlocks x * stdSize s x ≤ 2097152 → ¬ (piType s x = 1 ∧ remap = false) →
      ¬ (piType s x = 3 ∧ remap = true) → patternStarts s slot true true true bytes →
      stdWordRuns slot (stdHget s slot 8 0 bytes true) →
      exec (.zoneAppend slot) s = .next (stdWordDone slot (stdHget s slot 8 0 bytes true))) ∧
    (x.stage = 0 → 2097152 < stdBlocks x * stdSize s x →
      exec (.zoneAppend slot) s = .next (orderFault s slot 0x6001 x.position)) ∧
    (x.stage = 1 → stdWriteHeld s slot = false → piRefuses s slot 0 (stdBlocks x) = none →
      stdWordRuns slot (stdWrite (piIn s slot 0 (stdBlocks x)) slot (stdLba x) true) →
      exec (.zoneAppend slot) s =
        .next (stdWordDone slot (stdWrite (piIn s slot 0 (stdBlocks x)) slot (stdLba x) true))) ∧
    (∀ r, x.stage = 1 → stdWriteHeld s slot = false → piRefuses s slot 0 (stdBlocks x) = some r →
      exec (.zoneAppend slot) s = .next (endReply s slot r)) ∧
    (2 ≤ x.stage → exec (.zoneAppend slot) s = .next (finishOrder s slot 0x0000)))

/-- Flush, Dataset Management and the two zone management commands issue their words and end with 0x0000. Rests on R15,
R73, R74, R75, R115, R126, 03_work_orders.md. -/
def Obligations.StandardManagementRunsItsPatterns : Prop :=
  (∀ (slot : Nat) (s : State), stdReady s slot 0x00 → exec (.nvmeFlush slot) s = .next (finishOrder s slot 0x0000)) ∧
  (∀ (slot : Nat) (s : State), stdReady s slot 0x09 →
    let x := getSlot s slot
    let e := dsmRange s x (x.stage - 1)
    let list := stdHget s slot 8 0 (16 * dsmRanges x) false
    ((x.val 2).getLsbD 2 = false → exec (.nvmeDatasetManagement slot) s = .next (finishOrder s slot 0x0000)) ∧
    ((x.val 2).getLsbD 2 → x.stage = 0 → badLength x (16 * dsmRanges x) = false → stdWordRuns slot list →
      exec (.nvmeDatasetManagement slot) s = .next (stdWordDone slot list)) ∧
    ((x.val 2).getLsbD 2 → x.stage ≠ 0 → x.stage ≤ dsmRanges x →
      (e.2 ≠ 0 → stdWordRuns slot (stdTrim s slot e.1 e.2) →
        exec (.nvmeDatasetManagement slot) s = .next (stdWordDone slot (stdTrim s slot e.1 e.2))) ∧
      (e.2 = 0 → exec (.nvmeDatasetManagement slot) s = .next (nextStage s slot))) ∧
    (dsmRanges x < x.stage → exec (.nvmeDatasetManagement slot) s = .next (finishOrder s slot 0x0000))) ∧
  (∀ (slot : Nat) (s : State), stdReady s slot 0x79 →
    let x := getSlot s slot
    let ext := (x.val 4).toNat % 256 = 0x10
    (ext → x.stage = 0 → badLength x 64 = false → stdWordRuns slot (stdHget s slot 8 0 64 true) →
      exec (.zoneManagementSend slot) s = .next (stdWordDone slot (stdHget s slot 8 0 64 true))) ∧
    (((ext ∧ x.stage = 1) ∨ (¬ ext ∧ x.stage = 0)) → stdWordRuns slot (sendAction s slot) →
      exec (.zoneManagementSend slot) s = .next (stdWordDone slot (sendAction s slot))) ∧
    (((ext ∧ 2 ≤ x.stage) ∨ (¬ ext ∧ x.stage ≠ 0)) →
      exec (.zoneManagementSend slot) s = .next (finishOrder s slot 0x0000))) ∧
  (∀ (slot : Nat) (s : State), stdReady s slot 0x7A →
    let x := getSlot s slot
    let bad := 7 < bits (x.val 4).toNat 15 8 ∨ 1 < (x.val 4).toNat % 256
    (x.stage = 0 → ¬ bad → badLength x (receiveLen x) = false → stdWordRuns slot (receiveReport s slot) →
      exec (.zoneManagementReceive slot) s = .next (stdWordDone slot (receiveReport s slot))) ∧
    (x.stage = 0 → bad → exec (.zoneManagementReceive slot) s = .next (orderFault s slot 0x6001 x.position)) ∧
    (x.stage = 1 → stdWordRuns slot (sendReport s slot) →
      exec (.zoneManagementReceive slot) s = .next (stdWordDone slot (sendReport s slot))) ∧
    (2 ≤ x.stage → exec (.zoneManagementReceive slot) s = .next (finishOrder s slot 0x0000)))

/-- A tenant's Manager Request takes a mailbox entry, MF answers it, and the mailbox page lists the entries. Rests on
R76, 03_work_orders.md. -/
def Obligations.ManagerMailboxCommands : Prop :=
  (∀ (slot : Nat) (data : List Byte) (s : State), windowOpen s → adminAt s slot 0xC2 → (getSlot s slot).tenant ≠ 0 → 1 ≤ (getSlot s slot).cmd.dw10.toNat % 256 →
    (getSlot s slot).cmd.dw10.toNat % 256 ≤ 4 → data.length ≤ 8208 →
    ((getSlot s slot).cmd.dw10.toNat % 2 = 0 → data = []) →
    (mailOf s (getSlot s slot).tenant < 4 → s.ord.mailbox.length < mailboxSize →
      exec (.managerRequest slot data) s = .next (takeEntry s slot data)) ∧
    ((4 ≤ mailOf s (getSlot s slot).tenant ∨ mailboxSize ≤ s.ord.mailbox.length) →
      exec (.managerRequest slot data) s = .next (endAdmin s slot (0, 0x21, false)))) ∧
  (∀ (slot : Nat) (e : MailEntry) (s : State), windowOpen s → adminAt s slot 0xC3 → senderOf s slot = 0 →
    s.ord.mailbox.find? (fun m => m.reqId == (getSlot s slot).cmd.dw10.toNat % 65536) = some e →
    ∃ t, exec (.managerAnswer slot) s = .next t ∧ (getSlot t e.slot).st = .posting ∧
      (getSlot t e.slot).status = (getSlot s slot).cmd.dw11.truncate 16 ∧
      (getSlot t e.slot).val 1 = ((getSlot s slot).cmd.dw11.truncate 16 : W16).zeroExtend 64 ∧
      (getSlot t slot).st = .posting ∧ (getSlot t slot).reply = some (0, 0, false) ∧
      t.ord.mailbox = s.ord.mailbox.filter (fun m => m.reqId != e.reqId) ∧ t.out = s.out ∧
      t.med = s.med ∧ t.reg = s.reg ∧ t.ten = s.ten) ∧
  (∀ (slot : Nat) (s : State), endpointOpen s → logPageAt s slot 0xC9 → senderOf s slot = 0 →
    logSpecific (getSlot s slot).cmd = 0 →
    exec (.getLogPageMailbox slot) s = .next (admin s slot (0, 0) (s.ord.mailbox.flatMap MailEntry.line))) ∧
  (∀ (slot : Nat) (e : MailEntry) (s : State), endpointOpen s → logPageAt s slot 0xC9 → senderOf s slot = 0 →
    logSpecific (getSlot s slot).cmd ≠ 0 →
    s.ord.mailbox.find? (fun m => m.reqId == logSpecific (getSlot s slot).cmd) = some e →
    exec (.getLogPageMailbox slot) s = .next (admin s slot (0, 0) e.data))

/-- MF creates, deletes, attaches and detaches namespaces; any other function gets Invalid Opcode. Rests on R110, R112,
R113, R116, 05_zones.md. -/
def Obligations.NamespaceCommandsOfManager : Prop :=
  (∀ (slot : Nat) (p : NsParams) (tenant : Nat) (s : State), windowOpen s → senderOf s slot ≠ 0 →
    (adminAt s slot 0x0D → cmdSel (getSlot s slot).cmd = 0 →
      exec (.namespaceCreate slot p) s = .next (endAdmin s slot (0, 0x01, true))) ∧
    (adminAt s slot 0x0D → cmdSel (getSlot s slot).cmd = 1 →
      exec (.namespaceDelete slot) s = .next (endAdmin s slot (0, 0x01, true))) ∧
    (adminAt s slot 0x15 → cmdSel (getSlot s slot).cmd = 0 →
      exec (.namespaceAttach slot tenant) s = .next (endAdmin s slot (0, 0x01, true))) ∧
    (adminAt s slot 0x15 → cmdSel (getSlot s slot).cmd = 1 →
      exec (.namespaceDetach slot tenant) s = .next (endAdmin s slot (0, 0x01, true)))) ∧
  (∀ (slot : Nat) (p : NsParams) (s : State), windowOpen s → adminAt s slot 0x0D → cmdSel (getSlot s slot).cmd = 0 →
    senderOf s slot = 0 →
    (isHead s = false → paramsOk p → ∀ k, freeNsid s = some k →
      committedCourses s + (nsOf s p).committed ≤ s.med.dataCourses → courseBytes s (nsOf s p).bedrock ≠ 0 →
      4 * (mappedUnits s + (nsOf s p).units) ≤ s.med.mapPool * 2 ^ 30 →
      exec (.namespaceCreate slot p) s = .next (adminDw0 (addNamespace s k (nsOf s p)) slot k)) ∧
    (isHead s → (getSlot s slot).cmd.dw12.toNat = 0 →
      exec (.namespaceCreate slot p) s = .next (createNamespace s slot p)) ∧
    (isHead s → 0 < (getSlot s slot).cmd.dw12.toNat → (getSlot s slot).cmd.dw12.toNat < s.wall.size →
      (getSlot s slot).cmd.dw12.toNat < 64 →
      exec (.namespaceCreate slot p) s = .next (toMember s slot (getSlot s slot).cmd.dw12.toNat))) ∧
  (∀ (slot tenant : Nat) (s : State), windowOpen s → senderOf s slot = 0 → isHead s →
    (getSlot s slot).cmd.nsid.toNat ≠ 0xFFFFFFFF → nsidMember s (getSlot s slot).cmd.nsid.toNat ≠ 0 →
    nsidMember s (getSlot s slot).cmd.nsid.toNat < s.wall.size →
    (adminAt s slot 0x0D → cmdSel (getSlot s slot).cmd = 1 → exec (.namespaceDelete slot) s =
      .next (toMember s slot (nsidMember s (getSlot s slot).cmd.nsid.toNat))) ∧
    (adminAt s slot 0x15 → cmdSel (getSlot s slot).cmd = 0 → exec (.namespaceAttach slot tenant) s =
      .next (toMember s slot (nsidMember s (getSlot s slot).cmd.nsid.toNat))) ∧
    (adminAt s slot 0x15 → cmdSel (getSlot s slot).cmd = 1 → exec (.namespaceDetach slot tenant) s =
      .next (toMember s slot (nsidMember s (getSlot s slot).cmd.nsid.toNat)))) ∧
  (∀ (slot : Nat) (n : Namespace) (s : State), windowOpen s → adminAt s slot 0x0D → cmdSel (getSlot s slot).cmd = 1 →
    senderOf s slot = 0 → (getSlot s slot).cmd.nsid.toNat ≠ 0xFFFFFFFF → isHead s = false →
    getNs s (getSlot s slot).cmd.nsid.toNat = some n → exec (.namespaceDelete slot) s =
      .next (endAdmin (removeNamespace s (getSlot s slot).cmd.nsid.toNat) slot (0, 0, false))) ∧
  (∀ (slot : Nat) (s : State), windowOpen s → adminAt s slot 0x0D → cmdSel (getSlot s slot).cmd = 1 →
    senderOf s slot = 0 → (getSlot s slot).cmd.nsid.toNat = 0xFFFFFFFF → exec (.namespaceDelete slot) s =
      .next (endAdmin ((s.med.ns.map (·.1)).foldl removeNamespace s) slot (0, 0, false))) ∧
  (∀ (slot tenant : Nat) (n : Namespace) (s : State), windowOpen s → adminAt s slot 0x15 → cmdSel (getSlot s slot).cmd = 0 →
    senderOf s slot = 0 → isHead s = false → getNs s (getSlot s slot).cmd.nsid.toNat = some n → n.tenant = none →
    tenant ≠ 0 → (getTen s tenant).st = .active →
    (n.zoned ∨ n.bedrock = false ∨ tenantBedrock s tenant + n.committed ≤ (getTen s tenant).blk.bedrock) → exec (.namespaceAttach slot tenant) s =
      .next (endAdmin (setNs s (getSlot s slot).cmd.nsid.toNat (some { n with tenant := some tenant })) slot (0, 0, false))) ∧
  (∀ (slot tenant : Nat) (n : Namespace) (s : State), windowOpen s → adminAt s slot 0x15 → cmdSel (getSlot s slot).cmd = 1 →
    senderOf s slot = 0 → isHead s = false → getNs s (getSlot s slot).cmd.nsid.toNat = some n → n.tenant = some tenant →
    exec (.namespaceDetach slot tenant) s =
      .next (endAdmin (setNs s (getSlot s slot).cmd.nsid.toNat (some { n with tenant := none })) slot (0, 0, false)))

/-- A strike works the device; once a loss flush has begun, only the flush and the strike counter go on. Rests on R22,
R29, 15_bellows.md, 02_strike.md. -/
def Obligations.StrikeRunsOrFlushGoesOn : Prop :=
  (∀ (e : StrikeEnv) (s : State), s.tb.stopped = false → s.pwr.halted = false → s.blw.flush = none →
    exec (.strike e) s = .next (workStrike s e)) ∧
  (∀ (e : StrikeEnv) (f : FlushRun) (s : State), s.tb.stopped = false → s.pwr.halted = false → s.blw.flush = some f →
    (f.started = false → exec (.strike e) s = .next (flushStart (countStrike s) f)) ∧
    (f.started → ∃ t, exec (.strike e) s = .next t ∧ t.tb.count = s.tb.count + 1 ∧
      t = { s with tb := t.tb, fl := t.fl } ∧ t.tb = { s.tb with count := s.tb.count + 1 })) ∧
  (∀ (e : StrikeEnv) (s : State), (s.tb.stopped ∨ s.pwr.halted) → exec (.strike e) s = .next s)

/-- A program, erase, suspend, sense or ageing of a die ends as R29, R31, R32, R153, R154, R157, R159 and R171 say.
Rests on R29, R31, R32, R143, R153, R154, R157, R159, R161, R171, R172, R195. -/
def Obligations.DieOperationsEnd : Prop :=
  (∀ (d id p r : Nat) (k : Course) (s : State), (getDie s d).target = some (.unit id p r) → statusDue (getDie s d) →
    getCourse s id = some k →
    ((k.unit p).st = .sending → (k.unit p).row = r → slabDie (k.slabs.getD p 0) = d →
      exec (.programDone d) s = .next (setCourse (setDie s d (getDie s d).opEnd) id
        (some (k.setUnit p { k.unit p with st := .programmed, moved := 0, sensed := 0 })))) ∧
    exec (.programFail d) s = .next (failUnit (setDie s d (getDie s d).opEnd) id p false)) ∧
  (∀ (d id p r : Nat) (s : State), (getDie s d).target = some (.mend id p r) → statusDue (getDie s d) →
    exec (.programDone d) s = .next (updMend (setDie s d (getDie s d).opEnd) id p fun m =>
      if m.unit.st = .sending ∧ m.unit.row = r ∧ slabDie m.slab = d then
        { m with unit := { m.unit with st := .programmed, moved := 0, sensed := 0 } } else m) ∧
    exec (.programFail d) s = .next (failUnit (setDie s d (getDie s d).opEnd) id p true)) ∧
  (∀ (d : Nat) (s : State), (getDie s d).target = some .journal → statusDue (getDie s d) →
    exec (.programDone d) s = .next (journalDone (setDie s d (getDie s d).opEnd)) ∧
    exec (.programFail d) s =
      .next (journalFail (bump (setDie s d (getDie s d).opEnd) R.MED_PROG_FAIL_CNT_PROG_FAIL))) ∧
  (∀ (d : Nat) (s : State), (getDie s d).erasing → statusDue (getDie s d) →
    let x := getDie s d
    let y := getSlab s x.slab
    let t := setDie s d x.opEnd
    let z := { y with pe := y.pe + 1, erasedAt := s.tb.count }
    (y.reserved = false →
      (y.fail ≠ 3 → exec (.eraseDone d) s = .next (wearCheck (repaySlab
        (setSlab t x.slab { z with st := .erased, course := none, fail := 0 }) x.slab) d)) ∧
      (y.fail = 3 → exec (.eraseDone d) s = .next (wearCheck (repaySlab (retireSlab
        (setSlab t x.slab { z with st := .erased, course := none, fail := 0 }) x.slab 3) x.slab) d)) ∧
      exec (.eraseFail d) s = .next (wearCheck (repaySlab (retireSlab (bump t R.MED_ERASE_FAIL_CNT_ERASE_FAIL)
        x.slab 2) x.slab) d)) ∧
    (y.reserved → exec (.eraseDone d) s = .next (wearCheck (ringErased (setSlab t x.slab z) x.slab) d))) ∧
  (∀ (d : Nat) (s : State), (getDie s d).susSent → (getDie s d).polled → (getDie s d).resetting = false →
    (getDie s d).lost = false →
    (exec (.suspendDone d false) s = .next (setDie s d
      { getDie s d with st := .suspended, susSent := false, suspends := (getDie s d).suspends + 1, served := 0 })) ∧
    ∃ x, exec (.suspendDone d true) s = .next (setDie s d x) ∧ x.st = .idle ∧ x.suspends = (getDie s d).suspends ∧
      x.seq = (getDie s d).winSeq ++ (getDie s d).seq ∧ x.winSeq = []) ∧
  (∀ (d id p : Nat) (k : Course) (s : State), (getDie s d).sensing = none → (getDie s d).bg = some (.verify id p) →
    (getDie s d).polled → (getDie s d).resetting = false → (getDie s d).lost = false → getCourse s id = some k →
    (k.unit p).st = .programmed →
    exec (.senseDone d) s = .next (setCourse (setDie s d { getDie s d with bg := none }) id
      (some (k.setUnit p { k.unit p with sensed := (k.unit p).sensed + 1 })))) ∧
  (∀ (d : Nat) (x : PlanStep) (s : State), (getDie s d).sensing = some x → (getDie s d).resetting = false →
    (getDie s d).lost = false → ((getDie s d).polled ∨ x.sd ≤ s.tb.count + 1) →
    exec (.senseDone d) s = .next (partSensed (setDie s d { getDie s d with
      sensing := none, st := if (getDie s d).st = .reading then .idle else (getDie s d).st }) x.who x.part)) ∧
  (∀ (d : Nat) (e : ProgTarget × Nat) (l : List (ProgTarget × Nat)) (s : State), (getDie s d).progs = e :: l →
    (getDie s d).aged = false → e.2 + rd s R.STK_SUSP_PROG_AGE ≤ s.tb.count →
    exec (.programAged d) s = .next (setDie s d { getDie s d with aged := true }))

/-- A timed-out die is reset and returns or is lost; channels train and re-centre; released slabs wait for their erase.
Rests on R124, R160, R196, R199, R202, 08_flash_channels.md. -/
def Obligations.TimeoutsTrainingAndReleases : Prop :=
  (∀ (d : Nat) (s : State), (getDie s d).present → (getDie s d).lost = false → (getDie s d).resetting = false →
    timedOut s (getDie s d) →
    exec (.dieOpTimeout d) s = .next (emit (bumpAt (setDie s d { getDie s d with resetting := true })
      R.FCH_TIMEOUT_CNT_TIMEOUT (0x1000 * (d / 32)) 0 1) (.lunReset d))) ∧
  (∀ (d : Nat) (s : State), (getDie s d).resetting →
    exec (.lunResetDone d true) s = .next (timeoutFailed s d) ∧ exec (.lunResetDone d false) s = .next (dieLost s d)) ∧
  (∀ (ch : Nat) (r : Fin 3) (s : State), (getChan s ch).st = .training →
    (startRate s ch = r.val →
      exec (.channelTrainingDone ch (some r)) s = .next (setChan s ch { getChan s ch with
        st := .ready, rate := r.val, retained := true, tempAt := chanTemp s ch, recentre := 0, wpHigh := true })) ∧
    (startRate s ch < r.val → ∃ t, exec (.channelTrainingDone ch (some r)) s = .next t ∧ (getChan t ch).st = .ready ∧
      (getChan t ch).rate = r.val ∧ rdAt t R.FCH_STATUS_TRAIN_FAIL (0x1000 * ch) 0 = 1) ∧
    ∃ t, exec (.channelTrainingDone ch none) s = .next t ∧ (getChan t ch).st = .fault ∧
      (∀ i, i < 32 → (getDie t (32 * ch + i)).present = false) ∧ t.med = s.med ∧ t.ord = s.ord ∧ t.ten = s.ten) ∧
  (∀ (ch : Nat) (narrow : Bool) (s : State), (getChan s ch).recentre = 1 →
    ∃ t, exec (.recentreDone ch narrow) s = .next t ∧
      getChan t ch = { getChan s ch with recentre := 0, tempAt := chanTemp s ch } ∧
      (∀ j, j ≠ ch → getChan t j = getChan s j) ∧ t.fl.dies = s.fl.dies ∧ t.med = s.med ∧ t.ord = s.ord ∧
      (narrow = false → t.hm = s.hm)) ∧
  (∀ (rel : Nat) (x : Release) (s : State), Tbl.get Tbl.absent s.med.releases rel = some x → x.until_ ≤ s.tb.count →
    devOn s x.slabs = false → exec (.slabRelease rel) s = .next (slabRelease s rel x))

/-- Rows start, units pass or fail read-back and return to NONE, and mends, migrations and collections cut over. Rests
on R131, R132, R150, R160, R162, R168, R171, R172, R173. -/
def Obligations.RowsUnitsAndMends : Prop :=
  (∀ (id : Nat) (k : Course) (s : State), getCourse s id = some k → rowReady s k → strikesRun s →
    exec (.rowDataInStart id) s = .next (startRow s id k)) ∧
  (∀ (id p bits : Nat) (k : Course) (s : State), getCourse s id = some k → k.mendAt p = none →
    (readBackIn s (k.unit p) (k.slabs.getD p 0) → bits ≤ rdForce s R.MED_LADDER_REFRESH_TH →
      ((k.kind = .zone ∨ k.kind = .conv) → exec (.verifyPass id p bits) s =
        .next (setCourse s id (some (k.setUnit p { k.unit p with st := .verifying })))) ∧
      (k.kind ≠ .zone → k.kind ≠ .conv → exec (.verifyPass id p bits) s = .next (unitDone s id p))) ∧
    (readBackIn s (k.unit p) (k.slabs.getD p 0) → rdForce s R.MED_LADDER_REFRESH_TH < bits →
      exec (.verifyPass id p bits) s = .next (failUnit (bump s R.MED_PAR_VFY_FAIL_CNT_VFY_FAIL) id p false)) ∧
    ((k.unit p).st = .programmed → 0 < (k.unit p).sensed →
      exec (.verifyFail id p) s = .next (failUnit (bump s R.MED_PAR_VFY_FAIL_CNT_VFY_FAIL) id p false))) ∧
  (∀ (id p bits : Nat) (k : Course) (m : Mend) (s : State), getCourse s id = some k → k.mendAt p = some m →
    (readBackIn s m.unit m.slab → bits ≤ rdForce s R.MED_LADDER_REFRESH_TH →
      exec (.verifyPass id p bits) s = .next (mendVerified s id p)) ∧
    (readBackIn s m.unit m.slab → rdForce s R.MED_LADDER_REFRESH_TH < bits →
      exec (.verifyPass id p bits) s = .next (failUnit (bump s R.MED_PAR_VFY_FAIL_CNT_VFY_FAIL) id p true)) ∧
    (m.unit.st = .programmed → 0 < m.unit.sensed →
      exec (.verifyFail id p) s = .next (failUnit (bump s R.MED_PAR_VFY_FAIL_CNT_VFY_FAIL) id p true))) ∧
  (∀ (id p : Nat) (k : Course) (s : State), getCourse s id = some k → (k.unit p).st = .verifying → (k.unit p).bitmap = 0 →
    exec (.unitXorOutDone id p) s = .next (releaseSet (setCourse s id (some
      { k.setUnit p { row := 0, bitmap := 0, st := .none, moved := 0, sensed := 0 } with
        done := k.done.set p ((k.unit p).row + 1) })) id)) ∧
  (∀ (id : Nat) (k : Course) (m : Mend) (s : State), getCourse s id = some k → k.mends.find? (mendCaught s id k) = some m →
    id ∈ (mendOrder s).take (max 1 (rdForce s R.MED_GC_CTRL_PARALLEL)) →
    exec (.mendCutover id) s = .next (cutMend s id k m)) ∧
  (∀ (id dest : Nat) (k d : Course) (s : State), getCourse s id = some k → k.kind = .zone →
    (getZone s k.nsid k.owner).moveTo = some dest → (getZone s k.nsid k.owner).hidden = .migrating →
    (getZone s k.nsid k.owner).course = some id → (getZone s k.nsid k.owner).cutAt = none →
    getCourse s dest = some d → allVerified s d →
    exec (.migrationCutover id) s = .next (setZone s k.nsid k.owner
      { getZone s k.nsid k.owner with cutAt := some (s.tb.count + 1) })) ∧
  (∀ (nsid dom : Nat) (d : Domain) (r : Collection) (s : State), getDomain s nsid dom = some d → d.run = some r →
    r.copies = [] → validUnits s nsid r.victim = [] →
    (∀ e ∈ s.fl.devs, ∀ x, e.2 = some x → x.use ≠ .collect nsid dom) →
    exec (.collectionVictimDone nsid dom) s = .next (collectionDone s nsid dom d r)) ∧
  (∀ (who : Reader) (part : Nat) (ok : Bool) (x : RdPart) (s : State), (readerParts s who)[part]? = some x →
    ladderRuns s who part x ok → exec (.ladderStepDone who part ok) s = .next (ladderStepDone s who part x ok))

/-- A media instruction that waits goes on when it may, and a read is posted when its strike is in. Rests on R97, R99,
R123, R140. -/
def Obligations.WaitingMediaInstructionsGoOn : Prop :=
  (∀ (rid : Nat) (s : State), postDue s rid → exec (.readResultPosted rid) s = .next (postRead s rid)) ∧
  (∀ (rid : Nat) (q : Req) (s : State), getReq s rid = some q → q.phase = .pending → pendingReady s q →
    ((q.op = 0x50 ∨ q.op = 0x54 ∨ q.op = 0x57) → exec (.mediaInstructionResume rid) s =
      .next (setReq s rid (some { q with phase := .presented }))) ∧
    ((q.op ≠ 0x50 ∧ q.op ≠ 0x54 ∧ q.op ≠ 0x57) → exec (.mediaInstructionResume rid) s =
      .next (tryPlace (setReq s rid (some { q with phase := .placed })) rid))) ∧
  (∀ (rid : Nat) (q : Req) (s : State), getReq s rid = some q → q.phase = .placed → formationReady s q →
    exec (.courseFormationResume rid) s = .next (tryPlace s rid)) ∧
  (∀ (rid : Nat) (q : Req) (w : WritePlan) (n : Namespace) (s : State), getReq s rid = some q → q.write = some w →
    getNs s w.nsid = some n → q.phase = .waitAction → actBlocked s rid (q.imm.toNat % 256) w n = false →
    exec (.zoneActionEffect rid) s = .next (runAction s rid (q.imm.toNat % 256) q w n))

/-- A _LO and _HI pair is captured and staged for each requester as R7 says. The rules: R7. -/
def Obligations.RegisterPairsReadWhole : Prop :=
  (∀ (req lo : Nat) (s : State), accessOpen s req → isLow lo → lo % 4 = 0 →
    ∃ t, exec (.regPairLoRead req lo 4) s = .next t ∧ Tbl.get w32z t.reg.rdData req = regValue s req lo ∧
      Tbl.get Tbl.absent t.reg.capture (pairKey req lo) = some (regValue s req (lo + 4)) ∧
      (∀ k, k ≠ pairKey req lo → Tbl.get Tbl.absent t.reg.capture k = Tbl.get Tbl.absent s.reg.capture k) ∧
      t = { s with reg := { s.reg with capture := t.reg.capture, rdData := t.reg.rdData } }) ∧
  (∀ (req lo : Nat) (s : State), accessOpen s req → isHigh (lo + 4) → isLow (lo + 4) = false → lo % 4 = 0 →
    ∃ t, exec (.regPairHiRead req (lo + 4) 4) s = .next t ∧
      Tbl.get w32z t.reg.rdData req =
        (Tbl.get Tbl.absent s.reg.capture (pairKey req lo)).getD (regValue s req (lo + 4)) ∧
      Tbl.get Tbl.absent t.reg.capture (pairKey req lo) = none ∧
      (∀ k, k ≠ pairKey req lo → Tbl.get Tbl.absent t.reg.capture k = Tbl.get Tbl.absent s.reg.capture k) ∧
      t = { s with reg := { s.reg with capture := t.reg.capture, rdData := t.reg.rdData } }) ∧
  (∀ (req lo : Nat) (v : W32) (s : State), accessOpen s req → isLow lo →
    ∃ t, exec (.regPairLoWrite req lo v) s = .next t ∧
      Tbl.get Tbl.absent t.reg.staging (pairKey req lo) = some v ∧
      (∀ k, k ≠ pairKey req lo → Tbl.get Tbl.absent t.reg.staging k = Tbl.get Tbl.absent s.reg.staging k) ∧
      t = { s with reg := { s.reg with staging := t.reg.staging } }) ∧
  (∀ (req lo : Nat) (v : W32) (s : State), accessOpen s req → isHigh (lo + 4) →
    exec (.regPairHiWrite req (lo + 4) v) s = .next (pairCommit
      { s with reg := { s.reg with staging := Tbl.set Tbl.absent s.reg.staging (pairKey req lo) none } } req lo
      ((Tbl.get Tbl.absent s.reg.staging (pairKey req lo)).getD (regValue s req lo)) v))

/-- A Bay mask with fewer than 16 channels is ignored and sets BAY_REFUSED; another becomes the mask of the Bay. The
rules: R120. -/
def Obligations.BayMaskUnderSixteenIsRefused : Prop :=
  ∀ (req : Nat) (v : W32) (s : State), accessOpen s req →
    let lo := (Tbl.get Tbl.absent s.reg.staging (pairKey req 0x40001C)).getD (regValue s req 0x40001C)
    let m := BitVec.ofNat 64 (lo.toNat + v.toNat * 2 ^ 32)
    ∃ t, exec (.bayMaskWrite req v) s = .next t ∧ Tbl.get Tbl.absent t.reg.staging (pairKey req 0x40001C) = none ∧
      (((List.range 64).filter fun ch => m.getLsbD ch).length < 16 →
        t.med = s.med ∧ rd t R.MED_STATUS_BAY_REFUSED = 1) ∧
      (16 ≤ ((List.range 64).filter fun ch => m.getLsbD ch).length →
        bayMask t (selOf s req R.MED_BAY_SEL_BAY) = m ∧
        (∀ b, b ≠ selOf s req R.MED_BAY_SEL_BAY → bayMask t b = bayMask s b) ∧
        t.med = { s.med with bays := t.med.bays } ∧ t.reg.file = s.reg.file)

/-- Register reads and writes act by access code: RC clears, unaligned accesses do nothing, plain writes follow R8.
Rests on R5, R6, R8, 20_registers.md. -/
def Obligations.RegisterAccessByCode : Prop :=
  (∀ (req addr : Nat) (s : State), accessOpen s req → isLow addr = false → isHigh addr = false → addr % 4 = 0 →
    exec (.rcRegisterRead req addr 4) s = .next (singleRead s req addr) ∧
      Tbl.get w32z (singleRead s req addr).reg.rdData req = regValue s req addr) ∧
  (∀ (req addr size : Nat) (s : State), accessOpen s req → (size ≠ 4 ∨ addr % 4 ≠ 0) →
    ∀ i ∈ [.rcRegisterRead req addr size, .regPairLoRead req addr size, .regPairHiRead req addr size],
      exec i s = .next (answer s req 0)) ∧
  (∀ (req addr size : Nat) (v : W32) (s : State), accessOpen s req →
    ((size ≠ 4 ∨ addr % 4 ≠ 0) → exec (.registerWrite req addr size v) s = .next s) ∧
    (size = 4 → addr % 4 = 0 → (addr ≠ R.GLB_SW_RESET_KEY.addr ∨ forMf req = false ∨ v.toNat % 65536 ≠ 0x5EED) →
      exec (.registerWrite req addr size v) s = .next (regWrite s req addr v))) ∧
  (∀ (req addr : Nat) (v : W32) (s : State),
    (regAt addr = none → plainWrite s req addr v = s ∧ regValue s req addr = 0) ∧
    ∀ r, regAt addr = some r →
      plainWrite s req addr v = setWord s (cellOf s req addr r) (writeWord s r (regWord s (cellOf s req addr r)) v))

/-- A plain register write changes RW bits, clears W1C bits, and leaves RO, RC and locked RWL bits as they were. Rests
on R8, R418, 20_registers.md. -/
def Obligations.WritesKeepLockedAndReadOnlyBits : Prop :=
  (∀ r ∈ regMap, r.maskOf (fun a => a == .rw || a == .rwl) &&& r.maskOf (· == .w1c) = 0) ∧
  ∀ (s : State) (r : RegDesc) (old v : W32) (i : Nat), r ∈ regMap → i < 32 →
    let open_ := (BitVec.ofNat 32 (r.maskOf fun a => a == .rw || (a == .rwl && !s.boot.locked))).getLsbD i
    let once := (BitVec.ofNat 32 (r.maskOf (· == .w1c))).getLsbD i
    (writeWord s r old v).getLsbD i =
      if open_ then v.getLsbD i else if once then old.getLsbD i && !v.getLsbD i else old.getLsbD i

/-- The registers with a meaning of their own act as their chapters give. Rests on R24, R210, R266, R386, R418, R419,
R433, R434. -/
def Obligations.WritesWithTheirOwnEffect : Prop :=
  (∀ (req : Nat) (v : W32) (s : State), accessOpen s req →
    exec (.eventForceWrite req v) s = .next (setStat s (R.GLB_EVT_FORCE_SOURCE.of v)) ∧
    exec (.stkPeriodWrite req v) s = .next (periodWrite s (R.STK_PERIOD_PER_Q.of v)) ∧
    exec (.kekEpochWrite req v) s = .next (if (epochOf s (selEntry s req .kek)).toNat < v.toNat
      then setEpoch s (selEntry s req .kek) v else wr s R.CPH_STATUS_EPOCH_REFUSED 1) ∧
    exec (.ipEntryCommit req v) s = .next (ipCommit s req v)) ∧
  (∀ (req : Nat) (v : W32) (s : State), accessOpen s req →
    ∃ t, exec (.hmRdSeqWrite req v) s = .next t ∧ Tbl.get Tbl.absent t.hm.rd req = s.hm.find v.toNat ∧
      t.hm = { s.hm with rd := t.hm.rd } ∧ t = { s with reg := t.reg, hm := t.hm }) ∧
  (∀ (req k : Nat) (v : W32) (s : State), accessOpen s req → k < 12 →
    exec (.eventStatusClear req k v) s =
      .next (sendLines (setWord s (statKey k) (regWord s (statKey k) &&& ~~~v)) true) ∧
    exec (.eventEnableWrite req k v) s = .next (sendLines (setWord s (enKey k) (v &&& sourceMask k)) true)) ∧
  (∀ (req : Nat) (v : W32) (s : State), accessOpen s req →
    (v.getLsbD 0 → exec (.bootLockWrite req v) s = .next { s with boot := { s.boot with locked := true } }) ∧
    (v.getLsbD 0 = false → exec (.bootLockWrite req v) s = .next s)) ∧
  (∀ (req : Nat) (v : W32) (s : State), accessOpen s req →
    (v.getLsbD 0 → ∃ t, exec (.execEnWrite req v) s = .next t ∧
      t.boot = { s.boot with locked := true, wdtRunning := false } ∧ t = { s with boot := t.boot, reg := t.reg } ∧
      flag t R.SMT_CTRL_EXEC_EN) ∧
    (v.getLsbD 0 = false → exec (.execEnWrite req v) s = .next (plainWrite s req R.SMT_CTRL_EXEC_EN.addr v)))

/-- Events reach the recorder, commits and rewrites end, a failed read-back degrades it, and time is kept. Rests on
R378, R380, R381, R382, R387, R388, R433. -/
def Obligations.HallmarkTakesEveryEvent : Prop :=
  (∀ (e : Event) (s : State), e.source ≤ 242 → exec (.eventArrival e) s = .next (raise s e)) ∧
  (∀ (r : HmRecord) (s : State), s.hm.committing = some r →
    (s.hm.rewriting = false → exec .recordCommitDone s = .next { s with hm := s.hm.finish r }) ∧
    (s.hm.rewriting → exec .repeatRewriteDone s = .next { s with hm := s.hm.finish r }) ∧
    (s.hm.degraded = false →
      exec .commitReadbackFail s = .next (setStat { s with hm := s.hm.degrade r } 226))) ∧
  (∀ (ms : Nat) (s : State), s.pwr.st ≠ .cold → exec (.opMsPersistTimer ms) s = .next { s with hm := { s.hm with
      opMs := (s.hm.opMs + ms) % 2 ^ 48, opMsStored := (s.hm.opMs + ms) % 2 ^ 48 } }) ∧
  (∀ (slot : Nat) (s : State), endpointOpen s → logPageAt s slot 0xC8 →
    let off := logOffset (getSlot s slot).cmd
    let base := if off = 0 then s.hm.tail
      else (Tbl.get Tbl.absent s.hm.captures (senderOf s slot)).getD s.hm.tail
    ∃ t, exec (.getLogPageHallmark slot) s = .next t ∧
      t.out = s.out ++ [.adminData slot (hallmarkBytes s.hm base off (logBytes (getSlot s slot).cmd))] ∧
      Tbl.get Tbl.absent t.hm.captures (senderOf s slot) = some base ∧ (getSlot t slot).st = .posting ∧
      (getSlot t slot).reply = some (0, 0, false) ∧
      t = { s with hm := { s.hm with captures := t.hm.captures }, out := t.out, ord := { s.ord with slots := t.ord.slots } })

/-- Identical events fold, others queue within 64 entries or are lost; sequence numbers are never 0. Rests on R377,
R381, R382, R383. -/
def Obligations.RecorderCountsOrLosesNoRepeat : Prop :=
  (∀ (h : Hall) (code : W16) (param : List Byte) (r : HmRecord), h.committing = some r → r.same code param →
    h.arrive code param = { h with pendingRep := h.pendingRep + 1 }) ∧
  (∀ (h : Hall) (code : W16) (param : List Byte) (r : HmRecord), h.committing = some r → r.same code param = false →
    (h.fifo.any (fun x => x.same code param) → (h.arrive code param).fifo.length = h.fifo.length) ∧
    (h.fifo.any (fun x => x.same code param) = false → h.fifo.length + b2n h.lost.isSome < 64 →
      (h.arrive code param).fifo = h.fifo ++ [freshRecord h code param])) ∧
  (∀ (h : Hall) (code : W16) (param : List Byte), h.fifo.length ≤ 64 → (h.arrive code param).fifo.length ≤ 64) ∧
  (∀ (h : Hall) (r : HmRecord), h.fifo.length ≤ 64 → (h.finish r).fifo.length ≤ 64) ∧
  (∀ (h : Hall) (r : HmRecord), 0 < h.pendingRep →
    (h.finish r).committing = some { r with repeat_ := min (r.repeat_ + h.pendingRep) 65535 } ∧
    (h.finish r).rewriting = true ∧ (h.finish r).pendingRep = 0) ∧
  ∀ n, n ≤ 0xFFFFFFFF → 1 ≤ nextSeq n ∧ nextSeq n ≤ 0xFFFFFFFF

/-- A logical port comes up, answers ARP, ND and echo for its own addresses, drops other frames and pauses on its
priority. Rests on R209, R210, R211, R213, R234. -/
def Obligations.PortsAnswerTheirOwnAddresses : Prop :=
  (∀ (lp : Nat) (up : Bool) (s : State), lp < 8 → (getLPort s lp).up ≠ up → isMember s = false →
    (up → portEnabled s (portOf lp) ∧ lportExists (getLPort s lp).mode lp) →
    ∃ t, exec (.ethernetLinkChange lp up) s = .next t ∧ getLPort t lp = { getLPort s lp with up := up } ∧
      (∀ j, j ≠ lp → getLPort t j = getLPort s j) ∧ t = { s with port := { s.port with lports := t.port.lports } }) ∧
  (∀ (lp : Nat) (a : IpAddr) (vlan : Option Nat) (load : List Byte) (s : State), lp < 8 → (getLPort s lp).up → s.pwr.st = .hot →
    (ownAddress s lp a → vlanOk s lp vlan →
      exec (.addressResolutionRequest lp a vlan) s = .next { s with out := s.out ++ [.arpReply lp a] } ∧
      exec (.icmpEchoRequest lp a vlan load) s = .next { s with out := s.out ++ [.echoReply lp a load] }) ∧
    ((ownAddress s lp a = false ∨ vlanOk s lp vlan = false) →
      exec (.addressResolutionRequest lp a vlan) s = .next (bump s R.ETH_DROP_CNT_DROP) ∧
      exec (.icmpEchoRequest lp a vlan load) s = .next (bump s R.ETH_DROP_CNT_DROP))) ∧
  (∀ (lp : Nat) (s : State), lp < 8 → (getLPort s lp).up →
    exec (.foreignFrame lp) s = .next (bump s R.ETH_DROP_CNT_DROP)) ∧
  (∀ (lp : Nat) (prio : BitVec 3) (quanta : W16) (s : State), lp < 8 → (getLPort s lp).up →
    (lportField s R.ETH_LPORT_CFG_PFC_EN lp = 1 → lportField s R.ETH_LPORT_CFG_PRIO lp = prio.toNat →
      exec (.pfcPauseReceived lp prio quanta) s =
        .next (setLPort s lp { getLPort s lp with paused := quanta.toNat })) ∧
    ((lportField s R.ETH_LPORT_CFG_PFC_EN lp ≠ 1 ∨ lportField s R.ETH_LPORT_CFG_PRIO lp ≠ prio.toNat) →
      exec (.pfcPauseReceived lp prio quanta) s = .next s)) ∧
  (∀ (qp : Nat) (s : State), qpWorks s qp → exec (.hostRdmaAccess qp) s = .next { s with out := s.out ++ [.nakAccess qp] })

/-- Queue pairs are accepted, bound by Connect, kept alive, retried and put in error. Rests on R213, R214, R216, R222,
R241, 09_host_ports.md. -/
def Obligations.QueuePairsConnectAndFail : Prop :=
  (∀ (lp : Nat) (s : State), lp < 8 → (getLPort s lp).up → flag s R.ETH_RT_CTRL_RT_EN → windowOpen s →
    (findQp s = none → exec (.connectionRequest lp) s = .next (emit s (.cmReject lp))) ∧
    (∀ q, findQp s = some q → ∃ t, exec (.connectionRequest lp) s = .next t ∧ (getQp t q).st = .connected ∧
      (getQp t q).lport = lp ∧ (getQp t q).credit = 0 ∧ (getQp t q).alpha = 2 ^ 32 ∧
      (getQp t q).rtWord = regWord s R.ETH_RT_CTRL_RT_EN.addr ∧ (∀ j, j ≠ q → getQp t j = getQp s j) ∧
      t = { s with port := { s.port with qps := t.port.qps }, out := s.out ++ [.cmAccept lp q (pathMtu s lp)] })) ∧
  (∀ (qp : Nat) (k : ConnectCmd) (s : State), (getQp s qp).st = .connected → windowOpen s →
    (k.admin ∨ k.discovery → assocQps s k.assoc = []) →
    (k.discovery → exec (.connect qp k) s = .next (Sys2Proof.Machine.connect s qp 0 k)) ∧
    (k.discovery = false → nqnTenant s k.nqn = none →
      exec (.connect qp k) s = .next { s with out := s.out ++ [.connectReply qp 1 0x84] }) ∧
    (∀ t, k.discovery = false → nqnTenant s k.nqn = some t →
      exec (.connect qp k) s = .next (Sys2Proof.Machine.connect s qp t k))) ∧
  (∀ (s : State) (qp t : Nat) (k : ConnectCmd),
    (connectStatus s t k = (0, 0) → (getQp (Sys2Proof.Machine.connect s qp t k) qp).st = .live ∧
      (getQp (Sys2Proof.Machine.connect s qp t k) qp).tenant = t ∧
      (getQp (Sys2Proof.Machine.connect s qp t k) qp).sqsize = k.sqsize) ∧
    (connectStatus s t k ≠ (0, 0) → Sys2Proof.Machine.connect s qp t k =
      { s with out := s.out ++ [.connectReply qp (connectStatus s t k).1 (connectStatus s t k).2] })) ∧
  (∀ (qp : Nat) (s : State), (getQp s qp).st = .live → (getQp s qp).admin →
    exec (.keepAlive qp) s = .next { s with port := { s.port with
      keepAlive := Tbl.set nat0 s.port.keepAlive (getQp s qp).assoc s.tb.count } }) ∧
  (∀ (a : Nat) (s : State),
    (s.port.qps.filter fun e => e.2.st == .live && e.2.assoc == a) ≠ [] →
    exec (.keepAliveExpiry a) s =
      .next (((s.port.qps.filter fun e => e.2.st == .live && e.2.assoc == a).map (·.1)).foldl oneQpError s)) ∧
  (∀ (qp : Nat) (s : State), qpWorks s qp →
    exec (.qpTransportError qp) s = .next (qpError s qp) ∧ exec (.qpDisconnect qp) s = .next (qpError s qp) ∧
    ((getQp s qp).ackTries < R.ETH_RT_CTRL_RETRY_CNT.of (getQp s qp).rtWord →
      exec (.ackTimeout qp) s = .next (setQp s qp { getQp s qp with ackTries := (getQp s qp).ackTries + 1 })) ∧
    (R.ETH_RT_CTRL_RETRY_CNT.of (getQp s qp).rtWord ≤ (getQp s qp).ackTries →
      exec (.ackTimeout qp) s = .next (qpError s qp)))

/-- CE marks bring CNPs at most once in each INTERVAL; CNPs cut the rate, timers recover it and decay alpha. Rests on
R224, R225, 09_host_ports.md. -/
def Obligations.CongestionControlCommands : Prop :=
  (∀ (qp us : Nat) (s : State), qpWorks s qp →
    let due := (getQp s qp).lastCnpUs = none ∨ ∃ l, (getQp s qp).lastCnpUs = some l ∧
      R.ETH_CC_NP_INTERVAL.of (getQp s qp).npWord ≤ us - l
    (R.ETH_CC_NP_NP_EN.of (getQp s qp).npWord = 1 → due → exec (.ceMarkedPacket qp us) s =
      .next (bump (emit (setQp s qp { getQp s qp with lastCnpUs := some us }) (.cnp qp
        (lportField s R.ETH_LPORT_CFG_PRIO (getQp s qp).lport) (lportField s R.ETH_LPORT_CFG_CNP_DSCP (getQp s qp).lport)))
        R.ETH_CNP_TX_CNT_CNP_TX)) ∧
    ((R.ETH_CC_NP_NP_EN.of (getQp s qp).npWord ≠ 1 ∨ ¬due) → exec (.ceMarkedPacket qp us) s = .next s)) ∧
  (∀ (qp : Nat) (s : State), qpWorks s qp →
    (R.ETH_CC_NP_RP_EN.of (getQp s qp).npWord = 1 →
      exec (.cnpReceived qp) s = .next (bump (setQp s qp (getQp s qp).cut) R.ETH_CNP_RX_CNT_CNP_RX) ∧
      exec (.rateIncreaseTimer qp) s =
        .next (setQp s qp ((getQp s qp).recover (lineRate (getLPort s (getQp s qp).lport).mode * 65536))) ∧
      exec (.alphaDecayTimer qp) s = .next (setQp s qp { getQp s qp with alpha := alphaStep (getQp s qp) false })) ∧
    (R.ETH_CC_NP_RP_EN.of (getQp s qp).npWord ≠ 1 →
      exec (.cnpReceived qp) s = .next (bump s R.ETH_CNP_RX_CNT_CNP_RX)))

/-- The PCIe link trains, controllers start and stop, queues are created and deleted, doorbells move and resets act.
Rests on R226, R228, R229, R231, R232, R236, R417. -/
def Obligations.PcieFunctionsAndQueues : Prop :=
  (∀ (speed width : Nat) (flit : Bool) (s : State), s.port.linkUp = false → isMember s = false → windowOpen s →
    1 ≤ speed → speed ≤ maxSpeed s → width ∈ [1, 2, 4, 8] → width ≤ maxWidth s → (speed = 6 → flit) →
    exec (.pcieLinkUp speed width flit) s = .next { s with port := { s.port with
      linkUp := true, linkSpeed := speed, linkWidth := width, linkFlit := flit, perstHigh := true } }) ∧
  (∀ (fn sq cq : Nat) (acq : W64) (s : State), s.port.linkUp → windowOpen s → fn < 1024 → 2 ≤ sq → 2 ≤ cq →
    exec (.controllerEnable fn false sq cq acq) s = .next (controllerReset s fn) ∧
    ((getFunc s fn).rdy → exec (.controllerEnable fn true sq cq acq) s = .next s) ∧
    ((getFunc s fn).rdy = false → functionWorks s fn → exec (.controllerEnable fn true sq cq acq) s =
      .next (setFunc s fn { adminQueues sq cq acq with rdy := s.boot.ioReady })) ∧
    ((getFunc s fn).rdy = false → functionWorks s fn = false → exec (.controllerEnable fn true sq cq acq) s =
      .next (setFunc s fn { getFunc s fn with en := true }))) ∧
  (∀ (slot : Nat) (base : W64) (s : State), (getFunc s (senderOf s slot)).rdy → windowOpen s → adminAt s slot 0x05 →
    let fn := senderOf s slot
    let qid := queueId (getSlot s slot).cmd
    let size := queueSize (getSlot s slot).cmd
    (createStatus s fn qid size (getFunc s fn).cqs = (0, 0) → exec (.createIoCompletionQueue slot base) s =
      .next (endAdmin (setFunc s fn { getFunc s fn with cqs := (Tbl.set Tbl.absent (getFunc s fn).cqs qid
        (some { base := base, size := size, head := 0, tail := 0, cqid := qid })) }) slot (0, 0, false))) ∧
    (∀ sct sc, createStatus s fn qid size (getFunc s fn).cqs = (sct, sc) → (sct, sc) ≠ (0, 0) →
      exec (.createIoCompletionQueue slot base) s = .next (admin s slot (sct, sc) []))) ∧
  (∀ (slot : Nat) (s : State), (getFunc s (senderOf s slot)).rdy → windowOpen s → adminAt s slot 0x01 →
    let fn := senderOf s slot
    let qid := queueId (getSlot s slot).cmd
    let size := queueSize (getSlot s slot).cmd
    let cqid := (getSlot s slot).cmd.dw11.toNat / 65536
    cqid ≠ 0 → (Tbl.get Tbl.absent (getFunc s fn).cqs cqid).isSome →
    createStatus s fn qid size (getFunc s fn).sqs = (0, 0) → exec (.createIoSubmissionQueue slot) s =
      .next (endAdmin (setFunc s fn { getFunc s fn with sqs := (Tbl.set Tbl.absent (getFunc s fn).sqs qid
        (some { base := 0, size := size, head := 0, tail := 0, cqid := cqid })) }) slot (0, 0, false))) ∧
  (∀ (slot : Nat) (s : State), (getFunc s (senderOf s slot)).rdy → windowOpen s → queueId (getSlot s slot).cmd ≠ 0 →
    let fn := senderOf s slot
    let qid := queueId (getSlot s slot).cmd
    (adminAt s slot 0x00 → (Tbl.get Tbl.absent (getFunc s fn).sqs qid).isSome → exec (.deleteIoQueue slot) s =
      .next (endAdmin (setFunc s fn { getFunc s fn with sqs := Tbl.set Tbl.absent (getFunc s fn).sqs qid none })
        slot (0, 0, false))) ∧
    (adminAt s slot 0x04 → (Tbl.get Tbl.absent (getFunc s fn).cqs qid).isSome →
      ((getFunc s fn).sqs.any (fun e => (e.2.map (·.cqid)) == some qid)) = false →
      exec (.deleteIoQueue slot) s =
        .next (endAdmin (setFunc s fn { getFunc s fn with cqs := Tbl.set Tbl.absent (getFunc s fn).cqs qid none })
          slot (0, 0, false)))) ∧
  (∀ (fn qid : Nat) (v : W32) (q : NvmeQueue) (s : State), (getFunc s fn).rdy → windowOpen s →
    (Tbl.get Tbl.absent (getFunc s fn).sqs qid = some q →
      let free := q.size - 1 - ringDist q.size q.head q.tail
      (v.toNat < q.size → ringDist q.size q.tail v.toNat ≤ free → exec (.doorbellWrite fn (2 * qid) v) s =
        .next (setFunc s fn { getFunc s fn with
          sqs := Tbl.set Tbl.absent (getFunc s fn).sqs qid (some { q with tail := v.toNat }) })) ∧
      ((q.size ≤ v.toNat ∨ free < ringDist q.size q.tail v.toNat) →
        exec (.doorbellWrite fn (2 * qid) v) s = .next (doorbellError s fn 1))) ∧
    (Tbl.get Tbl.absent (getFunc s fn).cqs qid = some q →
      let used := ringDist q.size q.head q.tail
      (v.toNat < q.size → ringDist q.size q.head v.toNat ≤ used → exec (.doorbellWrite fn (2 * qid + 1) v) s =
        .next (drainBacklog fn (getFunc s fn).backlog.length (setFunc s fn { getFunc s fn with
          cqs := Tbl.set Tbl.absent (getFunc s fn).cqs qid (some { q with head := v.toNat }) }))) ∧
      ((q.size ≤ v.toNat ∨ used < ringDist q.size q.head v.toNat) →
        exec (.doorbellWrite fn (2 * qid + 1) v) s = .next (doorbellError s fn 1))) ∧
    (Tbl.get Tbl.absent (getFunc s fn).sqs qid = none →
      exec (.doorbellWrite fn (2 * qid) v) s = .next (doorbellError s fn 0))) ∧
  (∀ (fn : Nat) (s : State), s.port.linkUp → windowOpen s → fn < 1024 →
    exec (.functionLevelReset fn) s = .next (if functionWorks (bump s R.PCI_FLR_CNT_FLR) fn
      then flrReset (bump s R.PCI_FLR_CNT_FLR) fn else controllerReset (bump s R.PCI_FLR_CNT_FLR) fn)) ∧
  (∀ (perst : Bool) (s : State), isMember s = false → s.pwr.halted = false → (s.pwr.st = .hot ∨ s.pwr.st = .banked) →
    ∃ t, exec (.pcieReset perst) s = .next t ∧ t.port.linkUp = false ∧ (perst → t.port.perstHigh = false) ∧
      t = { pcieReset s with port := t.port }) ∧
  (∀ (eid : Byte) (s : State), exec (.endpointIdAssignment eid) s = .next { s with port := { s.port with eid := eid } })

/-- Stale results are discarded, resets and destroys end, deferred resets act, and dirty logs are kept. Rests on R251,
R252, R254, R256, R261, R262, R397, R400. -/
def Obligations.TenantsResetAndRecordDirtyPages : Prop :=
  (∀ (rid : Nat) (q : Req) (s : State), getReq s rid = some q → q.gen ≠ (getTen s q.tenant).gen →
    (q.onWire ∨ q.isHost ∨ q.phase = .done) → exec (.staleResultDiscard rid) s = .next (discardResult s rid)) ∧
  (∀ (n : Nat) (s : State), (getTen s n).resetAt = none → oldRequests s n = false →
    ((getTen s n).st = .resetting → (getTen s n).flrWaiting = false →
      exec (.tenantResetEnd n) s = .next (tenantEvent (setTen s n { getTen s n with st := .active }) 4 n 0)) ∧
    ((getTen s n).st = .destroying → slotsUsed s n = 0 → ∃ t, exec (.tenantDestroyEnd n) s = .next t ∧
      getTen t n = ten0 n ∧ (∀ j, j ≠ n → getTen t j = getTen s j) ∧ t.med = s.med ∧ t.port = s.port)) ∧
  (∀ (n : Nat) (s : State), (getTen s n).flrWaiting → (getTen s n).st = .resetting → genClash s n = false →
    exec (.deferredFlrEffect n) s = .next (tenantEvent (startReset (setTen s n { getTen s n with flrWaiting := false })
      n .resetting) 2 n 0)) ∧
  (∀ (r : TenantRecord) (s : State), isMember s → r.tenant < 1024 →
    (r.present = false → (getTen s r.tenant).there → r.tenant ≠ 0 →
      exec (.memberTenantRecord r) s = .next (tenantDestroy s r.tenant)) ∧
    (r.present → (getTen s r.tenant).there = false → ∃ t, exec (.memberTenantRecord r) s = .next t ∧
      (getTen t r.tenant).st = .active ∧ (getTen t r.tenant).gen = r.gen ∧ (getTen t r.tenant).blk = parseBlock r.block ∧
      ∀ j, j ≠ r.tenant → getTen t j = getTen s j)) ∧
  (∀ (req : Nat) (s : State), windowOpen s → req < 10 →
    exec (.dirtyLogEnable req) s = .next (dirtyOn s (selOf s req R.TEN_SEL_TENANT)) ∧
    exec (.dirtyLogSwap req) s = .next (dirtySwap s (selOf s req R.TEN_SEL_TENANT)) ∧
    exec (.dirtyLogDisable req) s = .next (dirtyStop s (selOf s req R.TEN_SEL_TENANT))) ∧
  (∀ (n : Nat) (s : State), (getTen s n).dirty.busy → (getTen s n).dirty.swapNext = false →
    ((getTen s n).dirty.en → rdAt s R.TEN_DIRTY_CTRL_EN 0 n ≠ 0) → writesBefore s n (getTen s n).dirty.swapAt = false →
    exec (.dirtyLogFlushDone n) s = .next (setTen s n { getTen s n with dirty := { (getTen s n).dirty with
      busy := false, old := (getTen s n).dirty.was, flushing := [] } }))

/-- A budget grants its rate and never more, a bucket stays within its depth, and a rate and alpha stay within their
bounds. Rests on R26, R225, R248. -/
def Obligations.TokensAndRatesStayInTheirBounds : Prop :=
  (∀ num den n : Nat, 0 < den →
    ((List.range n).foldl (fun a i => a + grantOf num den (i + 1)) 0) = n * num / den) ∧
  (∀ num den n : Nat, 0 < den → 1 ≤ n → num / den ≤ grantOf num den n ∧ grantOf num den n ≤ num / den + 1) ∧
  (∀ (s : State) (x : Tenant),
    (grantTokens s x).rd ≤ x.blk.rdDepth ∧ (grantTokens s x).wr ≤ x.blk.wrDepth ∧
    (x.rd ≤ x.blk.rdDepth → x.rd ≤ (grantTokens s x).rd) ∧ (x.wr ≤ x.blk.wrDepth → x.wr ≤ (grantTokens s x).wr)) ∧
  (∀ x : QPair, x.alpha ≤ 2 ^ 32 → rateMin x ≤ x.rc →
    rateMin x ≤ x.cut.rc ∧ x.cut.rc ≤ x.rc ∧ x.cut.rt = x.rc ∧ x.cut.alpha ≤ 2 ^ 32) ∧
  (∀ x : QPair, alphaStep x false ≤ x.alpha) ∧
  (∀ (x : QPair) (line : Nat), x.rt ≤ line → x.rc ≤ x.rt →
    (x.recover line).rt ≤ line ∧ (x.recover line).rc ≤ (x.recover line).rt ∧ x.rc ≤ (x.recover line).rc)

/-- Lanes finish, release and zero; the register interface of the Assay starts, feeds, exports and frees contexts. Rests
on R276, R278, R283, R284, R287, R288, R292, 12_hash_and_trust.md. -/
def Obligations.CipherAndAssayCommands : Prop :=
  (∀ (l rid : Nat) (q : Req) (rest : List Nat) (s : State), (getLane s l).finished = rid :: rest → getReq s rid = some q →
    exec (.laneRequestDone l) s = .next (requestDone (setLane s l { getLane s l with finished := rest }) l rid q)) ∧
  (∀ (l rid : Nat) (q : Req) (pages : List Nat) (s : State), getReq s rid = some q →
    ((getLane s l).releasing = some rid → q.doneAt < s.tb.count →
      exec (.holdReleaseDone l pages) s = .next (releaseDone s l rid q pages)) ∧
    (zeroingOn s l = some (rid, q) → exec (.zeroingDone l pages) s =
      .next (deliver (bump (markPages s q.tenant pages) R.CPH_ZEROED_CNT_ZEROED) rid 0x4002 none))) ∧
  (∀ (k : Nat) (s : State), groupTurn s (homeGroup k) = some k → domServes s (asDom (homeGroup k)) →
    blockCost (getCtx s k).sha512 ≤ groupLeft s (homeGroup k) → strikesRun s →
    exec (.blockCompressed k) s = .next (compressOne s k)) ∧
  (∀ (k n : Nat) (algo : Bool) (v : W32) (s : State), windowOpen s → regOwned s k → (getCtx s k).busy = false →
    let t := wrAt s R.DG_CTRL_ALGO (dgPage k) 0 (b2n algo)
    let x := getCtx s k
    let y := newMessage s k
    exec (.dgInit k algo) s = .next (setCtx t k { x.begin algo with ovr := false, ovrNext := false }) ∧
    (x.valid = false → x.err = false → x.ovr = false → x.count % shaBlock x.sha512 = 0 →
      exec (.dgExport k algo) s = .next (setCtx t k { x with record := recordWords x.stateRecord })) ∧
    (recordValid x.recordBytes → exec (.dgImport k algo) s = .next (setCtx t k (x.load x.recordBytes))) ∧
    (y.count + 4 < 2 ^ 61 → exec (.dgDataWrite k v) s = .next (placeCtx s k
      (({ y with buf := y.buf ++ leBytes 4 v.toNat, count := y.count + 4 } : AssayCtx).settle s.tb.count))) ∧
    (n ≤ 4 → rdAt s R.DG_LAST_CNT_BYTES (dgPage k) 0 = n → y.count + n < 2 ^ 61 →
      exec (.dgLastWrite k v) s = .next (placeCtx s k
        (({ y with buf := y.buf ++ leBytes n v.toNat, count := y.count + n } : AssayCtx).finish s.tb.count)))) ∧
  (∀ (k : Nat) (algo : Bool) (v : W32) (s : State), windowOpen s → regOwned s k = false →
    ∀ i ∈ [Instr.dgInit k algo, .dgExport k algo, .dgImport k algo, .dgDataWrite k v, .dgLastWrite k v],
      exec i s = .next s) ∧
  (∀ (req : Nat) (v : W32) (s : State), windowOpen s → req < 10 →
    (v.getLsbD 31 = false → exec (.dgAllocRequest req v) s = .next s) ∧
    (∀ k, v.getLsbD 31 → allocContext s 0 = some k → ∃ t, exec (.dgAllocRequest req v) s = .next t ∧
      getCtx t k = freshCtx .register (v.getLsbD 0) ∧ (∀ j, j ≠ k → getCtx t j = getCtx s j) ∧
      t.asy.allocRes = BitVec.ofNat 32 k ∧ t = { s with asy := { s.asy with ctxs := t.asy.ctxs, allocRes := t.asy.allocRes } }) ∧
    (v.getLsbD 31 → allocContext s 0 = none → exec (.dgAllocRequest req v) s =
      .next { s with asy := { s.asy with allocRes := BitVec.ofNat 32 (s.asy.allocRes.toNat % 256 + 256) } }) ∧
    (regOwned s (v.toNat % 256) → exec (.dgFreeWrite req v) s = .next (quenchCtx s (v.toNat % 256))) ∧
    (regOwned s (v.toNat % 256) = false → exec (.dgFreeWrite req v) s = .next s))

/-- MF's Security Sends are queued, eight at most, run in order and are answered by Receives; others are refused. Rests
on R301, R302, R303, R304. -/
def Obligations.SecurityProtocolCommands : Prop :=
  (∀ (slot : Nat) (nonce key sig : List Byte) (k : KekRequest) (s : State), windowOpen s →
    (sendAt s slot 1 → exec (.spGetIdentity slot) s = .next (secSend s slot .identity)) ∧
    (sendAt s slot 2 → exec (.spQuote slot nonce) s = .next (secSend s slot (.quote nonce))) ∧
    (sendAt s slot 3 → exec (.spEnrolKeyManager slot key sig) s = .next (secSend s slot (.enrol key sig))) ∧
    (sendAt s slot 4 → exec (.spKekExport slot k) s = .next (secSend s slot (.kek k)))) ∧
  (∀ (s : State) (slot : Nat) (r : SecReq),
    (senderOf s slot ≠ 0 → secSend s slot r = endAdmin s slot (0, 0x01, true)) ∧
    (senderOf s slot = 0 → 8 ≤ s.asy.secOps.length → secSend s slot r = endAdmin s slot (0, 0x0C, false)) ∧
    (∀ n, senderOf s slot = 0 → s.asy.secOps.length < 8 → n.length = 32 → secSend s slot (.quote n) =
      secSettle 8 (endAdmin (setSecOps s (s.asy.secOps ++
        [{ req := .quote n, fin := false, status := (0, 0), answer := [], asked := none }])) slot (0, 0, false)))) ∧
  (∀ (s : State), windowOpen s → (∃ o ∈ s.asy.secOps, o.fin = false) →
    exec .securityOpDone s = .next (secSettle 8 (secFinish s))) ∧
  (∀ (slot : Nat) (o : SecOp) (rest : List SecOp) (s : State), windowOpen s → adminAt s slot 0x82 →
    secProtocol (getSlot s slot).cmd = 0xF0 → senderOf s slot = 0 → s.asy.secOps = o :: rest →
    o.req.code = secOperation (getSlot s slot).cmd → o.asked = none →
    (o.fin → exec (.securityReceive slot) s = .next (admin (setSecOps s rest) slot o.status o.answer)) ∧
    (o.fin = false → exec (.securityReceive slot) s =
      .next (setSecOps (adminHold s slot) ({ o with asked := some (slot, (getSlot s slot).gen) } :: rest)))) ∧
  (∀ (slot : Nat) (s : State), windowOpen s → adminAt s slot 0x82 → secProtocol (getSlot s slot).cmd = 0xF0 →
    (senderOf s slot ≠ 0 → exec (.securityReceive slot) s = .next (endAdmin s slot (0, 0x01, true))) ∧
    (senderOf s slot = 0 →
      (s.asy.secOps.all fun o => o.req.code != secOperation (getSlot s slot).cmd || o.asked.isSome) →
      exec (.securityReceive slot) s = .next (endAdmin s slot (0, 0x0C, false))))

/-- DRAM channels enter and leave self-refresh, refresh, close rows and are scrubbed; Crucible groups enter retention.
Rests on R309, R314, R315, R316, R317, R318, R320, R322, R323. -/
def Obligations.MemoryCommands : Prop :=
  (∀ (ch : Nat) (s : State), dramRuns s → (getDram s ch).entering →
    (exec (.selfRefreshEntry ch) s = .next (setDram s ch { getDram s ch with
      entering := false, sr := true, exiting := false, openRows := [], owed := [], idle := 0 })) ∧
    (exec (.selfRefreshInterrupt ch) s = .next
      (bump (setDram s ch { getDram s ch with entering := false, idle := 0 }) R.DRM_SR_ABANDON_CNT_ABANDON))) ∧
  (∀ (ch : Nat) (s : State), dramRuns s → (getDram s ch).sr →
    ((getDram s ch).entering = false → (getDram s ch).exiting = false → exec (.selfRefreshInterrupt ch) s =
      .next (useDomain (bump (setDram s ch { getDram s ch with exiting := true, idle := 0 }) R.DRM_SR_WAIT_CNT_WAIT)
        (125 + ch))) ∧
    ((getDram s ch).exiting → (getDram s ch).gated = false → domServes s (125 + ch) → exec (.selfRefreshExitDone ch) s =
      .next (setDram s ch { getDram s ch with sr := false, exiting := false, idle := 0 })) ∧
    ((getDram s ch).exiting = false → (getDram s ch).gated = false → (getDom s (125 + ch)).st = .on →
      rdForce s R.DRM_SR_CTRL_GATE_EN = 1 → rdForce s R.DRM_SR_CTRL_GATE_IDLE ≤ (getDram s ch).idle →
      gateAllowed s (125 + ch) → exec (.dmGateIdleExpiry ch) s =
        .next (setDom s (125 + ch) { getDom s (125 + ch) with st := .draining, mgr := false }))) ∧
  (∀ (ch bank : Nat) (busy : Bool) (s : State), dramRuns s →
    ((getDram s ch).sr = false → exec (.refreshDue ch bank busy) s = .next (setDram s ch { getDram s ch with
      openRows := (getDram s ch).openRows.filter (· != bank)
      owed := (Tbl.set nat0 (getDram s ch).owed bank
        (if busy = true ∧ Tbl.get nat0 (getDram s ch).owed bank < 3 then Tbl.get nat0 (getDram s ch).owed bank + 1 else 0)) })) ∧
    (bank ∈ (getDram s ch).openRows → exec (.openRowTimeout ch bank) s = .next (setDram s ch { getDram s ch with
      openRows := (getDram s ch).openRows.filter (· != bank) }))) ∧
  (∀ (ch : Nat) (corrected : List Nat) (bad : List PoisonLine) (s : State), dramRuns s → (getDram s ch).sr = false →
    (getDram s ch).entering = false → rd s R.DRM_SCRUB_HOURS ≠ 0 → (∀ a ∈ corrected, dramChannel a = ch) →
    (∀ l ∈ bad, l.crucible = false ∧ dramChannel l.addr = ch ∧ placeThere s l) →
    exec (.patrolScrub ch corrected bad) s = .next (bad.foldl poisonLine
      (bumpAt (setDram s ch { getDram s ch with idle := 0 }) R.DRM_CE_CNT_CE 0 0 corrected.length))) ∧
  (∀ (corrected : List Nat) (bad : List PoisonLine) (l : PoisonLine) (s : State), s.pwr.st = .hot → strikesRun s →
    (placeThere s l → exec (.uncorrectableLine l) s = .next (poisonLine s l)) ∧
    ((∀ x ∈ bad, x.crucible ∧ placeThere s x) → exec (.crucibleScrub corrected bad) s =
      .next (bad.foldl poisonLine (bumpAt s R.CRU_CE_CNT_CE 0 0 corrected.length)))) ∧
  (∀ (g : Nat) (s : State), s.pwr.st = .hot → strikesRun s → (getGroup s g).retention = false →
    (getDom s (137 + g)).st = .on → rd s R.CRU_CTRL_IDLE ≤ (getGroup s g).idle → groupBusy s g = false →
    neverRetained s g = false → allowsNs s (137 + g) 500 →
    exec (.crucibleRetentionEntry g) s = .next (setGroup s g { getGroup s g with retention := true }))

/-- Domains drain and gate by themselves, wake, and follow the manager's on and off orders. Rests on R338, R339, R340,
14_power.md. -/
def Obligations.SwitchedDomainsGateAndWake : Prop :=
  (∀ (d : Nat) (s : State), s.pwr.st = .hot → strikesRun s → autoGates d → (getDom s d).st = .on → flag s R.PWR_AUTO_EN →
    rd s R.PWR_AUTO_IDLE ≤ (getDom s d).idle → domIdle s d → gateAllowed s d →
    exec (.autoGateIdleExpiry d) s = .next (setDom s d { getDom s d with st := .draining, mgr := false })) ∧
  (∀ (d : Nat) (s : State), (getDom s d).st = .draining →
    ((getDom s d).mgr = false → (getDom s d).back = false → domDrained s d → exec (.autoDrainDone d) s =
      .next (powerDown (setDom s d { getDom s d with st := .autoOff, idle := 0 }) d false)) ∧
    ((getDom s d).mgr → domDrained s d → exec (.domainDrained d) s =
      .next (powerDown (setDom s d { getDom s d with st := .mgrOff, busy := false, result := 0, idle := 0 }) d true)) ∧
    ((getDom s d).mgr → (getDom s d).drainAt + drainLimit s ≤ s.tb.count → exec (.domainDrainLimitExpiry d) s =
      .next (bump (setDom s d { getDom s d with st := .on, mgr := false, busy := false, result := St.notIdle, idle := 0 })
        R.PWR_DRAIN_FAIL_CNT_FAIL))) ∧
  (∀ (d : Nat) (s : State), (getDom s d).st = .waking → isDm d = false → exec (.domainWakeDone d) s =
    .next (powerUp (setDom s d { getDom s d with
      st := .on, mgr := false, idle := 0, busy := false
      result := if (getDom s d).busy then 0 else (getDom s d).result }) d)) ∧
  (∀ (req : Nat) (s : State), windowOpen s →
    (forMf req → exec (.domainOnRequest req) s = .next (domainOn s (selDom s req)) ∧
      exec (.domainOffRequest req) s = .next (domainOff s (selDom s req))) ∧
    (forMf req = false → exec (.domainOnRequest req) s = .next s ∧ exec (.domainOffRequest req) s = .next s))

/-- A wake event whose enable bit is set wakes a sleeping device, or is held after a thermal shutdown; others do
nothing. Rests on R212, R333, R372, R407, 14_power.md. -/
def Obligations.WakeEventsAct : Prop :=
  (∀ (w : WakeEnv) (s : State), s.pwr.halted = false →
    exec (.pwrWakeNAssert w) s = .next (wakeEvent s 3 w) ∧
    (isMember s → exec (.wallWakePulse w) s = .next (wakeEvent s 3 w)) ∧
    (s.pwr.st ≠ .hot → rd s R.PWR_WAKE_TIMER_MS ≠ 0 → exec (.wakeTimerExpiry w) s = .next (wakeEvent s 4 w)) ∧
    ((s.pwr.st = .ember ∨ s.pwr.st = .cold) → isMember s = false → exec (.perstWake w) s =
      .next (wakeEvent { s with port := { s.port with perstHigh := true } } 2 w))) ∧
  (∀ (s : State) (bit : Nat) (w : WakeEnv),
    ((rd s R.PWR_WAKE_EN_EN).testBit bit = false → wakeEvent s bit w = s) ∧
    ((rd s R.PWR_WAKE_EN_EN).testBit bit → s.hkp.shutdown = false →
      wakeEvent s bit w = wakeNow s (BitVec.ofNat 6 (2 ^ bit)) w) ∧
    ((rd s R.PWR_WAKE_EN_EN).testBit bit → s.hkp.shutdown → s.pwr.thermHeld = none → wakeEvent s bit w =
      { s with pwr := { s.pwr with thermHeld := some (BitVec.ofNat 6 (2 ^ bit)) } })) ∧
  (∀ (s : State) (cause : BitVec 6) (w : WakeEnv),
    (s.pwr.st = .hot → wakeNow s cause w = s) ∧
    (s.pwr.st = .banked → (wakeNow s cause w).pwr.st = .hot ∧ (wakeNow s cause w).pwr.wakeCause = cause ∧
      (wakeNow s cause w).pwr.cur = s.pwr.opAtEntry ∧ (wakeNow s cause w).tb.stopped = false ∧
      (wakeNow s cause w).tb.count = s.tb.count ∧ (wakeNow s cause w).ord = s.ord ∧ (wakeNow s cause w).med = s.med)) ∧
  (∀ (lp len : Nat) (a : IpAddr) (s : State), s.pwr.st = .banked → s.pwr.halted = false → isMember s = false →
    (getLPort s lp).up → ownAddress s lp a →
    ((rd s R.PWR_WAKE_EN_EN).testBit 0 →
      exec (.wakePacket lp a len) s = .next (wakeEvent (holdPacket s lp len) 0 (noEnv s))) ∧
    ((rd s R.PWR_WAKE_EN_EN).testBit 0 = false → exec (.wakePacket lp a len) s = .next s)) ∧
  (∀ (fn len : Nat) (s : State), s.pwr.st = .banked → s.pwr.halted = false → isMember s = false → s.port.linkUp → fn ≤ 64 →
    s.port.heldTlps + len ≤ 65536 →
    ((rd s R.PWR_WAKE_EN_EN).testBit 1 → exec (.wakeTlp fn len) s =
      .next (wakeEvent { s with port := { s.port with heldTlps := s.port.heldTlps + len } } 1 (noEnv s))) ∧
    ((rd s R.PWR_WAKE_EN_EN).testBit 1 = false → exec (.wakeTlp fn len) s = .next s)) ∧
  (∀ (w : WakeEnv) (cause : BitVec 6) (s : State), s.pwr.thermHeld = some cause → s.hkp.shutdown → s.pwr.st ≠ .hot →
    s.pwr.halted = false → coolEnough s → exec (.thermalRestartRelease w) s =
    .next (wakeNow { s with hkp := { s.hkp with shutdown := false }, pwr := { s.pwr with thermHeld := none } } cause w))

/-- Power entries run their steps, are abandoned at the limit, and operating points and periods change as sequenced.
Rests on R24, R327, R329, R330, R343, R345, R400. -/
def Obligations.PowerEntriesAndPoints : Prop :=
  (∀ (k : Nat) (s : State), featureSlot s k →
    ((getSlot s k).tenant ≠ 0 → exec (.setFeaturesPowerState k) s = .next (endAdmin s k (0, 0x02, true))) ∧
    ((getSlot s k).tenant = 0 →
      let t := adminHold s k
      let target := PState.ofCode ((getSlot s k).cmd.dw11.toNat % 4)
      (target ≠ .hot → entryRefusal t target = 0x0000 →
        exec (.setFeaturesPowerState k) s = .next (beginEntry t (.feature k (getSlot s k).gen) target)) ∧
      (target ≠ .hot → entryRefusal t target ≠ 0x0000 → exec (.setFeaturesPowerState k) s =
        .next (powerAnswer t (.feature k (getSlot s k).gen) (entryRefusal t target))) ∧
      (target = .hot →
        exec (.setFeaturesPowerState k) s = .next (requestHot t (.feature k (getSlot s k).gen))))) ∧
  (∀ (slot : Nat) (s : State), endpointOpen s → adminAt s slot 0x0A → (getSlot s slot).cmd.dw10.toNat % 256 = 0xC0 →
    exec (.getFeaturesPowerState slot) s = .next (if senderOf s slot = 0 then adminDw0 s slot (powerWord s % 32)
      else endAdmin s slot (0, 0x02, true))) ∧
  (∀ (e : Entry) (s : State), s.pwr.entry = some e →
    (entryReady s e → windowOpen s → s.blw.flush = none → exec .powerEntryStepDone s = .next (entryStep s e)) ∧
    (2 ≤ e.step → e.step ≤ 4 → e.failing = false → e.startAt + drainLimit s ≤ s.tb.count →
      exec .entryDrainLimitExpiry s = .next { s with pwr := { s.pwr with entry := some { e with failing := true } } })) ∧
  (∀ (target : Nat) (s : State), isMember s → endpointOpen s → target < 4 →
    (s.pwr.st = .banked → exec (.memberPowerCommand 0 false) s = .next (wakeBanked s s.pwr.wakeCause)) ∧
    (s.pwr.st ≠ .banked → PState.ofCode target ≠ .hot → entryRefusal s (.ofCode target) = 0x0000 →
      exec (.memberPowerCommand target false) s = .next (beginEntry s .wall (.ofCode target))) ∧
    (∀ e, s.pwr.entry = some e → e.step ≠ 6 → exec (.memberPowerCommand target true) s =
      .next { s with pwr := { s.pwr with entry := some { e with abort := e.abort ++ [.wall] } } })) ∧
  (∀ (q : OpSeq) (mv : Nat) (s : State), s.pwr.seq = some q →
    (q.phase = .voltage → exec .avsVoltageReached s =
      .next { s with pwr := { s.pwr with seq := some { q with phase := .switch } } }) ∧
    (q.phase = .lowering → exec .avsVoltageReached s =
      .next (complete { s with pwr := { s.pwr with seq := none } } q.rid 0x0000 none)) ∧
    (q.phase = .lockPll → exec .pllLocked s =
      .next { s with pwr := { s.pwr with seq := some { q with phase := .switch } } }) ∧
    ((q.phase = .voltage ∨ q.phase = .lowering) → ∃ t, exec (.avsSettleTimeout mv) s = .next t ∧ t.pwr.seq = none ∧
      t.pwr.cur = s.pwr.cur ∧ t.tb = s.tb)) ∧
  (∀ (p : Nat) (s : State), s.tb.perPend = some p → strikesRun s → longReads s p = false → s.wall.announced = none →
    exec .periodChangeEffect s = .next (changePeriod s p))

/-- The Bellows arms, samples, bleeds and tests its bank as R350 to R354 and R361 say. Rests on R350, R351, R352, R353,
R354, R361. -/
def Obligations.BellowsChargesAndTests : Prop :=
  (∀ (s : State), windowOpen s →
    (s.blw.armed → exec .bellowsArm s = .next s) ∧
    (s.blw.vhv < rd s R.BLW_LOSS_TH_TH + 10 → exec .bellowsArm s = .next s) ∧
    (s.blw.armed = false → rd s R.BLW_LOSS_TH_TH + 10 ≤ s.blw.vhv → exec .bellowsArm s = .next (requestTest
      { wr s R.BLW_CTRL_ARM 1 with blw := { s.blw with armed := true, chgFet := !s.blw.bankFault } } false)) ∧
    exec .faultClear s = .next (Sys2Proof.Machine.faultClear s) ∧
    exec .capTestRequest s = .next (if s.blw.armed then requestTest s true else s)) ∧
  (∀ (s : State), ((s.blw.bankFault = false ∨ bankTarget s < s.blw.vbank) → Sys2Proof.Machine.faultClear s = s) ∧
    (s.blw.bankFault → s.blw.vbank ≤ bankTarget s → (Sys2Proof.Machine.faultClear s).blw.bankFault = false ∧
      (Sys2Proof.Machine.faultClear s).blw.passed = false)) ∧
  (∀ (vhv vbank : Nat) (s : State), vhv < 512 → vbank < 512 → ∃ t, exec (.voltageSample vhv vbank) s = .next t ∧
    t.blw.vhv = vhv ∧ t.blw.vbank = vbank ∧ t.blw.chgEn = chargeLevel t t.blw ∧
    (395 < vbank → s.blw.armed → s.blw.bleeding = false → bankTarget s ≤ 395 → t.blw.bleeding = true ∧ t.blw.chgEn = false)) ∧
  (∀ (s : State), s.blw.bleeding → s.blw.bleedChecked = false →
    (s.blw.vbank + 3 ≤ s.blw.bleedFrom →
      exec .bleedCheckTimer s = .next { s with blw := { s.blw with bleedChecked := true } }) ∧
    (s.blw.bleedFrom < s.blw.vbank + 3 → ∃ t, exec .bleedCheckTimer s = .next t ∧ t.blw.bankFault = true ∧
      t.blw.chgFet = false ∧ t.blw.chgEn = false)) ∧
  (∀ (s : State), s.blw.armed → s.blw.chgEn → s.blw.vbank < bankTarget s → ∃ t, exec .chargeTimeout s = .next t ∧
    rd t R.BLW_STATUS_CHG_SLOW = 1 ∧ (s.blw.test = .charging → t.blw.capLow = true ∧ t.blw.passed = false)) ∧
  (∀ (s : State), s.blw.armed → s.blw.bankSw = false → s.pwr.halted = false →
    (rdForce s R.BLW_TEST_PERIOD_H ≠ 0 → exec .periodicTestTimer s = .next (requestTest s true)) ∧
    (s.blw.capLow → s.blw.testing = false → exec .capTestRetryTimer s = .next (requestTest s false))) ∧
  (∀ (v1 : Nat) (s : State), s.blw.test = .waiting → v1 < 512 →
    (s.blw.periodic → coveredAt s (v1 - rdForce s R.BLW_TEST_DV)) → exec (.capTestBleedStart v1) s =
    .next { s with blw := { s.blw with test := .bleeding, v1 := v1, vbank := v1, chgEn := false, bleedEn := true } }) ∧
  (∀ (v2 us : Nat) (s : State), s.blw.test = .bleeding → v2 < 512 →
    (v2 + rdForce s R.BLW_TEST_DV ≤ s.blw.v1 ∨ 500000 ≤ us) → exec (.capTestBleedEnd v2 us) s = .next (testEnds s v2 us) ∧
    (s.blw.v1 < v2 + 5 → (testEnds s v2 us).blw.passed = false ∧ (testEnds s v2 us).blw.capLow = true))

/-- A supply loss or a shutdown begins a flush, its programs and records go on, and an over-temperature halt goes COLD.
Rests on R335, R336, R358, R359, R362, R365, R371. -/
def Obligations.LossesAndHeatFlush : Prop :=
  (∀ (s : State), s.blw.armed → s.pwr.halted = false → s.blw.bankSw = false →
    ((s.pwr.st = .ember ∨ s.pwr.st = .cold) → exec .supplyLoss s = .next s) ∧
    ((s.pwr.st = .hot ∨ s.pwr.st = .banked) →
      exec .supplyLoss s = .next (beginFlush { s with blw := bankIn s.blw } false true))) ∧
  (∀ (f : FlushRun) (s : State), s.blw.flush = some f → f.started → s.pwr.halted = false →
    (f.total ≤ f.written + flushUnit s → exec .flushProgramDone s = .next (flushEnd s f)) ∧
    (f.written + flushUnit s < f.total → ∃ t, exec .flushProgramDone s = .next t ∧
      t.blw.flush = some { f with written := f.written + flushUnit s } ∧
      t = { s with blw := { s.blw with flush := t.blw.flush, recBytes := t.blw.recBytes } })) ∧
  (∀ (s : State), s.med.areaHeld → s.blw.flush = none → strikesRun s → (restoredCovered s ∨ restoredVerified s) →
    ∃ t, exec .flushAreaRearm s = .next t ∧
      (∀ a ∈ (if s.med.armedB then s.med.areaB else s.med.areaA), a ∈ (getDie t (slabDie a)).erases ∨ a ∈ (getDie t (slabDie a)).eraseWait) ∧
      t = { s with fl := { s.fl with dies := t.fl.dies }, blw := { s.blw with image := none }
                   med := { s.med with areaHeld := false, restored := [], armedB := !s.med.armedB } }) ∧
  (∀ (k : Nat) (s : State), exec (.criticalComparatorTrip k) s = .next (thermalShutdown s k) ∧
    ((s.blw.flush.isSome ∨ s.pwr.halted ∨ s.pwr.st = .ember ∨ s.pwr.st = .cold) → thermalShutdown s k = s)) ∧
  (∀ (k : Nat) (f : FlushRun) (s : State), s.blw.flush = some f → f.thermal → s.pwr.halted = false →
    ∃ t, exec (.flushOvertempHalt k) s = .next t ∧ t.pwr.st = .cold ∧ t.blw.flush = none ∧ t.hkp.thermSd = true ∧
      t.hkp.shutdown = true) ∧
  (∀ (k : Nat) (v : Int) (s : State), inputOn s k → -2048 ≤ v → v < 2048 →
    exec (.housekeepingSample k (.good v)) s = .next (sample s k (.good v))) ∧
  (∀ (k : Nat) (s : State), inputOn s k → k < 24 →
    exec (.housekeepingSample k .opened) s = .next (sample s k .opened) ∧
    exec (.housekeepingSample k .short) s = .next (sample s k .short))

/-- Course links replay, go down and train; the Wall forms, routes, sends again, learns failures and follows markers.
Rests on R392, R393, R394, R395, R396, R397, R403, R404. -/
def Obligations.CourseLinksAndWall : Prop :=
  (∀ (p : Fin 4) (s : State), (getCk s p.val).st = .up → s.pwr.halted = false →
    ((getCk s p.val).replays < 3 → exec (.flitCrcFail p) s = .next
      (bump (setCk s p.val { getCk s p.val with replays := (getCk s p.val).replays + 1 }) R.GLB_CK_RETRY_CNT_RETRY)) ∧
    (3 ≤ (getCk s p.val).replays → exec (.flitCrcFail p) s = .next (linkDown s p.val)) ∧
    exec (.linkElectricalIdle p) s = .next (linkDown s p.val)) ∧
  (∀ (s : State) (p : Nat), (getCk (linkDown s p) p).st = .down ∧ (linkDown s p).wall.recompute = true ∧
    ∀ j, j ≠ p → getCk (linkDown s p) j = getCk s j) ∧
  (∀ (p : Fin 4) (r : LinkReport) (s : State), ((getCk s p.val).st = .training ∨ (getCk s p.val).st = .down) →
    s.boot.cfgMode ≠ 0 → s.pwr.halted = false → exec (.linkTrainingDone p r) s = .next (linkTrained s p.val r) ∧
    (r.passed = false → linkTrained s p.val r = s) ∧
    (r.passed → wiredRight s p.val r → (getCk (linkTrained s p.val r) p.val).st = .up ∧
      (getCk (linkTrained s p.val r) p.val).peer = r.peer) ∧
    (r.passed → wiredRight s p.val r = false → (getCk (linkTrained s p.val r) p.val).st = .miswired)) ∧
  (∀ (size skip : Nat) (strike : W64) (s : State), isMember s → s.pwr.halted = false → (∃ p, p < 4 ∧ (getCk s p).st = .up) →
    (s.boot.memberId.toNat < size → exec (.formMessage size skip strike) s = .next (formed s size skip strike.toNat)) ∧
    (size ≤ s.boot.memberId.toNat → exec (.formMessage size skip strike) s = .next (notFormed s))) ∧
  (∀ (s : State), isHead s → s.wall.formed = false → s.pwr.halted = false →
    (∃ p, p < 4 ∧ (getCk s p).st ≠ .off ∧ (getCk s p).st ≠ .training) → exec .formationTimeout s =
    .next (bumpAt { s with wall := { s.wall with formed := true } } R.GLB_WALL_FAIL_CNT_FAIL 0 0
      (s.wall.size - maskCount (s.wall.live ||| 1)))) ∧
  (∀ (far : List (Nat × Nat)) (s : State), s.wall.recompute → s.pwr.halted = false →
    (isHead s → exec (.routeTablesInForce far) s = .next (routesHead s far)) ∧
    (isMember s → exec (.routeTablesInForce far) s = .next (routesMember s far))) ∧
  (∀ (n : Nat) (p : Packet) (s : State), Tbl.get Tbl.absent s.wall.packets n = some p → strikesRun s →
    256 ≤ (s.tb.count - p.sentAt) * perQ s → ∃ t, exec (.endToEndAckTimeout n) s = .next t ∧
    t.out = s.out ++ [.packetAgain p.dest (p.seq % 2 ^ 32)] ∧
    Tbl.get Tbl.absent t.wall.packets n = some { p with sentAt := s.tb.count }) ∧
  (∀ (m : Nat) (s : State), isHead s → s.pwr.halted = false → s.wall.live.getLsbD m → m ≠ 0 → m ∉ s.wall.failedAt →
    exec (.downNotice m) s =
      .next { s with wall := { s.wall with
        failedAt := s.wall.failedAt ++ [m], noticed := s.wall.noticed ++ [m], recompute := true } }) ∧
  (∀ (m : Marker) (s : State), isMember s → s.wall.formed → strikesRun s →
    ((∃ p, p < 4 ∧ (getCk s p).st = .up) → exec (.strikeMarker m) s = .next (takeMarker s m) ∧
      (takeMarker s m).wall.holdover = false ∧ (takeMarker s m).wall.noMarker = 0 ∧ (takeMarker s m).tb = s.tb) ∧
    (s.wall.holdover = false → 4 ≤ s.wall.noMarker →
      exec .markerHoldover s = .next { s with wall := { s.wall with holdover := true } }))

/-- SYS_RST_N, NSSR, the software reset and the watchdog do nothing while a flush runs; PORST_N always resets. The
rules: R411. -/
def Obligations.FlushHoldsOffResets : Prop :=
  (∀ (p : ResetPins) (s : State), s.blw.flush ≠ none → exec (.sysRstNReset p) s = .next s) ∧
  (∀ (p : ResetPins) (v : W32) (s : State), s.blw.flush ≠ none → s.port.linkUp → windowOpen s →
    exec (.nvmSubsystemReset p v) s = .next s) ∧
  (∀ (p : ResetPins) (req : Nat) (v : W32) (s : State), s.blw.flush ≠ none → windowOpen s →
    exec (.softwareReset req v p) s = .next s) ∧
  (∀ (p : ResetPins) (s : State), s.blw.flush ≠ none → s.boot.wdtRunning → s.pwr.halted = false →
    exec (.bootWatchdogExpiry p) s = .next s) ∧
  ∀ (p : ResetPins) (s : State), exec (.porstNReset p) s = .next (deviceReset s 0 false p)

/-- Each reset of Table 19.1 restarts the boot with its cause; rail faults and a stopped clock halt the device. Rests on
R360, R410, R411, R439, R445, 19_boot_reset.md. -/
def Obligations.ResetsAndFaultsOfTheBoard : Prop :=
  (∀ (p : ResetPins) (s : State), s.blw.flush = none →
    exec (.sysRstNReset p) s = .next (deviceReset s 1 true p) ∧
    (s.boot.wdtRunning → s.pwr.halted = false → exec (.bootWatchdogExpiry p) s = .next (deviceReset s 4 true p)) ∧
    (isMember s → exec (.wallResetMessage p) s = .next (deviceReset s 2 true p))) ∧
  (∀ (p : ResetPins) (v : W32) (s : State), s.blw.flush = none → windowOpen s → s.port.linkUp →
    exec (.nvmSubsystemReset p 0x4E564D65) s = .next (deviceReset (resetMembers s) 2 true p) ∧
    (v ≠ 0x4E564D65 → exec (.nvmSubsystemReset p v) s = .next s)) ∧
  (∀ (p : ResetPins) (req : Nat) (v : W32) (s : State), s.blw.flush = none → windowOpen s →
    (forMf req → v.toNat % 65536 = 0x5EED → exec (.softwareReset req v p) s = .next (deviceReset s 3 true p)) ∧
    ((forMf req = false ∨ v.toNat % 65536 ≠ 0x5EED) → exec (.softwareReset req v p) s = .next s)) ∧
  (∀ (p : ResetPins) (s : State),
    (s.pwr.halted → s.blw.recOpen → s.blw.recFinal → exec (.bellowsRestart p) s = .next (deviceReset s 5 true p)) ∧
    (s.blw.flush.isSome → s.blw.bankSw → exec (.bankDepleted p) s = .next (deviceReset s 0 false p)) ∧
    exec (.aonUndervoltage p) s = .next (deviceReset s 0 false p)) ∧
  (∀ (rail : Rail) (mv : Nat) (s : State), s.pwr.halted = false → s.boot.stage ≠ 0 →
    exec (.railFault rail mv) s = .next (haltNow (railEvent s rail mv)) ∧ exec .refclkStop s = .next (haltNow s))

/-- A die that does not answer is lost, and every reset keeps lost dies, the epochs, the floors and the command queue.
Rests on R22, R157, R160, R196, R298, R410, R418. -/
def Obligations.LostDiesAndFloorsOutliveResets : Prop :=
  (∀ (d : Nat) (s : State), (getDie s d).resetting → (∀ e ∈ s.med.slabs, slabDie e.1 ≠ d) → s.med.courses = [] →
    s.ord.reqs = [] → s.fl.devs = [] →
    exec (.lunResetDone d false) s =
      .next (raise (setDie s d { die0 0 with lost := true }) (event (d / 32) 0x0302 [(2, d)]))) ∧
  (∀ (s : State) (id p : Nat) (k : Course), getCourse s id = some k → (k.kind = .zone ∨ k.kind = .conv) →
    failUnit s id p false = startMends (setSlab (bump s R.MED_PROG_FAIL_CNT_PROG_FAIL) (k.slabs.getD p 0)
      { getSlab s (k.slabs.getD p 0) with fail := 1, failedPe := some (getSlab s (k.slabs.getD p 0)).pe }) id) ∧
  (∀ (s : State) (cause : Nat) (aon : Bool) (p : ResetPins),
    let t := deviceReset s cause aon p
    Tbl.sorted s.fl.dies → (∀ d, (getDie t d).lost = (getDie s d).lost) ∧ t.cph.epochs = s.cph.epochs ∧
    t.asy.floor0 = s.asy.floor0 ∧ t.asy.floor1 = s.asy.floor1 ∧ t.asy.kmHash = s.asy.kmHash ∧
    t.pending = s.pending ∧ t.tb.count = 0 ∧ t.boot.locked = false)

/-- Boot stages complete in turn, and MF downloads, commits and selects firmware; others are refused. Rests on R417,
R422, R423, 19_boot_reset.md. -/
def Obligations.BootAndFirmwareCommands : Prop :=
  (∀ (b : BootReport) (s : State), 5 ≤ s.boot.stage → s.boot.stage ≤ 11 → s.boot.mapsLoaded = false → windowOpen s →
    ∃ w, exec (.bootStageDone b) s = .next { w with boot := { w.boot with stage := min 11 (s.boot.stage + 1) } } ∧
      (s.boot.stage = 5 → w = applyBoard s) ∧ (s.boot.stage = 6 → w = bringDram s) ∧ (s.boot.stage = 7 → w = armBellows s) ∧
      (s.boot.stage = 8 → w = trainLinks { s with boot := { s.boot with locked := true } }) ∧
      (s.boot.stage = 9 → w = bringStore s b) ∧ (s.boot.stage = 10 → w = ioReadyStage s) ∧ (s.boot.stage = 11 → w = mapStage s)) ∧
  (∀ (slot : Nat) (piece : List Byte) (p : SlotImages) (s : State), windowOpen s → senderOf s slot = 0 →
    let c := (getSlot s slot).cmd
    let off := 4 * c.dw11.toNat
    (adminAt s slot 0x11 → piece.length % 4 = 0 → off = s.boot.package.length → off + piece.length ≤ packageMax →
      exec (.firmwareImageDownload slot piece) s = .next (endAdmin
        { s with boot := { s.boot with package := s.boot.package ++ piece } } slot (0, 0, false))) ∧
    (∀ b, adminAt s slot 0x10 → commitAction c = 2 → s.boot.commit = none → s.pwr.entry = none →
      commitTarget s (commitSlotOf c) false = some b →
      let st := imagesStatus s (slotImages s.boot.flash b)
      exec (.firmwareCommitPending slot) s = .next (if st = (0, 0) then endAdmin
        { s with boot := { s.boot with pendingSlot := 1 + b2n b, tries := 0 } } slot (0, 0, false) else admin s slot st [])) ∧
    (∀ b a, adminAt s slot 0x10 → packageHolds s p → commitAction c = a → s.boot.commit = none → s.pwr.entry = none →
      commitTarget s (commitSlotOf c) true = some b →
      let f := s.boot.flash
      let st := imagesStatus s p
      let t := { adminHold s slot with boot := { s.boot with
        commit := some (b, p, a), commitSlot := some (slot, (getSlot s slot).gen)
        flash := if b then { f with slotB := ⟨noImage, noImage⟩ } else { f with slotA := ⟨noImage, noImage⟩ } } }
      (a = 0 → exec (.firmwareCommitWrite slot p) s = .next (if st = (0, 0) then t else admin s slot st [])) ∧
      (a = 1 → exec (.firmwareCommitWritePending slot p) s = .next (if st = (0, 0) then t else admin s slot st [])))) ∧
  (∀ (slot : Nat) (piece : List Byte) (p : SlotImages) (s : State), windowOpen s → senderOf s slot ≠ 0 → packageHolds s p →
    let c := (getSlot s slot).cmd
    (adminAt s slot 0x11 → exec (.firmwareImageDownload slot piece) s = .next (endAdmin s slot (0, 0x01, true))) ∧
    (adminAt s slot 0x10 → commitAction c = 0 →
      exec (.firmwareCommitWrite slot p) s = .next (endAdmin s slot (0, 0x01, true))) ∧
    (adminAt s slot 0x10 → commitAction c = 1 →
      exec (.firmwareCommitWritePending slot p) s = .next (endAdmin s slot (0, 0x01, true))) ∧
    (adminAt s slot 0x10 → commitAction c = 2 →
      exec (.firmwareCommitPending slot) s = .next (endAdmin s slot (0, 0x01, true)))) ∧
  (∀ (b : Bool) (x : SlotImages) (a : Nat) (ok : Bool) (s : State), s.boot.commit = some (b, x, a) → windowOpen s →
    exec (.firmwareSlotWritten ok) s = .next (slotWritten s b x a ok))

/-- The NVMe-MI endpoint answers its commands in full in HOT and BANKED, and what it answers elsewhere. Rests on R236,
R237, R333. -/
def Obligations.ManagementEndpointCommands : Prop :=
  (∀ (s : State), exec .miHealthStatusPoll s = .next (miAnswer s .success (healthBytes s)) ∧
    exec .miControllerHealthPoll s = .next (if endpointOpen s then miAnswer s .success (healthBytes s)
      else miAnswer s .controllerNotReady [])) ∧
  (∀ (k off len : Nat) (s : State), exec (.miReadDataStructure k) s = .next (miFree s 32) ∧
    exec (.miVpdRead off len) s = .next (miFree s len)) ∧
  (∀ (cfg v : Nat) (s : State), endpointOpen s → Tbl.get Tbl.absent s.port.miCfg cfg = some v →
    exec (.miConfigurationGet cfg) s = .next (miAnswer s .success (leBytes 4 v))) ∧
  (∀ (cfg v : Nat) (w : WakeEnv) (s : State),
    (cfg ≠ wakeIdentifier → endpointOpen s → ∃ t, exec (.miConfigurationSet cfg v w) s = .next t ∧
      Tbl.get Tbl.absent t.port.miCfg cfg = some v ∧ t.med = s.med ∧ t.ord = s.ord ∧ t.pwr = s.pwr ∧ t.reg = s.reg) ∧
    (cfg ≠ wakeIdentifier → endpointOpen s = false →
      exec (.miConfigurationSet cfg v w) s = .next (miAnswer s .controllerNotReady [])) ∧
    (s.pwr.halted = false → exec (.miConfigurationSet wakeIdentifier v w) s = .next (miWake s w))) ∧
  (∀ (c : NvmeCmd) (s : State), exec (.miTunnelledAdmin c) s = .next
    (if endpointOpen s ∧ tunnelAllowed c.opcode = false ∧ flag s R.PCI_MI_CTRL_ADMIN_WR = false
     then miAnswer s .invalidOpcode []
     else if endpointOpen s ∧ c.opcode = 0x02 ∧ logId c = 0xC8 then miHallmark s c else miFree s 4096))

/-- No step lowers an anti-rollback floor of the fuses, nor changes an identity once made. Rests on R298, R300, R421,
12_hash_and_trust.md. -/
def Obligations.FuseFloorsNeverFall : Prop :=
  ∀ (s t : State), step s = .next t →
    s.asy.floor0 ≤ t.asy.floor0 ∧ s.asy.floor1 ≤ t.asy.floor1 ∧ ∀ k, s.asy.identity = some k → t.asy.identity = some k

/-- A step takes the front command and leaves the rest of the queue in order; no command adds to it or drops from it.
Rests on 95_what_each_step_holds.md, 00_scope.md. -/
def Obligations.QueueIsFirstInFirstOut : Prop :=
  ∀ (s t : State), step s = .next t → t.pending = s.pending.tail
end

