-- ==== Sys2Proof/Laws/Kept.lean ====
section
/-! SUPPORT. What no command but a boot, a commit of firmware or a reset changes: the queue, the floors of the fuses and the
identity of the device. `mark` holds them; `Kept` says how they may change. -/

namespace Sys2Proof.Machine

/-- What no command but a boot changes: the queue, the fuses' floors and the identity. -/
def State.mark (s : State) : List Instr × Nat × Nat × Option (List Byte) :=
  (s.pending, s.asy.floor0, s.asy.floor1, s.asy.identity)

/-- An update outside the queue and the Assay. -/
@[simp] theorem mark_mk (s : State) (o f r tb fl od md p t cp m pw b hk hm w bo) :
    State.mark (State.mk s.pending o f r tb fl od md p t cp s.asy m pw b hk hm w bo) = s.mark := by
  simp only [State.mark]

/-- An update within the Assay. -/
@[simp] theorem mark_asy (s : State) (o f r tb fl od md p t cp m pw b hk hm w bo) (a1 a2 a3 a4 a5 a6 a7 a9 a10 a11 a12 a13 a14 a15 a16) :
    State.mark (State.mk s.pending o f r tb fl od md p t cp
      (Assay.mk a1 a2 a3 a4 a5 a6 a7 s.asy.identity a9 a10 a11 a12 a13 a14 a15 a16 s.asy.floor0 s.asy.floor1)
      m pw b hk hm w bo) = s.mark := by
  simp only [State.mark]

@[simp] theorem foldl_mark {β : Type} (f : State → β → State) (h : ∀ t a, (f t a).mark = t.mark) (l : List β) (s : State) :
    (l.foldl f s).mark = s.mark := by
  induction l generalizing s with
  | nil => rfl
  | cons a l ih => rw [List.foldl_cons, ih, h]

@[simp] theorem foldl_mark_pair {β γ : Type} (f : State × γ → β → State × γ) (h : ∀ t a, (f t a).1.mark = t.1.mark)
    (l : List β) (s : State × γ) : (l.foldl f s).1.mark = s.1.mark := by
  induction l generalizing s with
  | nil => rfl
  | cons a l ih => rw [List.foldl_cons, ih, h]

/-- The same of a loop that may end without a state. -/
theorem foldl_bind_mark {β : Type} (f : State → β → Option State) (h : ∀ t a u, f t a = some u → u.mark = t.mark)
    (l : List β) (s : State) :
    ∀ p, l.foldl (fun r a => r.bind fun t => f t a) (some s) = some p → p.mark = s.mark := by
  suffices ∀ r : Option State, (∀ p, r = some p → p.mark = s.mark) →
      ∀ p, l.foldl (fun r a => r.bind fun t => f t a) r = some p → p.mark = s.mark by
    exact this _ (by simp)
  induction l with
  | nil => exact fun r h => h
  | cons a l ih =>
    intro r hr p hp
    rw [List.foldl_cons] at hp
    refine ih _ ?_ p hp
    intro q hq
    cases r with
    | none => simp at hq
    | some t => exact (h _ _ _ hq).trans (hr _ rfl)

/-- The same queue, floors of the fuses that have not fallen, and the same identity where there was one. -/
def Kept (s t : State) : Prop :=
  t.pending = s.pending ∧ s.asy.floor0 ≤ t.asy.floor0 ∧ s.asy.floor1 ≤ t.asy.floor1 ∧
    ∀ k, s.asy.identity = some k → t.asy.identity = some k

theorem Kept.refl (s : State) : Kept s s := ⟨rfl, Nat.le_refl _, Nat.le_refl _, fun _ h => h⟩

theorem Kept.trans {s t u : State} (h : Kept s t) (g : Kept t u) : Kept s u :=
  ⟨g.1.trans h.1, Nat.le_trans h.2.1 g.2.1, Nat.le_trans h.2.2.1 g.2.2.1, fun k hk => g.2.2.2 k (h.2.2.2 k hk)⟩

theorem kept_of_mark {s t : State} (h : t.mark = s.mark) : Kept s t := by
  simp only [State.mark, Prod.mk.injEq] at h
  exact ⟨h.1, Nat.le_of_eq h.2.1.symm, Nat.le_of_eq h.2.2.1.symm, fun k hk => by rw [h.2.2.2, hk]⟩

/-- An answer whose next state, if it is one, has the mark of a state. -/
def Answer.Marked (s : State) : Answer → Prop
  | .next t => t.mark = s.mark
  | _ => True

/-- An answer whose next state, if it is one, keeps what a state holds. -/
def Answer.Kept (s : State) : Answer → Prop
  | .next t => Machine.Kept s t
  | _ => True

theorem Answer.Marked.kept {s : State} {a : Answer} (h : a.Marked s) : a.Kept s := by
  cases a with
  | next t => exact kept_of_mark h
  | _ => trivial

theorem stepIf_mark {p : Bool} {s t : State} (h : t.mark = s.mark) : (stepIf s p t).Marked s := by
  cases p
  · rfl
  · exact h

theorem stepIf_kept {p : Bool} {s t : State} (h : Kept s t) : (stepIf s p t).Kept s := by
  cases p
  · exact kept_of_mark rfl
  · exact h

theorem next_mark {s t : State} (h : t.mark = s.mark) : Answer.Marked s (.next t) := h

theorem Kept.after_mark {s t u : State} (h : t.mark = s.mark) (g : Kept t u) : Kept s u := (kept_of_mark h).trans g

theorem Kept.then_mark {s t u : State} (g : Kept s t) (h : u.mark = t.mark) : Kept s u := g.trans (kept_of_mark h)

theorem next_kept {s t : State} (h : Kept s t) : Answer.Kept s (.next t) := h

end Sys2Proof.Machine
end

