-- ==== Sys2Proof/Laws/KeptOrders.lean ====
section
/-! SUPPORT. That the operations and commands of the order words, the buffers, the host transfers, the cipher and the Assay leave the mark of a state, or keep it. -/

namespace Sys2Proof.Machine

set_option linter.all false

/-! ## Access -/

@[simp] theorem setWord_mark (s : State) (key : Nat) (w : W32) : (setWord s key w).mark = s.mark := by
  unfold setWord
  simp

@[simp] theorem wrAt_mark (s : State) (f : Fld) (off sel : Nat) (v : Nat) : (wrAt s f off sel v).mark = s.mark := by
  unfold wrAt
  simp

@[simp] theorem wr_mark (s : State) (f : Fld) (v : Nat) : (wr s f v).mark = s.mark := by
  unfold wr
  simp

@[simp] theorem bumpAt_mark (s : State) (f : Fld) (off sel n : Nat) : (bumpAt s f off sel n).mark = s.mark := by
  unfold bumpAt
  simp

@[simp] theorem bump_mark (s : State) (f : Fld) : (bump s f).mark = s.mark := by
  unfold bump
  simp

@[simp] theorem raiseTo_mark (s : State) (f : Fld) (v : Nat) : (raiseTo s f v).mark = s.mark := by
  unfold raiseTo
  simp

@[simp] theorem emit_mark (s : State) (o : Output) : (emit s o).mark = s.mark := by
  unfold emit
  simp

@[simp] theorem fresh_mark (s : State) : (fresh s).2.mark = s.mark := by
  unfold fresh
  simp

@[simp] theorem setDie_mark (s : State) (d : Nat) (x : Die) : (setDie s d x).mark = s.mark := by
  unfold setDie
  simp

@[simp] theorem setChan_mark (s : State) (c : Nat) (x : Chan) : (setChan s c x).mark = s.mark := by
  unfold setChan
  simp

@[simp] theorem setSlot_mark (s : State) (k : Nat) (x : Slot) : (setSlot s k x).mark = s.mark := by
  unfold setSlot
  simp

@[simp] theorem updSlot_mark (s : State) (k : Nat) (f : Slot → Slot) : (updSlot s k f).mark = s.mark := by
  unfold updSlot
  simp

@[simp] theorem setReq_mark (s : State) (r : Nat) (x : Option Req) : (setReq s r x).mark = s.mark := by
  unfold setReq
  simp

@[simp] theorem updReq_mark (s : State) (r : Nat) (f : Req → Req) : (updReq s r f).mark = s.mark := by
  unfold updReq
  simp

@[simp] theorem setBuf_mark (s : State) (b : Nat) (x : Option Buf) : (setBuf s b x).mark = s.mark := by
  unfold setBuf
  simp

@[simp] theorem setBody_mark (s : State) (b : Nat) (x : Option Pattern) : (setBody s b x).mark = s.mark := by
  unfold setBody
  simp

@[simp] theorem setNs_mark (s : State) (n : Nat) (x : Option Namespace) : (setNs s n x).mark = s.mark := by
  unfold setNs
  simp

@[simp] theorem setZone_mark (s : State) (nsid k : Nat) (x : Zone) : (setZone s nsid k x).mark = s.mark := by
  unfold setZone
  simp

@[simp] theorem setSlab_mark (s : State) (a : Nat) (x : Slab) : (setSlab s a x).mark = s.mark := by
  unfold setSlab
  simp

@[simp] theorem setCourse_mark (s : State) (c : Nat) (x : Option Course) : (setCourse s c x).mark = s.mark := by
  unfold setCourse
  simp

@[simp] theorem updCourse_mark (s : State) (c : Nat) (f : Course → Course) : (updCourse s c f).mark = s.mark := by
  unfold updCourse
  simp

@[simp] theorem setDomain_mark (s : State) (nsid k : Nat) (x : Option Domain) : (setDomain s nsid k x).mark = s.mark := by
  unfold setDomain
  simp

@[simp] theorem setDev_mark (s : State) (i : Nat) (x : Option DevRead) : (setDev s i x).mark = s.mark := by
  unfold setDev
  try dsimp only
  (repeat' split) <;> first
    | (simp; done)
    | (simp [apply_ite State.mark, apply_ite Prod.fst]; done)
    | (rw [foldl_mark]; (try simp); intro t a; try dsimp only; (repeat' split) <;> simp [apply_ite State.mark])
    | (rw [foldl_mark_pair]; (try simp); intro t a; try dsimp only; (repeat' split) <;> simp [apply_ite State.mark, apply_ite Prod.fst])

@[simp] theorem setLPort_mark (s : State) (p : Nat) (x : LPort) : (setLPort s p x).mark = s.mark := by
  unfold setLPort
  simp

@[simp] theorem setQp_mark (s : State) (q : Nat) (x : QPair) : (setQp s q x).mark = s.mark := by
  unfold setQp
  simp

@[simp] theorem setFunc_mark (s : State) (f : Nat) (x : PFunc) : (setFunc s f x).mark = s.mark := by
  unfold setFunc
  simp

@[simp] theorem setTen_mark (s : State) (t : Nat) (x : Tenant) : (setTen s t x).mark = s.mark := by
  unfold setTen
  simp

@[simp] theorem updTen_mark (s : State) (t : Nat) (f : Tenant → Tenant) : (updTen s t f).mark = s.mark := by
  unfold updTen
  simp

@[simp] theorem setLane_mark (s : State) (l : Nat) (x : Lane) : (setLane s l x).mark = s.mark := by
  unfold setLane
  simp

@[simp] theorem setKey_mark (s : State) (k : Nat) (x : Option KeyRec) : (setKey s k x).mark = s.mark := by
  unfold setKey
  simp

@[simp] theorem setEpoch_mark (s : State) (t : Nat) (e : W32) : (setEpoch s t e).mark = s.mark := by
  unfold setEpoch
  simp

@[simp] theorem setCtx_mark (s : State) (c : Nat) (x : AssayCtx) : (setCtx s c x).mark = s.mark := by
  unfold setCtx
  simp

@[simp] theorem setDram_mark (s : State) (c : Nat) (x : DramCh) : (setDram s c x).mark = s.mark := by
  unfold setDram
  simp

@[simp] theorem setGroup_mark (s : State) (g : Nat) (x : BankGroup) : (setGroup s g x).mark = s.mark := by
  unfold setGroup
  simp

@[simp] theorem setDom_mark (s : State) (d : Nat) (x : Dom) : (setDom s d x).mark = s.mark := by
  unfold setDom
  simp

@[simp] theorem setInput_mark (s : State) (k : Nat) (x : HkInput) : (setInput s k x).mark = s.mark := by
  unfold setInput
  simp

@[simp] theorem setCk_mark (s : State) (p : Nat) (x : CkPort) : (setCk s p x).mark = s.mark := by
  unfold setCk
  simp

/-! ## Events -/

@[simp] theorem lineMessage_mark (s : State) (l : Nat) : (lineMessage s l).mark = s.mark := by
  unfold lineMessage
  (repeat' split) <;> simp

@[simp] theorem sendLines_mark (s : State) (all : Bool) : (sendLines s all).mark = s.mark := by
  unfold sendLines
  simp

@[simp] theorem setStat_mark (s : State) (src : Nat) : (setStat s src).mark = s.mark := by
  unfold setStat
  (repeat' split) <;> simp

@[simp] theorem raise_mark (s : State) (e : Event) : (raise s e).mark = s.mark := by
  unfold raise
  dsimp only
  (repeat' split) <;> simp

theorem execEventArrival_mark (e : Event) (s : State) : (execEventArrival e s).Marked s := by
  unfold execEventArrival
  refine stepIf_mark ?_
  simp

theorem execRecordCommitDone_mark (s : State) : (execRecordCommitDone s).Marked s := by
  unfold execRecordCommitDone
  (repeat' split) <;> first | trivial | (refine stepIf_mark ?_; simp; done)

theorem execRepeatRewriteDone_mark (s : State) : (execRepeatRewriteDone s).Marked s := by
  unfold execRepeatRewriteDone
  (repeat' split) <;> first | trivial | (refine stepIf_mark ?_; simp; done)

theorem execCommitReadbackFail_mark (s : State) : (execCommitReadbackFail s).Marked s := by
  unfold execCommitReadbackFail
  (repeat' split) <;> first | trivial | (refine stepIf_mark ?_; simp; done)

theorem execOpMsPersistTimer_mark (elapsedMs : Nat) (s : State) : (execOpMsPersistTimer elapsedMs s).Marked s := by
  unfold execOpMsPersistTimer
  refine stepIf_mark ?_
  simp

@[simp] theorem setCapture_mark (s : State) (ctl base : Nat) : (setCapture s ctl base).mark = s.mark := by
  unfold setCapture
  try dsimp only
  (repeat' split) <;> first
    | (simp; done)
    | (simp [apply_ite State.mark, apply_ite Prod.fst]; done)
    | (rw [foldl_mark]; (try simp); intro t a; try dsimp only; (repeat' split) <;> simp [apply_ite State.mark])
    | (rw [foldl_mark_pair]; (try simp); intro t a; try dsimp only; (repeat' split) <;> simp [apply_ite State.mark, apply_ite Prod.fst])

/-! ## Operands -/

@[simp] theorem writeBuf_mark (s : State) (buf off : Nat) (l : List Byte) : (writeBuf s buf off l).mark = s.mark := by
  unfold writeBuf
  simp

/-! ## Ops -/

@[simp] theorem padsAtReset_mark (s : State) : (padsAtReset s).mark = s.mark := by
  unfold padsAtReset
  dsimp only
  (repeat' split) <;> simp

@[simp] theorem setPads_mark (s : State) : (setPads s).mark = s.mark := by
  unfold setPads
  dsimp only
  (repeat' split) <;> simp

@[simp] theorem useDomain_mark (s : State) (d : Nat) : (useDomain s d).mark = s.mark := by
  unfold useDomain
  dsimp only
  (repeat' split) <;> simp

@[simp] theorem endAdmin_mark (s : State) (k : Nat) (st : Nat × Nat × Bool) : (endAdmin s k st).mark = s.mark := by
  unfold endAdmin
  try dsimp only
  (repeat' split) <;> first
    | (simp; done)
    | (simp [apply_ite State.mark, apply_ite Prod.fst]; done)
    | (rw [foldl_mark]; (try simp); intro t a; try dsimp only; (repeat' split) <;> simp [apply_ite State.mark])
    | (rw [foldl_mark_pair]; (try simp); intro t a; try dsimp only; (repeat' split) <;> simp [apply_ite State.mark, apply_ite Prod.fst])

@[simp] theorem admin_mark (s : State) (k : Nat) (st : Nat × Nat) (data : List Byte) : (admin s k st data).mark = s.mark := by
  unfold admin
  try dsimp only
  (repeat' split) <;> first
    | (simp; done)
    | (simp [apply_ite State.mark, apply_ite Prod.fst]; done)
    | (rw [foldl_mark]; (try simp); intro t a; try dsimp only; (repeat' split) <;> simp [apply_ite State.mark])
    | (rw [foldl_mark_pair]; (try simp); intro t a; try dsimp only; (repeat' split) <;> simp [apply_ite State.mark, apply_ite Prod.fst])

@[simp] theorem adminDw0_mark (s : State) (k v : Nat) : (adminDw0 s k v).mark = s.mark := by
  unfold adminDw0
  try dsimp only
  (repeat' split) <;> first
    | (simp; done)
    | (simp [apply_ite State.mark, apply_ite Prod.fst]; done)
    | (rw [foldl_mark]; (try simp); intro t a; try dsimp only; (repeat' split) <;> simp [apply_ite State.mark])
    | (rw [foldl_mark_pair]; (try simp); intro t a; try dsimp only; (repeat' split) <;> simp [apply_ite State.mark, apply_ite Prod.fst])

@[simp] theorem adminHold_mark (s : State) (k : Nat) : (adminHold s k).mark = s.mark := by
  unfold adminHold
  try dsimp only
  (repeat' split) <;> first
    | (simp; done)
    | (simp [apply_ite State.mark, apply_ite Prod.fst]; done)
    | (rw [foldl_mark]; (try simp); intro t a; try dsimp only; (repeat' split) <;> simp [apply_ite State.mark])
    | (rw [foldl_mark_pair]; (try simp); intro t a; try dsimp only; (repeat' split) <;> simp [apply_ite State.mark, apply_ite Prod.fst])

/-! ## Orders -/

@[simp] theorem cacheRoom_mark (s : State) (text : Bool) : (cacheRoom s text).1.mark = s.mark := by
  unfold cacheRoom
  try dsimp only
  (repeat' split) <;> first
    | (simp; done)
    | (simp [apply_ite State.mark, apply_ite Prod.fst]; done)
    | (rw [foldl_mark]; (try simp); intro t a; try dsimp only; (repeat' split) <;> simp [apply_ite State.mark])
    | (rw [foldl_mark_pair]; (try simp); intro t a; try dsimp only; (repeat' split) <;> simp [apply_ite State.mark, apply_ite Prod.fst])

@[simp] theorem grant_mark (s : State) (m k n : Nat) : (grant s m k n).mark = s.mark := by
  unfold grant
  simp

@[simp] theorem startSlice_mark (s : State) (m : Nat) : (startSlice s m).mark = s.mark := by
  unfold startSlice
  (repeat' split) <;> simp

@[simp] theorem reachCluster_mark (s : State) (c : Nat) : (reachCluster s c).mark = s.mark := by
  unfold reachCluster
  dsimp only
  (repeat' split) <;> simp

@[simp] theorem startCluster_mark (s : State) (c : Nat) : (startCluster s c).mark = s.mark := by
  unfold startCluster
  simp

@[simp] theorem passOn_mark (s : State) (m left : Nat) : (passOn s m left).mark = s.mark := by
  unfold passOn
  (repeat' split) <;> simp

@[simp] theorem leave_mark (s : State) (k : Nat) (st : SlotState) : (leave s k st).mark = s.mark := by
  unfold leave
  dsimp only
  (repeat' split) <;> simp

@[simp] theorem suspend_mark (s : State) (k : Nat) (w : WaitFor) : (suspend s k w).mark = s.mark := by
  unfold suspend
  try dsimp only
  (repeat' split) <;> first
    | (simp; done)
    | (simp [apply_ite State.mark, apply_ite Prod.fst]; done)
    | (rw [foldl_mark]; (try simp); intro t a; try dsimp only; (repeat' split) <;> simp [apply_ite State.mark])
    | (rw [foldl_mark_pair]; (try simp); intro t a; try dsimp only; (repeat' split) <;> simp [apply_ite State.mark, apply_ite Prod.fst])

@[simp] theorem reapBodies_mark (s : State) : (reapBodies s).mark = s.mark := by
  unfold reapBodies
  refine foldl_mark _ (fun t e => ?_) _ _
  (repeat' split) <;> simp

@[simp] theorem takeGroups_mark (s : State) (gs : List Nat) (n : Nat) : (takeGroups s gs n).1.mark = s.mark := by
  induction gs generalizing s n with
  | nil => rfl
  | cons g gs ih =>
    unfold takeGroups
    dsimp only
    (repeat' split) <;> simp [ih]

@[simp] theorem allocBuf_mark (s : State) (k t size : Nat) (dram : Bool) : (allocBuf s k t size dram).1.mark = s.mark := by
  unfold allocBuf
  (repeat' split) <;> simp

@[simp] theorem freeBuf_mark (s : State) (b : Nat) : (freeBuf s b).mark = s.mark := by
  unfold freeBuf
  (repeat' split) <;> simp

@[simp] theorem freeAll_mark (s : State) (k : Nat) : (freeAll s k).mark = s.mark := by
  unfold freeAll
  simp

@[simp] theorem dropPrivate_mark (s : State) (k : Nat) : (dropPrivate s k).mark = s.mark := by
  unfold dropPrivate
  simp

@[simp] theorem releaseOrphans_mark (s : State) (bs : List Nat) : (releaseOrphans s bs).mark = s.mark := by
  unfold releaseOrphans
  refine foldl_mark _ (fun t e => ?_) _ _
  (repeat' split) <;> simp

@[simp] theorem finishOrder_mark (s : State) (k : Nat) (st : W16) : (finishOrder s k st).mark = s.mark := by
  unfold finishOrder
  simp

@[simp] theorem countFault_mark (s : State) (k : Nat) (st : W16) : (countFault s k st).mark = s.mark := by
  unfold countFault
  (repeat' split) <;> simp

@[simp] theorem enterHandler_mark (s : State) (k : Nat) (st pos : W16) (p : CodePos) : (enterHandler s k st pos p).mark = s.mark := by
  unfold enterHandler
  simp

@[simp] theorem noteFault_mark (s : State) (k : Nat) (st pos : W16) : (noteFault s k st pos).mark = s.mark := by
  unfold noteFault
  try dsimp only
  (repeat' split) <;> first
    | (simp; done)
    | (simp [apply_ite State.mark, apply_ite Prod.fst]; done)
    | (rw [foldl_mark]; (try simp); intro t a; try dsimp only; (repeat' split) <;> simp [apply_ite State.mark])
    | (rw [foldl_mark_pair]; (try simp); intro t a; try dsimp only; (repeat' split) <;> simp [apply_ite State.mark, apply_ite Prod.fst])

@[simp] theorem transferFault_mark (s : State) (k : Nat) (pos : W16) : (transferFault s k pos).mark = s.mark := by
  unfold transferFault
  try dsimp only
  (repeat' split) <;> first
    | (simp; done)
    | (simp [apply_ite State.mark, apply_ite Prod.fst]; done)
    | (rw [foldl_mark]; (try simp); intro t a; try dsimp only; (repeat' split) <;> simp [apply_ite State.mark])
    | (rw [foldl_mark_pair]; (try simp); intro t a; try dsimp only; (repeat' split) <;> simp [apply_ite State.mark, apply_ite Prod.fst])

@[simp] theorem orderFault_mark (s : State) (k : Nat) (st pos : W16) : (orderFault s k st pos).mark = s.mark := by
  unfold orderFault
  try dsimp only
  (repeat' split) <;> first
    | (simp; done)
    | (simp [apply_ite State.mark, apply_ite Prod.fst]; done)
    | (rw [foldl_mark]; (try simp); intro t a; try dsimp only; (repeat' split) <;> simp [apply_ite State.mark])
    | (rw [foldl_mark_pair]; (try simp); intro t a; try dsimp only; (repeat' split) <;> simp [apply_ite State.mark, apply_ite Prod.fst])

@[simp] theorem runnableAt_mark (s : State) (k n : Nat) : (runnableAt s k n).mark = s.mark := by
  unfold runnableAt
  dsimp only
  (repeat' split) <;> simp

@[simp] theorem resume_mark (s : State) (k : Nat) : (resume s k).mark = s.mark := by
  unfold resume
  simp

@[simp] theorem wake_mark (s : State) (k : Nat) : (wake s k).mark = s.mark := by
  unfold wake
  dsimp only
  (repeat' split) <;> simp

@[simp] theorem zeroWrites_mark (s : State) (q : Req) : (zeroWrites s q).mark = s.mark := by
  unfold zeroWrites
  (repeat' split) <;> simp

@[simp] theorem discardResult_mark (s : State) (rid : Nat) : (discardResult s rid).mark = s.mark := by
  unfold discardResult
  (repeat' split) <;> simp

@[simp] theorem deliver_mark (s : State) (rid : Nat) (st : W16) (value : Option W64) : (deliver s rid st value).mark = s.mark := by
  unfold deliver
  try dsimp only
  (repeat' split) <;> first
    | (simp; done)
    | (simp [apply_ite State.mark, apply_ite Prod.fst]; done)
    | (rw [foldl_mark]; (try simp); intro t a; try dsimp only; (repeat' split) <;> simp [apply_ite State.mark])
    | (rw [foldl_mark_pair]; (try simp); intro t a; try dsimp only; (repeat' split) <;> simp [apply_ite State.mark, apply_ite Prod.fst])

@[simp] theorem countWord_mark (s : State) (k cost : Nat) : (countWord s k cost).mark = s.mark := by
  unfold countWord
  simp

@[simp] theorem afterWord_mark (s : State) (k : Nat) : (afterWord s k).mark = s.mark := by
  unfold afterWord
  dsimp only
  (repeat' split) <;> simp

@[simp] theorem runWord_mark (s : State) (k cost : Nat) (wellUsed : Bool) (body : State → W16 → State)
    (h : ∀ t p, (body t p).mark = t.mark) : (runWord s k cost wellUsed body).mark = s.mark := by
  unfold runWord
  (repeat' split) <;> simp [h, apply_ite State.mark]

@[simp] theorem waitWord_mark (s : State) (k cost : Nat) (wellUsed : Bool) (mask : BitVec 4) (body : State → W16 → State)
    (h : ∀ t p, (body t p).mark = t.mark) : (waitWord s k cost wellUsed mask body).mark = s.mark := by
  unfold waitWord
  (repeat' split) <;> simp [h, apply_ite State.mark]

@[simp] theorem raiseTickets_mark (s : State) (k : Nat) (mask : BitVec 4) (go : State → State)
    (h : ∀ t, (go t).mark = t.mark) : (raiseTickets s k mask go).mark = s.mark := by
  unfold raiseTickets
  (repeat' split) <;> simp [h, apply_ite State.mark]

@[simp] theorem sendReq_mark (s : State) (k op : Nat) (f : Fields) (o : AsyncOp) (pos : W16) (t : Option Nat)
    (h : ∀ t r, (o.start t r).mark = t.mark) : (sendReq s k op f o pos t).mark = s.mark := by
  unfold sendReq
  dsimp only
  (repeat' split) <;> simp [h, apply_ite State.mark]

@[simp] theorem issue_mark (s : State) (k op : Nat) (f : Fields) (o : AsyncOp) (pos : W16)
    (h : ∀ t r, (o.start t r).mark = t.mark) : (issue s k op f o pos).mark = s.mark := by
  unfold issue
  dsimp only
  (repeat' split) <;> simp [h, apply_ite State.mark]

@[simp] theorem asyncWord_mark (s : State) (k op : Nat) (f : Fields) (o : AsyncOp) 
    (h : ∀ t r, (o.start t r).mark = t.mark) : (asyncWord s k op f o).mark = s.mark := by
  unfold asyncWord
  dsimp only
  (repeat' split) <;> simp [h, apply_ite State.mark]

@[simp] theorem complete_mark (s : State) (rid : Nat) (st : W16) (value : Option W64) : (complete s rid st value).mark = s.mark := by
  unfold complete
  simp

@[simp] theorem deliverDone_mark (s : State) (rid : Nat) : (deliverDone s rid).mark = s.mark := by
  unfold deliverDone
  (repeat' split) <;> simp

@[simp] theorem deliverAll_mark (s : State) : (deliverAll s).mark = s.mark := by
  unfold deliverAll
  simp

/-! ## Buffers -/

@[simp] theorem ballocOp_start_mark (s : State) (k : Nat) (f : Fields) (t : State) (r : Nat) : ((ballocOp s k f).start t r).mark = t.mark := by
  unfold ballocOp
  simp

theorem execBalloc_mark (slot : Nat) (f : Fields) (s : State) : (execBalloc slot f s).Marked s := by
  unfold execBalloc
  refine stepIf_mark ?_
  simp

@[simp] theorem bfree_mark (s : State) (k b : Nat) : (bfree s k b).mark = s.mark := by
  unfold bfree
  simp

theorem execBfree_mark (slot : Nat) (f : Fields) (s : State) : (execBfree slot f s).Marked s := by
  unfold execBfree
  refine stepIf_mark (waitWord_mark _ _ _ _ _ _ fun t p => ?_)
  (repeat' split) <;> simp

@[simp] theorem bfillOp_start_mark (s : State) (k : Nat) (f : Fields) (t : State) (r : Nat) : ((bfillOp s k f).start t r).mark = t.mark := by
  unfold bfillOp
  simp

theorem execBfill_mark (slot : Nat) (f : Fields) (s : State) : (execBfill slot f s).Marked s := by
  unfold execBfill
  refine stepIf_mark ?_
  simp

@[simp] theorem bcopyOp_start_mark (s : State) (k : Nat) (f : Fields) (t : State) (r : Nat) : ((bcopyOp s k f).start t r).mark = t.mark := by
  unfold bcopyOp
  simp

theorem execBcopy_mark (slot : Nat) (f : Fields) (s : State) : (execBcopy slot f s).Marked s := by
  unfold execBcopy
  refine stepIf_mark ?_
  simp

@[simp] theorem setLen_mark (s : State) (q : Req) (len : Nat) : (setLen s q len).mark = s.mark := by
  unfold setLen
  (repeat' split) <;> simp

@[simp] theorem produce_mark (s : State) (q : Req) (l : List Byte) : (produce s q l).mark = s.mark := by
  unfold produce
  (repeat' split) <;> simp

@[simp] theorem finishCopy_mark (s : State) (rid : Nat) (q : Req) : (finishCopy s rid q).mark = s.mark := by
  unfold finishCopy
  (repeat' split) <;> simp

@[simp] theorem copyStrike_mark (s : State) (rid : Nat) : (copyStrike s rid).mark = s.mark := by
  unfold copyStrike
  dsimp only
  (repeat' split) <;> simp

@[simp] theorem bslice_mark (s : State) (k : Nat) (f : Fields) (pos : W16) : (bslice s k f pos).mark = s.mark := by
  unfold bslice
  dsimp only
  (repeat' split) <;> simp

theorem execBslice_mark (slot : Nat) (f : Fields) (s : State) : (execBslice slot f s).Marked s := by
  unfold execBslice
  refine stepIf_mark ?_
  simp

/-! ## HostMem -/

@[simp] theorem failTransfer_mark (s : State) (rid : Nat) : (failTransfer s rid).mark = s.mark := by
  unfold failTransfer
  (repeat' split) <;> simp

@[simp] theorem zeroFail_mark (s : State) (rid : Nat) : (zeroFail s rid).mark = s.mark := by
  unfold zeroFail
  (repeat' split) <;> simp

@[simp] theorem oneQpError_mark (s : State) (qp : Nat) : (oneQpError s qp).mark = s.mark := by
  unfold oneQpError
  dsimp only
  (repeat' split) <;> simp

@[simp] theorem qpError_mark (s : State) (qp : Nat) : (qpError s qp).mark = s.mark := by
  unfold qpError
  dsimp only
  (repeat' split) <;> simp

@[simp] theorem markPages_mark (s : State) (t : Nat) (pages : List Nat) : (markPages s t pages).mark = s.mark := by
  unfold markPages
  dsimp only
  (repeat' split) <;> simp

@[simp] theorem countTransferFail_mark (s : State) (x : Slot) : (countTransferFail s x).mark = s.mark := by
  unfold countTransferFail
  (repeat' split) <;> simp

@[simp] theorem readText_mark (s : State) (k : Nat) : (readText s k).mark = s.mark := by
  unfold readText
  try dsimp only
  (repeat' split) <;> first
    | (simp; done)
    | (simp [apply_ite State.mark, apply_ite Prod.fst]; done)
    | (rw [foldl_mark]; (try simp); intro t a; try dsimp only; (repeat' split) <;> simp [apply_ite State.mark])
    | (rw [foldl_mark_pair]; (try simp); intro t a; try dsimp only; (repeat' split) <;> simp [apply_ite State.mark, apply_ite Prod.fst])

@[simp] theorem readData_mark (s : State) (x : Slot) (rid : Nat) : (readData s x rid).mark = s.mark := by
  unfold readData
  try dsimp only
  (repeat' split) <;> first
    | (simp; done)
    | (simp [apply_ite State.mark, apply_ite Prod.fst]; done)
    | (rw [foldl_mark]; (try simp); intro t a; try dsimp only; (repeat' split) <;> simp [apply_ite State.mark])
    | (rw [foldl_mark_pair]; (try simp); intro t a; try dsimp only; (repeat' split) <;> simp [apply_ite State.mark, apply_ite Prod.fst])

@[simp] theorem nextRead_mark (s : State) (x : Slot) : (nextRead s x).mark = s.mark := by
  unfold nextRead
  try dsimp only
  (repeat' split) <;> first
    | (simp; done)
    | (simp [apply_ite State.mark, apply_ite Prod.fst]; done)
    | (rw [foldl_mark]; (try simp); intro t a; try dsimp only; (repeat' split) <;> simp [apply_ite State.mark])
    | (rw [foldl_mark_pair]; (try simp); intro t a; try dsimp only; (repeat' split) <;> simp [apply_ite State.mark, apply_ite Prod.fst])

@[simp] theorem hgetStart_mark (x : Slot) (f : Fields) (len : Nat) (s : State) (rid : Nat) : (hgetStart x f len s rid).mark = s.mark := by
  unfold hgetStart
  (repeat' split) <;> simp

@[simp] theorem hgetOp_start_mark (s : State) (k : Nat) (f : Fields) (t : State) (r : Nat) : ((hgetOp s k f).start t r).mark = t.mark := by
  unfold hgetOp
  simp

theorem execHget_mark (slot : Nat) (f : Fields) (s : State) : (execHget slot f s).Marked s := by
  unfold execHget
  refine stepIf_mark ?_
  simp

@[simp] theorem markWrite_mark (s : State) (x : Slot) (f : Fields) (len : Nat) : (markWrite s x f len).mark = s.mark := by
  unfold markWrite
  (repeat' split) <;> simp

@[simp] theorem hputStart_mark (x : Slot) (f : Fields) (d : Option Hdl) (s : State) (rid : Nat) : (hputStart x f d s rid).mark = s.mark := by
  unfold hputStart
  dsimp only
  (repeat' split) <;> simp

@[simp] theorem hputOp_start_mark (s : State) (k : Nat) (f : Fields) (t : State) (r : Nat) : ((hputOp s k f).start t r).mark = t.mark := by
  unfold hputOp
  simp

theorem execHput_mark (slot : Nat) (f : Fields) (s : State) : (execHput slot f s).Marked s := by
  unfold execHput
  refine stepIf_mark ?_
  simp

@[simp] theorem noteStart_mark (x : Slot) (k : Nat) (f : Fields) (s : State) (rid : Nat) : (noteStart x k f s rid).mark = s.mark := by
  unfold noteStart
  (repeat' split) <;> simp

@[simp] theorem noteOp_start_mark (s : State) (k : Nat) (f : Fields) (t : State) (r : Nat) : ((noteOp s k f).start t r).mark = t.mark := by
  unfold noteOp
  simp

theorem execNote_mark (slot : Nat) (f : Fields) (s : State) : (execNote slot f s).Marked s := by
  unfold execNote
  refine stepIf_mark ?_
  simp

@[simp] theorem hostAnswer_mark (s : State) (rid : Nat) (q : Req) (r : HostReply) : (hostAnswer s rid q r).mark = s.mark := by
  unfold hostAnswer
  dsimp only
  (repeat' split) <;> simp

/-! ## Cipher -/

@[simp] theorem reapKeys_mark (s : State) : (reapKeys s).mark = s.mark := by
  unfold reapKeys
  simp

@[simp] theorem installKey_mark (s : State) (slot : Nat) (k : Option KeyRec) : (installKey s slot k).mark = s.mark := by
  unfold installKey
  (repeat' split) <;> simp

@[simp] theorem keyloadRun_mark (s : State) (rid : Nat) : (keyloadRun s rid).mark = s.mark := by
  unfold keyloadRun
  dsimp only
  (repeat' split) <;> simp

@[simp] theorem keyloadOp_start_mark (s : State) (k : Nat) (f : Fields) (t : State) (r : Nat) : ((keyloadOp s k f).start t r).mark = t.mark := by
  unfold keyloadOp
  simp

theorem execKeyload_mark (slot : Nat) (f : Fields) (s : State) : (execKeyload slot f s).Marked s := by
  unfold execKeyload
  refine stepIf_mark ?_
  simp

@[simp] theorem keyStrike_mark (s : State) : (keyStrike s).mark = s.mark := by
  unfold keyStrike
  dsimp only
  (repeat' split) <;> simp (disch := (intros; first | (simp; done) | ((repeat' split) <;> try simp))) [apply_ite State.mark, apply_ite Prod.fst,
    apply_ite Prod.snd]

@[simp] theorem assignLane_mark (s : State) (rid : Nat) : (assignLane s rid).mark = s.mark := by
  unfold assignLane
  (repeat' split) <;> simp

@[simp] theorem cipherOp_start_mark (s : State) (k op : Nat) (f : Fields) (t : State) (r : Nat) : ((cipherOp s k op f).start t r).mark = t.mark := by
  unfold cipherOp
  simp

theorem execSeal_mark (slot : Nat) (f : Fields) (s : State) : (execSeal slot f s).Marked s := by
  unfold execSeal
  refine stepIf_mark ?_
  simp

theorem execOpenRecord_mark (slot : Nat) (f : Fields) (s : State) : (execOpenRecord slot f s).Marked s := by
  unfold execOpenRecord
  refine stepIf_mark ?_
  simp

theorem execMac_mark (slot : Nat) (f : Fields) (s : State) : (execMac slot f s).Marked s := by
  unfold execMac
  refine stepIf_mark ?_
  simp

@[simp] theorem misfit_mark (s : State) (rid : Nat) (q : Req) : (misfit s rid q).mark = s.mark := by
  unfold misfit
  try dsimp only
  (repeat' split) <;> first
    | (simp; done)
    | (simp [apply_ite State.mark, apply_ite Prod.fst]; done)
    | (rw [foldl_mark]; (try simp); intro t a; try dsimp only; (repeat' split) <;> simp [apply_ite State.mark])
    | (rw [foldl_mark_pair]; (try simp); intro t a; try dsimp only; (repeat' split) <;> simp [apply_ite State.mark, apply_ite Prod.fst])

@[simp] theorem streamHost_mark (s : State) (rid unitsLeft : Nat) : (streamHost s rid unitsLeft).mark = s.mark := by
  unfold streamHost
  dsimp only
  (repeat' split) <;> simp

@[simp] theorem startOnLane_mark (s : State) (l rid : Nat) : (startOnLane s l rid).mark = s.mark := by
  unfold startOnLane
  (repeat' split) <;> simp

@[simp] theorem laneSpend_mark (l n g : Nat) (s : State) : (laneSpend l n g s).mark = s.mark := by
  induction n generalizing g s with
  | zero => rfl
  | succ n ih =>
    unfold laneSpend
    dsimp only
    (repeat' split) <;> simp [ih]

@[simp] theorem laneAbandon_mark (s : State) (l : Nat) : (laneAbandon s l).mark = s.mark := by
  unfold laneAbandon
  dsimp only
  (repeat' split) <;> simp

@[simp] theorem laneStrike_mark (s : State) (l : Nat) : (laneStrike s l).mark = s.mark := by
  unfold laneStrike
  dsimp only
  (repeat' split) <;> simp

@[simp] theorem laneRetry_mark (s : State) : (laneRetry s).mark = s.mark := by
  unfold laneRetry
  refine foldl_mark _ (fun t e => ?_) _ _
  (repeat' split) <;> simp

@[simp] theorem countTagFail_mark (s : State) : (countTagFail s).mark = s.mark := by
  unfold countTagFail
  simp

@[simp] theorem freeHold_mark (s : State) (l : Nat) : (freeHold s l).mark = s.mark := by
  unfold freeHold
  simp

@[simp] theorem heldDone_mark (s : State) (l rid : Nat) (q : Req) : (heldDone s l rid q).mark = s.mark := by
  unfold heldDone
  (repeat' split) <;> simp

@[simp] theorem earlyDone_mark (s : State) (rid : Nat) (q : Req) : (earlyDone s rid q).mark = s.mark := by
  unfold earlyDone
  dsimp only
  (repeat' split) <;> simp

@[simp] theorem requestDone_mark (s : State) (l rid : Nat) (q : Req) : (requestDone s l rid q).mark = s.mark := by
  unfold requestDone
  dsimp only
  (repeat' split) <;> simp

theorem execLaneRequestDone_mark (lane : Nat) (s : State) : (execLaneRequestDone lane s).Marked s := by
  unfold execLaneRequestDone
  (repeat' split) <;> first | trivial | (refine next_mark ?_; simp; done)

@[simp] theorem releaseDone_mark (s : State) (l rid : Nat) (q : Req) (pages : List Nat) : (releaseDone s l rid q pages).mark = s.mark := by
  unfold releaseDone
  (repeat' split) <;> simp

theorem execHoldReleaseDone_mark (lane : Nat) (pages : List Nat) (s : State) : (execHoldReleaseDone lane pages s).Marked s := by
  unfold execHoldReleaseDone
  (repeat' split) <;> first | trivial | (refine next_mark ?_; simp; done)

@[simp] theorem zeroed_mark (s : State) (rid : Nat) (q : Req) (pages : List Nat) : (zeroed s rid q pages).mark = s.mark := by
  unfold zeroed
  simp

theorem execZeroingDone_mark (lane : Nat) (pages : List Nat) (s : State) : (execZeroingDone lane pages s).Marked s := by
  unfold execZeroingDone
  (repeat' split) <;> first | trivial | (refine next_mark ?_; simp; done)

@[simp] theorem kekEpochWrite_mark (s : State) (t : Nat) (value : W32) : (kekEpochWrite s t value).mark = s.mark := by
  unfold kekEpochWrite
  (repeat' split) <;> simp

/-! ## AssayEngine -/

@[simp] theorem placeCtx_mark (s : State) (c : Nat) (x : AssayCtx) : (placeCtx s c x).mark = s.mark := by
  unfold placeCtx
  (repeat' split) <;> simp

@[simp] theorem quenchCtx_mark (s : State) (c : Nat) : (quenchCtx s c).mark = s.mark := by
  unfold quenchCtx
  simp

@[simp] theorem staleWork_mark (s : State) (rid : Nat) : (staleWork s rid).mark = s.mark := by
  unfold staleWork
  try dsimp only
  (repeat' split) <;> first
    | (simp; done)
    | (simp [apply_ite State.mark, apply_ite Prod.fst]; done)
    | (rw [foldl_mark]; (try simp); intro t a; try dsimp only; (repeat' split) <;> simp [apply_ite State.mark])
    | (rw [foldl_mark_pair]; (try simp); intro t a; try dsimp only; (repeat' split) <;> simp [apply_ite State.mark, apply_ite Prod.fst])

@[simp] theorem freeSlotCtxs_mark (s : State) (k : Nat) : (freeSlotCtxs s k).mark = s.mark := by
  unfold freeSlotCtxs
  refine foldl_mark _ (fun t e => ?_) _ _
  (repeat' split) <;> simp

@[simp] theorem ctxStrike_mark (s : State) : (ctxStrike s).mark = s.mark := by
  unfold ctxStrike
  refine foldl_mark _ (fun t e => ?_) _ _
  (repeat' split) <;> simp

@[simp] theorem produceAt_mark (s : State) (k : Nat) (i : BitVec 4) (d : Option Hdl) (l : List Byte) : (produceAt s k i d l).mark = s.mark := by
  unfold produceAt
  (repeat' split) <;> simp

@[simp] theorem dgfeedStart_mark (s : State) (rid c : Nat) (l : List Byte) : (dgfeedStart s rid c l).mark = s.mark := by
  unfold dgfeedStart
  dsimp only
  (repeat' split) <;> simp

@[simp] theorem dgfeedOp_start_mark (s : State) (k : Nat) (f : Fields) (t : State) (r : Nat) : ((dgfeedOp s k f).start t r).mark = t.mark := by
  unfold dgfeedOp
  simp

theorem execDgfeed_mark (slot : Nat) (f : Fields) (s : State) : (execDgfeed slot f s).Marked s := by
  unfold execDgfeed
  refine stepIf_mark ?_
  simp

@[simp] theorem dgfinStart_mark (s : State) (k rid c : Nat) (f : Fields) (d : Option Hdl) : (dgfinStart s k rid c f d).mark = s.mark := by
  unfold dgfinStart
  (repeat' split) <;> simp

@[simp] theorem dgfinOp_start_mark (s : State) (k : Nat) (f : Fields) (t : State) (r : Nat) : ((dgfinOp s k f).start t r).mark = t.mark := by
  unfold dgfinOp
  simp

theorem execDgfin_mark (slot : Nat) (f : Fields) (s : State) : (execDgfin slot f s).Marked s := by
  unfold execDgfin
  refine stepIf_mark ?_
  simp

@[simp] theorem dgloadOp_start_mark (s : State) (k : Nat) (f : Fields) (t : State) (r : Nat) : ((dgloadOp s k f).start t r).mark = t.mark := by
  unfold dgloadOp
  dsimp only
  (repeat' split) <;> simp

theorem execDgload_mark (slot : Nat) (f : Fields) (s : State) : (execDgload slot f s).Marked s := by
  unfold execDgload
  refine stepIf_mark ?_
  simp

@[simp] theorem hashGrant_mark (s : State) : (hashGrant s).mark = s.mark := by
  unfold hashGrant
  simp

@[simp] theorem finishCtx_mark (s : State) (c : Nat) (x : AssayCtx) : (finishCtx s c x).mark = s.mark := by
  unfold finishCtx
  (repeat' split) <;> simp

@[simp] theorem compressOne_mark (s : State) (c : Nat) : (compressOne s c).mark = s.mark := by
  unfold compressOne
  dsimp only
  (repeat' split) <;> simp

theorem execBlockCompressed_mark (ctx : Nat) (s : State) : (execBlockCompressed ctx s).Marked s := by
  unfold execBlockCompressed
  refine stepIf_mark ?_
  simp

@[simp] theorem dropWrite_mark (s : State) (c : Nat) : (dropWrite s c).mark = s.mark := by
  unfold dropWrite
  simp

@[simp] theorem dataWrite_mark (s : State) (c : Nat) (l : List Byte) (last : Bool) : (dataWrite s c l last).mark = s.mark := by
  unfold dataWrite
  (repeat' split) <;> simp

@[simp] theorem ctxCommand_mark (s : State) (c : Nat) (algo : Bool) (cond : Bool) (act : AssayCtx → AssayCtx) : (ctxCommand s c algo cond act).mark = s.mark := by
  unfold ctxCommand
  dsimp only
  (repeat' split) <;> simp

@[simp] theorem dgInit_mark (s : State) (ctx : Nat) (algo : Bool) : (dgInit s ctx algo).mark = s.mark := by
  unfold dgInit
  simp

theorem execDgInit_mark (ctx : Nat) (algo : Bool) (s : State) : (execDgInit ctx algo s).Marked s := by
  unfold execDgInit
  refine stepIf_mark ?_
  simp

@[simp] theorem dgExport_mark (s : State) (ctx : Nat) (algo : Bool) : (dgExport s ctx algo).mark = s.mark := by
  unfold dgExport
  simp

theorem execDgExport_mark (ctx : Nat) (algo : Bool) (s : State) : (execDgExport ctx algo s).Marked s := by
  unfold execDgExport
  refine stepIf_mark ?_
  simp

@[simp] theorem dgImport_mark (s : State) (ctx : Nat) (algo : Bool) : (dgImport s ctx algo).mark = s.mark := by
  unfold dgImport
  simp

theorem execDgImport_mark (ctx : Nat) (algo : Bool) (s : State) : (execDgImport ctx algo s).Marked s := by
  unfold execDgImport
  refine stepIf_mark ?_
  simp

@[simp] theorem dgData_mark (s : State) (ctx : Nat) (value : W32) : (dgData s ctx value).mark = s.mark := by
  unfold dgData
  simp

@[simp] theorem dgLast_mark (s : State) (ctx : Nat) (value : W32) : (dgLast s ctx value).mark = s.mark := by
  unfold dgLast
  simp

theorem execDgDataWrite_mark (ctx : Nat) (value : W32) (s : State) : (execDgDataWrite ctx value s).Marked s := by
  unfold execDgDataWrite
  refine stepIf_mark ?_
  simp

theorem execDgLastWrite_mark (ctx : Nat) (value : W32) (s : State) : (execDgLastWrite ctx value s).Marked s := by
  unfold execDgLastWrite
  refine stepIf_mark ?_
  simp

@[simp] theorem dgAlloc_mark (s : State) (value : W32) : (dgAlloc s value).mark = s.mark := by
  unfold dgAlloc
  (repeat' split) <;> simp

theorem execDgAllocRequest_mark (req : Nat) (value : W32) (s : State) : (execDgAllocRequest req value s).Marked s := by
  unfold execDgAllocRequest
  refine stepIf_mark ?_
  simp

@[simp] theorem dgFree_mark (s : State) (value : W32) : (dgFree s value).mark = s.mark := by
  unfold dgFree
  (repeat' split) <;> simp

theorem execDgFreeWrite_mark (req : Nat) (value : W32) (s : State) : (execDgFreeWrite req value s).Marked s := by
  unfold execDgFreeWrite
  refine stepIf_mark ?_
  simp

end Sys2Proof.Machine
end

