-- ==== Sys2Proof/Laws/KeptMedia.lean ====
section
/-! SUPPORT. That the operations and commands of the media, the zones, the namespaces and admission leave the mark of a state, or keep it. -/

namespace Sys2Proof.Machine

set_option linter.all false

/-! ## Geometry -/

@[simp] theorem spareCheck_mark (s : State) : (spareCheck s).mark = s.mark := by
  unfold spareCheck
  dsimp only
  (repeat' split) <;> simp

@[simp] theorem setLatch_mark (s : State) : (setLatch s).mark = s.mark := by
  unfold setLatch
  (repeat' split) <;> simp

@[simp] theorem retireSlab_mark (s : State) (a cause : Nat) : (retireSlab s a cause).mark = s.mark := by
  unfold retireSlab
  dsimp only
  (repeat' split) <;> simp

@[simp] theorem newCourse_mark (s : State) (kind : CourseKind) (nsid owner bay hint : Nat) (bedrock : Bool) (slabs : List Nat) : (newCourse s kind nsid owner bay hint bedrock slabs).1.mark = s.mark := by
  unfold newCourse
  simp

@[simp] theorem releaseSlabs_mark (s : State) (slabs : List Nat) (retire : Nat) : (releaseSlabs s slabs retire).mark = s.mark := by
  unfold releaseSlabs
  simp

@[simp] theorem clearSet_mark (s : State) (n : Nat) : (clearSet s n).mark = s.mark := by
  unfold clearSet
  try dsimp only
  (repeat' split) <;> first
    | (simp; done)
    | (simp [apply_ite State.mark, apply_ite Prod.fst]; done)
    | (rw [foldl_mark]; (try simp); intro t a; try dsimp only; (repeat' split) <;> simp [apply_ite State.mark])
    | (rw [foldl_mark_pair]; (try simp); intro t a; try dsimp only; (repeat' split) <;> simp [apply_ite State.mark, apply_ite Prod.fst])

@[simp] theorem releaseSet_mark (s : State) (id : Nat) : (releaseSet s id).mark = s.mark := by
  unfold releaseSet
  (repeat' split) <;> simp

@[simp] theorem dropPrograms_mark (s : State) (id : Nat) : (dropPrograms s id).mark = s.mark := by
  unfold dropPrograms
  simp

@[simp] theorem dropDevs_mark (s : State) (p : DevUse → Bool) (r : RebuildOf → Bool) : (dropDevs s p r).mark = s.mark := by
  unfold dropDevs
  try dsimp only
  (repeat' split) <;> first
    | (simp; done)
    | (simp [apply_ite State.mark, apply_ite Prod.fst]; done)
    | (rw [foldl_mark]; (try simp); intro t a; try dsimp only; (repeat' split) <;> simp [apply_ite State.mark])
    | (rw [foldl_mark_pair]; (try simp); intro t a; try dsimp only; (repeat' split) <;> simp [apply_ite State.mark, apply_ite Prod.fst])

@[simp] theorem dropRelocation_mark (s : State) (id : Nat) : (dropRelocation s id).mark = s.mark := by
  unfold dropRelocation
  try dsimp only
  (repeat' split) <;> first
    | (simp; done)
    | (simp [apply_ite State.mark, apply_ite Prod.fst]; done)
    | (rw [foldl_mark]; (try simp); intro t a; try dsimp only; (repeat' split) <;> simp [apply_ite State.mark])
    | (rw [foldl_mark_pair]; (try simp); intro t a; try dsimp only; (repeat' split) <;> simp [apply_ite State.mark, apply_ite Prod.fst])

@[simp] theorem dropCourse_mark (s : State) (id : Nat) (retire : Nat) : (dropCourse s id retire).mark = s.mark := by
  unfold dropCourse
  (repeat' split) <;> simp

@[simp] theorem slabRelease_mark (s : State) (id : Nat) (x : Release) : (slabRelease s id x).mark = s.mark := by
  unfold slabRelease
  (repeat' split) <;> simp [apply_ite State.mark]

theorem execSlabRelease_mark (rel : Nat) (s : State) : (execSlabRelease rel s).Marked s := by
  unfold execSlabRelease
  (repeat' split) <;> first | trivial | (refine stepIf_mark ?_; simp; done)

/-! ## Pages -/

@[simp] theorem storePage_mark (s : State) (id : Nat) (c : Course) (stripe pos : Nat) (bytes : List Byte) : (storePage s id c stripe pos bytes).mark = s.mark := by
  unfold storePage
  try dsimp only
  (repeat' split) <;> first
    | (simp; done)
    | (simp [apply_ite State.mark, apply_ite Prod.fst]; done)
    | (rw [foldl_mark]; (try simp); intro t a; try dsimp only; (repeat' split) <;> simp [apply_ite State.mark])
    | (rw [foldl_mark_pair]; (try simp); intro t a; try dsimp only; (repeat' split) <;> simp [apply_ite State.mark, apply_ite Prod.fst])

@[simp] theorem makeKeystone_mark (s : State) (id : Nat) (c : Course) (stripe : Nat) : (makeKeystone s id c stripe).mark = s.mark := by
  unfold makeKeystone
  try dsimp only
  (repeat' split) <;> first
    | (simp; done)
    | (simp [apply_ite State.mark, apply_ite Prod.fst]; done)
    | (rw [foldl_mark]; (try simp); intro t a; try dsimp only; (repeat' split) <;> simp [apply_ite State.mark])
    | (rw [foldl_mark_pair]; (try simp); intro t a; try dsimp only; (repeat' split) <;> simp [apply_ite State.mark, apply_ite Prod.fst])

@[simp] theorem copyContent_mark (s : State) (src off dest into len size : Nat) : (copyContent s src off dest into len size).mark = s.mark := by
  unfold copyContent
  try dsimp only
  (repeat' split) <;> first
    | (simp; done)
    | (simp [apply_ite State.mark, apply_ite Prod.fst]; done)
    | (rw [foldl_mark]; (try simp); intro t a; try dsimp only; (repeat' split) <;> simp [apply_ite State.mark])
    | (rw [foldl_mark_pair]; (try simp); intro t a; try dsimp only; (repeat' split) <;> simp [apply_ite State.mark, apply_ite Prod.fst])

@[simp] theorem pruneContent_mark (s : State) : (pruneContent s).mark = s.mark := by
  unfold pruneContent
  try dsimp only
  (repeat' split) <;> first
    | (simp; done)
    | (simp [apply_ite State.mark, apply_ite Prod.fst]; done)
    | (rw [foldl_mark]; (try simp); intro t a; try dsimp only; (repeat' split) <;> simp [apply_ite State.mark])
    | (rw [foldl_mark_pair]; (try simp); intro t a; try dsimp only; (repeat' split) <;> simp [apply_ite State.mark, apply_ite Prod.fst])

@[simp] theorem xorSegments_mark (s : State) (set id : Nat) (c : Course) (row pos from_ count : Nat) : (xorSegments s set id c row pos from_ count).mark = s.mark := by
  unfold xorSegments
  try dsimp only
  (repeat' split) <;> first
    | (simp; done)
    | (simp [apply_ite State.mark, apply_ite Prod.fst]; done)
    | (rw [foldl_mark]; (try simp); intro t a; try dsimp only; (repeat' split) <;> simp [apply_ite State.mark])
    | (rw [foldl_mark_pair]; (try simp); intro t a; try dsimp only; (repeat' split) <;> simp [apply_ite State.mark, apply_ite Prod.fst])

@[simp] theorem rebuildPage_mark (s : State) (id : Nat) (c : Course) (x : Nat × Nat) (keystone : Bool) : (rebuildPage s id c x keystone).mark = s.mark := by
  unfold rebuildPage
  try dsimp only
  (repeat' split) <;> first
    | (simp; done)
    | (simp [apply_ite State.mark, apply_ite Prod.fst]; done)
    | (rw [foldl_mark]; (try simp); intro t a; try dsimp only; (repeat' split) <;> simp [apply_ite State.mark])
    | (rw [foldl_mark_pair]; (try simp); intro t a; try dsimp only; (repeat' split) <;> simp [apply_ite State.mark, apply_ite Prod.fst])

@[simp] theorem rebuildLost_mark (s : State) (id : Nat) (c : Course) (lost : List (Nat × Nat)) : (rebuildLost s id c lost).1.mark = s.mark := by
  unfold rebuildLost
  try dsimp only
  (repeat' split) <;> first
    | (simp; done)
    | (simp [apply_ite State.mark, apply_ite Prod.fst]; done)
    | (rw [foldl_mark]; (try simp); intro t a; try dsimp only; (repeat' split) <;> simp [apply_ite State.mark])
    | (rw [foldl_mark_pair]; (try simp); intro t a; try dsimp only; (repeat' split) <;> simp [apply_ite State.mark, apply_ite Prod.fst])

/-! ## Gate -/

@[simp] theorem gateFigures_mark (s : State) : (gateFigures s).mark = s.mark := by
  unfold gateFigures
  dsimp only
  (repeat' split) <;> simp

@[simp] theorem takeWr_mark (s : State) (t n : Nat) : (takeWr s t n).mark = s.mark := by
  unfold takeWr
  (repeat' split) <;> simp

@[simp] theorem takeRd_mark (s : State) (t n : Nat) : (takeRd s t n).mark = s.mark := by
  unfold takeRd
  (repeat' split) <;> simp

@[simp] theorem setOpen_mark (s : State) (id : Nat) (o : Bool) : (setOpen s id o).mark = s.mark := by
  unfold setOpen
  simp

@[simp] theorem finishCourse_mark (s : State) (id : Nat) : (finishCourse s id).mark = s.mark := by
  unfold finishCourse
  simp

@[simp] theorem dropMends_mark (s : State) (id : Nat) : (dropMends s id).mark = s.mark := by
  unfold dropMends
  try dsimp only
  (repeat' split) <;> first
    | (simp; done)
    | (simp [apply_ite State.mark, apply_ite Prod.fst]; done)
    | (rw [foldl_mark]; (try simp); intro t a; try dsimp only; (repeat' split) <;> simp [apply_ite State.mark])
    | (rw [foldl_mark_pair]; (try simp); intro t a; try dsimp only; (repeat' split) <;> simp [apply_ite State.mark, apply_ite Prod.fst])

@[simp] theorem abandonMoves_mark (s : State) (nsid k : Nat) : (abandonMoves s nsid k).mark = s.mark := by
  unfold abandonMoves
  dsimp only
  (repeat' split) <;> simp

@[simp] theorem clearMarks_mark (s : State) (nsid lo hi : Nat) : (clearMarks s nsid lo hi).mark = s.mark := by
  unfold clearMarks
  try dsimp only
  (repeat' split) <;> first
    | (simp; done)
    | (simp [apply_ite State.mark, apply_ite Prod.fst]; done)
    | (rw [foldl_mark]; (try simp); intro t a; try dsimp only; (repeat' split) <;> simp [apply_ite State.mark])
    | (rw [foldl_mark_pair]; (try simp); intro t a; try dsimp only; (repeat' split) <;> simp [apply_ite State.mark, apply_ite Prod.fst])

@[simp] theorem emptyZone_mark (s : State) (n : Namespace) (nsid k : Nat) (st : ZState) : (emptyZone s n nsid k st).mark = s.mark := by
  unfold emptyZone
  dsimp only
  (repeat' split) <;> simp

@[simp] theorem fillZone_mark (s : State) (nsid k : Nat) (finish : Bool) : (fillZone s nsid k finish).mark = s.mark := by
  unfold fillZone
  try dsimp only
  (repeat' split) <;> first
    | (simp; done)
    | (simp [apply_ite State.mark, apply_ite Prod.fst]; done)
    | (rw [foldl_mark]; (try simp); intro t a; try dsimp only; (repeat' split) <;> simp [apply_ite State.mark])
    | (rw [foldl_mark_pair]; (try simp); intro t a; try dsimp only; (repeat' split) <;> simp [apply_ite State.mark, apply_ite Prod.fst])

@[simp] theorem openEmpty_mark (s : State) (nsid k bay hint : Nat) (bedrock : Bool) (slabs : List Nat) (st : ZState) : (openEmpty s nsid k bay hint bedrock slabs st).mark = s.mark := by
  unfold openEmpty
  (repeat' split) <;> simp

@[simp] theorem noteBytes_mark (s : State) (course off len : Nat) : (noteBytes s course off len).mark = s.mark := by
  unfold noteBytes
  simp

@[simp] theorem storeBlock_mark (s : State) (course off : Nat) (bytes : List Byte) : (storeBlock s course off bytes).mark = s.mark := by
  unfold storeBlock
  try dsimp only
  (repeat' split) <;> first
    | (simp; done)
    | (simp [apply_ite State.mark, apply_ite Prod.fst]; done)
    | (rw [foldl_mark]; (try simp); intro t a; try dsimp only; (repeat' split) <;> simp [apply_ite State.mark])
    | (rw [foldl_mark_pair]; (try simp); intro t a; try dsimp only; (repeat' split) <;> simp [apply_ite State.mark, apply_ite Prod.fst])

@[simp] theorem storeBlocks_mark (s : State) (n : Namespace) (course off : Nat) (bytes : List Byte) (count : Nat) : (storeBlocks s n course off bytes count).mark = s.mark := by
  unfold storeBlocks
  try dsimp only
  (repeat' split) <;> first
    | (simp; done)
    | (simp [apply_ite State.mark, apply_ite Prod.fst]; done)
    | (rw [foldl_mark]; (try simp); intro t a; try dsimp only; (repeat' split) <;> simp [apply_ite State.mark])
    | (rw [foldl_mark_pair]; (try simp); intro t a; try dsimp only; (repeat' split) <;> simp [apply_ite State.mark, apply_ite Prod.fst])

@[simp] theorem latchZone_mark (s : State) (nsid k : Nat) : (latchZone s nsid k).mark = s.mark := by
  unfold latchZone
  try dsimp only
  (repeat' split) <;> first
    | (simp; done)
    | (simp [apply_ite State.mark, apply_ite Prod.fst]; done)
    | (rw [foldl_mark]; (try simp); intro t a; try dsimp only; (repeat' split) <;> simp [apply_ite State.mark])
    | (rw [foldl_mark_pair]; (try simp); intro t a; try dsimp only; (repeat' split) <;> simp [apply_ite State.mark, apply_ite Prod.fst])

@[simp] theorem latchStrike_mark (s : State) : (latchStrike s).mark = s.mark := by
  unfold latchStrike
  try dsimp only
  (repeat' split) <;> first
    | (simp; done)
    | (simp [apply_ite State.mark, apply_ite Prod.fst]; done)
    | (rw [foldl_mark]; (try simp); intro t a; try dsimp only; (repeat' split) <;> simp [apply_ite State.mark])
    | (rw [foldl_mark_pair]; (try simp); intro t a; try dsimp only; (repeat' split) <;> simp [apply_ite State.mark, apply_ite Prod.fst])

/-! ## Zones -/

@[simp] theorem endWrite_mark (s : State) (rid : Nat) (st : W16) (value : Option W64) : (endWrite s rid st value).mark = s.mark := by
  unfold endWrite
  simp

@[simp] theorem placeInZone_mark (s : State) (rid op : Nat) (t : Nat) (w : WritePlan) (n : Namespace) (k : Nat) (slabs : List Nat) : (placeInZone s rid op t w n k slabs).mark = s.mark := by
  unfold placeInZone
  dsimp only
  (repeat' split) <;> simp

@[simp] theorem tryPlaceZone_mark (s : State) (rid : Nat) (q : Req) (w : WritePlan) (n : Namespace) (k : Nat) : (tryPlaceZone s rid q w n k).mark = s.mark := by
  unfold tryPlaceZone
  dsimp only
  (repeat' split) <;> simp

@[simp] theorem zoneWriteStart_mark (w : WritePlan) (k : Nat) (s : State) (rid : Nat) : (zoneWriteStart w k s rid).mark = s.mark := by
  unfold zoneWriteStart
  dsimp only
  (repeat' split) <;> simp

@[simp] theorem zoneWriteOp_start_mark (s : State) (k : Nat) (f : Fields) (append : Bool) (t : State) (r : Nat) : ((zoneWriteOp s k f append).start t r).mark = t.mark := by
  unfold zoneWriteOp
  simp

theorem execZappend_mark (slot : Nat) (f : Fields) (s : State) : (execZappend slot f s).Marked s := by
  unfold execZappend
  refine stepIf_mark ?_
  simp

theorem execZwrite_mark (slot : Nat) (f : Fields) (s : State) : (execZwrite slot f s).Marked s := by
  unfold execZwrite
  refine stepIf_mark ?_
  simp

theorem zoneAct_mark (s : State) (a : Nat) (w : WritePlan) (n : Namespace) (k : Nat) :
    ∀ t, zoneAct s a w n k = some t → t.mark = s.mark := by
  intro t h
  unfold zoneAct at h
  dsimp only at h
  (repeat' split at h) <;> simp at h <;> first
    | (subst h; simp; done)
    | (obtain ⟨l, -, rfl⟩ := h; simp [apply_ite State.mark]; done)

@[simp] theorem zoneAct_getD_mark (s : State) (a : Nat) (w : WritePlan) (n : Namespace) (k : Nat) :
    ((zoneAct s a w n k).getD s).mark = s.mark := by
  cases h : zoneAct s a w n k with
  | none => rfl
  | some t => exact zoneAct_mark s a w n k t h

@[simp] theorem allZones_mark (s : State) (a : Nat) (w : WritePlan) (n : Namespace) : (allZones s a w n).1.mark = s.mark := by
  unfold allZones
  dsimp only
  (repeat' split) <;> simp

@[simp] theorem runAction_mark (s : State) (rid a : Nat) (q : Req) (w : WritePlan) (n : Namespace) : (runAction s rid a q w n).mark = s.mark := by
  unfold runAction
  dsimp only
  (repeat' split) <;> first | (simp; done) | (rename_i t h; simp [zoneAct_mark _ _ _ _ _ _ h])

@[simp] theorem actionStart_mark (a : Nat) (w : WritePlan) (s : State) (rid : Nat) : (actionStart a w s rid).mark = s.mark := by
  unfold actionStart
  (repeat' split) <;> simp

@[simp] theorem actionOp_start_mark (s : State) (k : Nat) (f : Fields) (t : State) (r : Nat) : ((actionOp s k f).start t r).mark = t.mark := by
  unfold actionOp
  simp

theorem execZoneOpen_mark (slot : Nat) (f : Fields) (s : State) : (execZoneOpen slot f s).Marked s := by
  unfold execZoneOpen
  refine stepIf_mark ?_
  simp

theorem execZoneClose_mark (slot : Nat) (f : Fields) (s : State) : (execZoneClose slot f s).Marked s := by
  unfold execZoneClose
  refine stepIf_mark ?_
  simp

theorem execZoneFinish_mark (slot : Nat) (f : Fields) (s : State) : (execZoneFinish slot f s).Marked s := by
  unfold execZoneFinish
  refine stepIf_mark ?_
  simp

theorem execZoneReset_mark (slot : Nat) (f : Fields) (s : State) : (execZoneReset slot f s).Marked s := by
  unfold execZoneReset
  refine stepIf_mark ?_
  simp

theorem execZoneOffline_mark (slot : Nat) (f : Fields) (s : State) : (execZoneOffline slot f s).Marked s := by
  unfold execZoneOffline
  refine stepIf_mark ?_
  simp

theorem execZoneSetExtension_mark (slot : Nat) (f : Fields) (s : State) : (execZoneSetExtension slot f s).Marked s := by
  unfold execZoneSetExtension
  refine stepIf_mark ?_
  simp

theorem execZoneActionEffect_mark (rid : Nat) (s : State) : (execZoneActionEffect rid s).Marked s := by
  unfold execZoneActionEffect
  (repeat' split) <;> first | trivial | (refine stepIf_mark ?_; simp; done)

@[simp] theorem reportOp_start_mark (s : State) (k : Nat) (f : Fields) (ext : Bool) (t : State) (r : Nat) : ((reportOp s k f ext).start t r).mark = t.mark := by
  unfold reportOp
  dsimp only
  (repeat' split) <;> simp

theorem execReportZones_mark (slot : Nat) (f : Fields) (s : State) : (execReportZones slot f s).Marked s := by
  unfold execReportZones
  refine stepIf_mark ?_
  simp

theorem execExtendedReportZones_mark (slot : Nat) (f : Fields) (s : State) : (execExtendedReportZones slot f s).Marked s := by
  unfold execExtendedReportZones
  refine stepIf_mark ?_
  simp

/-! ## Conv -/

@[simp] theorem setUnitAt_mark (s : State) (nsid u : Nat) (x : Option UnitAt) : (setUnitAt s nsid u x).mark = s.mark := by
  unfold setUnitAt
  simp

theorem collectDest_mark (s : State) (n : Namespace) (nsid dom : Nat) (d : Domain) :
    ∀ p, collectDest s n nsid dom d = some p → p.1.mark = s.mark := by
  intro p h
  unfold collectDest at h
  dsimp only at h
  (repeat' split at h) <;> simp at h <;> (try subst h) <;> simp

@[simp] theorem collectStart_mark (s : State) (nsid dom : Nat) : (collectStart s nsid dom).mark = s.mark := by
  unfold collectStart
  dsimp only
  (repeat' split) <;> first | (simp; done) | (rename_i h; simp [collectDest_mark _ _ _ _ _ _ h])

@[simp] theorem collectStartAll_mark (s : State) : (collectStartAll s).mark = s.mark := by
  unfold collectStartAll
  simp

@[simp] theorem padRow_mark (s : State) (id : Nat) : (padRow s id).mark = s.mark := by
  unfold padRow
  dsimp only
  (repeat' split) <;> simp

@[simp] theorem moveUnit_mark (s : State) (n : Namespace) (nsid u : Nat) (src : Option UnitAt) (dest off : Nat) : (moveUnit s n nsid u src dest off).mark = s.mark := by
  unfold moveUnit
  try dsimp only
  (repeat' split) <;> first
    | (simp; done)
    | (simp [apply_ite State.mark, apply_ite Prod.fst]; done)
    | (rw [foldl_mark]; (try simp); intro t a; try dsimp only; (repeat' split) <;> simp [apply_ite State.mark])
    | (rw [foldl_mark_pair]; (try simp); intro t a; try dsimp only; (repeat' split) <;> simp [apply_ite State.mark, apply_ite Prod.fst])

theorem collectUnit_mark (s : State) (n : Namespace) (nsid dom u : Nat) (src : UnitAt) :
    ∀ p, collectUnit s n nsid dom u src = some p → p.1.mark = s.mark := by
  intro p h
  unfold collectUnit at h
  (repeat' split at h) <;> first
    | (simp at h; done)
    | (rename_i hd; have hm := collectDest_mark _ _ _ _ _ _ hd
       simp only [Option.some.injEq] at h; subst h
       dsimp only
       (repeat' split) <;> simp [hm])

@[simp] theorem copyUnit_mark (s : State) (n : Namespace) (nsid dom u pos : Nat) : (copyUnit s n nsid dom u pos).1.mark = s.mark := by
  unfold copyUnit
  dsimp only
  split
  · rfl
  · split
    · simp [apply_ite State.mark]
    · rename_i h
      have hm := collectUnit_mark _ _ _ _ _ _ _ h
      split <;> simp [hm]

@[simp] theorem copyAdvance_mark (s : State) (nsid dom : Nat) : (copyAdvance s nsid dom).mark = s.mark := by
  unfold copyAdvance
  (repeat' split) <;> simp [apply_ite State.mark]

@[simp] theorem collectionDone_mark (s : State) (nsid dom : Nat) (d : Domain) (r : Collection) : (collectionDone s nsid dom d r).mark = s.mark := by
  unfold collectionDone
  simp

theorem execCollectionVictimDone_mark (nsid dom : Nat) (s : State) : (execCollectionVictimDone nsid dom s).Marked s := by
  unfold execCollectionVictimDone
  (repeat' split) <;> first | trivial | (refine stepIf_mark ?_; simp; done)

@[simp] theorem repaySlab_mark (s : State) (a : Nat) : (repaySlab s a).mark = s.mark := by
  unfold repaySlab
  simp

@[simp] theorem closeOldest_mark (s : State) : (closeOldest s).mark = s.mark := by
  unfold closeOldest
  dsimp only
  (repeat' split) <;> simp

/-- The state that placing leaves, where it leaves one. -/
def Placing.keeps (s : State) : Placing → Prop
  | .ok t => t.mark = s.mark
  | .waits t => t.mark = s.mark
  | .noCourse => True

theorem hostCourse_mark (s : State) (n : Namespace) (nsid dom bay hint : Nat) :
    (hostCourse s n nsid dom bay hint).1.keeps s := by
  unfold hostCourse
  dsimp only
  (repeat' split) <;> simp [Placing.keeps]

theorem placeUnit_mark (s : State) (n : Namespace) (nsid bay hint u : Nat) : (placeUnit s n nsid bay hint u).keeps s := by
  unfold placeUnit
  dsimp only
  split
  · simp [Placing.keeps]
  · split
    · simp [Placing.keeps]
    · have := hostCourse_mark s n nsid (unitDomain u) bay hint
      split
      · rename_i t k h
        rw [h] at this
        simp only [Placing.keeps] at this
        split
        · simpa [Placing.keeps] using this
        · simp only [Placing.keeps]
          (repeat' split) <;> simp [this, apply_ite State.mark]
      · rename_i h; rw [h] at this; exact this

theorem placeUnits_mark (s : State) (n : Namespace) (nsid bay hint : Nat) (us : List Nat) :
    (placeUnits s n nsid bay hint us).keeps s := by
  unfold placeUnits
  suffices ∀ p : Placing, p.keeps s → (us.foldl (fun p u => match p with
      | .ok t => match placeUnit t n nsid bay hint u with
        | .waits _ => .waits (collectStart s nsid (unitDomain u))
        | q => q
      | q => q) p).keeps s by exact this _ rfl
  induction us with
  | nil => exact fun p h => h
  | cons u us ih =>
    intro p h
    rw [List.foldl_cons]
    refine ih _ ?_
    split
    · rename_i t
      simp only [Placing.keeps] at h
      have := placeUnit_mark t n nsid bay hint u
      split
      · simp [Placing.keeps]
      · cases hp : placeUnit t n nsid bay hint u <;> rw [hp] at this <;> simp_all [Placing.keeps]
    · exact h

@[simp] theorem storeConv_mark (s : State) (n : Namespace) (w : WritePlan) : (storeConv s n w).mark = s.mark := by
  unfold storeConv
  rw [foldl_mark]
  · simp
  · intro t a; dsimp only; split <;> simp

@[simp] theorem tryPlaceConv_mark (s : State) (rid : Nat) (q : Req) (w : WritePlan) (n : Namespace) : (tryPlaceConv s rid q w n).mark = s.mark := by
  unfold tryPlaceConv
  dsimp only
  split
  · simp
  · split
    · simp
    · split
      · simp
      · have := placeUnits_mark s n w.nsid (w.bay.getD (n.bay, 0)).1 (w.bay.getD (n.bay, 0)).2
          ((List.range (unitSpan n w.lba w.blocks).2).map ((unitSpan n w.lba w.blocks).1 + ·))
        split <;> rename_i h <;> rw [h] at this <;> simp_all [Placing.keeps]

@[simp] theorem convStart_mark (w : WritePlan) (s : State) (rid : Nat) : (convStart w s rid).mark = s.mark := by
  unfold convStart
  dsimp only
  (repeat' split) <;> simp

@[simp] theorem cwriteOp_start_mark (s : State) (k : Nat) (f : Fields) (t : State) (r : Nat) : ((cwriteOp s k f).start t r).mark = t.mark := by
  unfold cwriteOp
  simp

theorem execCwrite_mark (slot : Nat) (f : Fields) (s : State) : (execCwrite slot f s).Marked s := by
  unfold execCwrite
  refine stepIf_mark ?_
  simp

@[simp] theorem trimBlocks_mark (s : State) (n : Namespace) (nsid lba blocks : Nat) : (trimBlocks s n nsid lba blocks).mark = s.mark := by
  unfold trimBlocks
  simp

@[simp] theorem ctrimOp_start_mark (s : State) (k : Nat) (f : Fields) (t : State) (r : Nat) : ((ctrimOp s k f).start t r).mark = t.mark := by
  unfold ctrimOp
  dsimp only
  (repeat' split) <;> simp

theorem execCtrim_mark (slot : Nat) (f : Fields) (s : State) : (execCtrim slot f s).Marked s := by
  unfold execCtrim
  refine stepIf_mark ?_
  simp

@[simp] theorem tryPlace_mark (s : State) (rid : Nat) : (tryPlace s rid).mark = s.mark := by
  unfold tryPlace
  (repeat' split) <;> simp

@[simp] theorem gateOne_mark (p : State × Bool) (rid : Nat) : (gateOne p rid).1.mark = p.1.mark := by
  unfold gateOne
  dsimp only
  (repeat' split) <;> simp

@[simp] theorem gateStrike_mark (s : State) : (gateStrike s).mark = s.mark := by
  unfold gateStrike
  (repeat' split) <;> simp [apply_ite State.mark]

/-! ## Namespaces -/

@[simp] theorem addNamespace_mark (s : State) (nsid : Nat) (n : Namespace) : (addNamespace s nsid n).mark = s.mark := by
  unfold addNamespace
  (repeat' split) <;> simp

@[simp] theorem createNamespace_mark (s : State) (slot : Nat) (p : NsParams) : (createNamespace s slot p).mark = s.mark := by
  unfold createNamespace
  try dsimp only
  (repeat' split) <;> first
    | (simp; done)
    | (simp [apply_ite State.mark, apply_ite Prod.fst]; done)
    | (rw [foldl_mark]; (try simp); intro t a; try dsimp only; (repeat' split) <;> simp [apply_ite State.mark])
    | (rw [foldl_mark_pair]; (try simp); intro t a; try dsimp only; (repeat' split) <;> simp [apply_ite State.mark, apply_ite Prod.fst])

@[simp] theorem toMember_mark (s : State) (k m : Nat) : (toMember s k m).mark = s.mark := by
  unfold toMember
  try dsimp only
  (repeat' split) <;> first
    | (simp; done)
    | (simp [apply_ite State.mark, apply_ite Prod.fst]; done)
    | (rw [foldl_mark]; (try simp); intro t a; try dsimp only; (repeat' split) <;> simp [apply_ite State.mark])
    | (rw [foldl_mark_pair]; (try simp); intro t a; try dsimp only; (repeat' split) <;> simp [apply_ite State.mark, apply_ite Prod.fst])

@[simp] theorem onMember_mark (s : State) (slot m : Nat) (own : State) (h : own.mark = s.mark) :
    (onMember s slot m own).mark = s.mark := by
  unfold onMember
  (repeat' split) <;> simp [h]

theorem execNamespaceCreate_mark (slot : Nat) (p : NsParams) (s : State) : (execNamespaceCreate slot p s).Marked s := by
  unfold execNamespaceCreate
  refine stepIf_mark ?_
  (repeat' split) <;> simp

@[simp] theorem endWritesOf_mark (s : State) (nsid : Nat) : (endWritesOf s nsid).mark = s.mark := by
  unfold endWritesOf
  refine foldl_mark _ (fun t e => ?_) _ _
  (repeat' split) <;> simp

@[simp] theorem removeNamespace_mark (s : State) (nsid : Nat) : (removeNamespace s nsid).mark = s.mark := by
  unfold removeNamespace
  simp

@[simp] theorem deleteNamespace_mark (s : State) (who nsid : Nat) : (deleteNamespace s who nsid).mark = s.mark := by
  unfold deleteNamespace
  (repeat' split) <;> simp

theorem execNamespaceDelete_mark (slot : Nat) (s : State) : (execNamespaceDelete slot s).Marked s := by
  unfold execNamespaceDelete
  first
    | (refine stepIf_mark ?_; simp; done)
    | (refine stepIf_mark ?_; (repeat' split) <;> simp; done)
    | ((repeat' split) <;> first | trivial | (refine stepIf_mark ?_; simp; done))

@[simp] theorem attachNamespace_mark (s : State) (who nsid t : Nat) : (attachNamespace s who nsid t).mark = s.mark := by
  unfold attachNamespace
  (repeat' split) <;> simp

@[simp] theorem detachNamespace_mark (s : State) (who nsid t : Nat) : (detachNamespace s who nsid t).mark = s.mark := by
  unfold detachNamespace
  (repeat' split) <;> simp

theorem execNamespaceAttach_mark (slot tenant : Nat) (s : State) : (execNamespaceAttach slot tenant s).Marked s := by
  unfold execNamespaceAttach
  first
    | (refine stepIf_mark ?_; simp; done)
    | (refine stepIf_mark ?_; (repeat' split) <;> simp; done)
    | ((repeat' split) <;> first | trivial | (refine stepIf_mark ?_; simp; done))

theorem execNamespaceDetach_mark (slot tenant : Nat) (s : State) : (execNamespaceDetach slot tenant s).Marked s := by
  unfold execNamespaceDetach
  first
    | (refine stepIf_mark ?_; simp; done)
    | (refine stepIf_mark ?_; (repeat' split) <;> simp; done)
    | ((repeat' split) <;> first | trivial | (refine stepIf_mark ?_; simp; done))

/-! ## Admission -/

@[simp] theorem noteFree_mark (s : State) : (noteFree s).mark = s.mark := by
  unfold noteFree
  simp

@[simp] theorem takeSlot_mark (s : State) (k t : Nat) (kind : OrderKind) (c : NvmeCmd) (pcie : Option (Nat × Nat)) (qp : Option Nat) (data : List Byte) : (takeSlot s k t kind c pcie qp data).mark = s.mark := by
  unfold takeSlot
  try dsimp only
  (repeat' split) <;> first
    | (simp; done)
    | (simp [apply_ite State.mark, apply_ite Prod.fst]; done)
    | (rw [foldl_mark]; (try simp); intro t a; try dsimp only; (repeat' split) <;> simp [apply_ite State.mark])
    | (rw [foldl_mark_pair]; (try simp); intro t a; try dsimp only; (repeat' split) <;> simp [apply_ite State.mark, apply_ite Prod.fst])

@[simp] theorem refuse_mark (s : State) (k : Nat) (st : W16) (reply : Option (Nat × Nat × Bool)) : (refuse s k st reply).mark = s.mark := by
  unfold refuse
  (repeat' split) <;> simp

@[simp] theorem startOrder_mark (s : State) (k : Nat) (h : Header) (text args : List W64) : (startOrder s k h text args).mark = s.mark := by
  unfold startOrder
  simp

@[simp] theorem placeInline_mark (s : State) (k t : Nat) (l : List Byte) : (placeInline s k t l).mark = s.mark := by
  unfold placeInline
  (repeat' split) <;> simp

@[simp] theorem countCapsule_mark (s : State) (k : Nat) : (countCapsule s k).mark = s.mark := by
  unfold countCapsule
  try dsimp only
  (repeat' split) <;> first
    | (simp; done)
    | (simp [apply_ite State.mark, apply_ite Prod.fst]; done)
    | (rw [foldl_mark]; (try simp); intro t a; try dsimp only; (repeat' split) <;> simp [apply_ite State.mark])
    | (rw [foldl_mark_pair]; (try simp); intro t a; try dsimp only; (repeat' split) <;> simp [apply_ite State.mark, apply_ite Prod.fst])

@[simp] theorem admitInline_mark (s : State) (k : Nat) (b : List Byte) : (admitInline s k b).mark = s.mark := by
  unfold admitInline
  dsimp only
  (repeat' split) <;> simp

@[simp] theorem admitFetched_mark (s : State) (k : Nat) (b : List Byte) : (admitFetched s k b).mark = s.mark := by
  unfold admitFetched
  dsimp only
  (repeat' split) <;> simp

@[simp] theorem admitPattern_mark (s : State) (k : Nat) : (admitPattern s k).mark = s.mark := by
  unfold admitPattern
  dsimp only
  (repeat' split) <;> simp

@[simp] theorem admitStandard_mark (s : State) (k : Nat) : (admitStandard s k).mark = s.mark := by
  unfold admitStandard
  dsimp only
  (repeat' split) <;> simp

@[simp] theorem admitWork_mark (s : State) (k : Nat) : (admitWork s k).mark = s.mark := by
  unfold admitWork
  dsimp only
  (repeat' split) <;> simp

@[simp] theorem dispatchOrder_mark (s : State) (k : Nat) : (dispatchOrder s k).mark = s.mark := by
  unfold dispatchOrder
  dsimp only
  (repeat' split) <;> simp

@[simp] theorem arrive_mark (s : State) (k : Nat) : (arrive s k).mark = s.mark := by
  unfold arrive
  dsimp only
  (repeat' split) <;> simp

@[simp] theorem receiveCapsule_mark (s : State) (q : Nat) (cap : Capsule) : (receiveCapsule s q cap).mark = s.mark := by
  unfold receiveCapsule
  dsimp only
  (repeat' split) <;> simp

theorem execCapsuleReceived_mark (qp : Nat) (cap : Capsule) (s : State) : (execCapsuleReceived qp cap s).Marked s := by
  unfold execCapsuleReceived
  refine stepIf_mark ?_
  simp

@[simp] theorem popSq_mark (s : State) (fn sq : Nat) : (popSq s fn sq).mark = s.mark := by
  unfold popSq
  simp

@[simp] theorem fetchEntry_mark (s : State) (fn sq : Nat) (c : NvmeCmd) : (fetchEntry s fn sq c).mark = s.mark := by
  unfold fetchEntry
  (repeat' split) <;> simp

theorem execSqEntryFetch_mark (fn sq : Nat) (cmd : NvmeCmd) (s : State) : (execSqEntryFetch fn sq cmd s).Marked s := by
  unfold execSqEntryFetch
  refine stepIf_mark ?_
  simp

@[simp] theorem textArrives_mark (s : State) (k : Nat) (r : HostReply) : (textArrives s k r).mark = s.mark := by
  unfold textArrives
  try dsimp only
  (repeat' split) <;> first
    | (simp; done)
    | (simp [apply_ite State.mark, apply_ite Prod.fst]; done)
    | (rw [foldl_mark]; (try simp); intro t a; try dsimp only; (repeat' split) <;> simp [apply_ite State.mark])
    | (rw [foldl_mark_pair]; (try simp); intro t a; try dsimp only; (repeat' split) <;> simp [apply_ite State.mark, apply_ite Prod.fst])

theorem execOrderTextFetched_mark (slot : Nat) (r : HostReply) (s : State) : (execOrderTextFetched slot r s).Marked s := by
  unfold execOrderTextFetched
  refine stepIf_mark ?_
  simp

@[simp] theorem noteSeq_mark (s : State) (src : Nat) (seq : W32) : (noteSeq s src seq).mark = s.mark := by
  unfold noteSeq
  try dsimp only
  (repeat' split) <;> first
    | (simp; done)
    | (simp [apply_ite State.mark, apply_ite Prod.fst]; done)
    | (rw [foldl_mark]; (try simp); intro t a; try dsimp only; (repeat' split) <;> simp [apply_ite State.mark])
    | (rw [foldl_mark_pair]; (try simp); intro t a; try dsimp only; (repeat' split) <;> simp [apply_ite State.mark, apply_ite Prod.fst])

@[simp] theorem spendGrant_mark (s : State) : (spendGrant s).mark = s.mark := by
  unfold spendGrant
  simp

@[simp] theorem takeForwarded_mark (s : State) (fwd : ForwardedOrder) : (takeForwarded s fwd).mark = s.mark := by
  unfold takeForwarded
  dsimp only
  (repeat' split) <;> simp

theorem execForwardedCommandReceived_mark (fwd : ForwardedOrder) (s : State) : (execForwardedCommandReceived fwd s).Marked s := by
  unfold execForwardedCommandReceived
  refine stepIf_mark ?_
  simp

@[simp] theorem quenchSlot_mark (s : State) (k : Nat) : (quenchSlot s k).mark = s.mark := by
  unfold quenchSlot
  simp

@[simp] theorem pushCq_mark (s : State) (fn cq k : Nat) : (pushCq s fn cq k).mark = s.mark := by
  unfold pushCq
  dsimp only
  (repeat' split) <;> simp

@[simp] theorem postPcie_mark (s : State) (k fn sq : Nat) : (postPcie s k fn sq).mark = s.mark := by
  unfold postPcie
  dsimp only
  (repeat' split) <;> simp

@[simp] theorem postRdma_mark (s : State) (k q : Nat) : (postRdma s k q).mark = s.mark := by
  unfold postRdma
  dsimp only
  (repeat' split) <;> simp

@[simp] theorem freeReply_mark (s : State) (k : Nat) : (freeReply s k).mark = s.mark := by
  unfold freeReply
  simp

@[simp] theorem firmwareReply_mark (s : State) (k : Nat) : (firmwareReply s k).mark = s.mark := by
  unfold firmwareReply
  try dsimp only
  (repeat' split) <;> first
    | (simp; done)
    | (simp [apply_ite State.mark, apply_ite Prod.fst]; done)
    | (rw [foldl_mark]; (try simp); intro t a; try dsimp only; (repeat' split) <;> simp [apply_ite State.mark])
    | (rw [foldl_mark_pair]; (try simp); intro t a; try dsimp only; (repeat' split) <;> simp [apply_ite State.mark, apply_ite Prod.fst])

@[simp] theorem postCompletion_mark (s : State) (k : Nat) : (postCompletion s k).mark = s.mark := by
  unfold postCompletion
  dsimp only
  (repeat' split) <;> simp

theorem execCompletionPosted_mark (slot : Nat) (s : State) : (execCompletionPosted slot s).Marked s := by
  unfold execCompletionPosted
  refine stepIf_mark ?_
  (repeat' split) <;> simp

theorem execSlotQuenchDone_mark (slot : Nat) (s : State) : (execSlotQuenchDone slot s).Marked s := by
  unfold execSlotQuenchDone
  refine stepIf_mark ?_
  simp

theorem execResponseRnrNak_mark (slot : Nat) (s : State) : (execResponseRnrNak slot s).Marked s := by
  unfold execResponseRnrNak
  dsimp only
  (repeat' split) <;> first
    | trivial
    | (refine stepIf_mark ?_; simp; done)
    | (refine next_mark ?_; simp; done)
    | (refine stepIf_mark ?_; (repeat' split) <;> simp <;> done)
    | (refine next_mark ?_; (repeat' split) <;> simp <;> done)

theorem execCommandForward_mark (slot : Nat) (s : State) : (execCommandForward slot s).Marked s := by
  unfold execCommandForward
  dsimp only
  (repeat' split) <;> first
    | trivial
    | (refine stepIf_mark ?_; simp; done)
    | (refine next_mark ?_; simp; done)
    | (refine stepIf_mark ?_; (repeat' split) <;> simp <;> done)
    | (refine next_mark ?_; (repeat' split) <;> simp <;> done)

@[simp] theorem dropPackets_mark (s : State) (k : Nat) : (dropPackets s k).mark = s.mark := by
  unfold dropPackets
  simp

theorem execMemberCompletionReceived_mark (slot : Nat) (c : MemberCompletion) (s : State) : (execMemberCompletionReceived slot c s).Marked s := by
  unfold execMemberCompletionReceived
  refine stepIf_mark ?_
  (repeat' split) <;> simp

theorem execMemberHostTransfer_mark (t : MemberTransfer) (s : State) : (execMemberHostTransfer t s).Marked s := by
  unfold execMemberHostTransfer
  (repeat' split) <;> first | trivial | (refine stepIf_mark ?_; simp; done)

end Sys2Proof.Machine
end

