-- ==== Sys2Proof/Laws/KeptHost.lean ====
section
/-! SUPPORT. That the operations and commands of the host ports, the tenants, the resets and the Bellows leave the mark of a state, or keep it. -/

namespace Sys2Proof.Machine

set_option linter.all false

/-! ## Alu -/

@[simp] theorem aluBody_mark (k : Nat) (f : Fields) (op : W64 → W64 → W64 × Bool) (s : State) (p : W16) :
    (aluBody k f op s p).mark = s.mark := by
  unfold aluBody
  simp

theorem execAdd_mark (slot : Nat) (f : Fields) (s : State) : (execAdd slot f s).Marked s := by
  unfold execAdd
  refine stepIf_mark ?_
  simp

theorem execSub_mark (slot : Nat) (f : Fields) (s : State) : (execSub slot f s).Marked s := by
  unfold execSub
  refine stepIf_mark ?_
  simp

theorem execAnd_mark (slot : Nat) (f : Fields) (s : State) : (execAnd slot f s).Marked s := by
  unfold execAnd
  refine stepIf_mark ?_
  simp

theorem execOr_mark (slot : Nat) (f : Fields) (s : State) : (execOr slot f s).Marked s := by
  unfold execOr
  refine stepIf_mark ?_
  simp

theorem execXor_mark (slot : Nat) (f : Fields) (s : State) : (execXor slot f s).Marked s := by
  unfold execXor
  refine stepIf_mark ?_
  simp

theorem execShl_mark (slot : Nat) (f : Fields) (s : State) : (execShl slot f s).Marked s := by
  unfold execShl
  refine stepIf_mark ?_
  simp

theorem execShr_mark (slot : Nat) (f : Fields) (s : State) : (execShr slot f s).Marked s := by
  unfold execShr
  refine stepIf_mark ?_
  simp

theorem execLdi_mark (slot : Nat) (f : Fields) (s : State) : (execLdi slot f s).Marked s := by
  unfold execLdi
  refine stepIf_mark ?_
  simp

theorem execCmp_mark (slot : Nat) (f : Fields) (s : State) : (execCmp slot f s).Marked s := by
  unfold execCmp
  refine stepIf_mark ?_
  simp

theorem execSel_mark (slot : Nat) (f : Fields) (s : State) : (execSel slot f s).Marked s := by
  unfold execSel
  refine stepIf_mark ?_
  simp

@[simp] theorem jump_mark (s : State) (k target : Nat) (pos : W16) : (jump s k target pos).mark = s.mark := by
  unfold jump
  dsimp only
  (repeat' split) <;> simp

theorem execBr_mark (slot : Nat) (f : Fields) (s : State) : (execBr slot f s).Marked s := by
  unfold execBr
  refine stepIf_mark ?_
  simp

theorem execBz_mark (slot : Nat) (f : Fields) (s : State) : (execBz slot f s).Marked s := by
  unfold execBz
  refine stepIf_mark ?_
  (repeat' split) <;> simp

theorem execBnz_mark (slot : Nat) (f : Fields) (s : State) : (execBnz slot f s).Marked s := by
  unfold execBnz
  refine stepIf_mark ?_
  (repeat' split) <;> simp

@[simp] theorem callPattern_mark (s : State) (k n : Nat) (pos : W16) : (callPattern s k n pos).mark = s.mark := by
  unfold callPattern
  dsimp only
  (repeat' split) <;> simp

theorem execCallp_mark (slot : Nat) (f : Fields) (s : State) : (execCallp slot f s).Marked s := by
  unfold execCallp
  refine stepIf_mark ?_
  simp

@[simp] theorem returnCall_mark (s : State) (k : Nat) : (returnCall s k).mark = s.mark := by
  unfold returnCall
  simp

@[simp] theorem endWord_mark (s : State) (k : Nat) (used : Bool) : (endWord s k used).mark = s.mark := by
  unfold endWord
  split <;> simp

theorem execEndOrder_mark (slot : Nat) (f : Fields) (s : State) : (execEndOrder slot f s).Marked s := by
  unfold execEndOrder
  exact stepIf_mark (by simp)

theorem execFault_mark (slot : Nat) (f : Fields) (s : State) : (execFault slot f s).Marked s := by
  unfold execFault
  refine stepIf_mark ?_
  simp

theorem execYield_mark (slot : Nat) (f : Fields) (s : State) : (execYield slot f s).Marked s := by
  unfold execYield
  refine stepIf_mark (runWord_mark _ _ _ _ _ fun t p => ?_)
  (repeat' split) <;> simp

theorem execWait_mark (slot : Nat) (f : Fields) (s : State) : (execWait slot f s).Marked s := by
  unfold execWait
  refine stepIf_mark ?_
  (repeat' split) <;> simp

theorem execFence_mark (slot : Nat) (f : Fields) (s : State) : (execFence slot f s).Marked s := by
  unfold execFence
  refine stepIf_mark ?_
  simp

theorem execTime_mark (slot : Nat) (f : Fields) (s : State) : (execTime slot f s).Marked s := by
  unfold execTime
  refine stepIf_mark ?_
  simp

theorem execPost_mark (slot : Nat) (f : Fields) (s : State) : (execPost slot f s).Marked s := by
  unfold execPost
  refine stepIf_mark ?_
  simp

/-! ## Fabric -/

@[simp] theorem dropFrame_mark (s : State) : (dropFrame s).mark = s.mark := by
  unfold dropFrame
  simp

theorem execEthernetLinkChange_mark (lport : Nat) (up : Bool) (s : State) : (execEthernetLinkChange lport up s).Marked s := by
  unfold execEthernetLinkChange
  refine stepIf_mark ?_
  simp

theorem execAddressResolutionRequest_mark (lport : Nat) (target : IpAddr) (vlan : Option Nat) (s : State) : (execAddressResolutionRequest lport target vlan s).Marked s := by
  unfold execAddressResolutionRequest
  (repeat' split) <;> first | trivial | (refine stepIf_mark ?_; simp; done)

theorem execIcmpEchoRequest_mark (lport : Nat) (target : IpAddr) (vlan : Option Nat) (payload : List Byte) (s : State) : (execIcmpEchoRequest lport target vlan payload s).Marked s := by
  unfold execIcmpEchoRequest
  (repeat' split) <;> first | trivial | (refine stepIf_mark ?_; simp; done)

theorem execForeignFrame_mark (lport : Nat) (s : State) : (execForeignFrame lport s).Marked s := by
  unfold execForeignFrame
  refine stepIf_mark ?_
  simp

theorem execPfcPauseReceived_mark (lport : Nat) (prio : BitVec 3) (quanta : W16) (s : State) : (execPfcPauseReceived lport prio quanta s).Marked s := by
  unfold execPfcPauseReceived
  refine stepIf_mark ?_
  (repeat' split) <;> simp

theorem execConnectionRequest_mark (lport : Nat) (s : State) : (execConnectionRequest lport s).Marked s := by
  unfold execConnectionRequest
  (repeat' split) <;> first | trivial | (refine stepIf_mark ?_; simp; done)

@[simp] theorem connect_mark (s : State) (q t : Nat) (c : ConnectCmd) : (connect s q t c).mark = s.mark := by
  unfold connect
  dsimp only
  (repeat' split) <;> simp

theorem execConnect_mark (qp : Nat) (c : ConnectCmd) (s : State) : (execConnect qp c s).Marked s := by
  unfold execConnect
  (repeat' split) <;> first | trivial | (refine stepIf_mark ?_; simp; done)

theorem execKeepAlive_mark (qp : Nat) (s : State) : (execKeepAlive qp s).Marked s := by
  unfold execKeepAlive
  refine stepIf_mark ?_
  simp

theorem execKeepAliveExpiry_mark (assoc : Nat) (s : State) : (execKeepAliveExpiry assoc s).Marked s := by
  unfold execKeepAliveExpiry
  refine stepIf_mark ?_
  simp

theorem execQpTransportError_mark (qp : Nat) (s : State) : (execQpTransportError qp s).Marked s := by
  unfold execQpTransportError
  refine stepIf_mark ?_
  simp

theorem execQpDisconnect_mark (qp : Nat) (s : State) : (execQpDisconnect qp s).Marked s := by
  unfold execQpDisconnect
  refine stepIf_mark ?_
  simp

theorem execAckTimeout_mark (qp : Nat) (s : State) : (execAckTimeout qp s).Marked s := by
  unfold execAckTimeout
  refine stepIf_mark ?_
  (repeat' split) <;> simp

theorem execHostRdmaAccess_mark (qp : Nat) (s : State) : (execHostRdmaAccess qp s).Marked s := by
  unfold execHostRdmaAccess
  refine stepIf_mark ?_
  simp

theorem execCeMarkedPacket_mark (qp us : Nat) (s : State) : (execCeMarkedPacket qp us s).Marked s := by
  unfold execCeMarkedPacket
  refine stepIf_mark ?_
  (repeat' split) <;> simp

theorem execCnpReceived_mark (qp : Nat) (s : State) : (execCnpReceived qp s).Marked s := by
  unfold execCnpReceived
  refine stepIf_mark ?_
  (repeat' split) <;> simp

theorem execRateIncreaseTimer_mark (qp : Nat) (s : State) : (execRateIncreaseTimer qp s).Marked s := by
  unfold execRateIncreaseTimer
  refine stepIf_mark ?_
  simp

theorem execAlphaDecayTimer_mark (qp : Nat) (s : State) : (execAlphaDecayTimer qp s).Marked s := by
  unfold execAlphaDecayTimer
  refine stepIf_mark ?_
  simp

@[simp] theorem dealTurn_mark (s : State) (order : List Nat) : (dealTurn s order).1.mark = s.mark := by
  unfold dealTurn
  dsimp only
  (repeat' split) <;> simp (disch := (intros; first | (simp; done) | ((repeat' split) <;> try simp))) [apply_ite State.mark, apply_ite Prod.fst,
    apply_ite Prod.snd]

@[simp] theorem deal_mark (order : List Nat) (n : Nat) (s : State) : (deal order n s).mark = s.mark := by
  induction n generalizing s with
  | zero => rfl
  | succ n ih =>
    unfold deal
    dsimp only
    (repeat' split) <;> simp [ih]

@[simp] theorem creditTopup_mark (s : State) : (creditTopup s).mark = s.mark := by
  unfold creditTopup
  (repeat' split) <;> simp [apply_ite State.mark]

@[simp] theorem memberGrant_mark (s : State) : (memberGrant s).mark = s.mark := by
  unfold memberGrant
  try dsimp only
  (repeat' split) <;> first
    | (simp; done)
    | (simp [apply_ite State.mark, apply_ite Prod.fst]; done)
    | (rw [foldl_mark]; (try simp); intro t a; try dsimp only; (repeat' split) <;> simp [apply_ite State.mark])
    | (rw [foldl_mark_pair]; (try simp); intro t a; try dsimp only; (repeat' split) <;> simp [apply_ite State.mark, apply_ite Prod.fst])

@[simp] theorem reapQps_mark (s : State) : (reapQps s).mark = s.mark := by
  unfold reapQps
  (repeat' split) <;> simp [apply_ite State.mark]

/-! ## Tenants -/

@[simp] theorem tenantEvent_mark (s : State) (k t : Nat) (mask : Nat) : (tenantEvent s k t mask).mark = s.mark := by
  unfold tenantEvent
  simp

@[simp] theorem tellMembers_mark (s : State) (t : Nat) : (tellMembers s t).mark = s.mark := by
  unfold tellMembers
  (repeat' split) <;> simp

@[simp] theorem controllerReset_mark (s : State) (fn : Nat) : (controllerReset s fn).mark = s.mark := by
  unfold controllerReset
  simp

@[simp] theorem cutZeroing_mark (s : State) (t : Nat) : (cutZeroing s t).mark = s.mark := by
  unfold cutZeroing
  refine foldl_mark _ (fun t e => ?_) _ _
  (repeat' split) <;> simp

@[simp] theorem startReset_mark (s : State) (t : Nat) (st : TState) : (startReset s t st).mark = s.mark := by
  unfold startReset
  dsimp only
  (repeat' split) <;> simp

@[simp] theorem flrReset_mark (s : State) (t : Nat) : (flrReset s t).mark = s.mark := by
  unfold flrReset
  dsimp only
  (repeat' split) <;> simp

@[simp] theorem tenantCreate_mark (s : State) (t : Nat) (x : TBlock) : (tenantCreate s t x).mark = s.mark := by
  unfold tenantCreate
  simp

@[simp] theorem tenantModify_mark (s : State) (t : Nat) (mask : BitVec 16) (x : TBlock) : (tenantModify s t mask x).mark = s.mark := by
  unfold tenantModify
  simp

@[simp] theorem detachAll_mark (s : State) (t : Nat) : (detachAll s t).mark = s.mark := by
  unfold detachAll
  refine foldl_mark _ (fun t e => ?_) _ _
  (repeat' split) <;> simp

@[simp] theorem tenantDestroy_mark (s : State) (t : Nat) : (tenantDestroy s t).mark = s.mark := by
  unfold tenantDestroy
  simp

@[simp] theorem tenantRun_mark (s : State) (rid action t : Nat) (q : Req) : (tenantRun s rid action t q).mark = s.mark := by
  unfold tenantRun
  (repeat' split) <;> simp

@[simp] theorem tenantOp_start_mark (s : State) (k : Nat) (f : Fields) (t : State) (r : Nat) : ((tenantOp s k f).start t r).mark = t.mark := by
  unfold tenantOp
  dsimp only
  (repeat' split) <;> simp

theorem execTenantCreate_mark (slot : Nat) (f : Fields) (s : State) : (execTenantCreate slot f s).Marked s := by
  unfold execTenantCreate
  refine stepIf_mark ?_
  simp

theorem execTenantModify_mark (slot : Nat) (f : Fields) (s : State) : (execTenantModify slot f s).Marked s := by
  unfold execTenantModify
  refine stepIf_mark ?_
  simp

theorem execTenantReset_mark (slot : Nat) (f : Fields) (s : State) : (execTenantReset slot f s).Marked s := by
  unfold execTenantReset
  refine stepIf_mark ?_
  simp

theorem execTenantDestroy_mark (slot : Nat) (f : Fields) (s : State) : (execTenantDestroy slot f s).Marked s := by
  unfold execTenantDestroy
  refine stepIf_mark ?_
  simp

theorem execTenantQuery_mark (slot : Nat) (f : Fields) (s : State) : (execTenantQuery slot f s).Marked s := by
  unfold execTenantQuery
  refine stepIf_mark ?_
  simp

@[simp] theorem dropKeys_mark (s : State) (t lo n : Nat) : (dropKeys s t lo n).mark = s.mark := by
  unfold dropKeys
  refine foldl_mark _ (fun t e => ?_) _ _
  (repeat' split) <;> simp

@[simp] theorem withdrawGate_mark (s : State) (t : Nat) : (withdrawGate s t).mark = s.mark := by
  unfold withdrawGate
  refine foldl_mark _ (fun t e => ?_) _ _
  (repeat' split) <;> simp

@[simp] theorem resetStrike_mark (s : State) (t : Nat) : (resetStrike s t).mark = s.mark := by
  unfold resetStrike
  dsimp only
  (repeat' split) <;> simp

@[simp] theorem modifyStrike_mark (s : State) (t : Nat) : (modifyStrike s t).mark = s.mark := by
  unfold modifyStrike
  dsimp only
  (repeat' split) <;> simp

@[simp] theorem dirtyStrike_mark (s : State) (t : Nat) : (dirtyStrike s t).mark = s.mark := by
  unfold dirtyStrike
  dsimp only
  (repeat' split) <;> simp

@[simp] theorem tenantsStrike_mark (s : State) : (tenantsStrike s).mark = s.mark := by
  unfold tenantsStrike
  simp

theorem execStaleResultDiscard_mark (rid : Nat) (s : State) : (execStaleResultDiscard rid s).Marked s := by
  unfold execStaleResultDiscard
  (repeat' split) <;> first | trivial | (refine stepIf_mark ?_; simp; done)

theorem execTenantResetEnd_mark (tenant : Nat) (s : State) : (execTenantResetEnd tenant s).Marked s := by
  unfold execTenantResetEnd
  refine stepIf_mark ?_
  simp

@[simp] theorem dropPatterns_mark (s : State) (t : Nat) : (dropPatterns s t).mark = s.mark := by
  unfold dropPatterns
  dsimp only
  (repeat' split) <;> simp (disch := (intros; first | (simp; done) | ((repeat' split) <;> try simp))) [apply_ite State.mark, apply_ite Prod.fst,
    apply_ite Prod.snd]

theorem execTenantDestroyEnd_mark (tenant : Nat) (s : State) : (execTenantDestroyEnd tenant s).Marked s := by
  unfold execTenantDestroyEnd
  refine stepIf_mark ?_
  simp

theorem execDeferredFlrEffect_mark (tenant : Nat) (s : State) : (execDeferredFlrEffect tenant s).Marked s := by
  unfold execDeferredFlrEffect
  refine stepIf_mark ?_
  simp

theorem execMemberTenantRecord_mark (r : TenantRecord) (s : State) : (execMemberTenantRecord r s).Marked s := by
  unfold execMemberTenantRecord
  refine stepIf_mark ?_
  (repeat' split) <;> simp

@[simp] theorem dirtyOn_mark (s : State) (t : Nat) : (dirtyOn s t).mark = s.mark := by
  unfold dirtyOn
  dsimp only
  (repeat' split) <;> simp

@[simp] theorem dirtySwap_mark (s : State) (t : Nat) : (dirtySwap s t).mark = s.mark := by
  unfold dirtySwap
  dsimp only
  (repeat' split) <;> simp

@[simp] theorem dirtyStop_mark (s : State) (t : Nat) : (dirtyStop s t).mark = s.mark := by
  unfold dirtyStop
  dsimp only
  (repeat' split) <;> simp

theorem execDirtyLogEnable_mark (req : Nat) (s : State) : (execDirtyLogEnable req s).Marked s := by
  unfold execDirtyLogEnable
  refine stepIf_mark ?_
  simp

theorem execDirtyLogSwap_mark (req : Nat) (s : State) : (execDirtyLogSwap req s).Marked s := by
  unfold execDirtyLogSwap
  refine stepIf_mark ?_
  simp

theorem execDirtyLogDisable_mark (req : Nat) (s : State) : (execDirtyLogDisable req s).Marked s := by
  unfold execDirtyLogDisable
  refine stepIf_mark ?_
  simp

theorem execDirtyLogFlushDone_mark (tenant : Nat) (s : State) : (execDirtyLogFlushDone tenant s).Marked s := by
  unfold execDirtyLogFlushDone
  refine stepIf_mark ?_
  simp

@[simp] theorem patloadRun_mark (s : State) (b : List Byte) (t n : Nat) : (patloadRun s b t n).mark = s.mark := by
  unfold patloadRun
  dsimp only
  (repeat' split) <;> simp

@[simp] theorem patloadOp_start_mark (s : State) (k : Nat) (f : Fields) (t : State) (r : Nat) : ((patloadOp s k f).start t r).mark = t.mark := by
  unfold patloadOp
  simp

theorem execPatload_mark (slot : Nat) (f : Fields) (s : State) : (execPatload slot f s).Marked s := by
  unfold execPatload
  refine stepIf_mark ?_
  simp

@[simp] theorem takeEntry_mark (s : State) (k : Nat) (data : List Byte) : (takeEntry s k data).mark = s.mark := by
  unfold takeEntry
  simp

theorem execManagerRequest_mark (slot : Nat) (data : List Byte) (s : State) : (execManagerRequest slot data s).Marked s := by
  unfold execManagerRequest
  refine stepIf_mark ?_
  (repeat' split) <;> simp

@[simp] theorem answerEntry_mark (s : State) (e : MailEntry) (st : W16) : (answerEntry s e st).mark = s.mark := by
  unfold answerEntry
  try dsimp only
  (repeat' split) <;> first
    | (simp; done)
    | (simp [apply_ite State.mark, apply_ite Prod.fst]; done)
    | (rw [foldl_mark]; (try simp); intro t a; try dsimp only; (repeat' split) <;> simp [apply_ite State.mark])
    | (rw [foldl_mark_pair]; (try simp); intro t a; try dsimp only; (repeat' split) <;> simp [apply_ite State.mark, apply_ite Prod.fst])

theorem execManagerAnswer_mark (slot : Nat) (s : State) : (execManagerAnswer slot s).Marked s := by
  unfold execManagerAnswer
  refine stepIf_mark ?_
  (repeat' split) <;> first
    | (simp; done)
    | (simp [apply_ite State.mark]; done)
    | ((repeat' split) <;> simp)

theorem execGetLogPageMailbox_mark (slot : Nat) (s : State) : (execGetLogPageMailbox slot s).Marked s := by
  unfold execGetLogPageMailbox
  refine stepIf_mark ?_
  (repeat' split) <;> first
    | (simp; done)
    | (simp [apply_ite State.mark]; done)
    | ((repeat' split) <;> simp)

/-! ## Pcie -/

theorem execPcieLinkUp_mark (speed width : Nat) (flit : Bool) (s : State) : (execPcieLinkUp speed width flit s).Marked s := by
  unfold execPcieLinkUp
  refine stepIf_mark ?_
  simp

theorem execControllerEnable_mark (fn : Nat) (en : Bool) (sqSize cqSize : Nat) (acq : W64) (s : State) : (execControllerEnable fn en sqSize cqSize acq s).Marked s := by
  unfold execControllerEnable
  refine stepIf_mark ?_
  (repeat' split) <;> simp

theorem execCreateIoCompletionQueue_mark (slot : Nat) (base : W64) (s : State) : (execCreateIoCompletionQueue slot base s).Marked s := by
  unfold execCreateIoCompletionQueue
  refine stepIf_mark ?_
  (repeat' split) <;> simp

theorem execCreateIoSubmissionQueue_mark (slot : Nat) (s : State) : (execCreateIoSubmissionQueue slot s).Marked s := by
  unfold execCreateIoSubmissionQueue
  refine stepIf_mark ?_
  (repeat' split) <;> simp

theorem execDeleteIoQueue_mark (slot : Nat) (s : State) : (execDeleteIoQueue slot s).Marked s := by
  unfold execDeleteIoQueue
  refine stepIf_mark ?_
  (repeat' split) <;> simp

@[simp] theorem drainBacklog_mark (fn n : Nat) (s : State) : (drainBacklog fn n s).mark = s.mark := by
  induction n generalizing s with
  | zero => rfl
  | succ n ih =>
    unfold drainBacklog
    dsimp only
    (repeat' split) <;> simp [ih]

@[simp] theorem doorbellError_mark (s : State) (fn info : Nat) : (doorbellError s fn info).mark = s.mark := by
  unfold doorbellError
  simp

@[simp] theorem tailDoorbell_mark (s : State) (fn qid v : Nat) (q : NvmeQueue) : (tailDoorbell s fn qid v q).mark = s.mark := by
  unfold tailDoorbell
  (repeat' split) <;> simp

@[simp] theorem headDoorbell_mark (s : State) (fn qid v : Nat) (q : NvmeQueue) : (headDoorbell s fn qid v q).mark = s.mark := by
  unfold headDoorbell
  (repeat' split) <;> simp

theorem execDoorbellWrite_mark (fn idx : Nat) (value : W32) (s : State) : (execDoorbellWrite fn idx value s).Marked s := by
  unfold execDoorbellWrite
  refine stepIf_mark ?_
  (repeat' split) <;> simp

theorem execFunctionLevelReset_mark (fn : Nat) (s : State) : (execFunctionLevelReset fn s).Marked s := by
  unfold execFunctionLevelReset
  dsimp only
  (repeat' split) <;> first
    | trivial
    | (refine stepIf_mark ?_; simp; done)
    | (refine next_mark ?_; simp; done)
    | (refine stepIf_mark ?_; (repeat' split) <;> simp <;> done)
    | (refine next_mark ?_; (repeat' split) <;> simp <;> done)

@[simp] theorem pcieReset_mark (s : State) : (pcieReset s).mark = s.mark := by
  unfold pcieReset
  simp

theorem execPcieReset_mark (perst : Bool) (s : State) : (execPcieReset perst s).Marked s := by
  unfold execPcieReset
  refine stepIf_mark ?_
  simp

theorem execEndpointIdAssignment_mark (eid : Byte) (s : State) : (execEndpointIdAssignment eid s).Marked s := by
  unfold execEndpointIdAssignment
  (repeat' split) <;> first | trivial | (refine stepIf_mark ?_; simp; done)

/-! ## Reset -/

@[simp] theorem bareState_mark (s : State) : (bareState s).mark = s.mark := by
  unfold bareState
  simp

@[simp] theorem releaseReset_mark (s : State) (cause : Nat) (aon : Bool) (p : ResetPins) : (releaseReset s cause aon p).mark = s.mark := by
  unfold releaseReset
  (repeat' split) <;> simp

@[simp] theorem bootRecord_mark (s : State) : (bootRecord s).mark = s.mark := by
  unfold bootRecord
  simp

@[simp] theorem romHalt_mark (s : State) (fault : Nat) : (romHalt s fault).mark = s.mark := by
  unfold romHalt
  simp

theorem romDerive_kept (s : State) (x : SlotImages) : Kept s (romDerive s x) := by
  unfold romDerive
  exact ⟨rfl, Nat.le_refl _, Nat.le_refl _, fun k h => by simp [h]⟩

theorem romBoot_kept (s : State) (slot fallback : Bool) : Kept s (romBoot s slot fallback) := by
  unfold romBoot
  refine Kept.then_mark (romDerive_kept s (slotImages s.boot.flash slot)) ?_
  simp

@[simp] theorem macFails_mark (s : State) : (macFails s).mark = s.mark := by
  unfold macFails
  simp

theorem macFails_kept_iff (s t : State) : Kept s (macFails t) ↔ Kept s t :=
  ⟨fun h => h.then_mark (macFails_mark t).symm, fun h => h.then_mark (macFails_mark t)⟩

theorem raise_kept_iff (s t : State) (e : Event) : Kept s (raise t e) ↔ Kept s t :=
  ⟨fun h => h.then_mark (raise_mark t e).symm, fun h => h.then_mark (raise_mark t e)⟩

theorem rom_kept (s : State) (p : ResetPins) : Kept s (rom s p) := by
  unfold rom
  dsimp only
  split
  · exact kept_of_mark (by split <;> simp)
  · split
    · exact kept_of_mark (by split <;> simp)
    · split
      · exact kept_of_mark (by split <;> simp)
      · split
        · exact kept_of_mark (by split <;> simp)
        · rename_i x _
          split <;> (rw [macFails_kept_iff]; first | rw [raise_kept_iff] | skip) <;> refine Kept.after_mark ?_ (romBoot_kept _ _ _) <;> simp

theorem deviceReset_kept (s : State) (cause : Nat) (aon : Bool) (p : ResetPins) : Kept s (deviceReset s cause aon p) := by
  unfold deviceReset
  refine Kept.after_mark ?_ (rom_kept _ _)
  simp

theorem heldReset_kept (s : State) (cause : Nat) (p : ResetPins) : Kept s (heldReset s cause p) := by
  unfold heldReset
  split
  · exact Kept.refl s
  · exact deviceReset_kept ..

theorem execPorstNReset_kept (p : ResetPins) (_s : State) : (execPorstNReset p _s).Kept _s := by
  unfold execPorstNReset
  try dsimp only
  (repeat' split) <;> first
    | trivial
    | exact stepIf_kept (deviceReset_kept ..)
    | exact next_kept (deviceReset_kept ..)
    | exact stepIf_kept ((deviceReset_kept ..).after_mark (by simp))
    | exact next_kept ((deviceReset_kept ..).after_mark (by simp))
    | exact stepIf_kept (kept_of_mark (by simp))
    | exact next_kept (kept_of_mark (by simp))
    | (refine stepIf_kept ?_; (repeat' split) <;> first | exact deviceReset_kept .. | exact (deviceReset_kept ..).after_mark (by simp) | exact kept_of_mark (by simp))
    | (refine next_kept ?_; (repeat' split) <;> first | exact deviceReset_kept .. | exact (deviceReset_kept ..).after_mark (by simp) | exact kept_of_mark (by simp))

theorem execSysRstNReset_kept (p : ResetPins) (s : State) : (execSysRstNReset p s).Kept s := by
  unfold execSysRstNReset
  try dsimp only
  (repeat' split) <;> first
    | trivial
    | exact stepIf_kept (heldReset_kept ..)
    | exact next_kept (heldReset_kept ..)
    | exact stepIf_kept ((heldReset_kept ..).after_mark (by simp))
    | exact next_kept ((heldReset_kept ..).after_mark (by simp))
    | exact stepIf_kept (kept_of_mark (by simp))
    | exact next_kept (kept_of_mark (by simp))
    | (refine stepIf_kept ?_; (repeat' split) <;> first | exact heldReset_kept .. | exact (heldReset_kept ..).after_mark (by simp) | exact kept_of_mark (by simp))
    | (refine next_kept ?_; (repeat' split) <;> first | exact heldReset_kept .. | exact (heldReset_kept ..).after_mark (by simp) | exact kept_of_mark (by simp))

@[simp] theorem resetMembers_mark (s : State) : (resetMembers s).mark = s.mark := by
  unfold resetMembers
  (repeat' split) <;> simp

theorem execNvmSubsystemReset_kept (p : ResetPins) (value : W32) (s : State) : (execNvmSubsystemReset p value s).Kept s := by
  unfold execNvmSubsystemReset
  try dsimp only
  (repeat' split) <;> first
    | trivial
    | exact stepIf_kept (heldReset_kept ..)
    | exact next_kept (heldReset_kept ..)
    | exact stepIf_kept ((heldReset_kept ..).after_mark (by simp))
    | exact next_kept ((heldReset_kept ..).after_mark (by simp))
    | exact stepIf_kept (kept_of_mark (by simp))
    | exact next_kept (kept_of_mark (by simp))
    | (refine stepIf_kept ?_; (repeat' split) <;> first | exact heldReset_kept .. | exact (heldReset_kept ..).after_mark (by simp) | exact kept_of_mark (by simp))
    | (refine next_kept ?_; (repeat' split) <;> first | exact heldReset_kept .. | exact (heldReset_kept ..).after_mark (by simp) | exact kept_of_mark (by simp))

theorem softwareReset_kept (s : State) (req : Nat) (value : W32) (p : ResetPins) : Kept s (softwareReset s req value p) := by
  unfold softwareReset
  split
  · exact heldReset_kept ..
  · exact Kept.refl s

theorem execSoftwareReset_kept (req : Nat) (value : W32) (p : ResetPins) (s : State) : (execSoftwareReset req value p s).Kept s :=
  stepIf_kept (softwareReset_kept ..)

theorem execBootWatchdogExpiry_kept (p : ResetPins) (s : State) : (execBootWatchdogExpiry p s).Kept s := by
  unfold execBootWatchdogExpiry
  try dsimp only
  (repeat' split) <;> first
    | trivial
    | exact stepIf_kept (heldReset_kept ..)
    | exact next_kept (heldReset_kept ..)
    | exact stepIf_kept ((heldReset_kept ..).after_mark (by simp))
    | exact next_kept ((heldReset_kept ..).after_mark (by simp))
    | exact stepIf_kept (kept_of_mark (by simp))
    | exact next_kept (kept_of_mark (by simp))
    | (refine stepIf_kept ?_; (repeat' split) <;> first | exact heldReset_kept .. | exact (heldReset_kept ..).after_mark (by simp) | exact kept_of_mark (by simp))
    | (refine next_kept ?_; (repeat' split) <;> first | exact heldReset_kept .. | exact (heldReset_kept ..).after_mark (by simp) | exact kept_of_mark (by simp))

theorem execWallResetMessage_kept (p : ResetPins) (s : State) : (execWallResetMessage p s).Kept s := by
  unfold execWallResetMessage
  try dsimp only
  (repeat' split) <;> first
    | trivial
    | exact stepIf_kept (heldReset_kept ..)
    | exact next_kept (heldReset_kept ..)
    | exact stepIf_kept ((heldReset_kept ..).after_mark (by simp))
    | exact next_kept ((heldReset_kept ..).after_mark (by simp))
    | exact stepIf_kept (kept_of_mark (by simp))
    | exact next_kept (kept_of_mark (by simp))
    | (refine stepIf_kept ?_; (repeat' split) <;> first | exact heldReset_kept .. | exact (heldReset_kept ..).after_mark (by simp) | exact kept_of_mark (by simp))
    | (refine next_kept ?_; (repeat' split) <;> first | exact heldReset_kept .. | exact (heldReset_kept ..).after_mark (by simp) | exact kept_of_mark (by simp))

theorem execBellowsRestart_kept (p : ResetPins) (s : State) : (execBellowsRestart p s).Kept s := by
  unfold execBellowsRestart
  try dsimp only
  (repeat' split) <;> first
    | trivial
    | exact stepIf_kept (deviceReset_kept ..)
    | exact next_kept (deviceReset_kept ..)
    | exact stepIf_kept ((deviceReset_kept ..).after_mark (by simp))
    | exact next_kept ((deviceReset_kept ..).after_mark (by simp))
    | exact stepIf_kept (kept_of_mark (by simp))
    | exact next_kept (kept_of_mark (by simp))
    | (refine stepIf_kept ?_; (repeat' split) <;> first | exact deviceReset_kept .. | exact (deviceReset_kept ..).after_mark (by simp) | exact kept_of_mark (by simp))
    | (refine next_kept ?_; (repeat' split) <;> first | exact deviceReset_kept .. | exact (deviceReset_kept ..).after_mark (by simp) | exact kept_of_mark (by simp))

theorem execBankDepleted_kept (p : ResetPins) (s : State) : (execBankDepleted p s).Kept s := by
  unfold execBankDepleted
  try dsimp only
  (repeat' split) <;> first
    | trivial
    | exact stepIf_kept (deviceReset_kept ..)
    | exact next_kept (deviceReset_kept ..)
    | exact stepIf_kept ((deviceReset_kept ..).after_mark (by simp))
    | exact next_kept ((deviceReset_kept ..).after_mark (by simp))
    | exact stepIf_kept (kept_of_mark (by simp))
    | exact next_kept (kept_of_mark (by simp))
    | (refine stepIf_kept ?_; (repeat' split) <;> first | exact deviceReset_kept .. | exact (deviceReset_kept ..).after_mark (by simp) | exact kept_of_mark (by simp))
    | (refine next_kept ?_; (repeat' split) <;> first | exact deviceReset_kept .. | exact (deviceReset_kept ..).after_mark (by simp) | exact kept_of_mark (by simp))

theorem execAonUndervoltage_kept (p : ResetPins) (s : State) : (execAonUndervoltage p s).Kept s := by
  unfold execAonUndervoltage
  try dsimp only
  (repeat' split) <;> first
    | trivial
    | exact stepIf_kept (deviceReset_kept ..)
    | exact next_kept (deviceReset_kept ..)
    | exact stepIf_kept ((deviceReset_kept ..).after_mark (by simp))
    | exact next_kept ((deviceReset_kept ..).after_mark (by simp))
    | exact stepIf_kept (kept_of_mark (by simp))
    | exact next_kept (kept_of_mark (by simp))
    | (refine stepIf_kept ?_; (repeat' split) <;> first | exact deviceReset_kept .. | exact (deviceReset_kept ..).after_mark (by simp) | exact kept_of_mark (by simp))
    | (refine next_kept ?_; (repeat' split) <;> first | exact deviceReset_kept .. | exact (deviceReset_kept ..).after_mark (by simp) | exact kept_of_mark (by simp))

@[simp] theorem railEvent_mark (s : State) (rail : Rail) (mv : Nat) : (railEvent s rail mv).mark = s.mark := by
  unfold railEvent
  (repeat' split) <;> simp

@[simp] theorem haltNow_mark (s : State) : (haltNow s).mark = s.mark := by
  unfold haltNow
  simp

theorem execRailFault_mark (rail : Rail) (mv : Nat) (s : State) : (execRailFault rail mv s).Marked s := by
  unfold execRailFault
  refine stepIf_mark ?_
  simp

theorem execRefclkStop_mark (s : State) : (execRefclkStop s).Marked s := by
  unfold execRefclkStop
  refine stepIf_mark ?_
  simp

/-! ## Bellows -/

@[simp] theorem requestTest_mark (s : State) (periodic : Bool) : (requestTest s periodic).mark = s.mark := by
  unfold requestTest
  (repeat' split) <;> simp

@[simp] theorem armBellows_mark (s : State) : (armBellows s).mark = s.mark := by
  unfold armBellows
  (repeat' split) <;> simp

theorem execBellowsArm_mark (s : State) : (execBellowsArm s).Marked s := by
  unfold execBellowsArm
  refine stepIf_mark ?_
  simp

@[simp] theorem supplyHigh_mark (s : State) (vhv : Nat) : (supplyHigh s vhv).mark = s.mark := by
  unfold supplyHigh
  (repeat' split) <;> simp

@[simp] theorem overvoltage_mark (s : State) : (overvoltage s).mark = s.mark := by
  unfold overvoltage
  dsimp only
  (repeat' split) <;> simp

@[simp] theorem bleedEnd_mark (s : State) : (bleedEnd s).mark = s.mark := by
  unfold bleedEnd
  dsimp only
  (repeat' split) <;> simp

@[simp] theorem testReach_mark (s : State) : (testReach s).mark = s.mark := by
  unfold testReach
  (repeat' split) <;> simp

@[simp] theorem sampleVolts_mark (s : State) (vhv vbank : Nat) : (sampleVolts s vhv vbank).mark = s.mark := by
  unfold sampleVolts
  simp

theorem execVoltageSample_mark (vhv vbank : Nat) (s : State) : (execVoltageSample vhv vbank s).Marked s := by
  unfold execVoltageSample
  refine stepIf_mark ?_
  simp

@[simp] theorem bleedFailed_mark (s : State) : (bleedFailed s).mark = s.mark := by
  unfold bleedFailed
  simp

theorem execBleedCheckTimer_mark (s : State) : (execBleedCheckTimer s).Marked s := by
  unfold execBleedCheckTimer
  (repeat' split) <;> first | trivial | (refine stepIf_mark ?_; simp; done)

@[simp] theorem faultClear_mark (s : State) : (faultClear s).mark = s.mark := by
  unfold faultClear
  (repeat' split) <;> simp

theorem execFaultClear_mark (s : State) : (execFaultClear s).Marked s := by
  unfold execFaultClear
  refine stepIf_mark ?_
  simp

@[simp] theorem testFailed_mark (s : State) : (testFailed s).mark = s.mark := by
  unfold testFailed
  simp

theorem execChargeTimeout_mark (s : State) : (execChargeTimeout s).Marked s := by
  unfold execChargeTimeout
  (repeat' split) <;> first | trivial | (refine stepIf_mark ?_; simp; done)

@[simp] theorem testRequest_mark (s : State) : (testRequest s).mark = s.mark := by
  unfold testRequest
  (repeat' split) <;> simp

theorem execCapTestRequest_mark (s : State) : (execCapTestRequest s).Marked s := by
  unfold execCapTestRequest
  refine stepIf_mark ?_
  simp

theorem execPeriodicTestTimer_mark (s : State) : (execPeriodicTestTimer s).Marked s := by
  unfold execPeriodicTestTimer
  refine stepIf_mark ?_
  simp

theorem execCapTestRetryTimer_mark (s : State) : (execCapTestRetryTimer s).Marked s := by
  unfold execCapTestRetryTimer
  refine stepIf_mark ?_
  simp

theorem execCapTestBleedStart_mark (v1 : Nat) (s : State) : (execCapTestBleedStart v1 s).Marked s := by
  unfold execCapTestBleedStart
  refine stepIf_mark ?_
  simp

@[simp] theorem testEnds_mark (s : State) (v2 us : Nat) : (testEnds s v2 us).mark = s.mark := by
  unfold testEnds
  dsimp only
  (repeat' split) <;> simp

theorem execCapTestBleedEnd_mark (v2 us : Nat) (s : State) : (execCapTestBleedEnd v2 us s).Marked s := by
  unfold execCapTestBleedEnd
  refine stepIf_mark ?_
  simp

end Sys2Proof.Machine
end

