-- ==== Sys2Proof/Laws/KeptFlash.lean ====
section
/-! SUPPORT. That the operations and commands of the read plans, the dies, recovery and the switched domains leave the mark of a state, or keep it. -/

namespace Sys2Proof.Machine

set_option linter.all false

/-! ## Sched -/

@[simp] theorem setParts_mark (s : State) (who : Reader) (f : List RdPart → List RdPart) : (setParts s who f).mark = s.mark := by
  unfold setParts
  try dsimp only
  (repeat' split) <;> first
    | (simp; done)
    | (simp [apply_ite State.mark, apply_ite Prod.fst]; done)
    | (rw [foldl_mark]; (try simp); intro t a; try dsimp only; (repeat' split) <;> simp [apply_ite State.mark])
    | (rw [foldl_mark_pair]; (try simp); intro t a; try dsimp only; (repeat' split) <;> simp [apply_ite State.mark, apply_ite Prod.fst])

@[simp] theorem updPart_mark (s : State) (who : Reader) (i : Nat) (f : RdPart → RdPart) : (updPart s who i f).mark = s.mark := by
  unfold updPart
  try dsimp only
  (repeat' split) <;> first
    | (simp; done)
    | (simp [apply_ite State.mark, apply_ite Prod.fst]; done)
    | (rw [foldl_mark]; (try simp); intro t a; try dsimp only; (repeat' split) <;> simp [apply_ite State.mark])
    | (rw [foldl_mark_pair]; (try simp); intro t a; try dsimp only; (repeat' split) <;> simp [apply_ite State.mark, apply_ite Prod.fst])

theorem planSense_mark (s : State) (d s0 : Nat) (who : Reader) (part : Nat) : ∀ p, planSense s d s0 who part = some p → p.2.2.mark = s.mark := by
  intro p h
  unfold planSense at h
  dsimp only at h
  split at h <;> simp at h
  subst h
  simp

@[simp] theorem addCal_mark (s : State) (c : Nat) (companion : Bool) (l : List (Nat × Nat)) : (addCal s c companion l).mark = s.mark := by
  unfold addCal
  simp

theorem planPart_mark (s : State) (s0 : Nat) (who : Reader) (idx : Nat) (x : Cw) (companion : Bool) (prev : Option RdPart) :
    ∀ p, planPart s s0 who idx x companion prev = some p → p.1.mark = s.mark := by
  intro p h
  unfold planPart at h
  dsimp only at h
  split at h
  · simp at h
  · rename_i si sd s1 hs
    have hm : s1.mark = s.mark := by
      split at hs
      · rename_i r hr
        split at hr
        · split at hr
          · simp at hr hs; subst hr; simp at hs; rw [← hs.2.2]
          · simp at hr
        · simp at hr
      · exact planSense_mark _ _ _ _ _ _ hs
    split at h
    · simp at h
    · simp at h; subst h; simp [hm]

theorem reserveSeg_mark (s : State) (e f n : Nat) : ∀ p, reserveSeg s e f n = some p → p.1.mark = s.mark := by
  induction f generalizing n with
  | zero => intro p h; simp [reserveSeg] at h
  | succ f ih =>
    intro p h
    unfold reserveSeg at h
    split at h
    · exact ih _ p h
    · simp at h; subst h; simp

theorem foldl_option_mark {β γ : Type} (f : Option (State × γ) → β → Option (State × γ)) (s : State)
    (hn : ∀ b, f none b = none) (h : ∀ t x b p, f (some (t, x)) b = some p → p.1.mark = t.mark) (l : List β) :
    ∀ t x p, t.mark = s.mark → l.foldl f (some (t, x)) = some p → p.1.mark = s.mark := by
  have hnone : ∀ l : List β, l.foldl f none = none := by
    intro l; induction l with
    | nil => rfl
    | cons b l ih => rw [List.foldl_cons, hn, ih]
  induction l with
  | nil => intro t x p ht hp; simp at hp; subst hp; exact ht
  | cons b l ih =>
    intro t x p ht hp
    rw [List.foldl_cons] at hp
    cases hf : f (some (t, x)) b with
    | none => rw [hf, hnone] at hp; simp at hp
    | some q => rw [hf] at hp; exact ih q.1 q.2 p ((h t x b q hf).trans ht) hp

theorem reserveSegs_mark (s : State) (s0 e : Nat) (lasts : List Nat) :
    ∀ p, reserveSegs s s0 e lasts = some p → p.1.mark = s.mark := by
  intro p hp
  refine foldl_option_mark _ s (fun _ => rfl) ?_ lasts s [] p rfl hp
  intro t x b q h
  simp only [Option.map_eq_some_iff] at h
  obtain ⟨r, hr, rfl⟩ := h
  exact reserveSeg_mark _ _ _ _ _ hr

theorem chooseEngine_mark (s : State) (s0 : Nat) (lasts : List Nat) :
    ∀ p, chooseEngine s s0 lasts = some p → p.2.1.mark = s.mark := by
  unfold chooseEngine
  generalize ((List.range 8).filter fun e => !mgrOff s (pxDom e)) = l
  suffices ∀ (m : Option (Nat × State × List Nat)), (∀ p, m = some p → p.2.1.mark = s.mark) → ∀ p,
      l.foldl (fun (m : Option (Nat × State × List Nat)) e =>
        match reserveSegs s s0 e lasts with
        | none => m
        | some r => match m with
          | none => some (e, r.1, r.2)
          | some b => if r.2.foldl max 0 < b.2.2.foldl max 0 then some (e, r.1, r.2) else some b) m = some p →
      p.2.1.mark = s.mark by exact this none (by simp)
  induction l with
  | nil => intro m hm p hp; exact hm p hp
  | cons e l ih =>
    intro m hm p hp
    rw [List.foldl_cons] at hp
    refine ih _ ?_ p hp
    intro q hq
    cases hr : reserveSegs s s0 e lasts with
    | none => rw [hr] at hq; exact hm q hq
    | some r =>
      have := reserveSegs_mark _ _ _ _ _ hr
      rw [hr] at hq
      cases m with
      | none => simp at hq; subst hq; exact this
      | some b =>
        simp only at hq
        split at hq <;> simp at hq <;> subst hq
        · exact this
        · exact hm _ rfl

theorem planParts_mark (s : State) (s0 : Nat) (who : Reader) (idx : Nat) (l : List Cw) (companion : Bool) :
    ∀ p, planParts s s0 who idx l companion = some p → p.1.mark = s.mark := by
  intro p hp
  refine foldl_option_mark _ s (fun _ => rfl) ?_ l s [] p rfl hp
  intro t x b q h
  simp only [Option.map_eq_some_iff] at h
  obtain ⟨r, hr, rfl⟩ := h
  exact planPart_mark _ _ _ _ _ _ _ _ hr

theorem planAround_mark (s : State) (s0 : Nat) (who : Reader) (idx : Nat) (x : Cw) :
    ∀ p, planAround s s0 who idx x = some p → p.s.mark = s.mark := by
  intro p h
  unfold planAround at h
  dsimp only at h
  split at h
  · simp at h
  · split at h
    · simp at h
    · rename_i hp
      split at h
      · simp at h
      · rename_i hc
        simp at h; subst h
        exact (chooseEngine_mark _ _ _ _ hc).trans (planParts_mark _ _ _ _ _ _ _ hp)

theorem planDirect_mark (s : State) (s0 : Nat) (who : Reader) (idx : Nat) (x : Cw) (prev : Option RdPart) :
    ∀ p, planDirect s s0 who idx x prev = some p → p.s.mark = s.mark := by
  intro p h
  unfold planDirect at h
  split at h
  · simp at h; subst h; rfl
  · simp only [Option.map_eq_some_iff] at h
    obtain ⟨r, hr, rfl⟩ := h
    exact planPart_mark _ _ _ _ _ _ _ _ hr

theorem planCw_mark (s : State) (s0 : Nat) (who : Reader) (idx : Nat) (x : Cw) (prev : Option RdPart) :
    ∀ p, planCw s s0 who idx x prev = some p → p.s.mark = s.mark := by
  intro p h
  unfold planCw at h
  split at h
  · rename_i hd ha
    split at h <;> simp at h <;> subst h
    · exact planAround_mark _ _ _ _ _ _ ha
    · exact planDirect_mark _ _ _ _ _ _ _ hd
  · rename_i hd _
    simp at h; subst h; exact planDirect_mark _ _ _ _ _ _ _ hd
  · exact planAround_mark _ _ _ _ _ _ h

theorem planStripe_mark (s : State) (s0 : Nat) (who : Reader) (l : List Cw) :
    ∀ p, planStripe s s0 who l = some p → p.s.mark = s.mark := by
  intro p h
  unfold planStripe at h
  split at h
  · simp at h
  · rename_i hp
    split at h
    · simp at h
    · rename_i hc
      simp at h; subst h
      exact (chooseEngine_mark _ _ _ _ hc).trans (planParts_mark _ _ _ _ _ _ _ hp)

theorem planAll_mark (s : State) (s0 : Nat) (who : Reader) (l : List Cw) :
    ∀ p, planAll s s0 who l = some p → p.s.mark = s.mark := by
  unfold planAll
  suffices ∀ r : Option CwPlan, (∀ p, r = some p → p.s.mark = s.mark) → ∀ p, l.foldl (fun r x => match r with
      | none => none
      | some p => (planCw p.s s0 who p.parts.length x p.parts.getLast?).map fun q =>
        { s := q.s, parts := p.parts ++ q.parts, promise := max p.promise q.promise, segs := p.segs ++ q.segs,
          around := p.around || q.around }) r = some p → p.s.mark = s.mark by
    exact this _ (by simp)
  induction l with
  | nil => exact fun r h p hp => h p hp
  | cons x l ih =>
    intro r h p hp
    rw [List.foldl_cons] at hp
    refine ih _ ?_ p hp
    intro q hq
    split at hq
    · simp at hq
    · rename_i p0
      simp only [Option.map_eq_some_iff] at hq
      obtain ⟨c, hc, rfl⟩ := hq
      exact (planCw_mark _ _ _ _ _ _ _ hc).trans (h p0 rfl)

theorem admission_mark (s : State) (s0 rid tenant issued : Nat) (n : Namespace) (a : ReadAsk) (tokens : Bool) :
    ∀ t p, admission s s0 rid tenant issued n a tokens = .ok t p → t.mark = s.mark := by
  intro t p h
  unfold admission at h
  dsimp only at h
  split at h
  · simp at h
  · split at h
    · simp at h
    · split at h
      · split at h <;> simp at h
      · rename_i c hc
        have hm : c.s.mark = s.mark := by
          split at hc
          · exact planStripe_mark _ _ _ _ _ hc
          · exact planAll_mark _ _ _ _ _ hc
        split at h
        · split at h <;> simp at h
        · split at h
          · simp at h
          · simp only [Admission.ok.injEq] at h
            rw [← h.1]; simp [hm]

@[simp] theorem wakeFor_mark (s : State) (p : ReadPlan) : (wakeFor s p).mark = s.mark := by
  unfold wakeFor
  simp

@[simp] theorem admitRead_mark (s : State) (rid : Nat) : (admitRead s rid).mark = s.mark := by
  unfold admitRead
  dsimp only
  split
  · rfl
  · split
    · simp
    · split
      · simp
      · simp
      · simp
      · rename_i h
        have := admission_mark _ _ _ _ _ _ _ _ _ _ h
        split <;> simp [this]

@[simp] theorem plumbRead_mark (s : State) (rid : Nat) : (plumbRead s rid).mark = s.mark := by
  unfold plumbRead
  try dsimp only
  (repeat' split) <;> simp

@[simp] theorem admitAll_mark (s : State) : (admitAll s).mark = s.mark := by
  unfold admitAll
  refine foldl_mark _ (fun t e => ?_) _ _
  (repeat' split) <;> simp

@[simp] theorem readOp_start_mark (s : State) (k : Nat) (f : Fields) (zoned : Bool) (t : State) (r : Nat) : ((readOp s k f zoned).start t r).mark = t.mark := by
  rfl

theorem execZread_mark (slot : Nat) (f : Fields) (s : State) : (execZread slot f s).Marked s := by
  unfold execZread
  refine stepIf_mark ?_
  simp

theorem execCread_mark (slot : Nat) (f : Fields) (s : State) : (execCread slot f s).Marked s := by
  unfold execCread
  refine stepIf_mark ?_
  simp

@[simp] theorem parchkOp_start_mark (s : State) (k : Nat) (f : Fields) (t : State) (r : Nat) : ((parchkOp s k f).start t r).mark = t.mark := by
  rfl

theorem execParchk_mark (slot : Nat) (f : Fields) (s : State) : (execParchk slot f s).Marked s := by
  unfold execParchk
  refine stepIf_mark ?_
  simp

@[simp] theorem plumbOp_start_mark (s : State) (k : Nat) (f : Fields) (t : State) (r : Nat) : ((plumbOp s k f).start t r).mark = t.mark := rfl

theorem execPlumb_mark (slot : Nat) (f : Fields) (s : State) : (execPlumb slot f s).Marked s := by
  unfold execPlumb
  refine stepIf_mark (asyncWord_mark _ _ _ _ _ (fun t r => rfl))

@[simp] theorem lateRead_mark (s : State) (p : ReadPlan) : (lateRead s p).mark = s.mark := by
  unfold lateRead
  (repeat' split) <;> simp

@[simp] theorem postRead_mark (s : State) (rid : Nat) : (postRead s rid).mark = s.mark := by
  unfold postRead
  (repeat' split) <;> simp

theorem execReadResultPosted_mark (rid : Nat) (s : State) : (execReadResultPosted rid s).Marked s := by
  unfold execReadResultPosted
  refine stepIf_mark ?_
  simp

@[simp] theorem resumePending_mark (s : State) (rid : Nat) (q : Req) : (resumePending s rid q).mark = s.mark := by
  unfold resumePending
  (repeat' split) <;> simp

theorem execMediaInstructionResume_mark (rid : Nat) (s : State) : (execMediaInstructionResume rid s).Marked s := by
  unfold execMediaInstructionResume
  (repeat' split) <;> first | trivial | (refine stepIf_mark ?_; simp; done)

theorem execCourseFormationResume_mark (rid : Nat) (s : State) : (execCourseFormationResume rid s).Marked s := by
  unfold execCourseFormationResume
  (repeat' split) <;> first | trivial | (refine stepIf_mark ?_; simp; done)

/-! ## Dies -/

@[simp] theorem spendCycle_mark (s : State) (c : Nat) : (spendCycle s c).mark = s.mark := by
  unfold spendCycle
  try dsimp only
  (repeat' split) <;> simp

@[simp] theorem issueSense_mark (s : State) (d n : Nat) (p : PlanStep) (window : Bool) : (issueSense s d n p window).mark = s.mark := by
  unfold issueSense
  try dsimp only
  (repeat' split) <;> first
    | (simp; done)
    | (simp [apply_ite State.mark, apply_ite Prod.fst]; done)
    | (rw [foldl_mark]; (try simp); intro t a; try dsimp only; (repeat' split) <;> simp [apply_ite State.mark])
    | (rw [foldl_mark_pair]; (try simp); intro t a; try dsimp only; (repeat' split) <;> simp [apply_ite State.mark, apply_ite Prod.fst])

@[simp] theorem tellProgram_mark (s : State) (d : Nat) (t : ProgTarget) : (tellProgram s d t).mark = s.mark := by
  unfold tellProgram
  try dsimp only
  (repeat' split) <;> first
    | (simp; done)
    | (simp [apply_ite State.mark, apply_ite Prod.fst]; done)
    | (rw [foldl_mark]; (try simp); intro t a; try dsimp only; (repeat' split) <;> simp [apply_ite State.mark])
    | (rw [foldl_mark_pair]; (try simp); intro t a; try dsimp only; (repeat' split) <;> simp [apply_ite State.mark, apply_ite Prod.fst])

@[simp] theorem launchOp_mark (s : State) (d : Nat) : (launchOp s d).mark = s.mark := by
  unfold launchOp
  try dsimp only
  (repeat' split) <;> first
    | (simp; done)
    | (simp [apply_ite State.mark, apply_ite Prod.fst]; done)
    | (rw [foldl_mark]; (try simp); intro t a; try dsimp only; (repeat' split) <;> simp [apply_ite State.mark])
    | (rw [foldl_mark_pair]; (try simp); intro t a; try dsimp only; (repeat' split) <;> simp [apply_ite State.mark, apply_ite Prod.fst])

@[simp] theorem plannedStep_mark (s : State) (n d : Nat) : (plannedStep s n d).mark = s.mark := by
  unfold plannedStep
  try dsimp only
  (repeat' split) <;> first
    | (simp; done)
    | (simp [apply_ite State.mark, apply_ite Prod.fst]; done)
    | (rw [foldl_mark]; (try simp); intro t a; try dsimp only; (repeat' split) <;> simp [apply_ite State.mark])
    | (rw [foldl_mark_pair]; (try simp); intro t a; try dsimp only; (repeat' split) <;> simp [apply_ite State.mark, apply_ite Prod.fst])

@[simp] theorem launchStep_mark (s : State) (n d : Nat) : (launchStep s n d).mark = s.mark := by
  unfold launchStep
  try dsimp only
  (repeat' split) <;> first
    | (simp; done)
    | (simp [apply_ite State.mark, apply_ite Prod.fst]; done)
    | (rw [foldl_mark]; (try simp); intro t a; try dsimp only; (repeat' split) <;> simp [apply_ite State.mark])
    | (rw [foldl_mark_pair]; (try simp); intro t a; try dsimp only; (repeat' split) <;> simp [apply_ite State.mark, apply_ite Prod.fst])

@[simp] theorem pollChannel_mark (s : State) (n c : Nat) : (pollChannel s n c).mark = s.mark := by
  unfold pollChannel
  try dsimp only
  (repeat' split) <;> first
    | (simp; done)
    | (simp [apply_ite State.mark, apply_ite Prod.fst]; done)
    | (rw [foldl_mark]; (try simp); intro t a; try dsimp only; (repeat' split) <;> simp [apply_ite State.mark])
    | (rw [foldl_mark_pair]; (try simp); intro t a; try dsimp only; (repeat' split) <;> simp [apply_ite State.mark, apply_ite Prod.fst])

@[simp] theorem runTimes_mark (s : State) : (runTimes s).mark = s.mark := by
  unfold runTimes
  (repeat' split) <;> simp [apply_ite State.mark]

@[simp] theorem dieSteps_mark (s : State) (n : Nat) : (dieSteps s n).mark = s.mark := by
  unfold dieSteps
  try dsimp only
  (repeat' split) <;> first
    | (simp; done)
    | (simp [apply_ite State.mark, apply_ite Prod.fst]; done)
    | (rw [foldl_mark]; (try simp); intro t a; try dsimp only; (repeat' split) <;> simp [apply_ite State.mark])
    | (rw [foldl_mark_pair]; (try simp); intro t a; try dsimp only; (repeat' split) <;> simp [apply_ite State.mark, apply_ite Prod.fst])

@[simp] theorem reservedBursts_mark (s : State) (c n : Nat) : (reservedBursts s c n).mark = s.mark := by
  unfold reservedBursts
  (repeat' split) <;> simp [apply_ite State.mark]

@[simp] theorem extraBursts_mark (s : State) (c n room ra : Nat) (floor : Bool) : (extraBursts s c n room ra floor).1.mark = s.mark := by
  unfold extraBursts
  try dsimp only
  (repeat' split) <;> first
    | (simp; done)
    | (simp [apply_ite State.mark, apply_ite Prod.fst]; done)
    | (rw [foldl_mark]; (try simp); intro t a; try dsimp only; (repeat' split) <;> simp [apply_ite State.mark])
    | (rw [foldl_mark_pair]; (try simp); intro t a; try dsimp only; (repeat' split) <;> simp [apply_ite State.mark, apply_ite Prod.fst])

@[simp] theorem delayedBursts_mark (s : State) (c n share floor ra : Nat) : (delayedBursts s c n share floor ra).1.mark = s.mark := by
  unfold delayedBursts
  try dsimp only
  (repeat' split) <;> first
    | (simp; done)
    | (simp [apply_ite State.mark, apply_ite Prod.fst]; done)
    | (rw [foldl_mark]; (try simp); intro t a; try dsimp only; (repeat' split) <;> simp [apply_ite State.mark])
    | (rw [foldl_mark_pair]; (try simp); intro t a; try dsimp only; (repeat' split) <;> simp [apply_ite State.mark, apply_ite Prod.fst])

@[simp] theorem sendUnit_mark (s : State) (d : Nat) (u : UnitEntry) (pages : Nat) (t : ProgTarget) (n room : Nat) : (sendUnit s d u pages t n room).1.mark = s.mark := by
  unfold sendUnit
  try dsimp only
  (repeat' split) <;> first
    | (simp; done)
    | (simp [apply_ite State.mark, apply_ite Prod.fst]; done)
    | (rw [foldl_mark]; (try simp); intro t a; try dsimp only; (repeat' split) <;> simp [apply_ite State.mark])
    | (rw [foldl_mark_pair]; (try simp); intro t a; try dsimp only; (repeat' split) <;> simp [apply_ite State.mark, apply_ite Prod.fst])

@[simp] theorem dataIn_mark (s : State) (id p n room : Nat) : (dataIn s id p n room).1.mark = s.mark := by
  unfold dataIn
  dsimp only
  (repeat' split) <;> simp

@[simp] theorem readBack_mark (s : State) (id p room : Nat) : (readBack s id p room).1.mark = s.mark := by
  unfold readBack
  dsimp only
  (repeat' split) <;> simp

@[simp] theorem updMend_mark (s : State) (id pos : Nat) (f : Mend → Mend) : (updMend s id pos f).mark = s.mark := by
  unfold updMend
  try dsimp only
  (repeat' split) <;> first
    | (simp; done)
    | (simp [apply_ite State.mark, apply_ite Prod.fst]; done)
    | (rw [foldl_mark]; (try simp); intro t a; try dsimp only; (repeat' split) <;> simp [apply_ite State.mark])
    | (rw [foldl_mark_pair]; (try simp); intro t a; try dsimp only; (repeat' split) <;> simp [apply_ite State.mark, apply_ite Prod.fst])

@[simp] theorem mendBursts_mark (s : State) (id n room : Nat) (m : Mend) : (mendBursts s id n room m).1.mark = s.mark := by
  unfold mendBursts
  try dsimp only
  (repeat' split) <;> first
    | (simp; done)
    | (simp [apply_ite State.mark, apply_ite Prod.fst]; done)
    | (rw [foldl_mark]; (try simp); intro t a; try dsimp only; (repeat' split) <;> simp [apply_ite State.mark])
    | (rw [foldl_mark_pair]; (try simp); intro t a; try dsimp only; (repeat' split) <;> simp [apply_ite State.mark, apply_ite Prod.fst])

@[simp] theorem writePath_mark (s : State) (c n room : Nat) : (writePath s c n room).1.mark = s.mark := by
  unfold writePath
  refine foldl_mark_pair _ (fun t e => ?_) _ _
  split
  · rfl
  · rw [foldl_mark_pair, foldl_mark_pair]
    · intro t m; dsimp only; split <;> simp
    · intro t pos; dsimp only; (repeat' split) <;> simp

@[simp] theorem copyBursts_mark (s : State) (c room : Nat) : (copyBursts s c room).1.mark = s.mark := by
  unfold copyBursts
  try dsimp only
  (repeat' split) <;> first
    | (simp; done)
    | (simp [apply_ite State.mark, apply_ite Prod.fst]; done)
    | (rw [foldl_mark]; (try simp); intro t a; try dsimp only; (repeat' split) <;> simp [apply_ite State.mark])
    | (rw [foldl_mark_pair]; (try simp); intro t a; try dsimp only; (repeat' split) <;> simp [apply_ite State.mark, apply_ite Prod.fst])

@[simp] theorem recentreStep_mark (s : State) (c room : Nat) : (recentreStep s c room).1.mark = s.mark := by
  unfold recentreStep
  dsimp only
  (repeat' split) <;> simp

@[simp] theorem reachChannel_mark (s : State) (c : Nat) : (reachChannel s c).mark = s.mark := by
  unfold reachChannel
  dsimp only
  split <;> simp

@[simp] theorem channelStrike_mark (s : State) (c n : Nat) : (channelStrike s c n).mark = s.mark := by
  unfold channelStrike
  dsimp only
  (repeat' split) <;> simp

@[simp] theorem channelStrikes_mark (s : State) (n : Nat) : (channelStrikes s n).mark = s.mark := by
  unfold channelStrikes
  simp

@[simp] theorem unitWork_mark (s : State) (id p k : Nat) : (unitWork s id p k).mark = s.mark := by
  unfold unitWork
  try dsimp only
  (repeat' split) <;> first
    | (simp; done)
    | (simp [apply_ite State.mark, apply_ite Prod.fst]; done)
    | (rw [foldl_mark]; (try simp); intro t a; try dsimp only; (repeat' split) <;> simp [apply_ite State.mark])
    | (rw [foldl_mark_pair]; (try simp); intro t a; try dsimp only; (repeat' split) <;> simp [apply_ite State.mark, apply_ite Prod.fst])

@[simp] theorem keystoneWork_mark (s : State) (id k : Nat) : (keystoneWork s id k).mark = s.mark := by
  unfold keystoneWork
  try dsimp only
  (repeat' split) <;> first
    | (simp; done)
    | (simp [apply_ite State.mark, apply_ite Prod.fst]; done)
    | (rw [foldl_mark]; (try simp); intro t a; try dsimp only; (repeat' split) <;> simp [apply_ite State.mark])
    | (rw [foldl_mark_pair]; (try simp); intro t a; try dsimp only; (repeat' split) <;> simp [apply_ite State.mark, apply_ite Prod.fst])

@[simp] theorem courseParity_mark (s : State) (id budget : Nat) : (courseParity s id budget).1.mark = s.mark := by
  unfold courseParity
  (repeat' split) <;> simp

@[simp] theorem spendRebuilds_mark (s : State) (e budget : Nat) (p : RebuildOf → Bool) : (spendRebuilds s e budget p).1.mark = s.mark := by
  unfold spendRebuilds
  try dsimp only
  (repeat' split) <;> first
    | (simp; done)
    | (simp [apply_ite State.mark, apply_ite Prod.fst]; done)
    | (rw [foldl_mark]; (try simp); intro t a; try dsimp only; (repeat' split) <;> simp [apply_ite State.mark])
    | (rw [foldl_mark_pair]; (try simp); intro t a; try dsimp only; (repeat' split) <;> simp [apply_ite State.mark, apply_ite Prod.fst])

@[simp] theorem spendDests_mark (s : State) (e budget : Nat) : (spendDests s e budget).1.mark = s.mark := by
  unfold spendDests
  try dsimp only
  (repeat' split) <;> first
    | (simp; done)
    | (simp [apply_ite State.mark, apply_ite Prod.fst]; done)
    | (rw [foldl_mark]; (try simp); intro t a; try dsimp only; (repeat' split) <;> simp [apply_ite State.mark])
    | (rw [foldl_mark_pair]; (try simp); intro t a; try dsimp only; (repeat' split) <;> simp [apply_ite State.mark, apply_ite Prod.fst])

@[simp] theorem engineStrike_mark (s : State) (e n : Nat) : (engineStrike s e n).1.mark = s.mark := by
  unfold engineStrike
  dsimp only
  (repeat' split) <;> simp

@[simp] theorem parityStrikes_mark (s : State) (n : Nat) : (parityStrikes s n).mark = s.mark := by
  unfold parityStrikes
  dsimp only
  (repeat' split) <;> simp

@[simp] theorem makeResident_mark (s : State) (n : Nat) : (makeResident s n).mark = s.mark := by
  unfold makeResident
  dsimp only
  (repeat' split) <;> simp

@[simp] theorem startRow_mark (s : State) (id : Nat) (c : Course) : (startRow s id c).mark = s.mark := by
  unfold startRow
  (repeat' split) <;> simp

theorem execRowDataInStart_mark (course : Nat) (s : State) : (execRowDataInStart course s).Marked s := by
  unfold execRowDataInStart
  (repeat' split) <;> first | trivial | (refine stepIf_mark ?_; simp; done)

/-! ## Mends -/

@[simp] theorem openDev_mark (s : State) (d : DevRead) : (openDev s d).mark = s.mark := by
  unfold openDev
  try dsimp only
  (repeat' split) <;> first
    | (simp; done)
    | (simp [apply_ite State.mark, apply_ite Prod.fst]; done)
    | (rw [foldl_mark]; (try simp); intro t a; try dsimp only; (repeat' split) <;> simp [apply_ite State.mark])
    | (rw [foldl_mark_pair]; (try simp); intro t a; try dsimp only; (repeat' split) <;> simp [apply_ite State.mark, apply_ite Prod.fst])

@[simp] theorem copyPage_mark (s : State) (use : DevUse) (id page : Nat) : (copyPage s use id page).mark = s.mark := by
  unfold copyPage
  try dsimp only
  (repeat' split) <;> first
    | (simp; done)
    | (simp [apply_ite State.mark, apply_ite Prod.fst]; done)
    | (rw [foldl_mark]; (try simp); intro t a; try dsimp only; (repeat' split) <;> simp [apply_ite State.mark])
    | (rw [foldl_mark_pair]; (try simp); intro t a; try dsimp only; (repeat' split) <;> simp [apply_ite State.mark, apply_ite Prod.fst])

theorem planPage_mark (s : State) (use : DevUse) (id page : Nat) (l : List Cw) :
    ∀ p, planPage s use id page l = some p → p.mark = s.mark := by
  intro p h
  unfold planPage at h
  simp only [Option.map_eq_some_iff] at h
  obtain ⟨r, hr, rfl⟩ := h
  simp only [openDev_mark]
  revert hr
  suffices ∀ q : Option (State × List RdPart), (∀ x, q = some x → x.1.mark = s.mark) → ∀ who,
      l.foldl (fun r x => match r with
        | none => none
        | some (t, ps) => (planDirect t t.tb.count who ps.length x ps.getLast?).map fun p => (p.s, ps ++ p.parts)) q = some r →
      r.1.mark = s.mark by
    exact fun h => this _ (by simp) _ h
  induction l with
  | nil => exact fun q hq who h => hq _ h
  | cons a l ih =>
    intro q hq who h
    rw [List.foldl_cons] at h
    refine ih _ ?_ who h
    intro x hx
    cases q with
    | none => simp at hx
    | some v =>
      simp only [Option.map_eq_some_iff] at hx
      obtain ⟨y, hy, rfl⟩ := hx
      exact (planDirect_mark _ _ _ _ _ _ _ hy).trans (hq _ rfl)

@[simp] theorem endDevs_mark (s : State) (use : DevUse) : (endDevs s use).mark = s.mark := by
  unfold endDevs
  try dsimp only
  (repeat' split) <;> first
    | (simp; done)
    | (simp [apply_ite State.mark, apply_ite Prod.fst]; done)
    | (rw [foldl_mark]; (try simp); intro t a; try dsimp only; (repeat' split) <;> simp [apply_ite State.mark])
    | (rw [foldl_mark_pair]; (try simp); intro t a; try dsimp only; (repeat' split) <;> simp [apply_ite State.mark, apply_ite Prod.fst])

@[simp] theorem pruneDevs_mark (s : State) : (pruneDevs s).mark = s.mark := by
  unfold pruneDevs
  try dsimp only
  (repeat' split) <;> first
    | (simp; done)
    | (simp [apply_ite State.mark, apply_ite Prod.fst]; done)
    | (rw [foldl_mark]; (try simp); intro t a; try dsimp only; (repeat' split) <;> simp [apply_ite State.mark])
    | (rw [foldl_mark_pair]; (try simp); intro t a; try dsimp only; (repeat' split) <;> simp [apply_ite State.mark, apply_ite Prod.fst])

@[simp] theorem mergeStep_mark (s : State) (rid : Nat) : (mergeStep s rid).mark = s.mark := by
  unfold mergeStep
  split
  · rfl
  · split
    · rename_i q _ w n _ _
      have h : ∀ (l : List (Nat × Nat)) (f : Nat × Nat → List Cw),
          ((l.foldl (fun r p => r.bind fun t => planPage t (.merge rid) p.1 p.2 (f p)) (some s)).getD s).mark = s.mark := by
        intro l f
        cases hp : l.foldl (fun r p => r.bind fun t => planPage t (.merge rid) p.1 p.2 (f p)) (some s) with
        | none => rfl
        | some p => exact foldl_bind_mark (fun t (p : Nat × Nat) => planPage t (.merge rid) p.1 p.2 (f p))
                      (fun t a u hu => planPage_mark _ _ _ _ _ _ hu) l s p hp
      dsimp only
      (repeat' split) <;> first | (simp; done) | exact h _ _
    · rfl

@[simp] theorem mergeStrike_mark (s : State) : (mergeStrike s).mark = s.mark := by
  unfold mergeStrike
  try dsimp only
  (repeat' split) <;> first
    | (simp; done)
    | (simp [apply_ite State.mark, apply_ite Prod.fst]; done)
    | (rw [foldl_mark]; (try simp); intro t a; try dsimp only; (repeat' split) <;> simp [apply_ite State.mark])
    | (rw [foldl_mark_pair]; (try simp); intro t a; try dsimp only; (repeat' split) <;> simp [apply_ite State.mark, apply_ite Prod.fst])

@[simp] theorem takePage_mark (s : State) (n : Namespace) (nsid dom : Nat) (d : DevRead) : (takePage s n nsid dom d).1.mark = s.mark := by
  unfold takePage
  split
  · rfl
  · refine foldl_mark_pair _ (fun t a => ?_) _ _
    split
    · dsimp only; split <;> simp
    · rfl

@[simp] theorem collectStep_mark (s : State) (nsid dom : Nat) : (collectStep s nsid dom).mark = s.mark := by
  unfold collectStep
  try dsimp only
  (repeat' split) <;> first
    | (simp; done)
    | (simp [apply_ite State.mark, apply_ite Prod.fst]; done)
    | (rw [foldl_mark]; (try simp); intro t a; try dsimp only; (repeat' split) <;> simp [apply_ite State.mark])
    | (rw [foldl_mark_pair]; (try simp); intro t a; try dsimp only; (repeat' split) <;> simp [apply_ite State.mark, apply_ite Prod.fst])

theorem replaceUnit_mark (s : State) (n : Namespace) (nsid dom u : Nat) (src : UnitAt) :
    ∀ p, replaceUnit s n nsid dom u src = some p → p.mark = s.mark := by
  intro p h
  unfold replaceUnit at h
  simp only [Option.map_eq_some_iff] at h
  obtain ⟨r, hr, rfl⟩ := h
  have hm := collectUnit_mark _ _ _ _ _ _ _ hr
  (repeat' split) <;> simp [hm]

@[simp] theorem recopyStep_mark (s : State) (nsid dom : Nat) : (recopyStep s nsid dom).mark = s.mark := by
  unfold recopyStep
  split
  · rfl
  · rw [foldl_mark]
    intro t e
    split
    · simp
    · dsimp only
      split
      · rename_i h
        have hm := foldl_bind_mark _ (fun t (x : Nat × Nat) u hu => replaceUnit_mark _ _ _ _ _ _ _ hu) _ _ _ h
        simp [hm]
      · rfl

@[simp] theorem holeStep_mark (s : State) (id : Nat) : (holeStep s id).mark = s.mark := by
  unfold holeStep
  try dsimp only
  (repeat' split) <;> first
    | (simp; done)
    | (simp [apply_ite State.mark, apply_ite Prod.fst]; done)
    | (rw [foldl_mark]; (try simp); intro t a; try dsimp only; (repeat' split) <;> simp [apply_ite State.mark])
    | (rw [foldl_mark_pair]; (try simp); intro t a; try dsimp only; (repeat' split) <;> simp [apply_ite State.mark, apply_ite Prod.fst])

@[simp] theorem migrateStep_mark (s : State) (dest : Nat) : (migrateStep s dest).mark = s.mark := by
  unfold migrateStep
  try dsimp only
  (repeat' split) <;> first
    | (simp; done)
    | (simp [apply_ite State.mark, apply_ite Prod.fst]; done)
    | (rw [foldl_mark]; (try simp); intro t a; try dsimp only; (repeat' split) <;> simp [apply_ite State.mark])
    | (rw [foldl_mark_pair]; (try simp); intro t a; try dsimp only; (repeat' split) <;> simp [apply_ite State.mark, apply_ite Prod.fst])

@[simp] theorem cutMigration_mark (s : State) (nsid k : Nat) : (cutMigration s nsid k).mark = s.mark := by
  unfold cutMigration
  try dsimp only
  (repeat' split) <;> first
    | (simp; done)
    | (simp [apply_ite State.mark, apply_ite Prod.fst]; done)
    | (rw [foldl_mark]; (try simp); intro t a; try dsimp only; (repeat' split) <;> simp [apply_ite State.mark])
    | (rw [foldl_mark_pair]; (try simp); intro t a; try dsimp only; (repeat' split) <;> simp [apply_ite State.mark, apply_ite Prod.fst])

@[simp] theorem migrationStrike_mark (s : State) : (migrationStrike s).mark = s.mark := by
  unfold migrationStrike
  rw [foldl_mark]
  intro t e
  (repeat' split) <;> simp

theorem execMigrationCutover_mark (course : Nat) (s : State) : (execMigrationCutover course s).Marked s := by
  unfold execMigrationCutover
  dsimp only
  (repeat' split) <;> first
    | trivial
    | (refine stepIf_mark ?_; simp; done)
    | (refine next_mark ?_; simp; done)
    | (refine stepIf_mark ?_; (repeat' split) <;> simp <;> done)
    | (refine next_mark ?_; (repeat' split) <;> simp <;> done)

@[simp] theorem dropMigration_mark (s : State) (dest : Nat) : (dropMigration s dest).mark = s.mark := by
  unfold dropMigration
  try dsimp only
  (repeat' split) <;> first
    | (simp; done)
    | (simp [apply_ite State.mark, apply_ite Prod.fst]; done)
    | (rw [foldl_mark]; (try simp); intro t a; try dsimp only; (repeat' split) <;> simp [apply_ite State.mark])
    | (rw [foldl_mark_pair]; (try simp); intro t a; try dsimp only; (repeat' split) <;> simp [apply_ite State.mark, apply_ite Prod.fst])

@[simp] theorem startMends_mark (s : State) (id : Nat) : (startMends s id).mark = s.mark := by
  unfold startMends
  refine foldl_mark _ (fun t e => ?_) _ _
  dsimp only
  (repeat' split) <;> simp

@[simp] theorem markFailing_mark (s : State) (a : Nat) : (markFailing s a).mark = s.mark := by
  unfold markFailing
  dsimp only
  (repeat' split) <;> simp

@[simp] theorem dropMend_mark (s : State) (id pos : Nat) : (dropMend s id pos).mark = s.mark := by
  unfold dropMend
  try dsimp only
  (repeat' split) <;> first
    | (simp; done)
    | (simp [apply_ite State.mark, apply_ite Prod.fst]; done)
    | (rw [foldl_mark]; (try simp); intro t a; try dsimp only; (repeat' split) <;> simp [apply_ite State.mark])
    | (rw [foldl_mark_pair]; (try simp); intro t a; try dsimp only; (repeat' split) <;> simp [apply_ite State.mark, apply_ite Prod.fst])

@[simp] theorem remend_mark (s : State) (id pos : Nat) (cause : Nat) : (remend s id pos cause).mark = s.mark := by
  unfold remend
  try dsimp only
  (repeat' split) <;> first
    | (simp; done)
    | (simp [apply_ite State.mark, apply_ite Prod.fst]; done)
    | (rw [foldl_mark]; (try simp); intro t a; try dsimp only; (repeat' split) <;> simp [apply_ite State.mark])
    | (rw [foldl_mark_pair]; (try simp); intro t a; try dsimp only; (repeat' split) <;> simp [apply_ite State.mark, apply_ite Prod.fst])

@[simp] theorem unrecover_mark (s : State) (slab : Nat) (ks : List Nat) : (unrecover s slab ks).mark = s.mark := by
  unfold unrecover
  simp

@[simp] theorem losePages_mark (s : State) (id : Nat) (l : List Nat) : (losePages s id l).mark = s.mark := by
  unfold losePages
  try dsimp only
  (repeat' split) <;> first
    | (simp; done)
    | (simp [apply_ite State.mark, apply_ite Prod.fst]; done)
    | (rw [foldl_mark]; (try simp); intro t a; try dsimp only; (repeat' split) <;> simp [apply_ite State.mark])
    | (rw [foldl_mark_pair]; (try simp); intro t a; try dsimp only; (repeat' split) <;> simp [apply_ite State.mark, apply_ite Prod.fst])

@[simp] theorem mendSend_mark (s : State) (id pos : Nat) : (mendSend s id pos).mark = s.mark := by
  unfold mendSend
  try dsimp only
  (repeat' split) <;> first
    | (simp; done)
    | (simp [apply_ite State.mark, apply_ite Prod.fst]; done)
    | (rw [foldl_mark]; (try simp); intro t a; try dsimp only; (repeat' split) <;> simp [apply_ite State.mark])
    | (rw [foldl_mark_pair]; (try simp); intro t a; try dsimp only; (repeat' split) <;> simp [apply_ite State.mark, apply_ite Prod.fst])

@[simp] theorem mendRebuild_mark (s : State) (id : Nat) (c : Course) (m : Mend) : (mendRebuild s id c m).mark = s.mark := by
  unfold mendRebuild
  try dsimp only
  (repeat' split) <;> first
    | (simp; done)
    | (simp [apply_ite State.mark, apply_ite Prod.fst]; done)
    | (rw [foldl_mark]; (try simp); intro t a; try dsimp only; (repeat' split) <;> simp [apply_ite State.mark])
    | (rw [foldl_mark_pair]; (try simp); intro t a; try dsimp only; (repeat' split) <;> simp [apply_ite State.mark, apply_ite Prod.fst])

@[simp] theorem mendRebuilt_mark (s : State) (id : Nat) (c : Course) (m : Mend) : (mendRebuilt s id c m).mark = s.mark := by
  unfold mendRebuilt
  try dsimp only
  (repeat' split) <;> first
    | (simp; done)
    | (simp [apply_ite State.mark, apply_ite Prod.fst]; done)
    | (rw [foldl_mark]; (try simp); intro t a; try dsimp only; (repeat' split) <;> simp [apply_ite State.mark])
    | (rw [foldl_mark_pair]; (try simp); intro t a; try dsimp only; (repeat' split) <;> simp [apply_ite State.mark, apply_ite Prod.fst])

@[simp] theorem mendStep_mark (s : State) (id : Nat) (m : Mend) : (mendStep s id m).mark = s.mark := by
  unfold mendStep
  try dsimp only
  (repeat' split) <;> first
    | (simp; done)
    | (simp [apply_ite State.mark, apply_ite Prod.fst]; done)
    | (rw [foldl_mark]; (try simp); intro t a; try dsimp only; (repeat' split) <;> simp [apply_ite State.mark])
    | (rw [foldl_mark_pair]; (try simp); intro t a; try dsimp only; (repeat' split) <;> simp [apply_ite State.mark, apply_ite Prod.fst])

@[simp] theorem cutMend_mark (s : State) (id : Nat) (c : Course) (m : Mend) : (cutMend s id c m).mark = s.mark := by
  unfold cutMend
  dsimp only
  simp only [spareCheck_mark, releaseSlabs_mark, bump_mark, setSlab_mark, apply_ite State.mark, setZone_mark, setCourse_mark,
    setDie_mark, ite_self]

theorem execMendCutover_mark (course : Nat) (s : State) : (execMendCutover course s).Marked s := by
  unfold execMendCutover
  (repeat' split) <;> first | trivial | (refine stepIf_mark ?_; simp; done)

@[simp] theorem recopyStaged_mark (s : State) (n : Namespace) (nsid dom id : Nat) (h : Nat × Nat × Option Nat) : (recopyStaged s n nsid dom id h).mark = s.mark := by
  unfold recopyStaged
  split
  · dsimp only
    rw [foldl_mark]
    intro t x
    split
    · rfl
    · rename_i h
      have hm := collectUnit_mark _ _ _ _ _ _ _ h
      (repeat' split) <;> simp [hm, apply_ite State.mark]
  · rfl

@[simp] theorem replaceCollect_mark (s : State) (id pos : Nat) (c : Course) : (replaceCollect s id pos c).mark = s.mark := by
  unfold replaceCollect
  dsimp only
  (repeat' split) <;> simp [apply_ite State.mark]

@[simp] theorem failUnit_mark (s : State) (id pos : Nat) (mend : Bool) : (failUnit s id pos mend).mark = s.mark := by
  unfold failUnit
  try dsimp only
  (repeat' split) <;> first
    | (simp; done)
    | (simp [apply_ite State.mark, apply_ite Prod.fst]; done)
    | (rw [foldl_mark]; (try simp); intro t a; try dsimp only; (repeat' split) <;> simp [apply_ite State.mark])
    | (rw [foldl_mark_pair]; (try simp); intro t a; try dsimp only; (repeat' split) <;> simp [apply_ite State.mark, apply_ite Prod.fst])

@[simp] theorem startMove_mark (s : State) (id : Nat) : (startMove s id).mark = s.mark := by
  unfold startMove
  (repeat' split) <;> simp

@[simp] theorem wearMove_mark (s : State) (d : Nat) : (wearMove s d).mark = s.mark := by
  unfold wearMove
  dsimp only
  (repeat' split) <;> simp

@[simp] theorem wearCheck_mark (s : State) (d : Nat) : (wearCheck s d).mark = s.mark := by
  unfold wearCheck
  simp

@[simp] theorem mendStrike_mark (s : State) : (mendStrike s).mark = s.mark := by
  unfold mendStrike
  dsimp only
  rw [foldl_mark, foldl_mark]
  · intro t id; (repeat' split) <;> simp
  · intro t id
    split
    · rw [foldl_mark]; intro u m; simp
    · rfl

@[simp] theorem copyStrikes_mark (s : State) : (copyStrikes s).mark = s.mark := by
  unfold copyStrikes
  dsimp only
  rw [mendStrike_mark, foldl_mark, foldl_mark]
  · simp
  · intro t e; simp
  · intro t e; (repeat' split) <;> simp

/-! ## Journal -/

@[simp] theorem setJrn_mark (s : State) (j : Journal) : (setJrn s j).mark = s.mark := by
  unfold setJrn
  try dsimp only
  (repeat' split) <;> first
    | (simp; done)
    | (simp [apply_ite State.mark, apply_ite Prod.fst]; done)
    | (rw [foldl_mark]; (try simp); intro t a; try dsimp only; (repeat' split) <;> simp [apply_ite State.mark])
    | (rw [foldl_mark_pair]; (try simp); intro t a; try dsimp only; (repeat' split) <;> simp [apply_ite State.mark, apply_ite Prod.fst])

@[simp] theorem journalStage_mark (s : State) : (journalStage s).mark = s.mark := by
  unfold journalStage
  try dsimp only
  (repeat' split) <;> first
    | (simp; done)
    | (simp [apply_ite State.mark, apply_ite Prod.fst]; done)
    | (rw [foldl_mark]; (try simp); intro t a; try dsimp only; (repeat' split) <;> simp [apply_ite State.mark])
    | (rw [foldl_mark_pair]; (try simp); intro t a; try dsimp only; (repeat' split) <;> simp [apply_ite State.mark, apply_ite Prod.fst])

@[simp] theorem journalSend_mark (s : State) : (journalSend s).mark = s.mark := by
  unfold journalSend
  try dsimp only
  (repeat' split) <;> first
    | (simp; done)
    | (simp [apply_ite State.mark, apply_ite Prod.fst]; done)
    | (rw [foldl_mark]; (try simp); intro t a; try dsimp only; (repeat' split) <;> simp [apply_ite State.mark])
    | (rw [foldl_mark_pair]; (try simp); intro t a; try dsimp only; (repeat' split) <;> simp [apply_ite State.mark, apply_ite Prod.fst])

@[simp] theorem ringErase_mark (s : State) (a : Nat) : (ringErase s a).mark = s.mark := by
  unfold ringErase
  try dsimp only
  (repeat' split) <;> first
    | (simp; done)
    | (simp [apply_ite State.mark, apply_ite Prod.fst]; done)
    | (rw [foldl_mark]; (try simp); intro t a; try dsimp only; (repeat' split) <;> simp [apply_ite State.mark])
    | (rw [foldl_mark_pair]; (try simp); intro t a; try dsimp only; (repeat' split) <;> simp [apply_ite State.mark, apply_ite Prod.fst])

@[simp] theorem journalCollect_mark (s : State) : (journalCollect s).mark = s.mark := by
  unfold journalCollect
  try dsimp only
  (repeat' split) <;> first
    | (simp; done)
    | (simp [apply_ite State.mark, apply_ite Prod.fst]; done)
    | (rw [foldl_mark]; (try simp); intro t a; try dsimp only; (repeat' split) <;> simp [apply_ite State.mark])
    | (rw [foldl_mark_pair]; (try simp); intro t a; try dsimp only; (repeat' split) <;> simp [apply_ite State.mark, apply_ite Prod.fst])

@[simp] theorem journalDone_mark (s : State) : (journalDone s).mark = s.mark := by
  unfold journalDone
  try dsimp only
  (repeat' split) <;> first
    | (simp; done)
    | (simp [apply_ite State.mark, apply_ite Prod.fst]; done)
    | (rw [foldl_mark]; (try simp); intro t a; try dsimp only; (repeat' split) <;> simp [apply_ite State.mark])
    | (rw [foldl_mark_pair]; (try simp); intro t a; try dsimp only; (repeat' split) <;> simp [apply_ite State.mark, apply_ite Prod.fst])

@[simp] theorem journalCheckpoint_mark (s : State) : (journalCheckpoint s).mark = s.mark := by
  unfold journalCheckpoint
  try dsimp only
  (repeat' split) <;> first
    | (simp; done)
    | (simp [apply_ite State.mark, apply_ite Prod.fst]; done)
    | (rw [foldl_mark]; (try simp); intro t a; try dsimp only; (repeat' split) <;> simp [apply_ite State.mark])
    | (rw [foldl_mark_pair]; (try simp); intro t a; try dsimp only; (repeat' split) <;> simp [apply_ite State.mark, apply_ite Prod.fst])

@[simp] theorem journalStrike_mark (s : State) : (journalStrike s).mark = s.mark := by
  unfold journalStrike
  try dsimp only
  (repeat' split) <;> first
    | (simp; done)
    | (simp [apply_ite State.mark, apply_ite Prod.fst]; done)
    | (rw [foldl_mark]; (try simp); intro t a; try dsimp only; (repeat' split) <;> simp [apply_ite State.mark])
    | (rw [foldl_mark_pair]; (try simp); intro t a; try dsimp only; (repeat' split) <;> simp [apply_ite State.mark, apply_ite Prod.fst])

@[simp] theorem replaceReserved_mark (s : State) (a cause : Nat) : (replaceReserved s a cause).mark = s.mark := by
  unfold replaceReserved
  try dsimp only
  (repeat' split) <;> first
    | (simp; done)
    | (simp [apply_ite State.mark, apply_ite Prod.fst]; done)
    | (rw [foldl_mark]; (try simp); intro t a; try dsimp only; (repeat' split) <;> simp [apply_ite State.mark])
    | (rw [foldl_mark_pair]; (try simp); intro t a; try dsimp only; (repeat' split) <;> simp [apply_ite State.mark, apply_ite Prod.fst])

@[simp] theorem journalFail_mark (s : State) : (journalFail s).mark = s.mark := by
  unfold journalFail
  try dsimp only
  (repeat' split) <;> first
    | (simp; done)
    | (simp [apply_ite State.mark, apply_ite Prod.fst]; done)
    | (rw [foldl_mark]; (try simp); intro t a; try dsimp only; (repeat' split) <;> simp [apply_ite State.mark])
    | (rw [foldl_mark_pair]; (try simp); intro t a; try dsimp only; (repeat' split) <;> simp [apply_ite State.mark, apply_ite Prod.fst])

@[simp] theorem ringErased_mark (s : State) (a : Nat) : (ringErased s a).mark = s.mark := by
  unfold ringErased
  try dsimp only
  (repeat' split) <;> first
    | (simp; done)
    | (simp [apply_ite State.mark, apply_ite Prod.fst]; done)
    | (rw [foldl_mark]; (try simp); intro t a; try dsimp only; (repeat' split) <;> simp [apply_ite State.mark])
    | (rw [foldl_mark_pair]; (try simp); intro t a; try dsimp only; (repeat' split) <;> simp [apply_ite State.mark, apply_ite Prod.fst])

/-! ## DieEnds -/

@[simp] theorem programDone_mark (s : State) (d : Nat) : (programDone s d).mark = s.mark := by
  unfold programDone
  dsimp only
  (repeat' split) <;> simp

theorem execProgramDone_mark (die : Nat) (s : State) : (execProgramDone die s).Marked s := by
  unfold execProgramDone
  refine stepIf_mark ?_
  simp

@[simp] theorem programFailed_mark (s : State) (d : Nat) : (programFailed s d).mark = s.mark := by
  unfold programFailed
  dsimp only
  (repeat' split) <;> simp

theorem execProgramFail_mark (die : Nat) (s : State) : (execProgramFail die s).Marked s := by
  unfold execProgramFail
  refine stepIf_mark ?_
  simp

@[simp] theorem eraseDone_mark (s : State) (d : Nat) : (eraseDone s d).mark = s.mark := by
  unfold eraseDone
  dsimp only
  (repeat' split) <;> simp

theorem execEraseDone_mark (die : Nat) (s : State) : (execEraseDone die s).Marked s := by
  unfold execEraseDone
  refine stepIf_mark ?_
  simp

@[simp] theorem eraseFailed_mark (s : State) (d : Nat) : (eraseFailed s d).mark = s.mark := by
  unfold eraseFailed
  simp [apply_ite State.mark]

theorem execEraseFail_mark (die : Nat) (s : State) : (execEraseFail die s).Marked s := by
  unfold execEraseFail
  refine stepIf_mark ?_
  simp

@[simp] theorem suspendDone_mark (s : State) (d : Nat) (ended : Bool) : (suspendDone s d ended).mark = s.mark := by
  unfold suspendDone
  simp

theorem execSuspendDone_mark (die : Nat) (ended : Bool) (s : State) : (execSuspendDone die ended s).Marked s := by
  unfold execSuspendDone
  refine stepIf_mark ?_
  simp

@[simp] theorem partSensed_mark (s : State) (who : Reader) (i : Nat) : (partSensed s who i).mark = s.mark := by
  unfold partSensed
  try dsimp only
  (repeat' split) <;> first
    | (simp; done)
    | (simp [apply_ite State.mark, apply_ite Prod.fst]; done)
    | (rw [foldl_mark]; (try simp); intro t a; try dsimp only; (repeat' split) <;> simp [apply_ite State.mark])
    | (rw [foldl_mark_pair]; (try simp); intro t a; try dsimp only; (repeat' split) <;> simp [apply_ite State.mark, apply_ite Prod.fst])

@[simp] theorem senseDone_mark (s : State) (d : Nat) : (senseDone s d).mark = s.mark := by
  unfold senseDone
  dsimp only
  (repeat' split) <;> simp

theorem execSenseDone_mark (die : Nat) (s : State) : (execSenseDone die s).Marked s := by
  unfold execSenseDone
  refine stepIf_mark ?_
  simp

theorem execProgramAged_mark (die : Nat) (s : State) : (execProgramAged die s).Marked s := by
  unfold execProgramAged
  dsimp only
  (repeat' split) <;> first
    | trivial
    | (refine stepIf_mark ?_; simp; done)
    | (refine next_mark ?_; simp; done)
    | (refine stepIf_mark ?_; (repeat' split) <;> simp <;> done)
    | (refine next_mark ?_; (repeat' split) <;> simp <;> done)

@[simp] theorem unitDone_mark (s : State) (id p : Nat) : (unitDone s id p).mark = s.mark := by
  unfold unitDone
  simp

@[simp] theorem verifyPass_mark (s : State) (id p : Nat) (c : Course) : (verifyPass s id p c).mark = s.mark := by
  unfold verifyPass
  (repeat' split) <;> simp

@[simp] theorem mendVerified_mark (s : State) (id p : Nat) : (mendVerified s id p).mark = s.mark := by
  unfold mendVerified
  try dsimp only
  (repeat' split) <;> first
    | (simp; done)
    | (simp [apply_ite State.mark, apply_ite Prod.fst]; done)
    | (rw [foldl_mark]; (try simp); intro t a; try dsimp only; (repeat' split) <;> simp [apply_ite State.mark])
    | (rw [foldl_mark_pair]; (try simp); intro t a; try dsimp only; (repeat' split) <;> simp [apply_ite State.mark, apply_ite Prod.fst])

@[simp] theorem verifyFailed_mark (s : State) (id p : Nat) (mend : Bool) : (verifyFailed s id p mend).mark = s.mark := by
  unfold verifyFailed
  try dsimp only
  (repeat' split) <;> first
    | (simp; done)
    | (simp [apply_ite State.mark, apply_ite Prod.fst]; done)
    | (rw [foldl_mark]; (try simp); intro t a; try dsimp only; (repeat' split) <;> simp [apply_ite State.mark])
    | (rw [foldl_mark_pair]; (try simp); intro t a; try dsimp only; (repeat' split) <;> simp [apply_ite State.mark, apply_ite Prod.fst])

theorem execVerifyPass_mark (course pos bits : Nat) (s : State) : (execVerifyPass course pos bits s).Marked s := by
  unfold execVerifyPass
  (repeat' split) <;> first | trivial | (refine stepIf_mark ?_; simp; done)

theorem execVerifyFail_mark (course pos : Nat) (s : State) : (execVerifyFail course pos s).Marked s := by
  unfold execVerifyFail
  (repeat' split) <;> first | trivial | (refine stepIf_mark ?_; simp; done)

theorem execUnitXorOutDone_mark (course pos : Nat) (s : State) : (execUnitXorOutDone course pos s).Marked s := by
  unfold execUnitXorOutDone
  (repeat' split) <;> first | trivial | (refine stepIf_mark ?_; simp; done)

@[simp] theorem settle_mark (s : State) (rid : Nat) (at_ : Nat) : (settle s rid at_).mark = s.mark := by
  unfold settle
  simp

@[simp] theorem settleReader_mark (s : State) (who : Reader) : (settleReader s who).mark = s.mark := by
  unfold settleReader
  try dsimp only
  (repeat' split) <;> first
    | (simp; done)
    | (simp [apply_ite State.mark, apply_ite Prod.fst]; done)
    | (rw [foldl_mark]; (try simp); intro t a; try dsimp only; (repeat' split) <;> simp [apply_ite State.mark])
    | (rw [foldl_mark_pair]; (try simp); intro t a; try dsimp only; (repeat' split) <;> simp [apply_ite State.mark, apply_ite Prod.fst])

@[simp] theorem reachSoft_mark (s : State) : (reachSoft s).mark = s.mark := by
  unfold reachSoft
  simp

@[simp] theorem leaveSoft_mark (s : State) (who : Reader) (i : Nat) : (leaveSoft s who i).mark = s.mark := by
  unfold leaveSoft
  try dsimp only
  (repeat' split) <;> first
    | (simp; done)
    | (simp [apply_ite State.mark, apply_ite Prod.fst]; done)
    | (rw [foldl_mark]; (try simp); intro t a; try dsimp only; (repeat' split) <;> simp [apply_ite State.mark])
    | (rw [foldl_mark_pair]; (try simp); intro t a; try dsimp only; (repeat' split) <;> simp [apply_ite State.mark, apply_ite Prod.fst])

@[simp] theorem ladderEnd_mark (s : State) (who : Reader) (i : Nat) (x : RdPart) : (ladderEnd s who i x).mark = s.mark := by
  unfold ladderEnd
  try dsimp only
  (repeat' split) <;> first
    | (simp; done)
    | (simp [apply_ite State.mark, apply_ite Prod.fst]; done)
    | (rw [foldl_mark]; (try simp); intro t a; try dsimp only; (repeat' split) <;> simp [apply_ite State.mark])
    | (rw [foldl_mark_pair]; (try simp); intro t a; try dsimp only; (repeat' split) <;> simp [apply_ite State.mark, apply_ite Prod.fst])

@[simp] theorem ladderMove_mark (s : State) (who : Reader) (i : Nat) (x : RdPart) (l : Ladder) : (ladderMove s who i x l).mark = s.mark := by
  unfold ladderMove
  try dsimp only
  (repeat' split) <;> first
    | (simp; done)
    | (simp [apply_ite State.mark, apply_ite Prod.fst]; done)
    | (rw [foldl_mark]; (try simp); intro t a; try dsimp only; (repeat' split) <;> simp [apply_ite State.mark])
    | (rw [foldl_mark_pair]; (try simp); intro t a; try dsimp only; (repeat' split) <;> simp [apply_ite State.mark, apply_ite Prod.fst])

@[simp] theorem abandonAround_mark (s : State) (rid : Nat) : (abandonAround s rid).mark = s.mark := by
  unfold abandonAround
  simp

@[simp] theorem decodeFail_mark (s : State) (who : Reader) (i : Nat) (x : RdPart) (parchk : Bool) : (decodeFail s who i x parchk).mark = s.mark := by
  unfold decodeFail
  try dsimp only
  (repeat' split) <;> first
    | (simp; done)
    | (simp [apply_ite State.mark, apply_ite Prod.fst]; done)
    | (rw [foldl_mark]; (try simp); intro t a; try dsimp only; (repeat' split) <;> simp [apply_ite State.mark])
    | (rw [foldl_mark_pair]; (try simp); intro t a; try dsimp only; (repeat' split) <;> simp [apply_ite State.mark, apply_ite Prod.fst])

@[simp] theorem decodeOk_mark (s : State) (who : Reader) (i : Nat) (x : RdPart) (bits : Nat) : (decodeOk s who i x bits).mark = s.mark := by
  unfold decodeOk
  try dsimp only
  (repeat' split) <;> first
    | (simp; done)
    | (simp [apply_ite State.mark, apply_ite Prod.fst]; done)
    | (rw [foldl_mark]; (try simp); intro t a; try dsimp only; (repeat' split) <;> simp [apply_ite State.mark])
    | (rw [foldl_mark_pair]; (try simp); intro t a; try dsimp only; (repeat' split) <;> simp [apply_ite State.mark, apply_ite Prod.fst])

@[simp] theorem decodeRead_mark (s : State) (e : StrikeEnv) (who : Reader) (parchk : Bool) : (decodeRead s e who parchk).mark = s.mark := by
  unfold decodeRead
  dsimp only
  rw [foldl_mark]
  intro t y
  (repeat' split) <;> simp

@[simp] theorem runSeg_mark (s : State) (rid i n : Nat) (x : RdPart) : (runSeg s rid i n x).mark = s.mark := by
  unfold runSeg
  try dsimp only
  (repeat' split) <;> first
    | (simp; done)
    | (simp [apply_ite State.mark, apply_ite Prod.fst]; done)
    | (rw [foldl_mark]; (try simp); intro t a; try dsimp only; (repeat' split) <;> simp [apply_ite State.mark])
    | (rw [foldl_mark_pair]; (try simp); intro t a; try dsimp only; (repeat' split) <;> simp [apply_ite State.mark, apply_ite Prod.fst])

@[simp] theorem runSegs_mark (s : State) (rid : Nat) : (runSegs s rid).mark = s.mark := by
  unfold runSegs
  try dsimp only
  (repeat' split) <;> first
    | (simp; done)
    | (simp [apply_ite State.mark, apply_ite Prod.fst]; done)
    | (rw [foldl_mark]; (try simp); intro t a; try dsimp only; (repeat' split) <;> simp [apply_ite State.mark])
    | (rw [foldl_mark_pair]; (try simp); intro t a; try dsimp only; (repeat' split) <;> simp [apply_ite State.mark, apply_ite Prod.fst])

@[simp] theorem aroundRead_mark (s : State) (rid : Nat) : (aroundRead s rid).mark = s.mark := by
  unfold aroundRead
  (repeat' split) <;> simp

@[simp] theorem decodeAll_mark (s : State) (e : StrikeEnv) : (decodeAll s e).mark = s.mark := by
  unfold decodeAll
  rw [foldl_mark]
  intro t w
  split <;> simp

theorem senses_mark (d : Nat) (who : Reader) (i : Nat) (l : List Nat) (s : State) (a b : Nat) :
    ∀ p, l.foldl (fun (r : Option (Nat × Nat × State)) _ => r.bind fun t =>
      planSense t.2.2 d t.2.2.tb.count who i) (some (a, b, s)) = some p → p.2.2.mark = s.mark := by
  suffices ∀ r : Option (Nat × Nat × State), (∀ p, r = some p → p.2.2.mark = s.mark) →
      ∀ p, l.foldl (fun (r : Option (Nat × Nat × State)) _ => r.bind fun t =>
        planSense t.2.2 d t.2.2.tb.count who i) r = some p → p.2.2.mark = s.mark by
    exact this _ (by simp)
  induction l with
  | nil => exact fun r h => h
  | cons a l ih =>
    intro r hr p hp
    rw [List.foldl_cons] at hp
    refine ih _ ?_ p hp
    intro q hq
    cases r with
    | none => simp at hq
    | some t => exact (planSense_mark _ _ _ _ _ _ hq).trans (hr _ rfl)

@[simp] theorem ladderSense_mark (s : State) (who : Reader) (i : Nat) (x : RdPart) : (ladderSense s who i x).mark = s.mark := by
  unfold ladderSense
  dsimp only
  split
  · rfl
  · rename_i h
    simp [senses_mark _ _ _ _ _ _ _ _ h]

@[simp] theorem rebuildStart_mark (s : State) (who : Reader) (i : Nat) (x : RdPart) : (rebuildStart s who i x).mark = s.mark := by
  unfold rebuildStart
  dsimp only
  split
  · simp
  · split
    · rename_i h
      have hm := foldl_bind_mark _ (fun t (p : Nat) u hu => planPage_mark _ _ _ _ _ _ hu) _ _ _ h
      simp [hm]
    · rfl

@[simp] theorem ladderPart_mark (s : State) (who : Reader) (i : Nat) (x : RdPart) : (ladderPart s who i x).mark = s.mark := by
  unfold ladderPart
  try dsimp only
  (repeat' split) <;> first
    | (simp; done)
    | (simp [apply_ite State.mark, apply_ite Prod.fst]; done)
    | (rw [foldl_mark]; (try simp); intro t a; try dsimp only; (repeat' split) <;> simp [apply_ite State.mark])
    | (rw [foldl_mark_pair]; (try simp); intro t a; try dsimp only; (repeat' split) <;> simp [apply_ite State.mark, apply_ite Prod.fst])

@[simp] theorem ladderStrike_mark (s : State) : (ladderStrike s).mark = s.mark := by
  unfold ladderStrike
  try dsimp only
  (repeat' split) <;> first
    | (simp; done)
    | (simp [apply_ite State.mark, apply_ite Prod.fst]; done)
    | (rw [foldl_mark]; (try simp); intro t a; try dsimp only; (repeat' split) <;> simp [apply_ite State.mark])
    | (rw [foldl_mark_pair]; (try simp); intro t a; try dsimp only; (repeat' split) <;> simp [apply_ite State.mark, apply_ite Prod.fst])

@[simp] theorem ladderFound_mark (s : State) (who : Reader) (i : Nat) (x : RdPart) : (ladderFound s who i x).mark = s.mark := by
  unfold ladderFound
  try dsimp only
  (repeat' split) <;> first
    | (simp; done)
    | (simp [apply_ite State.mark, apply_ite Prod.fst]; done)
    | (rw [foldl_mark]; (try simp); intro t a; try dsimp only; (repeat' split) <;> simp [apply_ite State.mark])
    | (rw [foldl_mark_pair]; (try simp); intro t a; try dsimp only; (repeat' split) <;> simp [apply_ite State.mark, apply_ite Prod.fst])

@[simp] theorem ladderStepDone_mark (s : State) (who : Reader) (i : Nat) (x : RdPart) (ok : Bool) : (ladderStepDone s who i x ok).mark = s.mark := by
  unfold ladderStepDone
  try dsimp only
  (repeat' split) <;> first
    | (simp; done)
    | (simp [apply_ite State.mark, apply_ite Prod.fst]; done)
    | (rw [foldl_mark]; (try simp); intro t a; try dsimp only; (repeat' split) <;> simp [apply_ite State.mark])
    | (rw [foldl_mark_pair]; (try simp); intro t a; try dsimp only; (repeat' split) <;> simp [apply_ite State.mark, apply_ite Prod.fst])

theorem execLadderStepDone_mark (who : Reader) (part : Nat) (ok : Bool) (s : State) : (execLadderStepDone who part ok s).Marked s := by
  unfold execLadderStepDone
  (repeat' split) <;> first | trivial | (refine stepIf_mark ?_; simp; done)

theorem execDieOpTimeout_mark (die : Nat) (s : State) : (execDieOpTimeout die s).Marked s := by
  unfold execDieOpTimeout
  refine stepIf_mark ?_
  simp

@[simp] theorem timeoutFailed_mark (s : State) (d : Nat) : (timeoutFailed s d).mark = s.mark := by
  unfold timeoutFailed
  dsimp only
  (repeat' split) <;> simp

@[simp] theorem lostReads_mark (s : State) (d : Nat) : (lostReads s d).mark = s.mark := by
  unfold lostReads
  rw [foldl_mark]
  intro t w
  dsimp only
  split
  · simp
  · rw [foldl_mark]
    intro u y
    (repeat' split) <;> simp

@[simp] theorem lostCourse_mark (s : State) (d id : Nat) : (lostCourse s d id).mark = s.mark := by
  unfold lostCourse
  split
  · rfl
  · dsimp only
    (repeat' split)
    all_goals first
      | (simp; done)
      | (rw [foldl_mark]
         · simp
         · intro t p; (repeat' split) <;> simp)

@[simp] theorem dieLost_mark (s : State) (d : Nat) : (dieLost s d).mark = s.mark := by
  unfold dieLost
  dsimp only
  (repeat' split) <;> simp (disch := (intros; first | (simp; done) | ((repeat' split) <;> try simp))) [apply_ite State.mark, apply_ite Prod.fst,
    apply_ite Prod.snd]

theorem execLunResetDone_mark (die : Nat) (idOk : Bool) (s : State) : (execLunResetDone die idOk s).Marked s := by
  unfold execLunResetDone
  (repeat' split) <;> first | trivial | (refine stepIf_mark ?_; simp; done)

@[simp] theorem trained_mark (s : State) (c : Nat) (rate : Option (Fin 3)) : (trained s c rate).mark = s.mark := by
  unfold trained
  (repeat' split) <;> simp [apply_ite State.mark]

theorem execChannelTrainingDone_mark (ch : Nat) (rate : Option (Fin 3)) (s : State) : (execChannelTrainingDone ch rate s).Marked s := by
  unfold execChannelTrainingDone
  refine stepIf_mark ?_
  simp

@[simp] theorem recentred_mark (s : State) (c : Nat) (narrow : Bool) : (recentred s c narrow).mark = s.mark := by
  unfold recentred
  (repeat' split) <;> simp

theorem execRecentreDone_mark (ch : Nat) (narrow : Bool) (s : State) : (execRecentreDone ch narrow s).Marked s := by
  unfold execRecentreDone
  refine stepIf_mark ?_
  simp

/-! ## Recovery -/

@[simp] theorem excludeDie_mark (s : State) (c : Nat) (e : Nat × Nat) : (excludeDie s c e).mark = s.mark := by
  unfold excludeDie
  simp

@[simp] theorem bringChannel_mark (s : State) (r : ChannelReport) : (bringChannel s r).mark = s.mark := by
  unfold bringChannel
  (repeat' split) <;> simp [apply_ite State.mark]

@[simp] theorem bringupFault_mark (s : State) (cause : Nat) : (bringupFault s cause).mark = s.mark := by
  unfold bringupFault
  simp

@[simp] theorem format_mark (s : State) (b : BootReport) : (format s b).mark = s.mark := by
  unfold format
  simp

@[simp] theorem loseFlushed_mark (s : State) (lost : List (Nat × Nat)) : (loseFlushed s lost).mark = s.mark := by
  unfold loseFlushed
  simp

@[simp] theorem loseUnflushed_mark (s : State) (lost : List (Nat × Nat)) : (loseUnflushed s lost).mark = s.mark := by
  unfold loseUnflushed
  rw [foldl_mark]
  intro t e
  split
  · rfl
  · simp only [mark_mk]
    simp

@[simp] theorem replayJournal_mark (s : State) : (replayJournal s).mark = s.mark := by
  unfold replayJournal
  try dsimp only
  (repeat' split) <;> first
    | (simp; done)
    | (simp [apply_ite State.mark, apply_ite Prod.fst]; done)
    | (rw [foldl_mark]; (try simp); intro t a; try dsimp only; (repeat' split) <;> simp [apply_ite State.mark])
    | (rw [foldl_mark_pair]; (try simp); intro t a; try dsimp only; (repeat' split) <;> simp [apply_ite State.mark, apply_ite Prod.fst])

@[simp] theorem undoCollection_mark (s : State) (k : Nat) (d : Domain) : (undoCollection s k d).mark = s.mark := by
  unfold undoCollection
  simp only [setDomain_mark]
  have h : ∀ (l : List Copy), (l.foldl (fun t x =>
      if x.mapped && unitAt t (k / 2 ^ 16) x.unit == some x.dest then setUnitAt t (k / 2 ^ 16) x.unit (some x.src) else t)
      s).mark = s.mark := by
    intro l
    rw [foldl_mark]; intro t x; split <;> simp
  (repeat' split) <;> simp only [updCourse_mark, h]

@[simp] theorem restoreData_mark (s : State) (m : FlushImage) : (restoreData s m).mark = s.mark := by
  unfold restoreData
  try dsimp only
  (repeat' split) <;> first
    | (simp; done)
    | (simp [apply_ite State.mark, apply_ite Prod.fst]; done)
    | (rw [foldl_mark]; (try simp); intro t a; try dsimp only; (repeat' split) <;> simp [apply_ite State.mark])
    | (rw [foldl_mark_pair]; (try simp); intro t a; try dsimp only; (repeat' split) <;> simp [apply_ite State.mark, apply_ite Prod.fst])

@[simp] theorem restoreSets_mark (s : State) (m : FlushImage) : (restoreSets s m).mark = s.mark := by
  unfold restoreSets
  try dsimp only
  (repeat' split) <;> first
    | (simp; done)
    | (simp [apply_ite State.mark, apply_ite Prod.fst]; done)
    | (rw [foldl_mark]; (try simp); intro t a; try dsimp only; (repeat' split) <;> simp [apply_ite State.mark])
    | (rw [foldl_mark_pair]; (try simp); intro t a; try dsimp only; (repeat' split) <;> simp [apply_ite State.mark, apply_ite Prod.fst])

@[simp] theorem backOut_mark (s : State) (id pos : Nat) : (backOut s id pos).mark = s.mark := by
  unfold backOut
  try dsimp only
  (repeat' split) <;> first
    | (simp; done)
    | (simp [apply_ite State.mark, apply_ite Prod.fst]; done)
    | (rw [foldl_mark]; (try simp); intro t a; try dsimp only; (repeat' split) <;> simp [apply_ite State.mark])
    | (rw [foldl_mark_pair]; (try simp); intro t a; try dsimp only; (repeat' split) <;> simp [apply_ite State.mark, apply_ite Prod.fst])

@[simp] theorem rebuildAtBoot_mark (s : State) (id : Nat) (pages : List Nat) : (rebuildAtBoot s id pages).mark = s.mark := by
  unfold rebuildAtBoot
  try dsimp only
  (repeat' split) <;> first
    | (simp; done)
    | (simp [apply_ite State.mark, apply_ite Prod.fst]; done)
    | (rw [foldl_mark]; (try simp); intro t a; try dsimp only; (repeat' split) <;> simp [apply_ite State.mark])
    | (rw [foldl_mark_pair]; (try simp); intro t a; try dsimp only; (repeat' split) <;> simp [apply_ite State.mark, apply_ite Prod.fst])

@[simp] theorem remakeKeystone_mark (s : State) (id : Nat) : (remakeKeystone s id).mark = s.mark := by
  unfold remakeKeystone
  try dsimp only
  (repeat' split) <;> first
    | (simp; done)
    | (simp [apply_ite State.mark, apply_ite Prod.fst]; done)
    | (rw [foldl_mark]; (try simp); intro t a; try dsimp only; (repeat' split) <;> simp [apply_ite State.mark])
    | (rw [foldl_mark_pair]; (try simp); intro t a; try dsimp only; (repeat' split) <;> simp [apply_ite State.mark, apply_ite Prod.fst])

@[simp] theorem settleCourse_mark (s : State) (id : Nat) (fails : List (Nat × Nat)) : (settleCourse s id fails).mark = s.mark := by
  unfold settleCourse
  try dsimp only
  (repeat' split) <;> first
    | (simp; done)
    | (simp [apply_ite State.mark, apply_ite Prod.fst]; done)
    | (rw [foldl_mark]; (try simp); intro t a; try dsimp only; (repeat' split) <;> simp [apply_ite State.mark])
    | (rw [foldl_mark_pair]; (try simp); intro t a; try dsimp only; (repeat' split) <;> simp [apply_ite State.mark, apply_ite Prod.fst])

@[simp] theorem recoveryFail_mark (s : State) (f : Nat × Nat) : (recoveryFail s f).mark = s.mark := by
  unfold recoveryFail
  split <;> simp

@[simp] theorem bootZoneClose_mark (s : State) : (bootZoneClose s).mark = s.mark := by
  unfold bootZoneClose
  refine foldl_mark _ (fun t e => ?_) _ _
  dsimp only
  (repeat' split) <;> simp

@[simp] theorem queueErases_mark (s : State) : (queueErases s).mark = s.mark := by
  unfold queueErases
  (repeat' split) <;> simp [apply_ite State.mark]

@[simp] theorem replayMoves_mark (s : State) : (replayMoves s).mark = s.mark := by
  unfold replayMoves
  try dsimp only
  (repeat' split) <;> first
    | (simp; done)
    | (simp [apply_ite State.mark, apply_ite Prod.fst]; done)
    | (rw [foldl_mark]; (try simp); intro t a; try dsimp only; (repeat' split) <;> simp [apply_ite State.mark])
    | (rw [foldl_mark_pair]; (try simp); intro t a; try dsimp only; (repeat' split) <;> simp [apply_ite State.mark, apply_ite Prod.fst])

@[simp] theorem replay_mark (s : State) (fails pages : List (Nat × Nat)) : (replay s fails pages).mark = s.mark := by
  unfold replay
  dsimp only
  rw [queueErases_mark, foldl_mark]
  · simp only [mark_mk]
    rw [foldl_mark, foldl_mark, foldl_mark, replayMoves_mark, foldl_mark]
    · intro t e; split <;> simp
    · intro t id; rw [foldl_mark]; intro u p; simp
    · intro t id; simp
    · intro t id; simp
  · intro t f; simp

@[simp] theorem recoverMedia_mark (s : State) (fails pages : List (Nat × Nat)) : (recoverMedia s fails pages).mark = s.mark := by
  unfold recoverMedia
  try dsimp only
  (repeat' split) <;> first
    | (simp; done)
    | (simp [apply_ite State.mark, apply_ite Prod.fst]; done)
    | (rw [foldl_mark]; (try simp); intro t a; try dsimp only; (repeat' split) <;> simp [apply_ite State.mark])
    | (rw [foldl_mark_pair]; (try simp); intro t a; try dsimp only; (repeat' split) <;> simp [apply_ite State.mark, apply_ite Prod.fst])

@[simp] theorem bringMedia_mark (s : State) (b : BootReport) : (bringMedia s b).mark = s.mark := by
  unfold bringMedia
  dsimp only
  (repeat' split) <;> simp

@[simp] theorem mediaBringup_mark (s : State) (b : BootReport) : (mediaBringup s b).mark = s.mark := by
  unfold mediaBringup
  dsimp only
  (repeat' split) <;> simp

@[simp] theorem restoreTenants_mark (s : State) : (restoreTenants s).mark = s.mark := by
  unfold restoreTenants
  simp

@[simp] theorem nsReady_mark (s : State) (p : Namespace → Bool) (v : Bool) : (nsReady s p v).mark = s.mark := by
  unfold nsReady
  simp

@[simp] theorem rearm_mark (s : State) : (rearm s).mark = s.mark := by
  unfold rearm
  try dsimp only
  (repeat' split) <;> first
    | (simp; done)
    | (simp [apply_ite State.mark, apply_ite Prod.fst]; done)
    | (rw [foldl_mark]; (try simp); intro t a; try dsimp only; (repeat' split) <;> simp [apply_ite State.mark])
    | (rw [foldl_mark_pair]; (try simp); intro t a; try dsimp only; (repeat' split) <;> simp [apply_ite State.mark, apply_ite Prod.fst])

theorem execFlushAreaRearm_mark (s : State) : (execFlushAreaRearm s).Marked s := by
  unfold execFlushAreaRearm
  refine stepIf_mark ?_
  simp

/-! ## Domains -/

@[simp] theorem powerDown_mark (s : State) (d : Nat) (mgr : Bool) : (powerDown s d mgr).mark = s.mark := by
  unfold powerDown
  (repeat' split) <;> simp

@[simp] theorem powerUp_mark (s : State) (d : Nat) : (powerUp s d).mark = s.mark := by
  unfold powerUp
  (repeat' split) <;> simp

@[simp] theorem backStrike_mark (s : State) : (backStrike s).mark = s.mark := by
  unfold backStrike
  try dsimp only
  (repeat' split) <;> first
    | (simp; done)
    | (simp [apply_ite State.mark, apply_ite Prod.fst]; done)
    | (rw [foldl_mark]; (try simp); intro t a; try dsimp only; (repeat' split) <;> simp [apply_ite State.mark])
    | (rw [foldl_mark_pair]; (try simp); intro t a; try dsimp only; (repeat' split) <;> simp [apply_ite State.mark, apply_ite Prod.fst])

@[simp] theorem idleStrike_mark (s : State) : (idleStrike s).mark = s.mark := by
  unfold idleStrike
  (repeat' split) <;> simp [apply_ite State.mark]

@[simp] theorem toleranceStrike_mark (s : State) : (toleranceStrike s).mark = s.mark := by
  unfold toleranceStrike
  (repeat' split) <;> simp [apply_ite State.mark]

theorem execAutoGateIdleExpiry_mark (dom : Nat) (s : State) : (execAutoGateIdleExpiry dom s).Marked s := by
  unfold execAutoGateIdleExpiry
  refine stepIf_mark ?_
  simp

theorem execAutoDrainDone_mark (dom : Nat) (s : State) : (execAutoDrainDone dom s).Marked s := by
  unfold execAutoDrainDone
  refine stepIf_mark ?_
  simp

theorem execDomainWakeDone_mark (dom : Nat) (s : State) : (execDomainWakeDone dom s).Marked s := by
  unfold execDomainWakeDone
  refine stepIf_mark ?_
  (repeat' split) <;> simp

@[simp] theorem domResult_mark (s : State) (d : Nat) (st : W16) : (domResult s d st).mark = s.mark := by
  unfold domResult
  simp

@[simp] theorem domainOn_mark (s : State) (d : Nat) : (domainOn s d).mark = s.mark := by
  unfold domainOn
  dsimp only
  (repeat' split) <;> simp

@[simp] theorem domainOff_mark (s : State) (d : Nat) : (domainOff s d).mark = s.mark := by
  unfold domainOff
  dsimp only
  (repeat' split) <;> simp

theorem execDomainOnRequest_mark (req : Nat) (s : State) : (execDomainOnRequest req s).Marked s := by
  unfold execDomainOnRequest
  (repeat' split) <;> first | trivial | (refine stepIf_mark ?_; simp; done)

theorem execDomainOffRequest_mark (req : Nat) (s : State) : (execDomainOffRequest req s).Marked s := by
  unfold execDomainOffRequest
  (repeat' split) <;> first | trivial | (refine stepIf_mark ?_; simp; done)

theorem execDomainDrained_mark (dom : Nat) (s : State) : (execDomainDrained dom s).Marked s := by
  unfold execDomainDrained
  refine stepIf_mark ?_
  simp

theorem execDomainDrainLimitExpiry_mark (dom : Nat) (s : State) : (execDomainDrainLimitExpiry dom s).Marked s := by
  unfold execDomainDrainLimitExpiry
  refine stepIf_mark ?_
  simp

end Sys2Proof.Machine
end

