-- ==== Sys2Proof/Laws/KeptSystem.lean ====
section
/-! SUPPORT. That the operations and commands of the registers, the boot, power, the flush, management, the memories and the Security Protocol leave the mark of a state, or keep it. -/

namespace Sys2Proof.Machine

set_option linter.all false

/-! ## Regs -/

@[simp] theorem plainWrite_mark (s : State) (req addr : Nat) (v : W32) : (plainWrite s req addr v).mark = s.mark := by
  unfold plainWrite
  (repeat' split) <;> simp

@[simp] theorem clampWrite_mark (s : State) (req addr : Nat) (f : Fld) (top : Nat) (v : W32) : (clampWrite s req addr f top v).mark = s.mark := by
  unfold clampWrite
  simp

@[simp] theorem guardWrite_mark (s : State) (req addr : Nat) (ok : Bool) (v : W32) : (guardWrite s req addr ok v).mark = s.mark := by
  unfold guardWrite
  (repeat' split) <;> simp

@[simp] theorem membersRefuse_mark (s : State) : (membersRefuse s).2.mark = s.mark := by
  unfold membersRefuse
  (repeat' split) <;> simp

@[simp] theorem periodWrite_mark (s : State) (q : Nat) : (periodWrite s q).mark = s.mark := by
  unfold periodWrite
  dsimp only
  (repeat' split) <;> simp

@[simp] theorem applyLock_mark (s : State) : (applyLock s).mark = s.mark := by
  unfold applyLock
  simp

@[simp] theorem smtCtrlWrite_mark (s : State) (req addr : Nat) (v : W32) : (smtCtrlWrite s req addr v).mark = s.mark := by
  unfold smtCtrlWrite
  (repeat' split) <;> simp

@[simp] theorem bayWrite_mark (s : State) (bay mask : Nat) : (bayWrite s bay mask).mark = s.mark := by
  unfold bayWrite
  dsimp only
  (repeat' split) <;> simp

@[simp] theorem portCfgWrite_mark (s : State) (req addr : Nat) (v : W32) : (portCfgWrite s req addr v).mark = s.mark := by
  unfold portCfgWrite
  dsimp only
  (repeat' split) <;> simp

@[simp] theorem ipCommit_mark (s : State) (req : Nat) (v : W32) : (ipCommit s req v).mark = s.mark := by
  unfold ipCommit
  simp

@[simp] theorem dirtyCtrlWrite_mark (s : State) (req : Nat) (v : W32) : (dirtyCtrlWrite s req v).mark = s.mark := by
  unfold dirtyCtrlWrite
  (repeat' split) <;> simp

@[simp] theorem dgCtrlWrite_mark (s : State) (c : Nat) (v : W32) : (dgCtrlWrite s c v).mark = s.mark := by
  unfold dgCtrlWrite
  dsimp only
  (repeat' split) <;> simp

@[simp] theorem ctxWrite_mark (s : State) (c o : Nat) (v : W32) : (ctxWrite s c o v).mark = s.mark := by
  unfold ctxWrite
  (repeat' split) <;> simp

@[simp] theorem bellowsCtrlWrite_mark (s : State) (v : W32) : (bellowsCtrlWrite s v).mark = s.mark := by
  unfold bellowsCtrlWrite
  (repeat' split) <;> simp

@[simp] theorem domCtrlWrite_mark (s : State) (req : Nat) (v : W32) : (domCtrlWrite s req v).mark = s.mark := by
  unfold domCtrlWrite
  (repeat' split) <;> simp

@[simp] theorem hmFetch_mark (s : State) (req : Nat) (v : W32) : (hmFetch s req v).mark = s.mark := by
  unfold hmFetch
  simp

@[simp] theorem forceEvent_mark (s : State) (v : W32) : (forceEvent s v).mark = s.mark := by
  unfold forceEvent
  simp

@[simp] theorem statClear_mark (s : State) (k : Nat) (v : W32) : (statClear s k v).mark = s.mark := by
  unfold statClear
  simp

@[simp] theorem enableWrite_mark (s : State) (k : Nat) (v : W32) : (enableWrite s k v).mark = s.mark := by
  unfold enableWrite
  simp

@[simp] theorem lineWrite_mark (s : State) (req addr : Nat) (v : W32) : (lineWrite s req addr v).mark = s.mark := by
  unfold lineWrite
  try dsimp only
  (repeat' split) <;> first
    | (simp; done)
    | (simp [apply_ite State.mark, apply_ite Prod.fst]; done)
    | (rw [foldl_mark]; (try simp); intro t a; try dsimp only; (repeat' split) <;> simp [apply_ite State.mark])
    | (rw [foldl_mark_pair]; (try simp); intro t a; try dsimp only; (repeat' split) <;> simp [apply_ite State.mark, apply_ite Prod.fst])

@[simp] theorem wallCfgWrite_mark (s : State) (req addr : Nat) (v : W32) : (wallCfgWrite s req addr v).mark = s.mark := by
  unfold wallCfgWrite
  (repeat' split) <;> simp

@[simp] theorem writeGlb_mark (s : State) (req addr : Nat) (v : W32) : (writeGlb s req addr v).mark = s.mark := by
  unfold writeGlb
  (repeat' split) <;> simp

@[simp] theorem writePwr_mark (s : State) (req addr : Nat) (v : W32) : (writePwr s req addr v).mark = s.mark := by
  unfold writePwr
  (repeat' split) <;> simp

@[simp] theorem writeStk_mark (s : State) (req addr : Nat) (v : W32) : (writeStk s req addr v).mark = s.mark := by
  unfold writeStk
  (repeat' split) <;> simp

@[simp] theorem writeMed_mark (s : State) (req addr : Nat) (v : W32) : (writeMed s req addr v).mark = s.mark := by
  unfold writeMed
  (repeat' split) <;> simp

@[simp] theorem writePorts_mark (s : State) (req addr : Nat) (v : W32) : (writePorts s req addr v).mark = s.mark := by
  unfold writePorts
  (repeat' split) <;> simp

@[simp] theorem writeTen_mark (s : State) (req addr : Nat) (v : W32) : (writeTen s req addr v).mark = s.mark := by
  unfold writeTen
  (repeat' split) <;> simp

@[simp] theorem writeCph_mark (s : State) (req addr : Nat) (v : W32) : (writeCph s req addr v).mark = s.mark := by
  unfold writeCph
  (repeat' split) <;> simp

@[simp] theorem writeDg_mark (s : State) (req addr : Nat) (v : W32) : (writeDg s req addr v).mark = s.mark := by
  unfold writeDg
  (repeat' split) <;> simp

@[simp] theorem writeBlw_mark (s : State) (req addr : Nat) (v : W32) : (writeBlw s req addr v).mark = s.mark := by
  unfold writeBlw
  (repeat' split) <;> simp

@[simp] theorem writeHkp_mark (s : State) (req addr : Nat) (v : W32) : (writeHkp s req addr v).mark = s.mark := by
  unfold writeHkp
  (repeat' split) <;> simp

@[simp] theorem singleWrite_mark (s : State) (req addr : Nat) (v : W32) : (singleWrite s req addr v).mark = s.mark := by
  unfold singleWrite
  simp [apply_ite State.mark]

@[simp] theorem pairCommit_mark (s : State) (req lo : Nat) (l h : W32) : (pairCommit s req lo l h).mark = s.mark := by
  unfold pairCommit
  (repeat' split) <;> simp

@[simp] theorem pairLoWrite_mark (s : State) (req lo : Nat) (v : W32) : (pairLoWrite s req lo v).mark = s.mark := by
  unfold pairLoWrite
  simp

@[simp] theorem pairHiWrite_mark (s : State) (req lo : Nat) (v : W32) : (pairHiWrite s req lo v).mark = s.mark := by
  unfold pairHiWrite
  simp

@[simp] theorem answer_mark (s : State) (req : Nat) (w : W32) : (answer s req w).mark = s.mark := by
  unfold answer
  simp

@[simp] theorem pairLoRead_mark (s : State) (req lo : Nat) : (pairLoRead s req lo).mark = s.mark := by
  unfold pairLoRead
  simp

@[simp] theorem pairHiRead_mark (s : State) (req lo : Nat) : (pairHiRead s req lo).mark = s.mark := by
  unfold pairHiRead
  simp

@[simp] theorem regWrite_mark (s : State) (req addr : Nat) (v : W32) : (regWrite s req addr v).mark = s.mark := by
  unfold regWrite
  (repeat' split) <;> simp

@[simp] theorem clearRc_mark (s : State) (req addr : Nat) : (clearRc s req addr).mark = s.mark := by
  unfold clearRc
  (repeat' split) <;> simp

@[simp] theorem singleRead_mark (s : State) (req addr : Nat) : (singleRead s req addr).mark = s.mark := by
  unfold singleRead
  (repeat' split) <;> simp

@[simp] theorem regRead_mark (s : State) (req addr size : Nat) : (regRead s req addr size).mark = s.mark := by
  unfold regRead
  try dsimp only
  (repeat' split) <;> simp

theorem execRegisterWrite_kept (req addr size : Nat) (value : W32) (s : State) : (execRegisterWrite req addr size value s).Kept s := by
  unfold execRegisterWrite
  refine stepIf_kept ?_
  (repeat' split)
  · exact Kept.refl s
  · exact softwareReset_kept ..
  · exact kept_of_mark (by simp)

theorem execRcRegisterRead_mark (req addr size : Nat) (s : State) : (execRcRegisterRead req addr size s).Marked s := by
  unfold execRcRegisterRead
  exact stepIf_mark (by simp)

theorem execRegPairLoRead_mark (req addr size : Nat) (s : State) : (execRegPairLoRead req addr size s).Marked s := by
  unfold execRegPairLoRead
  exact stepIf_mark (by simp)

theorem execRegPairHiRead_mark (req addr size : Nat) (s : State) : (execRegPairHiRead req addr size s).Marked s := by
  unfold execRegPairHiRead
  exact stepIf_mark (by simp)

theorem execRegPairLoWrite_mark (req addr : Nat) (value : W32) (s : State) : (execRegPairLoWrite req addr value s).Marked s := by
  unfold execRegPairLoWrite
  refine stepIf_mark ?_
  split <;> simp

theorem execRegPairHiWrite_mark (req addr : Nat) (value : W32) (s : State) : (execRegPairHiWrite req addr value s).Marked s := by
  unfold execRegPairHiWrite
  refine stepIf_mark ?_
  split <;> simp

theorem execBayMaskWrite_mark (req : Nat) (value : W32) (s : State) : (execBayMaskWrite req value s).Marked s := by
  unfold execBayMaskWrite
  refine stepIf_mark ?_
  simp

theorem execIpEntryCommit_mark (req : Nat) (value : W32) (s : State) : (execIpEntryCommit req value s).Marked s := by
  unfold execIpEntryCommit
  refine stepIf_mark ?_
  simp

theorem execEventForceWrite_mark (req : Nat) (value : W32) (s : State) : (execEventForceWrite req value s).Marked s := by
  unfold execEventForceWrite
  refine stepIf_mark ?_
  simp

theorem execEventStatusClear_mark (req k : Nat) (value : W32) (s : State) : (execEventStatusClear req k value s).Marked s := by
  unfold execEventStatusClear
  refine stepIf_mark ?_
  simp

theorem execEventEnableWrite_mark (req k : Nat) (value : W32) (s : State) : (execEventEnableWrite req k value s).Marked s := by
  unfold execEventEnableWrite
  refine stepIf_mark ?_
  simp

theorem execHmRdSeqWrite_mark (req : Nat) (value : W32) (s : State) : (execHmRdSeqWrite req value s).Marked s := by
  unfold execHmRdSeqWrite
  refine stepIf_mark ?_
  simp

theorem execKekEpochWrite_mark (req : Nat) (value : W32) (s : State) : (execKekEpochWrite req value s).Marked s := by
  unfold execKekEpochWrite
  refine stepIf_mark ?_
  simp

theorem execStkPeriodWrite_mark (req : Nat) (value : W32) (s : State) : (execStkPeriodWrite req value s).Marked s := by
  unfold execStkPeriodWrite
  refine stepIf_mark ?_
  simp

theorem execBootLockWrite_mark (req : Nat) (value : W32) (s : State) : (execBootLockWrite req value s).Marked s := by
  unfold execBootLockWrite
  (repeat' split) <;> first | trivial | (refine stepIf_mark ?_; simp; done)

theorem execExecEnWrite_mark (req : Nat) (value : W32) (s : State) : (execExecEnWrite req value s).Marked s := by
  unfold execExecEnWrite
  refine stepIf_mark ?_
  simp

/-! ## Boot -/

@[simp] theorem boardEntry_mark (s : State) (e : Nat × W32) : (boardEntry s e).mark = s.mark := by
  unfold boardEntry
  (repeat' split) <;> simp

@[simp] theorem applyBoard_mark (s : State) : (applyBoard s).mark = s.mark := by
  unfold applyBoard
  dsimp only
  (repeat' split) <;> simp

theorem raiseCounter_kept (s : State) (k : Nat) (i : FwImage) : Kept s (raiseCounter s k i) := by
  unfold raiseCounter
  refine ⟨rfl, ?_, ?_, fun _ h => h⟩ <;> dsimp only <;> (repeat' split) <;> omega

theorem commitImages_kept (s : State) : Kept s (commitImages s) := by
  unfold commitImages
  dsimp only
  have h : ∀ x : SlotImages, Kept s (raiseCounter (raiseCounter s 0 x.sec) 1 x.mgmt) :=
    fun x => (raiseCounter_kept ..).trans (raiseCounter_kept ..)
  split
  · refine Kept.then_mark (h (slotImages s.boot.flash s.boot.slotB)) ?_
    simp
  · exact h _

@[simp] theorem bringDram_mark (s : State) : (bringDram s).mark = s.mark := by
  unfold bringDram
  simp

@[simp] theorem bringStore_mark (s : State) (b : BootReport) : (bringStore s b).mark = s.mark := by
  unfold bringStore
  simp

@[simp] theorem readyControllers_mark (s : State) : (readyControllers s).mark = s.mark := by
  unfold readyControllers
  (repeat' split) <;> simp [apply_ite State.mark]

theorem ioReadyStage_kept (s : State) : Kept s (ioReadyStage s) := by
  have key : ∀ t : State, t.mark = s.mark → ∀ u : State, u.mark = (commitImages t).mark → Kept s u :=
    fun t ht u hu => ((commitImages_kept t).after_mark ht).then_mark hu
  unfold ioReadyStage
  extract_lets s1 s2 s3 s4 v
  refine key { s3 with boot := { s3.boot with ioReady := true } } ?_ _ ?_
  · simp only [mark_mk, s3, s2, s1]
    (repeat' split) <;> simp
  · exact fresh_mark _

@[simp] theorem mapStage_mark (s : State) : (mapStage s).mark = s.mark := by
  unfold mapStage
  (repeat' split) <;> simp

@[simp] theorem trainLinks_mark (s : State) : (trainLinks s).mark = s.mark := by
  unfold trainLinks
  (repeat' split) <;> simp [apply_ite State.mark]

theorem stageWork_kept (s : State) (b : BootReport) : Kept s (stageWork s b) := by
  unfold stageWork
  split <;> first | exact ioReadyStage_kept s | exact kept_of_mark (by simp)

theorem stageDone_kept (s : State) (b : BootReport) : Kept s (stageDone s b) := by
  unfold stageDone
  refine Kept.then_mark (stageWork_kept s b) ?_
  simp

theorem execBootStageDone_kept (b : BootReport) (s : State) : (execBootStageDone b s).Kept s := by
  unfold execBootStageDone
  try dsimp only
  (repeat' split) <;> first
    | trivial
    | exact stepIf_kept (stageDone_kept ..)
    | exact next_kept (stageDone_kept ..)
    | exact stepIf_kept ((stageDone_kept ..).after_mark (by simp))
    | exact next_kept ((stageDone_kept ..).after_mark (by simp))
    | exact stepIf_kept (kept_of_mark (by simp))
    | exact next_kept (kept_of_mark (by simp))
    | (refine stepIf_kept ?_; (repeat' split) <;> first | exact stageDone_kept .. | exact (stageDone_kept ..).after_mark (by simp) | exact kept_of_mark (by simp))
    | (refine next_kept ?_; (repeat' split) <;> first | exact stageDone_kept .. | exact (stageDone_kept ..).after_mark (by simp) | exact kept_of_mark (by simp))

@[simp] theorem downloadPiece_mark (s : State) (who offset : Nat) (piece : List Byte) : (downloadPiece s who offset piece).mark = s.mark := by
  unfold downloadPiece
  (repeat' split) <;> simp

theorem execFirmwareImageDownload_mark (slot : Nat) (piece : List Byte) (s : State) : (execFirmwareImageDownload slot piece s).Marked s := by
  unfold execFirmwareImageDownload
  (repeat' split) <;> first | trivial | (refine stepIf_mark ?_; simp; done)

@[simp] theorem commitWrite_mark (s : State) (who fs action : Nat) (x : SlotImages) : (commitWrite s who fs action x).mark = s.mark := by
  unfold commitWrite
  (repeat' split) <;> simp

theorem execFirmwareCommitWrite_mark (slot : Nat) (p : SlotImages) (s : State) : (execFirmwareCommitWrite slot p s).Marked s := by
  unfold execFirmwareCommitWrite
  (repeat' split) <;> first | trivial | (refine stepIf_mark ?_; simp; done)

theorem execFirmwareCommitWritePending_mark (slot : Nat) (p : SlotImages) (s : State) : (execFirmwareCommitWritePending slot p s).Marked s := by
  unfold execFirmwareCommitWritePending
  (repeat' split) <;> first | trivial | (refine stepIf_mark ?_; simp; done)

@[simp] theorem setPending_mark (s : State) (b : Bool) : (setPending s b).mark = s.mark := by
  unfold setPending
  simp

@[simp] theorem commitPending_mark (s : State) (who fs : Nat) : (commitPending s who fs).mark = s.mark := by
  unfold commitPending
  dsimp only
  (repeat' split) <;> simp

theorem execFirmwareCommitPending_mark (slot : Nat) (s : State) : (execFirmwareCommitPending slot s).Marked s := by
  unfold execFirmwareCommitPending
  (repeat' split) <;> first | trivial | (refine stepIf_mark ?_; simp; done)

@[simp] theorem commitAnswer_mark (s : State) (c : Option (Nat × Nat)) (st : Nat × Nat) : (commitAnswer s c st).mark = s.mark := by
  unfold commitAnswer
  try dsimp only
  (repeat' split) <;> first
    | (simp; done)
    | (simp [apply_ite State.mark, apply_ite Prod.fst]; done)
    | (rw [foldl_mark]; (try simp); intro t a; try dsimp only; (repeat' split) <;> simp [apply_ite State.mark])
    | (rw [foldl_mark_pair]; (try simp); intro t a; try dsimp only; (repeat' split) <;> simp [apply_ite State.mark, apply_ite Prod.fst])

@[simp] theorem slotWritten_mark (s : State) (b : Bool) (x : SlotImages) (action : Nat) (readback : Bool) : (slotWritten s b x action readback).mark = s.mark := by
  unfold slotWritten
  try dsimp only
  (repeat' split) <;> first
    | (simp; done)
    | (simp [apply_ite State.mark, apply_ite Prod.fst]; done)
    | (rw [foldl_mark]; (try simp); intro t a; try dsimp only; (repeat' split) <;> simp [apply_ite State.mark])
    | (rw [foldl_mark_pair]; (try simp); intro t a; try dsimp only; (repeat' split) <;> simp [apply_ite State.mark, apply_ite Prod.fst])

theorem execFirmwareSlotWritten_mark (readback : Bool) (s : State) : (execFirmwareSlotWritten readback s).Marked s := by
  unfold execFirmwareSlotWritten
  (repeat' split) <;> first | trivial | (refine stepIf_mark ?_; simp; done)

/-! ## Power -/

@[simp] theorem powerAnswer_mark (s : State) (b : PowerReq) (st : W16) : (powerAnswer s b st).mark = s.mark := by
  unfold powerAnswer
  try dsimp only
  (repeat' split) <;> first
    | (simp; done)
    | (simp [apply_ite State.mark, apply_ite Prod.fst]; done)
    | (rw [foldl_mark]; (try simp); intro t a; try dsimp only; (repeat' split) <;> simp [apply_ite State.mark])
    | (rw [foldl_mark_pair]; (try simp); intro t a; try dsimp only; (repeat' split) <;> simp [apply_ite State.mark, apply_ite Prod.fst])

@[simp] theorem beginEntry_mark (s : State) (b : PowerReq) (target : PState) : (beginEntry s b target).mark = s.mark := by
  unfold beginEntry
  (repeat' split) <;> simp

@[simp] theorem requestHot_mark (s : State) (b : PowerReq) : (requestHot s b).mark = s.mark := by
  unfold requestHot
  (repeat' split) <;> simp

@[simp] theorem powerRequest_mark (s : State) (b : PowerReq) (target : PState) : (powerRequest s b target).mark = s.mark := by
  unfold powerRequest
  (repeat' split) <;> simp

@[simp] theorem powerOp_start_mark (s : State) (k : Nat) (f : Fields) (t : State) (r : Nat) : ((powerOp s k f).start t r).mark = t.mark := by
  unfold powerOp
  simp

theorem execPower_mark (slot : Nat) (f : Fields) (s : State) : (execPower slot f s).Marked s := by
  unfold execPower
  refine stepIf_mark ?_
  simp

theorem execSetFeaturesPowerState_mark (slot : Nat) (s : State) : (execSetFeaturesPowerState slot s).Marked s := by
  unfold execSetFeaturesPowerState
  refine stepIf_mark ?_
  (repeat' split) <;> simp

theorem execGetFeaturesPowerState_mark (slot : Nat) (s : State) : (execGetFeaturesPowerState slot s).Marked s := by
  unfold execGetFeaturesPowerState
  (repeat' split) <;> first | trivial | (refine stepIf_mark ?_; simp; done)

theorem execGetLogPageHallmark_mark (slot : Nat) (s : State) : (execGetLogPageHallmark slot s).Marked s := by
  unfold execGetLogPageHallmark
  refine stepIf_mark ?_
  simp

@[simp] theorem parkRows_mark (s : State) : (parkRows s).mark = s.mark := by
  unfold parkRows
  simp

@[simp] theorem bankedState_mark (s : State) : (bankedState s).mark = s.mark := by
  unfold bankedState
  simp

@[simp] theorem coldState_mark (s : State) : (coldState s).mark = s.mark := by
  unfold coldState
  (repeat' split) <;> simp

@[simp] theorem emberState_mark (s : State) : (emberState s).mark = s.mark := by
  unfold emberState
  simp

@[simp] theorem wakeMembers_mark (s : State) : (wakeMembers s).mark = s.mark := by
  unfold wakeMembers
  (repeat' split) <;> simp

@[simp] theorem wakeBanked_mark (s : State) (cause : BitVec 6) : (wakeBanked s cause).mark = s.mark := by
  unfold wakeBanked
  (repeat' split) <;> simp [apply_ite State.mark]

theorem coldBoot_kept (s : State) (cause : BitVec 6) (w : WakeEnv) : Kept s (coldBoot s cause w) := by
  unfold coldBoot
  refine Kept.then_mark (Kept.after_mark ?_ (rom_kept { s with pwr := { s.pwr with st := .hot, wakeCause := cause } } w.pins)) ?_ <;> simp

@[simp] theorem readParked_mark (s : State) : (readParked s).mark = s.mark := by
  unfold readParked
  try dsimp only
  (repeat' split) <;> first
    | (simp; done)
    | (simp [apply_ite State.mark, apply_ite Prod.fst]; done)
    | (rw [foldl_mark]; (try simp); intro t a; try dsimp only; (repeat' split) <;> simp [apply_ite State.mark])
    | (rw [foldl_mark_pair]; (try simp); intro t a; try dsimp only; (repeat' split) <;> simp [apply_ite State.mark, apply_ite Prod.fst])

@[simp] theorem emberResume_mark (s : State) (cause : BitVec 6) : (emberResume s cause).mark = s.mark := by
  unfold emberResume
  dsimp only
  (repeat' split) <;> simp

theorem emberMismatch_kept (s : State) (cause : BitVec 6) (w : WakeEnv) : Kept s (emberMismatch s cause w) := by
  unfold emberMismatch
  dsimp only
  rw [raise_kept_iff]
  refine Kept.after_mark ?_ (coldBoot_kept _ _ _)
  simp

theorem wakeNow_kept (s : State) (cause : BitVec 6) (w : WakeEnv) : Kept s (wakeNow s cause w) := by
  unfold wakeNow
  split
  · exact Kept.refl s
  · exact kept_of_mark (by simp)
  · split
    · exact kept_of_mark (by simp)
    · exact emberMismatch_kept ..
  · exact coldBoot_kept ..

theorem wakeEvent_kept (s : State) (bit : Nat) (w : WakeEnv) : Kept s (wakeEvent s bit w) := by
  unfold wakeEvent
  dsimp only
  split
  · exact Kept.refl s
  · split
    · exact kept_of_mark (by split <;> simp)
    · exact wakeNow_kept ..

theorem execPwrWakeNAssert_kept (w : WakeEnv) (s : State) : (execPwrWakeNAssert w s).Kept s := by
  unfold execPwrWakeNAssert
  try dsimp only
  (repeat' split) <;> first
    | trivial
    | exact stepIf_kept (wakeEvent_kept ..)
    | exact next_kept (wakeEvent_kept ..)
    | exact stepIf_kept ((wakeEvent_kept ..).after_mark (by simp))
    | exact next_kept ((wakeEvent_kept ..).after_mark (by simp))
    | exact stepIf_kept (kept_of_mark (by simp))
    | exact next_kept (kept_of_mark (by simp))
    | (refine stepIf_kept ?_; (repeat' split) <;> first | exact wakeEvent_kept .. | exact (wakeEvent_kept ..).after_mark (by simp) | exact kept_of_mark (by simp))
    | (refine next_kept ?_; (repeat' split) <;> first | exact wakeEvent_kept .. | exact (wakeEvent_kept ..).after_mark (by simp) | exact kept_of_mark (by simp))

theorem execWakeTimerExpiry_kept (w : WakeEnv) (s : State) : (execWakeTimerExpiry w s).Kept s := by
  unfold execWakeTimerExpiry
  try dsimp only
  (repeat' split) <;> first
    | trivial
    | exact stepIf_kept (wakeEvent_kept ..)
    | exact next_kept (wakeEvent_kept ..)
    | exact stepIf_kept ((wakeEvent_kept ..).after_mark (by simp))
    | exact next_kept ((wakeEvent_kept ..).after_mark (by simp))
    | exact stepIf_kept (kept_of_mark (by simp))
    | exact next_kept (kept_of_mark (by simp))
    | (refine stepIf_kept ?_; (repeat' split) <;> first | exact wakeEvent_kept .. | exact (wakeEvent_kept ..).after_mark (by simp) | exact kept_of_mark (by simp))
    | (refine next_kept ?_; (repeat' split) <;> first | exact wakeEvent_kept .. | exact (wakeEvent_kept ..).after_mark (by simp) | exact kept_of_mark (by simp))

theorem execPerstWake_kept (w : WakeEnv) (s : State) : (execPerstWake w s).Kept s := by
  unfold execPerstWake
  try dsimp only
  (repeat' split) <;> first
    | trivial
    | exact stepIf_kept (wakeEvent_kept ..)
    | exact next_kept (wakeEvent_kept ..)
    | exact stepIf_kept ((wakeEvent_kept ..).after_mark (by simp))
    | exact next_kept ((wakeEvent_kept ..).after_mark (by simp))
    | exact stepIf_kept (kept_of_mark (by simp))
    | exact next_kept (kept_of_mark (by simp))
    | (refine stepIf_kept ?_; (repeat' split) <;> first | exact wakeEvent_kept .. | exact (wakeEvent_kept ..).after_mark (by simp) | exact kept_of_mark (by simp))
    | (refine next_kept ?_; (repeat' split) <;> first | exact wakeEvent_kept .. | exact (wakeEvent_kept ..).after_mark (by simp) | exact kept_of_mark (by simp))

theorem execWallWakePulse_kept (w : WakeEnv) (s : State) : (execWallWakePulse w s).Kept s := by
  unfold execWallWakePulse
  try dsimp only
  (repeat' split) <;> first
    | trivial
    | exact stepIf_kept (wakeEvent_kept ..)
    | exact next_kept (wakeEvent_kept ..)
    | exact stepIf_kept ((wakeEvent_kept ..).after_mark (by simp))
    | exact next_kept ((wakeEvent_kept ..).after_mark (by simp))
    | exact stepIf_kept (kept_of_mark (by simp))
    | exact next_kept (kept_of_mark (by simp))
    | (refine stepIf_kept ?_; (repeat' split) <;> first | exact wakeEvent_kept .. | exact (wakeEvent_kept ..).after_mark (by simp) | exact kept_of_mark (by simp))
    | (refine next_kept ?_; (repeat' split) <;> first | exact wakeEvent_kept .. | exact (wakeEvent_kept ..).after_mark (by simp) | exact kept_of_mark (by simp))

@[simp] theorem holdPacket_mark (s : State) (lport len : Nat) : (holdPacket s lport len).mark = s.mark := by
  unfold holdPacket
  dsimp only
  (repeat' split) <;> simp

theorem execWakePacket_kept (lport : Nat) (target : IpAddr) (len : Nat) (s : State) : (execWakePacket lport target len s).Kept s := by
  unfold execWakePacket
  try dsimp only
  (repeat' split) <;> first
    | trivial
    | exact stepIf_kept (wakeEvent_kept ..)
    | exact next_kept (wakeEvent_kept ..)
    | exact stepIf_kept ((wakeEvent_kept ..).after_mark (by simp))
    | exact next_kept ((wakeEvent_kept ..).after_mark (by simp))
    | exact stepIf_kept (kept_of_mark (by simp))
    | exact next_kept (kept_of_mark (by simp))
    | (refine stepIf_kept ?_; (repeat' split) <;> first | exact wakeEvent_kept .. | exact (wakeEvent_kept ..).after_mark (by simp) | exact kept_of_mark (by simp))
    | (refine next_kept ?_; (repeat' split) <;> first | exact wakeEvent_kept .. | exact (wakeEvent_kept ..).after_mark (by simp) | exact kept_of_mark (by simp))

theorem execWakeTlp_kept (fn len : Nat) (s : State) : (execWakeTlp fn len s).Kept s := by
  unfold execWakeTlp
  try dsimp only
  (repeat' split) <;> first
    | trivial
    | exact stepIf_kept (wakeEvent_kept ..)
    | exact next_kept (wakeEvent_kept ..)
    | exact stepIf_kept ((wakeEvent_kept ..).after_mark (by simp))
    | exact next_kept ((wakeEvent_kept ..).after_mark (by simp))
    | exact stepIf_kept (kept_of_mark (by simp))
    | exact next_kept (kept_of_mark (by simp))
    | (refine stepIf_kept ?_; (repeat' split) <;> first | exact wakeEvent_kept .. | exact (wakeEvent_kept ..).after_mark (by simp) | exact kept_of_mark (by simp))
    | (refine next_kept ?_; (repeat' split) <;> first | exact wakeEvent_kept .. | exact (wakeEvent_kept ..).after_mark (by simp) | exact kept_of_mark (by simp))

@[simp] theorem postEntry_mark (s : State) (e : Entry) : (postEntry s e).mark = s.mark := by
  unfold postEntry
  (repeat' split) <;> simp

@[simp] theorem dropRequest_mark (s : State) (b : PowerReq) : (dropRequest s b).mark = s.mark := by
  unfold dropRequest
  (repeat' split) <;> simp

@[simp] theorem abandonEntry_mark (s : State) (e : Entry) (st : W16) : (abandonEntry s e st).mark = s.mark := by
  unfold abandonEntry
  (repeat' split) <;> simp

@[simp] theorem nextStep_mark (s : State) (e : Entry) : (nextStep s e).mark = s.mark := by
  unfold nextStep
  dsimp only
  (repeat' split) <;> simp

theorem reachState_kept (s : State) (e : Entry) : Kept s (reachState s e) := by
  unfold reachState
  dsimp only
  have h : ∀ t : State, t.mark = s.mark → Kept s (if e.heldHot.isEmpty then t
      else if e.target = .banked then e.heldHot.foldl (fun t b => powerAnswer t b St.ok) (wakeNow t t.pwr.wakeCause (noEnv t))
        else wakeNow t t.pwr.wakeCause (noEnv t)) := by
    intro t ht
    split
    · exact kept_of_mark ht
    · have := (wakeNow_kept t t.pwr.wakeCause (noEnv t)).after_mark ht
      split
      · exact this.then_mark (by simp)
      · exact this
  exact h _ (by split <;> simp)

theorem entryStep_kept (s : State) (e : Entry) : Kept s (entryStep s e) := by
  unfold entryStep
  split
  · exact reachState_kept ..
  · exact kept_of_mark (by (repeat' split) <;> simp)

theorem execPowerEntryStepDone_kept (s : State) : (execPowerEntryStepDone s).Kept s := by
  unfold execPowerEntryStepDone
  try dsimp only
  (repeat' split) <;> first
    | trivial
    | exact stepIf_kept (entryStep_kept ..)
    | exact next_kept (entryStep_kept ..)
    | exact stepIf_kept ((entryStep_kept ..).after_mark (by simp))
    | exact next_kept ((entryStep_kept ..).after_mark (by simp))
    | exact stepIf_kept (kept_of_mark (by simp))
    | exact next_kept (kept_of_mark (by simp))
    | (refine stepIf_kept ?_; (repeat' split) <;> first | exact entryStep_kept .. | exact (entryStep_kept ..).after_mark (by simp) | exact kept_of_mark (by simp))
    | (refine next_kept ?_; (repeat' split) <;> first | exact entryStep_kept .. | exact (entryStep_kept ..).after_mark (by simp) | exact kept_of_mark (by simp))

theorem execEntryDrainLimitExpiry_mark (s : State) : (execEntryDrainLimitExpiry s).Marked s := by
  unfold execEntryDrainLimitExpiry
  (repeat' split) <;> first | trivial | (refine stepIf_mark ?_; simp; done)

@[simp] theorem memberAbandon_mark (s : State) : (memberAbandon s).mark = s.mark := by
  unfold memberAbandon
  (repeat' split) <;> simp

@[simp] theorem memberCommand_mark (s : State) (target : Nat) (abandon : Bool) : (memberCommand s target abandon).mark = s.mark := by
  unfold memberCommand
  (repeat' split) <;> simp

theorem execMemberPowerCommand_mark (target : Nat) (abandon : Bool) (s : State) : (execMemberPowerCommand target abandon s).Marked s := by
  unfold execMemberPowerCommand
  refine stepIf_mark ?_
  simp

@[simp] theorem opsetOp_start_mark (s : State) (k : Nat) (f : Fields) (t : State) (r : Nat) : ((opsetOp s k f).start t r).mark = t.mark := by
  unfold opsetOp
  dsimp only
  (repeat' split) <;> simp

theorem execOpset_mark (slot : Nat) (f : Fields) (s : State) : (execOpset slot f s).Marked s := by
  unfold execOpset
  refine stepIf_mark ?_
  simp

@[simp] theorem opPhase_mark (s : State) (q : OpSeq) (p : OpPhase) : (opPhase s q p).mark = s.mark := by
  unfold opPhase
  simp

@[simp] theorem opEnd_mark (s : State) (q : OpSeq) (st : W16) : (opEnd s q st).mark = s.mark := by
  unfold opEnd
  simp

@[simp] theorem opStrike_mark (s : State) : (opStrike s).mark = s.mark := by
  unfold opStrike
  (repeat' split) <;> simp

theorem execAvsVoltageReached_mark (s : State) : (execAvsVoltageReached s).Marked s := by
  unfold execAvsVoltageReached
  (repeat' split) <;> first | trivial | (refine stepIf_mark ?_; simp; done)

theorem execPllLocked_mark (s : State) : (execPllLocked s).Marked s := by
  unfold execPllLocked
  (repeat' split) <;> first | trivial | (refine stepIf_mark ?_; simp; done)

theorem execAvsSettleTimeout_mark (lastMv : Nat) (s : State) : (execAvsSettleTimeout lastMv s).Marked s := by
  unfold execAvsSettleTimeout
  (repeat' split) <;> first | trivial | (refine stepIf_mark ?_; simp; done)

@[simp] theorem setPeriod_mark (s : State) (p : Nat) : (setPeriod s p).mark = s.mark := by
  unfold setPeriod
  simp

@[simp] theorem changePeriod_mark (s : State) (p : Nat) : (changePeriod s p).mark = s.mark := by
  unfold changePeriod
  (repeat' split) <;> simp

@[simp] theorem periodStrike_mark (s : State) : (periodStrike s).mark = s.mark := by
  unfold periodStrike
  (repeat' split) <;> simp

theorem execPeriodChangeEffect_mark (s : State) : (execPeriodChangeEffect s).Marked s := by
  unfold execPeriodChangeEffect
  (repeat' split) <;> first | trivial | (refine stepIf_mark ?_; simp; done)

@[simp] theorem hmreadOp_start_mark (s : State) (k : Nat) (f : Fields) (t : State) (r : Nat) : ((hmreadOp s k f).start t r).mark = t.mark := by
  unfold hmreadOp
  dsimp only
  (repeat' split) <;> simp

theorem execHmread_mark (slot : Nat) (f : Fields) (s : State) : (execHmread slot f s).Marked s := by
  unfold execHmread
  refine stepIf_mark ?_
  simp

/-! ## Loss -/

@[simp] theorem beginFlush_mark (s : State) (thermal supply : Bool) : (beginFlush s thermal supply).mark = s.mark := by
  unfold beginFlush
  (repeat' split) <;> simp

theorem execSupplyLoss_mark (s : State) : (execSupplyLoss s).Marked s := by
  unfold execSupplyLoss
  (repeat' split) <;> first | trivial | (refine stepIf_mark ?_; simp; done)

@[simp] theorem stopDies_mark (s : State) : (stopDies s).mark = s.mark := by
  unfold stopDies
  (repeat' split) <;> simp [apply_ite State.mark]

@[simp] theorem dropReads_mark (s : State) : (dropReads s).mark = s.mark := by
  unfold dropReads
  simp

@[simp] theorem gateUnused_mark (s : State) : (gateUnused s).mark = s.mark := by
  unfold gateUnused
  (repeat' split) <;> simp [apply_ite State.mark]

@[simp] theorem flushStart_mark (s : State) (f : FlushRun) : (flushStart s f).mark = s.mark := by
  unfold flushStart
  (repeat' split) <;> simp

@[simp] theorem domainsOff_mark (s : State) : (domainsOff s).mark = s.mark := by
  unfold domainsOff
  simp

@[simp] theorem haltFlushed_mark (s : State) : (haltFlushed s).mark = s.mark := by
  unfold haltFlushed
  simp

@[simp] theorem thermalCold_mark (s : State) : (thermalCold s).mark = s.mark := by
  unfold thermalCold
  simp

@[simp] theorem flushEnd_mark (s : State) (f : FlushRun) : (flushEnd s f).mark = s.mark := by
  unfold flushEnd
  (repeat' split) <;> simp

@[simp] theorem flushProgram_mark (s : State) (f : FlushRun) : (flushProgram s f).mark = s.mark := by
  unfold flushProgram
  dsimp only
  (repeat' split) <;> simp

theorem execFlushProgramDone_mark (s : State) : (execFlushProgramDone s).Marked s := by
  unfold execFlushProgramDone
  (repeat' split) <;> first | trivial | (refine stepIf_mark ?_; simp; done)

/-! ## Management -/

@[simp] theorem miAnswer_mark (s : State) (st : MiStatus) (data : List Byte) : (miAnswer s st data).mark = s.mark := by
  unfold miAnswer
  simp

@[simp] theorem miFree_mark (s : State) (len : Nat) : (miFree s len).mark = s.mark := by
  unfold miFree
  try dsimp only
  (repeat' split) <;> first
    | (simp; done)
    | (simp [apply_ite State.mark, apply_ite Prod.fst]; done)
    | (rw [foldl_mark]; (try simp); intro t a; try dsimp only; (repeat' split) <;> simp [apply_ite State.mark])
    | (rw [foldl_mark_pair]; (try simp); intro t a; try dsimp only; (repeat' split) <;> simp [apply_ite State.mark, apply_ite Prod.fst])

theorem execMiHealthStatusPoll_mark (s : State) : (execMiHealthStatusPoll s).Marked s := by
  unfold execMiHealthStatusPoll
  (repeat' split) <;> first | trivial | (refine stepIf_mark ?_; simp; done)

theorem execMiControllerHealthPoll_mark (s : State) : (execMiControllerHealthPoll s).Marked s := by
  unfold execMiControllerHealthPoll
  (repeat' split) <;> first | trivial | (refine stepIf_mark ?_; simp; done)

theorem execMiReadDataStructure_mark (dtyp : Nat) (s : State) : (execMiReadDataStructure dtyp s).Marked s := by
  unfold execMiReadDataStructure
  (repeat' split) <;> first | trivial | (refine next_mark ?_; simp; done)

theorem execMiVpdRead_mark (offset len : Nat) (s : State) : (execMiVpdRead offset len s).Marked s := by
  unfold execMiVpdRead
  (repeat' split) <;> first | trivial | (refine next_mark ?_; simp; done)

theorem execMiConfigurationGet_mark (cfg : Nat) (s : State) : (execMiConfigurationGet cfg s).Marked s := by
  unfold execMiConfigurationGet
  (repeat' split) <;> first | trivial | (refine next_mark ?_; simp; done)

theorem miWake_kept (s : State) (w : WakeEnv) : Kept s (miWake s w) := by
  unfold miWake
  split
  · exact (wakeEvent_kept ..).after_mark (by simp)
  · exact kept_of_mark (by simp)

theorem execMiConfigurationSet_kept (cfg value : Nat) (w : WakeEnv) (s : State) : (execMiConfigurationSet cfg value w s).Kept s := by
  unfold execMiConfigurationSet
  try dsimp only
  (repeat' split) <;> first
    | trivial
    | exact stepIf_kept (miWake_kept ..)
    | exact next_kept (miWake_kept ..)
    | exact stepIf_kept ((miWake_kept ..).after_mark (by simp))
    | exact next_kept ((miWake_kept ..).after_mark (by simp))
    | exact stepIf_kept (kept_of_mark (by simp))
    | exact next_kept (kept_of_mark (by simp))
    | (refine stepIf_kept ?_; (repeat' split) <;> first | exact miWake_kept .. | exact (miWake_kept ..).after_mark (by simp) | exact kept_of_mark (by simp))
    | (refine next_kept ?_; (repeat' split) <;> first | exact miWake_kept .. | exact (miWake_kept ..).after_mark (by simp) | exact kept_of_mark (by simp))

@[simp] theorem miHallmark_mark (s : State) (c : NvmeCmd) : (miHallmark s c).mark = s.mark := by
  unfold miHallmark
  try dsimp only
  (repeat' split) <;> first
    | (simp; done)
    | (simp [apply_ite State.mark, apply_ite Prod.fst]; done)
    | (rw [foldl_mark]; (try simp); intro t a; try dsimp only; (repeat' split) <;> simp [apply_ite State.mark])
    | (rw [foldl_mark_pair]; (try simp); intro t a; try dsimp only; (repeat' split) <;> simp [apply_ite State.mark, apply_ite Prod.fst])

theorem execMiTunnelledAdmin_mark (cmd : NvmeCmd) (s : State) : (execMiTunnelledAdmin cmd s).Marked s := by
  unfold execMiTunnelledAdmin
  (repeat' split) <;> first | trivial | (refine next_mark ?_; simp; done)

/-! ## DramQueue -/

@[simp] theorem presentReqs_mark (s : State) (c : Nat) : (presentReqs s c).mark = s.mark := by
  unfold presentReqs
  try dsimp only
  (repeat' split) <;> first
    | (simp; done)
    | (simp [apply_ite State.mark, apply_ite Prod.fst]; done)
    | (rw [foldl_mark]; (try simp); intro t a; try dsimp only; (repeat' split) <;> simp [apply_ite State.mark])
    | (rw [foldl_mark_pair]; (try simp); intro t a; try dsimp only; (repeat' split) <;> simp [apply_ite State.mark, apply_ite Prod.fst])

@[simp] theorem dramTraffic_mark (s : State) (c : Nat) : (dramTraffic s c).mark = s.mark := by
  unfold dramTraffic
  try dsimp only
  (repeat' split) <;> first
    | (simp; done)
    | (simp [apply_ite State.mark, apply_ite Prod.fst]; done)
    | (rw [foldl_mark]; (try simp); intro t a; try dsimp only; (repeat' split) <;> simp [apply_ite State.mark])
    | (rw [foldl_mark_pair]; (try simp); intro t a; try dsimp only; (repeat' split) <;> simp [apply_ite State.mark, apply_ite Prod.fst])

/-! ## Memory -/

@[simp] theorem dramChStrike_mark (s : State) (c : Nat) : (dramChStrike s c).mark = s.mark := by
  unfold dramChStrike
  dsimp only
  (repeat' split) <;> simp

@[simp] theorem dmTolerance_mark (s : State) (c : Nat) : (dmTolerance s c).mark = s.mark := by
  unfold dmTolerance
  dsimp only
  (repeat' split) <;> simp

@[simp] theorem dramStrike_mark (s : State) : (dramStrike s).mark = s.mark := by
  unfold dramStrike
  (repeat' split) <;> simp

theorem execSelfRefreshEntry_mark (ch : Nat) (s : State) : (execSelfRefreshEntry ch s).Marked s := by
  unfold execSelfRefreshEntry
  refine stepIf_mark ?_
  simp

@[simp] theorem selfRefreshRequest_mark (s : State) (c : Nat) : (selfRefreshRequest s c).mark = s.mark := by
  unfold selfRefreshRequest
  dsimp only
  (repeat' split) <;> simp

theorem execSelfRefreshInterrupt_mark (ch : Nat) (s : State) : (execSelfRefreshInterrupt ch s).Marked s := by
  unfold execSelfRefreshInterrupt
  refine stepIf_mark ?_
  simp

theorem execSelfRefreshExitDone_mark (ch : Nat) (s : State) : (execSelfRefreshExitDone ch s).Marked s := by
  unfold execSelfRefreshExitDone
  refine stepIf_mark ?_
  simp

theorem execDmGateIdleExpiry_mark (ch : Nat) (s : State) : (execDmGateIdleExpiry ch s).Marked s := by
  unfold execDmGateIdleExpiry
  refine stepIf_mark ?_
  simp

theorem execRefreshDue_mark (ch bank : Nat) (busy : Bool) (s : State) : (execRefreshDue ch bank busy s).Marked s := by
  unfold execRefreshDue
  refine stepIf_mark ?_
  simp

theorem execOpenRowTimeout_mark (ch bank : Nat) (s : State) : (execOpenRowTimeout ch bank s).Marked s := by
  unfold execOpenRowTimeout
  refine stepIf_mark ?_
  simp

@[simp] theorem poisonBuffer_mark (s : State) (b off : Nat) : (poisonBuffer s b off).mark = s.mark := by
  unfold poisonBuffer
  dsimp only
  (repeat' split) <;> simp

@[simp] theorem reissueRead_mark (s : State) (rid : Nat) : (reissueRead s rid).mark = s.mark := by
  unfold reissueRead
  split
  · rfl
  · simp only [updReq_mark]
    refine foldl_mark_pair _ (fun t e => ?_) _ _
    split
    · rfl
    · split
      · rename_i h; exact planSense_mark _ _ _ _ _ _ h
      · rfl

@[simp] theorem dropHold_mark (s : State) (l : Nat) : (dropHold s l).mark = s.mark := by
  unfold dropHold
  (repeat' split) <;> simp

@[simp] theorem losePage_mark (s : State) (id page : Nat) : (losePage s id page).mark = s.mark := by
  unfold losePage
  (repeat' split) <;> simp

@[simp] theorem unloadPattern_mark (s : State) (t n : Nat) : (unloadPattern s t n).mark = s.mark := by
  unfold unloadPattern
  (repeat' split) <;> simp

@[simp] theorem poisonOutcome_mark (s : State) (l : PoisonLine) : (poisonOutcome s l).mark = s.mark := by
  unfold poisonOutcome
  (repeat' split) <;> simp

@[simp] theorem poisonLine_mark (s : State) (l : PoisonLine) : (poisonLine s l).mark = s.mark := by
  unfold poisonLine
  (repeat' split) <;> simp

theorem execUncorrectableLine_mark (line : PoisonLine) (s : State) : (execUncorrectableLine line s).Marked s := by
  unfold execUncorrectableLine
  refine stepIf_mark ?_
  simp

theorem execPatrolScrub_mark (ch : Nat) (corrected : List Nat) (bad : List PoisonLine) (s : State) : (execPatrolScrub ch corrected bad s).Marked s := by
  unfold execPatrolScrub
  refine stepIf_mark ?_
  (repeat' split) <;> simp

theorem execCrucibleScrub_mark (corrected : List Nat) (bad : List PoisonLine) (s : State) : (execCrucibleScrub corrected bad s).Marked s := by
  unfold execCrucibleScrub
  refine stepIf_mark ?_
  simp

@[simp] theorem groupStrike_mark (s : State) (g : Nat) : (groupStrike s g).mark = s.mark := by
  unfold groupStrike
  (repeat' split) <;> simp

@[simp] theorem groupStrikes_mark (s : State) : (groupStrikes s).mark = s.mark := by
  unfold groupStrikes
  simp

theorem execCrucibleRetentionEntry_mark (group : Nat) (s : State) : (execCrucibleRetentionEntry group s).Marked s := by
  unfold execCrucibleRetentionEntry
  refine stepIf_mark ?_
  simp

/-! ## Security -/

@[simp] theorem quote_mark (s : State) (nonce binding : List Byte) : (quote s nonce binding).2.mark = s.mark := by
  unfold quote
  simp

@[simp] theorem enrol_mark (s : State) (key sig : List Byte) : (enrol s key sig).2.mark = s.mark := by
  unfold enrol
  (repeat' split) <;> simp

@[simp] theorem kekWrap_mark (s : State) (r : KekRequest) : (kekWrap s r).2.mark = s.mark := by
  unfold kekWrap
  simp

@[simp] theorem kekExport_mark (s : State) (r : KekRequest) : (kekExport s r).2.2.mark = s.mark := by
  unfold kekExport
  (repeat' split) <;> simp

@[simp] theorem secRun_mark (s : State) (r : SecReq) : (secRun s r).2.2.mark = s.mark := by
  unfold secRun
  (repeat' split) <;> simp

@[simp] theorem setSecOps_mark (s : State) (l : List SecOp) : (setSecOps s l).mark = s.mark := by
  unfold setSecOps
  simp

@[simp] theorem secFinish_mark (s : State) : (secFinish s).mark = s.mark := by
  unfold secFinish
  try dsimp only
  (repeat' split) <;> first
    | (simp; done)
    | (simp [apply_ite State.mark, apply_ite Prod.fst]; done)
    | (rw [foldl_mark]; (try simp); intro t a; try dsimp only; (repeat' split) <;> simp [apply_ite State.mark])
    | (rw [foldl_mark_pair]; (try simp); intro t a; try dsimp only; (repeat' split) <;> simp [apply_ite State.mark, apply_ite Prod.fst])

@[simp] theorem secSettle_mark (n : Nat) (s : State) : (secSettle n s).mark = s.mark := by
  induction n generalizing s with
  | zero => rfl
  | succ n ih =>
    unfold secSettle
    (repeat' split) <;> simp [ih]

@[simp] theorem secSend_mark (s : State) (who : Nat) (r : SecReq) : (secSend s who r).mark = s.mark := by
  unfold secSend
  dsimp only
  (repeat' split) <;> simp

theorem execSpGetIdentity_mark (slot : Nat) (s : State) : (execSpGetIdentity slot s).Marked s := by
  unfold execSpGetIdentity
  refine stepIf_mark ?_
  simp

theorem execSpQuote_mark (slot : Nat) (nonce : List Byte) (s : State) : (execSpQuote slot nonce s).Marked s := by
  unfold execSpQuote
  refine stepIf_mark ?_
  simp

theorem execSpEnrolKeyManager_mark (slot : Nat) (key sig : List Byte) (s : State) : (execSpEnrolKeyManager slot key sig s).Marked s := by
  unfold execSpEnrolKeyManager
  refine stepIf_mark ?_
  simp

theorem execSpKekExport_mark (slot : Nat) (r : KekRequest) (s : State) : (execSpKekExport slot r s).Marked s := by
  unfold execSpKekExport
  refine stepIf_mark ?_
  simp

theorem execSecurityOpDone_mark (s : State) : (execSecurityOpDone s).Marked s := by
  unfold execSecurityOpDone
  refine stepIf_mark ?_
  simp

@[simp] theorem secReceive_mark (s : State) (slot op : Nat) : (secReceive s slot op).mark = s.mark := by
  unfold secReceive
  try dsimp only
  (repeat' split) <;> first
    | (simp; done)
    | (simp [apply_ite State.mark, apply_ite Prod.fst]; done)
    | (rw [foldl_mark]; (try simp); intro t a; try dsimp only; (repeat' split) <;> simp [apply_ite State.mark])
    | (rw [foldl_mark_pair]; (try simp); intro t a; try dsimp only; (repeat' split) <;> simp [apply_ite State.mark, apply_ite Prod.fst])

theorem execSecurityReceive_mark (slot : Nat) (s : State) : (execSecurityReceive slot s).Marked s := by
  unfold execSecurityReceive
  refine stepIf_mark ?_
  simp

end Sys2Proof.Machine
end

