-- ==== Sys2Proof/Laws/KeptCommands.lean ====
section
/-! SUPPORT. That the operations and commands of the standard commands, housekeeping, the Wall, the slices and the strike leave the mark of a state, or keep it. -/

namespace Sys2Proof.Machine

set_option linter.all false

/-! ## Standard -/

@[simp] theorem endReply_mark (s : State) (k : Nat) (r : Nat × Nat × Bool) : (endReply s k r).mark = s.mark := by
  unfold endReply
  simp

@[simp] theorem stdFault_mark (s : State) (k : Nat) (st : W16) : (stdFault s k st).mark = s.mark := by
  unfold stdFault
  try dsimp only
  (repeat' split) <;> first
    | (simp; done)
    | (simp [apply_ite State.mark, apply_ite Prod.fst]; done)
    | (rw [foldl_mark]; (try simp); intro t a; try dsimp only; (repeat' split) <;> simp [apply_ite State.mark])
    | (rw [foldl_mark_pair]; (try simp); intro t a; try dsimp only; (repeat' split) <;> simp [apply_ite State.mark, apply_ite Prod.fst])

@[simp] theorem stdEnd_mark (s : State) (k : Nat) : (stdEnd s k).mark = s.mark := by
  unfold stdEnd
  split <;> simp

@[simp] theorem stageBuf_mark (s : State) (k : Nat) (i : BitVec 4) (bytes : Nat) : (stageBuf s k i bytes).mark = s.mark := by
  unfold stageBuf
  dsimp only
  (repeat' split) <;> simp

@[simp] theorem nextStage_mark (s : State) (k : Nat) : (nextStage s k).mark = s.mark := by
  unfold nextStage
  simp

@[simp] theorem stageWord_mark (k : Nat) (w : StdWord) (h : ∀ t r, (w.work.start t r).mark = t.mark) :
    (stageWord k w).mark = w.at_.mark := by
  unfold stageWord
  split <;> simp [h]

@[simp] theorem stdHget_at_mark (s : State) (k : Nat) (i : BitVec 4) (off len : Nat) (detached : Bool) : (stdHget s k i off len detached).at_.mark = s.mark := by
  unfold stdHget
  dsimp only
  simp

@[simp] theorem stdHget_work_mark (s : State) (k : Nat) (i : BitVec 4) (off len : Nat) (detached : Bool) (t : State) (r : Nat) : ((stdHget s k i off len detached).work.start t r).mark = t.mark := by
  unfold stdHget
  dsimp only
  simp

@[simp] theorem stdHput_at_mark (s : State) (k off : Nat) : (stdHput s k off).at_.mark = s.mark := by
  unfold stdHput
  rfl

@[simp] theorem stdHput_work_mark (s : State) (k off : Nat) (t : State) (r : Nat) : ((stdHput s k off).work.start t r).mark = t.mark := by
  unfold stdHput
  dsimp only
  simp

@[simp] theorem stdRead_at_mark (s : State) (k lba len : Nat) : (stdRead s k lba len).at_.mark = s.mark := by
  unfold stdRead
  dsimp only
  simp

@[simp] theorem stdRead_work_mark (s : State) (k lba len : Nat) (t : State) (r : Nat) : ((stdRead s k lba len).work.start t r).mark = t.mark := by
  unfold stdRead
  dsimp only
  simp

@[simp] theorem remapOp_start_mark (on : Bool) (o : AsyncOp) (h : ∀ t r, (o.start t r).mark = t.mark) (t : State) (r : Nat) :
    ((remapOp on o).start t r).mark = t.mark := by
  unfold remapOp
  split <;> simp [h]

@[simp] theorem stdWrite_at_mark (s : State) (k lba : Nat) (append : Bool) : (stdWrite s k lba append).at_.mark = s.mark := by
  unfold stdWrite
  dsimp only
  (repeat' split) <;> simp

@[simp] theorem stdWrite_work_mark (s : State) (k lba : Nat) (append : Bool) (t : State) (r : Nat) : ((stdWrite s k lba append).work.start t r).mark = t.mark := by
  unfold stdWrite
  dsimp only
  (repeat' split) <;> simp

@[simp] theorem stdTrim_at_mark (s : State) (k lba blocks : Nat) : (stdTrim s k lba blocks).at_.mark = s.mark := by
  unfold stdTrim
  dsimp only
  simp

@[simp] theorem stdTrim_work_mark (s : State) (k lba blocks : Nat) (t : State) (r : Nat) : ((stdTrim s k lba blocks).work.start t r).mark = t.mark := by
  unfold stdTrim
  dsimp only
  simp

@[simp] theorem stdCheck_mark (s : State) (k : Nat) (zoned data : Bool) (bytes : Nat) (go : State)
    (h : go.mark = s.mark) : (stdCheck s k zoned data bytes go).mark = s.mark := by
  unfold stdCheck
  dsimp only
  (repeat' split) <;> simp [h]

@[simp] theorem restage_mark (s : State) (k : Nat) (bytes : List Byte) : (restage s k bytes).mark = s.mark := by
  unfold restage
  try dsimp only
  (repeat' split) <;> first
    | (simp; done)
    | (simp [apply_ite State.mark, apply_ite Prod.fst]; done)
    | (rw [foldl_mark]; (try simp); intro t a; try dsimp only; (repeat' split) <;> simp [apply_ite State.mark])
    | (rw [foldl_mark_pair]; (try simp); intro t a; try dsimp only; (repeat' split) <;> simp [apply_ite State.mark, apply_ite Prod.fst])

@[simp] theorem piIn_mark (s : State) (k first n : Nat) : (piIn s k first n).mark = s.mark := by
  unfold piIn
  dsimp only
  split <;> simp

@[simp] theorem piOut_mark (s : State) (k n : Nat) : (piOut s k n).mark = s.mark := by
  unfold piOut
  dsimp only
  split <;> simp

@[simp] theorem piStart_mark (s : State) (k : Nat) (writes : Bool) (go : State) (h : go.mark = s.mark) :
    (piStart s k writes go).mark = s.mark := by
  unfold piStart
  split <;> simp [h]

@[simp] theorem stdWriteIn_mark (s : State) (k lba first n : Nat) (append : Bool) : (stdWriteIn s k lba first n append).mark = s.mark := by
  unfold stdWriteIn
  (repeat' split) <;> simp

theorem execNvmeFlush_mark (slot : Nat) (s : State) : (execNvmeFlush slot s).Marked s := by
  unfold execNvmeFlush
  refine stepIf_mark ?_
  simp

@[simp] theorem writeStage_mark (s : State) (k : Nat) : (writeStage s k).mark = s.mark := by
  unfold writeStage
  dsimp only
  (repeat' split) <;> simp

@[simp] theorem writeBody_mark (s : State) (k : Nat) : (writeBody s k).mark = s.mark := by
  unfold writeBody
  dsimp only
  (repeat' split) <;> simp

theorem execNvmeWrite_mark (slot : Nat) (s : State) : (execNvmeWrite slot s).Marked s := by
  unfold execNvmeWrite
  refine stepIf_mark ?_
  (repeat' split) <;> simp

@[simp] theorem readStage_mark (s : State) (k : Nat) : (readStage s k).mark = s.mark := by
  unfold readStage
  dsimp only
  (repeat' split) <;> simp

@[simp] theorem readBody_mark (s : State) (k : Nat) : (readBody s k).mark = s.mark := by
  unfold readBody
  dsimp only
  (repeat' split) <;> simp

theorem execNvmeRead_mark (slot : Nat) (s : State) : (execNvmeRead slot s).Marked s := by
  unfold execNvmeRead
  refine stepIf_mark ?_
  (repeat' split) <;> simp

@[simp] theorem compareStage_mark (s : State) (k : Nat) : (compareStage s k).mark = s.mark := by
  unfold compareStage
  dsimp only
  (repeat' split) <;> simp

@[simp] theorem compareBody_mark (s : State) (k : Nat) : (compareBody s k).mark = s.mark := by
  unfold compareBody
  dsimp only
  (repeat' split) <;> simp

theorem execNvmeCompare_mark (slot : Nat) (s : State) : (execNvmeCompare slot s).Marked s := by
  unfold execNvmeCompare
  refine stepIf_mark ?_
  (repeat' split) <;> simp

@[simp] theorem verifyStage_mark (s : State) (k : Nat) : (verifyStage s k).mark = s.mark := by
  unfold verifyStage
  dsimp only
  (repeat' split) <;> simp

@[simp] theorem verifyBody_mark (s : State) (k : Nat) : (verifyBody s k).mark = s.mark := by
  unfold verifyBody
  dsimp only
  (repeat' split) <;> simp

theorem execNvmeVerify_mark (slot : Nat) (s : State) : (execNvmeVerify slot s).Marked s := by
  unfold execNvmeVerify
  refine stepIf_mark ?_
  (repeat' split) <;> simp

@[simp] theorem stageZeros_mark (s : State) (k first n : Nat) : (stageZeros s k first n).mark = s.mark := by
  unfold stageZeros
  try dsimp only
  (repeat' split) <;> first
    | (simp; done)
    | (simp [apply_ite State.mark, apply_ite Prod.fst]; done)
    | (rw [foldl_mark]; (try simp); intro t a; try dsimp only; (repeat' split) <;> simp [apply_ite State.mark])
    | (rw [foldl_mark_pair]; (try simp); intro t a; try dsimp only; (repeat' split) <;> simp [apply_ite State.mark, apply_ite Prod.fst])

@[simp] theorem zeroesStage_mark (s : State) (k : Nat) : (zeroesStage s k).mark = s.mark := by
  unfold zeroesStage
  dsimp only
  (repeat' split) <;> simp

@[simp] theorem zeroesBody_mark (s : State) (k : Nat) : (zeroesBody s k).mark = s.mark := by
  unfold zeroesBody
  dsimp only
  (repeat' split) <;> simp

theorem execNvmeWriteZeroes_mark (slot : Nat) (s : State) : (execNvmeWriteZeroes slot s).Marked s := by
  unfold execNvmeWriteZeroes
  refine stepIf_mark ?_
  (repeat' split) <;> simp

@[simp] theorem dsmStage_mark (s : State) (k : Nat) : (dsmStage s k).mark = s.mark := by
  unfold dsmStage
  dsimp only
  (repeat' split) <;> simp

@[simp] theorem dsmBody_mark (s : State) (k : Nat) : (dsmBody s k).mark = s.mark := by
  unfold dsmBody
  dsimp only
  (repeat' split) <;> simp

theorem execNvmeDatasetManagement_mark (slot : Nat) (s : State) : (execNvmeDatasetManagement slot s).Marked s := by
  unfold execNvmeDatasetManagement
  refine stepIf_mark ?_
  (repeat' split) <;> simp

@[simp] theorem sendAction_at_mark (s : State) (k : Nat) : (sendAction s k).at_.mark = s.mark := by
  unfold sendAction
  dsimp only
  simp

@[simp] theorem sendAction_work_mark (s : State) (k : Nat) (t : State) (r : Nat) : ((sendAction s k).work.start t r).mark = t.mark := by
  unfold sendAction
  dsimp only
  simp

@[simp] theorem sendBody_mark (s : State) (k : Nat) : (sendBody s k).mark = s.mark := by
  unfold sendBody
  dsimp only
  (repeat' split) <;> simp

theorem execZoneManagementSend_mark (slot : Nat) (s : State) : (execZoneManagementSend slot s).Marked s := by
  unfold execZoneManagementSend
  refine stepIf_mark ?_
  (repeat' split) <;> simp

@[simp] theorem receiveReport_at_mark (s : State) (k : Nat) : (receiveReport s k).at_.mark = s.mark := by
  unfold receiveReport
  dsimp only
  simp

@[simp] theorem receiveReport_work_mark (s : State) (k : Nat) (t : State) (r : Nat) : ((receiveReport s k).work.start t r).mark = t.mark := by
  unfold receiveReport
  dsimp only
  simp

@[simp] theorem sendReport_at_mark (s : State) (k : Nat) : (sendReport s k).at_.mark = s.mark := by
  unfold sendReport
  simp

@[simp] theorem sendReport_work_mark (s : State) (k : Nat) (t : State) (r : Nat) :
    ((sendReport s k).work.start t r).mark = t.mark := by
  unfold sendReport
  simp

@[simp] theorem receiveBody_mark (s : State) (k : Nat) : (receiveBody s k).mark = s.mark := by
  unfold receiveBody
  dsimp only
  (repeat' split) <;> simp

theorem execZoneManagementReceive_mark (slot : Nat) (s : State) : (execZoneManagementReceive slot s).Marked s := by
  unfold execZoneManagementReceive
  refine stepIf_mark ?_
  (repeat' split) <;> simp

@[simp] theorem appendBody_mark (s : State) (k : Nat) : (appendBody s k).mark = s.mark := by
  unfold appendBody
  dsimp only
  have h : (piStart s k true (stageWord k (stdHget s k 8 0 (stdBlocks (getSlot s k) * hostSize s (getSlot s k)) true))).mark
      = s.mark := piStart_mark _ _ _ _ (by simp)
  split
  · split
    · simp
    · refine stdCheck_mark _ _ _ _ _ _ ?_
      split
      · simp
      · exact h
  · split
    · simp
    · simp

theorem execZoneAppend_mark (slot : Nat) (s : State) : (execZoneAppend slot s).Marked s := by
  unfold execZoneAppend
  refine stepIf_mark ?_
  (repeat' split) <;> simp

@[simp] theorem zrangePut_mark (s : State) (k : Nat) : (zrangePut s k).mark = s.mark := by
  unfold zrangePut
  try dsimp only
  (repeat' split) <;> first
    | (simp; done)
    | (simp [apply_ite State.mark, apply_ite Prod.fst]; done)
    | (rw [foldl_mark]; (try simp); intro t a; try dsimp only; (repeat' split) <;> simp [apply_ite State.mark])
    | (rw [foldl_mark_pair]; (try simp); intro t a; try dsimp only; (repeat' split) <;> simp [apply_ite State.mark, apply_ite Prod.fst])

@[simp] theorem zrangeGet_mark (s : State) (k : Nat) : (zrangeGet s k).mark = s.mark := by
  unfold zrangeGet
  try dsimp only
  (repeat' split) <;> first
    | (simp; done)
    | (simp [apply_ite State.mark, apply_ite Prod.fst]; done)
    | (rw [foldl_mark]; (try simp); intro t a; try dsimp only; (repeat' split) <;> simp [apply_ite State.mark])
    | (rw [foldl_mark_pair]; (try simp); intro t a; try dsimp only; (repeat' split) <;> simp [apply_ite State.mark, apply_ite Prod.fst])

@[simp] theorem zrangeBody_mark (s : State) (k : Nat) : (zrangeBody s k).mark = s.mark := by
  unfold zrangeBody
  dsimp only
  (repeat' split) <;> simp

@[simp] theorem deviceStage_mark (s : State) (k n : Nat) : (deviceStage s k n).mark = s.mark := by
  unfold deviceStage
  split <;> simp

/-! ## Thermal -/

@[simp] theorem levelStrike_mark (s : State) : (levelStrike s).mark = s.mark := by
  unfold levelStrike
  (repeat' split) <;> simp [apply_ite State.mark]

@[simp] theorem driftCheck_mark (s : State) (input : Nat) : (driftCheck s input).mark = s.mark := by
  unfold driftCheck
  (repeat' split) <;> simp [apply_ite State.mark]

@[simp] theorem thermalShutdown_mark (s : State) (input : Nat) : (thermalShutdown s input).mark = s.mark := by
  unfold thermalShutdown
  (repeat' split) <;> simp

theorem execCriticalComparatorTrip_mark (sensor : Nat) (s : State) : (execCriticalComparatorTrip sensor s).Marked s := by
  unfold execCriticalComparatorTrip
  (repeat' split) <;> first | trivial | (refine next_mark ?_; simp; done)

theorem execFlushOvertempHalt_mark (sensor : Nat) (s : State) : (execFlushOvertempHalt sensor s).Marked s := by
  unfold execFlushOvertempHalt
  (repeat' split) <;> first | trivial | (refine stepIf_mark ?_; simp; done)

theorem execThermalRestartRelease_kept (w : WakeEnv) (s : State) : (execThermalRestartRelease w s).Kept s := by
  unfold execThermalRestartRelease
  try dsimp only
  (repeat' split) <;> first
    | trivial
    | exact stepIf_kept (wakeNow_kept ..)
    | exact next_kept (wakeNow_kept ..)
    | exact stepIf_kept ((wakeNow_kept ..).after_mark (by simp))
    | exact next_kept ((wakeNow_kept ..).after_mark (by simp))
    | exact stepIf_kept (kept_of_mark (by simp))
    | exact next_kept (kept_of_mark (by simp))
    | (refine stepIf_kept ?_; (repeat' split) <;> first | exact wakeNow_kept .. | exact (wakeNow_kept ..).after_mark (by simp) | exact kept_of_mark (by simp))
    | (refine next_kept ?_; (repeat' split) <;> first | exact wakeNow_kept .. | exact (wakeNow_kept ..).after_mark (by simp) | exact kept_of_mark (by simp))

@[simp] theorem faultySample_mark (s : State) (k : Nat) (x : HkInput) (open_ : Bool) : (faultySample s k x open_).mark = s.mark := by
  unfold faultySample
  dsimp only
  (repeat' split) <;> simp

@[simp] theorem takeReading_mark (s : State) (k : Nat) (x : HkInput) (v : Int) : (takeReading s k x v).mark = s.mark := by
  unfold takeReading
  (repeat' split) <;> simp

@[simp] theorem goodSample_mark (s : State) (k : Nat) (x : HkInput) (v : Int) : (goodSample s k x v).mark = s.mark := by
  unfold goodSample
  dsimp only
  (repeat' split) <;> simp

@[simp] theorem supplySample_mark (s : State) (k : Nat) (v : Int) : (supplySample s k v).mark = s.mark := by
  unfold supplySample
  dsimp only
  (repeat' split) <;> simp

@[simp] theorem sample_mark (s : State) (k : Nat) (c : Conversion) : (sample s k c).mark = s.mark := by
  unfold sample
  (repeat' split) <;> simp

theorem execHousekeepingSample_mark (input : Nat) (c : Conversion) (s : State) : (execHousekeepingSample input c s).Marked s := by
  unfold execHousekeepingSample
  refine stepIf_mark ?_
  simp

/-! ## Wall -/

@[simp] theorem linkChange_mark (s : State) (p : Nat) (x : CkPort) : (linkChange s p x).mark = s.mark := by
  unfold linkChange
  simp

@[simp] theorem linkDown_mark (s : State) (p : Nat) : (linkDown s p).mark = s.mark := by
  unfold linkDown
  simp

theorem execFlitCrcFail_mark (port : Fin 4) (s : State) : (execFlitCrcFail port s).Marked s := by
  unfold execFlitCrcFail
  refine stepIf_mark ?_
  (repeat' split) <;> simp

theorem execLinkElectricalIdle_mark (port : Fin 4) (s : State) : (execLinkElectricalIdle port s).Marked s := by
  unfold execLinkElectricalIdle
  refine stepIf_mark ?_
  simp

@[simp] theorem linkTrained_mark (s : State) (p : Nat) (r : LinkReport) : (linkTrained s p r).mark = s.mark := by
  unfold linkTrained
  (repeat' split) <;> simp

theorem execLinkTrainingDone_mark (port : Fin 4) (r : LinkReport) (s : State) : (execLinkTrainingDone port r s).Marked s := by
  unfold execLinkTrainingDone
  refine stepIf_mark ?_
  simp

@[simp] theorem serveNow_mark (s : State) : (serveNow s).mark = s.mark := by
  unfold serveNow
  (repeat' split) <;> simp

@[simp] theorem formed_mark (s : State) (size skip strike : Nat) : (formed s size skip strike).mark = s.mark := by
  unfold formed
  (repeat' split) <;> simp [apply_ite State.mark]

@[simp] theorem notFormed_mark (s : State) : (notFormed s).mark = s.mark := by
  unfold notFormed
  (repeat' split) <;> simp [apply_ite State.mark]

theorem execFormMessage_mark (size skip : Nat) (strike : W64) (s : State) : (execFormMessage size skip strike s).Marked s := by
  unfold execFormMessage
  (repeat' split) <;> first | trivial | (refine stepIf_mark ?_; simp; done)

theorem execFormationTimeout_mark (s : State) : (execFormationTimeout s).Marked s := by
  unfold execFormationTimeout
  refine stepIf_mark ?_
  simp

@[simp] theorem welcome_mark (s : State) : (welcome s).mark = s.mark := by
  unfold welcome
  (repeat' split) <;> simp [apply_ite State.mark]

@[simp] theorem routesHead_mark (s : State) (far : List (Nat × Nat)) : (routesHead s far).mark = s.mark := by
  unfold routesHead
  simp

@[simp] theorem loseHead_mark (s : State) : (loseHead s).mark = s.mark := by
  unfold loseHead
  refine foldl_mark _ (fun t e => ?_) _ _
  dsimp only
  (repeat' split) <;> simp

@[simp] theorem routesMember_mark (s : State) (far : List (Nat × Nat)) : (routesMember s far).mark = s.mark := by
  unfold routesMember
  dsimp only
  (repeat' split) <;> simp

theorem execRouteTablesInForce_mark (far : List (Nat × Nat)) (s : State) : (execRouteTablesInForce far s).Marked s := by
  unfold execRouteTablesInForce
  (repeat' split) <;> first | trivial | (refine stepIf_mark ?_; simp; done)

theorem execEndToEndAckTimeout_mark (pkt : Nat) (s : State) : (execEndToEndAckTimeout pkt s).Marked s := by
  unfold execEndToEndAckTimeout
  (repeat' split) <;> first | trivial | (refine stepIf_mark ?_; simp; done)

theorem execDownNotice_mark (member : Nat) (s : State) : (execDownNotice member s).Marked s := by
  unfold execDownNotice
  refine stepIf_mark ?_
  simp

@[simp] theorem failMember_mark (s : State) (m : Nat) : (failMember s m).mark = s.mark := by
  unfold failMember
  (repeat' split) <;> simp [apply_ite State.mark]

@[simp] theorem takeMarker_mark (s : State) (m : Marker) : (takeMarker s m).mark = s.mark := by
  unfold takeMarker
  simp

theorem execStrikeMarker_mark (m : Marker) (s : State) : (execStrikeMarker m s).Marked s := by
  unfold execStrikeMarker
  refine stepIf_mark ?_
  simp

theorem execMarkerHoldover_mark (s : State) : (execMarkerHoldover s).Marked s := by
  unfold execMarkerHoldover
  refine stepIf_mark ?_
  simp

@[simp] theorem memberCredits_mark (s : State) : (memberCredits s).mark = s.mark := by
  unfold memberCredits
  (repeat' split) <;> simp [apply_ite State.mark]

@[simp] theorem wallStrike_mark (s : State) : (wallStrike s).mark = s.mark := by
  unfold wallStrike
  (repeat' split) <;> simp [apply_ite State.mark]

/-! ## WorkOrder -/

theorem zmgmtWord_mark (slot : Nat) (f : Fields) (s : State) : (zmgmtWord slot f s).Marked s := by
  unfold zmgmtWord
  (repeat' split) <;> first
    | exact execReportZones_mark .. | exact execExtendedReportZones_mark .. | exact execZoneOpen_mark ..
    | exact execZoneClose_mark .. | exact execZoneFinish_mark .. | exact execZoneReset_mark ..
    | exact execZoneOffline_mark .. | exact execZoneSetExtension_mark ..

theorem tenantStep_mark (slot : Nat) (f : Fields) (s : State) : (tenantStep slot f s).Marked s := by
  unfold tenantStep
  split <;> first
    | exact execTenantModify_mark .. | exact execTenantReset_mark .. | exact execTenantDestroy_mark ..
    | exact execTenantQuery_mark .. | exact execTenantCreate_mark ..

theorem wordLow_mark (op slot : Nat) (f : Fields) (s : State) : (wordLow op slot f s).Marked s := by
  unfold wordLow
  split
  · exact execAdd_mark ..
  · exact execSub_mark ..
  · exact execAnd_mark ..
  · exact execOr_mark ..
  · exact execXor_mark ..
  · exact execShl_mark ..
  · exact execShr_mark ..
  · exact execLdi_mark ..
  · exact execCmp_mark ..
  · exact execSel_mark ..
  · exact execBr_mark ..
  · exact execBz_mark ..
  · exact execBnz_mark ..
  · exact execCallp_mark ..
  · exact execEndOrder_mark ..
  · exact execFault_mark ..
  · exact execYield_mark ..
  · exact execBalloc_mark ..
  · exact execBfree_mark ..
  · exact execBfill_mark ..
  · exact execBcopy_mark ..
  · exact execBslice_mark ..
  · exact execHget_mark ..
  · exact execHput_mark ..
  · trivial

theorem wordHigh_mark (op slot : Nat) (f : Fields) (s : State) : (wordHigh op slot f s).Marked s := by
  unfold wordHigh
  split
  · exact execZread_mark ..
  · exact execZappend_mark ..
  · exact execZwrite_mark ..
  · exact zmgmtWord_mark ..
  · exact execCread_mark ..
  · exact execCwrite_mark ..
  · exact execCtrim_mark ..
  · exact execParchk_mark ..
  · exact execSeal_mark ..
  · exact execOpenRecord_mark ..
  · exact execMac_mark ..
  · exact execDgfeed_mark ..
  · exact execDgfin_mark ..
  · exact execDgload_mark ..
  · exact execWait_mark ..
  · exact execFence_mark ..
  · exact execTime_mark ..
  · exact execPlumb_mark ..
  · exact execPost_mark ..
  · exact execNote_mark ..
  · exact execPower_mark ..
  · exact tenantStep_mark ..
  · exact execKeyload_mark ..
  · exact execPatload_mark ..
  · exact execOpset_mark ..
  · exact execHmread_mark ..
  · trivial

theorem stepWord_mark (slot : Nat) (s : State) : (stepWord slot s).Marked s := by
  unfold stepWord
  split
  · split
    · trivial
    · exact deviceStage_mark ..
  · split
    · exact wordLow_mark ..
    · exact wordHigh_mark ..

theorem runSlice_mark (slot n : Nat) (s : State) : (runSlice slot n s).mark = s.mark := by
  induction n generalizing s with
  | zero => rfl
  | succ n ih =>
    have h := stepWord_mark slot s
    unfold runSlice
    split
    · rename_i t ht
      rw [ht] at h
      exact (ih t).trans h
    · rfl

theorem execExecuteWorkOrder_mark (slot : Nat) (s : State) : (execExecuteWorkOrder slot s).Marked s := by
  have h := stepWord_mark slot s
  unfold execExecuteWorkOrder
  split
  · rename_i t ht
    rw [ht] at h
    exact (runSlice_mark ..).trans h
  · trivial

@[simp] theorem openAnswer_mark (s : State) (rid : Nat) (q : Req) (r : HostReply) : (openAnswer s rid q r).mark = s.mark := by
  unfold openAnswer
  dsimp only
  (repeat' split) <;> simp

@[simp] theorem arriveResult_mark (s : State) (rid : Nat) (q : Req) (r : HostReply) : (arriveResult s rid q r).mark = s.mark := by
  unfold arriveResult
  (repeat' split) <;> simp

theorem execResultArrival_mark (rid : Nat) (r : HostReply) (s : State) : (execResultArrival rid r s).Marked s := by
  unfold execResultArrival
  (repeat' split) <;> first | trivial | (refine stepIf_mark ?_; simp; done)

/-! ## Strike -/

@[simp] theorem handHeld_mark (s : State) : (handHeld s).mark = s.mark := by
  unfold handHeld
  simp only [mark_mk]
  rw [foldl_mark]
  intro t l
  split <;> simp

@[simp] theorem changesDue_mark (s : State) : (changesDue s).mark = s.mark := by
  unfold changesDue
  simp

@[simp] theorem grantBudgets_mark (s : State) : (grantBudgets s).mark = s.mark := by
  unfold grantBudgets
  simp

@[simp] theorem endSlices_mark (s : State) : (endSlices s).mark = s.mark := by
  unfold endSlices
  simp

@[simp] theorem wakeByStrike_mark (s : State) : (wakeByStrike s).mark = s.mark := by
  unfold wakeByStrike
  refine foldl_mark _ (fun t e => ?_) _ _
  (repeat' split) <;> simp

@[simp] theorem fetchContext_mark (s : State) (k : Nat) : (fetchContext s k).mark = s.mark := by
  unfold fetchContext
  try dsimp only
  (repeat' split) <;> first
    | (simp; done)
    | (simp [apply_ite State.mark, apply_ite Prod.fst]; done)
    | (rw [foldl_mark]; (try simp); intro t a; try dsimp only; (repeat' split) <;> simp [apply_ite State.mark])
    | (rw [foldl_mark_pair]; (try simp); intro t a; try dsimp only; (repeat' split) <;> simp [apply_ite State.mark, apply_ite Prod.fst])

@[simp] theorem fetchContexts_mark (s : State) : (fetchContexts s).mark = s.mark := by
  unfold fetchContexts
  try dsimp only
  (repeat' split) <;> first
    | (simp; done)
    | (simp [apply_ite State.mark, apply_ite Prod.fst]; done)
    | (rw [foldl_mark]; (try simp); intro t a; try dsimp only; (repeat' split) <;> simp [apply_ite State.mark])
    | (rw [foldl_mark_pair]; (try simp); intro t a; try dsimp only; (repeat' split) <;> simp [apply_ite State.mark, apply_ite Prod.fst])

@[simp] theorem startSlices_mark (s : State) : (startSlices s).mark = s.mark := by
  unfold startSlices
  simp

@[simp] theorem returnBuffer_mark (s : State) (id : Nat) (b : Buf) : (returnBuffer s id b).mark = s.mark := by
  unfold returnBuffer
  (repeat' split) <;> simp

@[simp] theorem quenchStrike_mark (s : State) : (quenchStrike s).mark = s.mark := by
  have body : ∀ (r : QuenchRun) id p, (quenchBody r id p).s.mark = r.s.mark := by
    intro r id p; unfold quenchBody; dsimp only; split <;> simp
  have buf : ∀ (r : QuenchRun) id b, (quenchBuffer r id b).s.mark = r.s.mark := by
    intro r id b; unfold quenchBuffer; dsimp only; (repeat' split) <;> simp
  have run : ∀ (f : QuenchRun → Bool × Nat → QuenchRun), (∀ r e, (f r e).s.mark = r.s.mark) →
      ∀ (l : List (Bool × Nat)) r, (l.foldl f r).s.mark = r.s.mark := by
    intro f h l
    induction l with
    | nil => exact fun r => rfl
    | cons e l ih => intro r; rw [List.foldl_cons, ih, h]
  unfold quenchStrike
  dsimp only
  rw [mark_mk]
  refine run _ (fun r e => ?_) _ _
  (repeat' split) <;> simp [body, buf]

@[simp] theorem endOfStrike_mark (s : State) : (endOfStrike s).mark = s.mark := by
  unfold endOfStrike
  (repeat' split) <;> simp [apply_ite State.mark]

@[simp] theorem pruneLedger_mark (s : State) : (pruneLedger s).mark = s.mark := by
  unfold pruneLedger
  simp

@[simp] theorem mediaStrike_mark (s : State) (e : StrikeEnv) (n : Nat) : (mediaStrike s e n).mark = s.mark := by
  unfold mediaStrike
  simp

@[simp] theorem engineStrikes_mark (s : State) : (engineStrikes s).mark = s.mark := by
  unfold engineStrikes
  simp

@[simp] theorem serviceStrikes_mark (s : State) : (serviceStrikes s).mark = s.mark := by
  unfold serviceStrikes
  simp

@[simp] theorem countStrike_mark (s : State) : (countStrike s).mark = s.mark := by
  unfold countStrike
  simp

@[simp] theorem workStrike_mark (s : State) (e : StrikeEnv) : (workStrike s e).mark = s.mark := by
  unfold workStrike
  simp

theorem execStrike_mark (e : StrikeEnv) (s : State) : (execStrike e s).Marked s := by
  unfold execStrike
  (repeat' split) <;> first | trivial | (refine stepIf_mark ?_; simp; done)

end Sys2Proof.Machine
end

