-- ==== Sys2Proof/Laws/Tbl.lean ====
section
/-! SUPPORT. Laws of the sparse tables: a read after a write, and that every operation keeps the canonical form. -/

namespace Sys2Proof.Machine

variable {α : Type}

theorem Tbl.get_erase_self (d : Nat → α) (m : Tbl α) (k : Nat) : Tbl.get d (Tbl.erase m k) k = d k := by
  induction m with
  | nil => rfl
  | cons e m ih =>
    simp only [Tbl.erase]
    split
    · exact ih
    · simp [Tbl.get, *]

theorem Tbl.get_erase_ne (d : Nat → α) (m : Tbl α) {k j : Nat} (h : j ≠ k) :
    Tbl.get d (Tbl.erase m k) j = Tbl.get d m j := by
  induction m with
  | nil => rfl
  | cons e m ih =>
    simp only [Tbl.erase]
    split
    · rename_i hk
      have : e.1 ≠ j := by omega
      simp [Tbl.get, this, ih]
    · simp only [Tbl.get, ih]

theorem Tbl.get_insert_self (d : Nat → α) (m : Tbl α) (k : Nat) (v : α) : Tbl.get d (Tbl.insert m k v) k = v := by
  induction m with
  | nil => simp [Tbl.insert, Tbl.get]
  | cons e m ih =>
    simp only [Tbl.insert]
    split
    · simp [Tbl.get]
    · split
      · simp [Tbl.get]
      · simp [Tbl.get, *]

theorem Tbl.get_insert_ne (d : Nat → α) (m : Tbl α) {k j : Nat} (v : α) (h : j ≠ k) :
    Tbl.get d (Tbl.insert m k v) j = Tbl.get d m j := by
  induction m with
  | nil => simp [Tbl.insert, Tbl.get, h.symm]
  | cons e m ih =>
    simp only [Tbl.insert]
    split
    · rename_i hk
      have : e.1 ≠ j := by omega
      simp [Tbl.get, h.symm, this]
    · split
      · simp [Tbl.get, h.symm]
      · simp only [Tbl.get, ih]

/-- A read of the key that was written. -/
@[simp] theorem Tbl.get_set_self [DecidableEq α] (d : Nat → α) (m : Tbl α) (k : Nat) (v : α) :
    Tbl.get d (Tbl.set d m k v) k = v := by
  unfold Tbl.set
  split
  · rename_i h; rw [h, Tbl.get_erase_self]
  · rw [Tbl.get_insert_self]

/-- A read of any other key. -/
theorem Tbl.get_set_ne [DecidableEq α] (d : Nat → α) (m : Tbl α) {k j : Nat} (v : α) (h : j ≠ k) :
    Tbl.get d (Tbl.set d m k v) j = Tbl.get d m j := by
  unfold Tbl.set
  split
  · exact Tbl.get_erase_ne d m h
  · exact Tbl.get_insert_ne d m v h

/-- A read after a write, of whichever key. -/
theorem Tbl.get_set [DecidableEq α] (d : Nat → α) (m : Tbl α) (k j : Nat) (v : α) :
    Tbl.get d (Tbl.set d m k v) j = if j = k then v else Tbl.get d m j := by
  split
  · rename_i h; rw [h, Tbl.get_set_self]
  · rename_i h; exact Tbl.get_set_ne d m v h

@[simp] theorem Tbl.get_nil (d : Nat → α) (k : Nat) : Tbl.get d [] k = d k := rfl

/-! ## The canonical form -/

/-- Rising keys, as a chain. -/
theorem Tbl.sorted_iff (m : Tbl α) : Tbl.sorted m = true ↔ m.Pairwise (fun a b => a.1 < b.1) := by
  induction m with
  | nil => simp [Tbl.sorted]
  | cons e m ih =>
    cases m with
    | nil => simp [Tbl.sorted]
    | cons f m =>
      simp only [Tbl.sorted, Bool.and_eq_true, decide_eq_true_eq, ih, List.pairwise_cons (a := e), List.mem_cons]
      constructor
      · rintro ⟨h, hp⟩
        refine ⟨?_, hp⟩
        rintro b (rfl | hb)
        · exact h
        · exact Nat.lt_trans h (List.rel_of_pairwise_cons hp hb)
      · rintro ⟨h, hp⟩
        exact ⟨h f (Or.inl rfl), hp⟩

theorem Tbl.wf_iff [DecidableEq α] (d : Nat → α) (m : Tbl α) :
    Tbl.wf d m = true ↔ m.Pairwise (fun a b => a.1 < b.1) ∧ ∀ e ∈ m, e.2 ≠ d e.1 := by
  simp [Tbl.wf, Tbl.sorted_iff, List.all_eq_true]

@[simp] theorem Tbl.wf_nil [DecidableEq α] (d : Nat → α) : Tbl.wf d [] = true := rfl

theorem Tbl.erase_eq_filter (m : Tbl α) (k : Nat) : Tbl.erase m k = m.filter fun e => e.1 != k := by
  induction m with
  | nil => rfl
  | cons e m ih =>
    simp only [Tbl.erase, List.filter_cons, ih]
    split <;> rename_i h <;> simp [h]

theorem Tbl.wf_filter [DecidableEq α] (d : Nat → α) {m : Tbl α} (p : Nat × α → Bool) (h : Tbl.wf d m = true) :
    Tbl.wf d (m.filter p) = true := by
  rw [Tbl.wf_iff] at *
  exact ⟨h.1.filter p, fun e he => h.2 e (List.mem_filter.1 he).1⟩

theorem Tbl.wf_erase [DecidableEq α] (d : Nat → α) {m : Tbl α} (k : Nat) (h : Tbl.wf d m = true) :
    Tbl.wf d (Tbl.erase m k) = true := by
  rw [Tbl.erase_eq_filter]; exact Tbl.wf_filter d _ h

theorem Tbl.mem_insert {m : Tbl α} {k : Nat} {v : α} {e : Nat × α} (h : e ∈ Tbl.insert m k v) :
    e = (k, v) ∨ e ∈ m := by
  induction m with
  | nil => simpa [Tbl.insert] using h
  | cons f m ih =>
    simp only [Tbl.insert] at h
    split at h
    · rcases List.mem_cons.1 h with h | h
      · exact .inl h
      · exact .inr (List.mem_cons_of_mem _ h)
    · split at h
      · rcases List.mem_cons.1 h with h | h
        · exact .inl h
        · exact .inr h
      · rcases List.mem_cons.1 h with h | h
        · exact .inr (h ▸ List.mem_cons_self ..)
        · rcases ih h with h | h
          · exact .inl h
          · exact .inr (List.mem_cons_of_mem _ h)

theorem Tbl.wf_insert [DecidableEq α] (d : Nat → α) {m : Tbl α} (k : Nat) {v : α} (hv : v ≠ d k)
    (h : Tbl.wf d m = true) : Tbl.wf d (Tbl.insert m k v) = true := by
  rw [Tbl.wf_iff] at *
  obtain ⟨hs, hd⟩ := h
  refine ⟨?_, fun e he => ?_⟩
  · induction m with
    | nil => simp [Tbl.insert]
    | cons f m ih =>
      rw [List.pairwise_cons] at hs
      simp only [Tbl.insert]
      split
      · rename_i hk
        rw [List.pairwise_cons]
        exact ⟨fun e he => hk ▸ hs.1 e he, hs.2⟩
      · split
        · rename_i hk
          rw [List.pairwise_cons, List.pairwise_cons]
          refine ⟨fun e he => ?_, hs⟩
          rcases List.mem_cons.1 he with rfl | he
          · exact hk
          · exact Nat.lt_trans hk (hs.1 e he)
        · rename_i h1 h2
          rw [List.pairwise_cons]
          refine ⟨fun e he => ?_, ih hs.2 fun e he => hd e (List.mem_cons_of_mem _ he)⟩
          rcases Tbl.mem_insert he with rfl | he
          · show f.1 < k
            omega
          · exact hs.1 e he
  · rcases Tbl.mem_insert he with rfl | he
    · exact hv
    · exact hd e he

/-- A write keeps the canonical form. -/
theorem Tbl.wf_set [DecidableEq α] (d : Nat → α) {m : Tbl α} (k : Nat) (v : α) (h : Tbl.wf d m = true) :
    Tbl.wf d (Tbl.set d m k v) = true := by
  unfold Tbl.set
  split
  · exact Tbl.wf_erase d k h
  · rename_i hv; exact Tbl.wf_insert d k hv h

theorem Tbl.wf_upd [DecidableEq α] (d : Nat → α) {m : Tbl α} (k : Nat) (f : α → α) (h : Tbl.wf d m = true) :
    Tbl.wf d (Tbl.upd d m k f) = true := Tbl.wf_set d k _ h

theorem Tbl.wf_drop [DecidableEq α] (d : Nat → α) {m : Tbl α} (p : Nat → α → Bool) (h : Tbl.wf d m = true) :
    Tbl.wf d (m.drop p) = true := Tbl.wf_filter d _ h

/-- A change of all entries keeps the canonical form. -/
theorem Tbl.wf_mapAll [DecidableEq α] (d : Nat → α) {m : Tbl α} (f : Nat → α → α) (h : Tbl.wf d m = true) :
    Tbl.wf d (Tbl.mapAll d m f) = true := by
  rw [Tbl.wf_iff] at *
  refine ⟨List.Pairwise.filter _ ?_, fun e he => ?_⟩
  · rw [List.pairwise_map]; exact h.1
  · simpa using (List.mem_filter.1 he).2

theorem Tbl.wf_foldl_set [DecidableEq α] (d : Nat → α) (l : List (Nat × α)) {m : Tbl α} (h : Tbl.wf d m = true) :
    Tbl.wf d (l.foldl (fun n e => Tbl.set d n e.1 e.2) m) = true := by
  induction l generalizing m with
  | nil => exact h
  | cons e l ih => exact ih (Tbl.wf_set d _ _ h)

theorem Tbl.wf_ofList [DecidableEq α] (d : Nat → α) (l : List (Nat × α)) : Tbl.wf d (Tbl.ofList d l) = true :=
  Tbl.wf_foldl_set d l (Tbl.wf_nil d)

/-- A key that a canonical table lists reads as its entry. -/
theorem Tbl.get_of_mem (d : Nat → α) {m : Tbl α} (h : Tbl.sorted m = true) {e : Nat × α} (he : e ∈ m) :
    Tbl.get d m e.1 = e.2 := by
  rw [Tbl.sorted_iff] at h
  induction m with
  | nil => simp at he
  | cons f m ih =>
    rw [List.pairwise_cons] at h
    rcases List.mem_cons.1 he with rfl | he
    · simp [Tbl.get]
    · have := h.1 e he
      simp only [Tbl.get]
      rw [if_neg (by omega), ih h.2 he]

/-- A key that is not listed reads as the default. -/
theorem Tbl.get_of_not_mem (d : Nat → α) {m : Tbl α} {k : Nat} (h : ∀ e ∈ m, e.1 ≠ k) : Tbl.get d m k = d k := by
  induction m with
  | nil => rfl
  | cons f m ih =>
    simp only [Tbl.get]
    rw [if_neg (h f (List.mem_cons_self ..)), ih fun e he => h e (List.mem_cons_of_mem _ he)]

/-! ## Runs of keys -/

theorem Tbl.mem_entries [DecidableEq α] (d : Nat → α) {k : Nat} {l : List α} {e : Nat × α} (h : e ∈ Tbl.entries d k l) :
    k ≤ e.1 ∧ e.1 < k + l.length ∧ e.2 ≠ d e.1 := by
  induction l generalizing k with
  | nil => simp [Tbl.entries] at h
  | cons v l ih =>
    simp only [Tbl.entries] at h
    simp only [List.length_cons]
    split at h
    · obtain ⟨h1, h2, h3⟩ := ih h; exact ⟨by omega, by omega, h3⟩
    · rename_i hv
      rcases List.mem_cons.1 h with rfl | h
      · exact ⟨Nat.le_refl _, by simp, hv⟩
      · obtain ⟨h1, h2, h3⟩ := ih h; exact ⟨by omega, by omega, h3⟩

theorem Tbl.pairwise_entries [DecidableEq α] (d : Nat → α) (k : Nat) (l : List α) :
    (Tbl.entries d k l).Pairwise (fun a b => a.1 < b.1) := by
  induction l generalizing k with
  | nil => simp [Tbl.entries]
  | cons v l ih =>
    simp only [Tbl.entries]
    split
    · exact ih _
    · exact List.pairwise_cons.2 ⟨fun e he => (Tbl.mem_entries d he).1, ih _⟩

theorem Tbl.get_append (d : Nat → α) (a b : Tbl α) (k : Nat) :
    Tbl.get d (a ++ b) k = if a.any (fun e => e.1 == k) then Tbl.get d a k else Tbl.get d b k := by
  induction a with
  | nil => simp
  | cons e a ih =>
    simp only [List.cons_append, Tbl.get, List.any_cons, ih]
    by_cases h : e.1 = k
    · simp [h]
    · have h' : (e.1 == k) = false := by simpa using h
      simp only [h', Bool.false_or, if_neg h]

theorem Tbl.get_filter (d : Nat → α) (m : Tbl α) (p : Nat → Bool) (k : Nat) :
    Tbl.get d (m.filter fun e => p e.1) k = if p k then Tbl.get d m k else d k := by
  induction m with
  | nil => simp
  | cons e m ih =>
    simp only [List.filter_cons]
    by_cases h : e.1 = k
    · subst h; by_cases hp : p e.1 <;> simp [hp, Tbl.get, ih]
    · by_cases hp : p e.1 <;> simp [hp, Tbl.get, h, ih]

theorem Tbl.get_entries [DecidableEq α] (d : Nat → α) (k : Nat) (l : List α) (j : Nat) :
    Tbl.get d (Tbl.entries d k l) j = if k ≤ j then l.getD (j - k) (d j) else d j := by
  induction l generalizing k with
  | nil => simp [Tbl.entries]
  | cons v l ih =>
    simp only [Tbl.entries]
    by_cases hj : j = k
    · subst hj
      split <;> rename_i hv
      · rw [ih]; simp [hv]
      · simp [Tbl.get]
    · have e : k ≤ j → j - k = (j - (k + 1)) + 1 := by omega
      split
      · rw [ih]
        by_cases hk : k ≤ j
        · rw [if_pos hk, if_pos (by omega), e hk, List.getD_cons_succ]
        · rw [if_neg hk, if_neg (by omega)]
      · simp only [Tbl.get]
        rw [if_neg (fun h => hj h.symm), ih]
        by_cases hk : k ≤ j
        · rw [if_pos hk, if_pos (by omega), e hk, List.getD_cons_succ]
        · rw [if_neg hk, if_neg (by omega)]

/-- A read after a write of a run of keys. -/
theorem Tbl.get_setRange [DecidableEq α] (d : Nat → α) (m : Tbl α) (k : Nat) (l : List α) (j : Nat) :
    Tbl.get d (Tbl.setRange d m k l) j = if k ≤ j ∧ j < k + l.length then l.getD (j - k) (d j) else Tbl.get d m j := by
  have hA := Tbl.get_filter d m (fun x => decide (x < k)) j
  have hC := Tbl.get_filter d m (fun x => decide (k + l.length ≤ x)) j
  simp only [Tbl.setRange, Tbl.get_append, hA, hC, Tbl.get_entries]
  by_cases h1 : j < k
  · rw [if_neg (by omega : ¬(k ≤ j ∧ j < k + l.length))]
    split
    · simp [h1]
    · rename_i hn
      have hn' : ∀ e ∈ m, e.1 ≠ j := fun e he hje => hn (List.any_eq_true.2
        ⟨e, List.mem_filter.2 ⟨he, by simp [hje, h1]⟩, by simp [hje]⟩)
      rw [if_neg, Tbl.get_of_not_mem d hn']
      · simp
      · intro h
        obtain ⟨e, he, hej⟩ := List.any_eq_true.1 h
        have := (Tbl.mem_entries d he).1
        simp at hej; omega
  · rw [if_neg]
    · by_cases h2 : j < k + l.length
      · rw [if_pos (⟨by omega, h2⟩ : k ≤ j ∧ j < k + l.length), if_pos (by omega : k ≤ j)]
        by_cases hn : (Tbl.entries d k l).any (fun e => e.1 == j) = true
        · rw [if_pos hn]
        · rw [if_neg hn]
          have hg : Tbl.get d (Tbl.entries d k l) j = d j := Tbl.get_of_not_mem d fun e he hje =>
            hn (List.any_eq_true.2 ⟨e, he, by simp [hje]⟩)
          rw [Tbl.get_entries, if_pos (by omega : k ≤ j)] at hg
          rw [hg, if_neg (by simpa using h2)]
      · rw [if_neg (by omega : ¬(k ≤ j ∧ j < k + l.length)), if_neg]
        · rw [if_pos (by simpa using h2)]
        · intro h
          obtain ⟨e, he, hej⟩ := List.any_eq_true.1 h
          have := (Tbl.mem_entries d he).2.1
          simp at hej; omega
    · intro h
      obtain ⟨e, he, hej⟩ := List.any_eq_true.1 h
      have := (List.mem_filter.1 he).2
      simp at hej this; omega

theorem Tbl.wf_setRange [DecidableEq α] (d : Nat → α) {m : Tbl α} (k : Nat) (l : List α) (h : Tbl.wf d m = true) :
    Tbl.wf d (Tbl.setRange d m k l) = true := by
  rw [Tbl.wf_iff] at *
  have hf : ∀ (p : Nat × α → Bool) e, e ∈ m.filter p → e ∈ m ∧ p e = true := fun p e he => List.mem_filter.1 he
  refine ⟨?_, ?_⟩
  · simp only [Tbl.setRange, List.pairwise_append, List.mem_append]
    refine ⟨h.1.filter _, ⟨Tbl.pairwise_entries d k l, h.1.filter _, ?_⟩, ?_⟩
    · intro a ha b hb
      have := (Tbl.mem_entries d ha).2.1; have := (hf _ _ hb).2; simp at this; omega
    · rintro a ha b (hb | hb)
      · have := (hf _ _ ha).2; have := (Tbl.mem_entries d hb).1; simp at *; omega
      · have := (hf _ _ ha).2; have := (hf _ _ hb).2; simp at *; omega
  · intro e he
    simp only [Tbl.setRange, List.mem_append] at he
    rcases he with he | he | he
    · exact h.2 e (hf _ _ he).1
    · exact (Tbl.mem_entries d he).2.2
    · exact h.2 e (hf _ _ he).1

@[simp] theorem Tbl.length_walk (d : Nat → α) (n k : Nat) (m : Tbl α) : (Tbl.walk d n k m).length = n := by
  induction n generalizing k m with
  | zero => simp [Tbl.walk]
  | succ n ih =>
    cases m with
    | nil => simp [Tbl.walk, ih]
    | cons e m => simp only [Tbl.walk]; split <;> simp [ih]

@[simp] theorem Tbl.length_range (d : Nat → α) (m : Tbl α) (k n : Nat) : (Tbl.range d m k n).length = n := by
  simp [Tbl.range]

theorem Tbl.walk_eq (d : Nat → α) (n k : Nat) (m : Tbl α) (hs : m.Pairwise fun a b => a.1 < b.1) (hk : ∀ e ∈ m, k ≤ e.1) :
    Tbl.walk d n k m = (List.range n).map fun i => Tbl.get d m (k + i) := by
  induction n generalizing k m with
  | zero => simp [Tbl.walk]
  | succ n ih =>
    rw [List.range_succ_eq_map, List.map_cons, List.map_map]
    have step : ∀ i, k + Nat.succ i = k + 1 + i := by omega
    cases m with
    | nil =>
      rw [Tbl.walk, ih (k + 1) [] (by simp) (by simp)]
      simp [Tbl.get, Function.comp_def, Nat.add_comm, Nat.add_left_comm]
    | cons e m =>
      obtain ⟨a, v⟩ := e
      rw [List.pairwise_cons] at hs
      have ha : k ≤ a := hk (a, v) (List.mem_cons_self ..)
      simp only [Tbl.walk]
      split
      · rename_i h
        subst h
        rw [ih (a + 1) m hs.2 fun e he => hs.1 e he]
        simp only [Tbl.get, Nat.add_zero, if_true, List.cons.injEq, true_and]
        refine List.map_congr_left fun i _ => ?_
        rw [Function.comp_apply, step i, if_neg (by omega)]
      · rename_i h
        rw [ih (k + 1) ((a, v) :: m) (List.pairwise_cons.2 hs) (by
          rintro e he
          rcases List.mem_cons.1 he with rfl | he
          · simp only []; omega
          · have := hs.1 e he; simp only [] at this; omega)]
        simp only [List.cons.injEq]
        refine ⟨?_, List.map_congr_left fun i _ => by rw [Function.comp_apply, step i]⟩
        rw [Nat.add_zero, Tbl.get_of_not_mem]
        rintro e he
        rcases List.mem_cons.1 he with rfl | he
        · exact h
        · have := hs.1 e he; simp only [] at this; omega

/-- A run of keys reads as its keys do one by one. -/
theorem Tbl.range_eq (d : Nat → α) (m : Tbl α) (k n : Nat) (hs : Tbl.sorted m = true) :
    Tbl.range d m k n = (List.range n).map fun i => Tbl.get d m (k + i) := by
  rw [Tbl.sorted_iff] at hs
  rw [Tbl.range, Tbl.walk_eq d n k _ (hs.filter _) fun e he => by simpa using (List.mem_filter.1 he).2]
  refine List.map_congr_left fun i _ => ?_
  rw [Tbl.get_filter d m (fun x => decide (k ≤ x))]
  simp

end Sys2Proof.Machine
end

