-- ==== Sys2Proof/Laws/State.lean ====
section
/-! SUPPORT. What each writer of a table of State leaves and what it writes: one lemma per field and writer, so that no
proof unfolds a record update. -/

namespace Sys2Proof.Machine

/-! ### setDie -/

@[simp] theorem setDie_pending (s : State) (d : Nat) (x : Die) : (setDie s d x).pending = s.pending := rfl
@[simp] theorem setDie_out (s : State) (d : Nat) (x : Die) : (setDie s d x).out = s.out := rfl
@[simp] theorem setDie_freeCtr (s : State) (d : Nat) (x : Die) : (setDie s d x).freeCtr = s.freeCtr := rfl
@[simp] theorem setDie_reg (s : State) (d : Nat) (x : Die) : (setDie s d x).reg = s.reg := rfl
@[simp] theorem setDie_tb (s : State) (d : Nat) (x : Die) : (setDie s d x).tb = s.tb := rfl
@[simp] theorem setDie_ord (s : State) (d : Nat) (x : Die) : (setDie s d x).ord = s.ord := rfl
@[simp] theorem setDie_med (s : State) (d : Nat) (x : Die) : (setDie s d x).med = s.med := rfl
@[simp] theorem setDie_port (s : State) (d : Nat) (x : Die) : (setDie s d x).port = s.port := rfl
@[simp] theorem setDie_ten (s : State) (d : Nat) (x : Die) : (setDie s d x).ten = s.ten := rfl
@[simp] theorem setDie_cph (s : State) (d : Nat) (x : Die) : (setDie s d x).cph = s.cph := rfl
@[simp] theorem setDie_asy (s : State) (d : Nat) (x : Die) : (setDie s d x).asy = s.asy := rfl
@[simp] theorem setDie_mem (s : State) (d : Nat) (x : Die) : (setDie s d x).mem = s.mem := rfl
@[simp] theorem setDie_pwr (s : State) (d : Nat) (x : Die) : (setDie s d x).pwr = s.pwr := rfl
@[simp] theorem setDie_blw (s : State) (d : Nat) (x : Die) : (setDie s d x).blw = s.blw := rfl
@[simp] theorem setDie_hkp (s : State) (d : Nat) (x : Die) : (setDie s d x).hkp = s.hkp := rfl
@[simp] theorem setDie_hm (s : State) (d : Nat) (x : Die) : (setDie s d x).hm = s.hm := rfl
@[simp] theorem setDie_wall (s : State) (d : Nat) (x : Die) : (setDie s d x).wall = s.wall := rfl
@[simp] theorem setDie_boot (s : State) (d : Nat) (x : Die) : (setDie s d x).boot = s.boot := rfl
@[simp] theorem setDie_fl_chans (s : State) (d : Nat) (x : Die) : (setDie s d x).fl.chans = s.fl.chans := rfl
@[simp] theorem setDie_fl_engines (s : State) (d : Nat) (x : Die) : (setDie s d x).fl.engines = s.fl.engines := rfl
@[simp] theorem setDie_fl_softQ (s : State) (d : Nat) (x : Die) : (setDie s d x).fl.softQ = s.fl.softQ := rfl
@[simp] theorem setDie_fl_devs (s : State) (d : Nat) (x : Die) : (setDie s d x).fl.devs = s.fl.devs := rfl
@[simp] theorem setDie_fl_nextDev (s : State) (d : Nat) (x : Die) : (setDie s d x).fl.nextDev = s.fl.nextDev := rfl
@[simp] theorem setDie_fl_rebuilds (s : State) (d : Nat) (x : Die) : (setDie s d x).fl.rebuilds = s.fl.rebuilds := rfl
@[simp] theorem setDie_fl_nextAdm (s : State) (d : Nat) (x : Die) : (setDie s d x).fl.nextAdm = s.fl.nextAdm := rfl
/-! ### setChan -/

@[simp] theorem setChan_pending (s : State) (c : Nat) (x : Chan) : (setChan s c x).pending = s.pending := rfl
@[simp] theorem setChan_out (s : State) (c : Nat) (x : Chan) : (setChan s c x).out = s.out := rfl
@[simp] theorem setChan_freeCtr (s : State) (c : Nat) (x : Chan) : (setChan s c x).freeCtr = s.freeCtr := rfl
@[simp] theorem setChan_reg (s : State) (c : Nat) (x : Chan) : (setChan s c x).reg = s.reg := rfl
@[simp] theorem setChan_tb (s : State) (c : Nat) (x : Chan) : (setChan s c x).tb = s.tb := rfl
@[simp] theorem setChan_ord (s : State) (c : Nat) (x : Chan) : (setChan s c x).ord = s.ord := rfl
@[simp] theorem setChan_med (s : State) (c : Nat) (x : Chan) : (setChan s c x).med = s.med := rfl
@[simp] theorem setChan_port (s : State) (c : Nat) (x : Chan) : (setChan s c x).port = s.port := rfl
@[simp] theorem setChan_ten (s : State) (c : Nat) (x : Chan) : (setChan s c x).ten = s.ten := rfl
@[simp] theorem setChan_cph (s : State) (c : Nat) (x : Chan) : (setChan s c x).cph = s.cph := rfl
@[simp] theorem setChan_asy (s : State) (c : Nat) (x : Chan) : (setChan s c x).asy = s.asy := rfl
@[simp] theorem setChan_mem (s : State) (c : Nat) (x : Chan) : (setChan s c x).mem = s.mem := rfl
@[simp] theorem setChan_pwr (s : State) (c : Nat) (x : Chan) : (setChan s c x).pwr = s.pwr := rfl
@[simp] theorem setChan_blw (s : State) (c : Nat) (x : Chan) : (setChan s c x).blw = s.blw := rfl
@[simp] theorem setChan_hkp (s : State) (c : Nat) (x : Chan) : (setChan s c x).hkp = s.hkp := rfl
@[simp] theorem setChan_hm (s : State) (c : Nat) (x : Chan) : (setChan s c x).hm = s.hm := rfl
@[simp] theorem setChan_wall (s : State) (c : Nat) (x : Chan) : (setChan s c x).wall = s.wall := rfl
@[simp] theorem setChan_boot (s : State) (c : Nat) (x : Chan) : (setChan s c x).boot = s.boot := rfl
@[simp] theorem setChan_fl_dies (s : State) (c : Nat) (x : Chan) : (setChan s c x).fl.dies = s.fl.dies := rfl
@[simp] theorem setChan_fl_engines (s : State) (c : Nat) (x : Chan) : (setChan s c x).fl.engines = s.fl.engines := rfl
@[simp] theorem setChan_fl_softQ (s : State) (c : Nat) (x : Chan) : (setChan s c x).fl.softQ = s.fl.softQ := rfl
@[simp] theorem setChan_fl_devs (s : State) (c : Nat) (x : Chan) : (setChan s c x).fl.devs = s.fl.devs := rfl
@[simp] theorem setChan_fl_nextDev (s : State) (c : Nat) (x : Chan) : (setChan s c x).fl.nextDev = s.fl.nextDev := rfl
@[simp] theorem setChan_fl_rebuilds (s : State) (c : Nat) (x : Chan) : (setChan s c x).fl.rebuilds = s.fl.rebuilds := rfl
@[simp] theorem setChan_fl_nextAdm (s : State) (c : Nat) (x : Chan) : (setChan s c x).fl.nextAdm = s.fl.nextAdm := rfl
/-! ### setSlot -/

@[simp] theorem setSlot_pending (s : State) (k : Nat) (x : Slot) : (setSlot s k x).pending = s.pending := rfl
@[simp] theorem setSlot_out (s : State) (k : Nat) (x : Slot) : (setSlot s k x).out = s.out := rfl
@[simp] theorem setSlot_freeCtr (s : State) (k : Nat) (x : Slot) : (setSlot s k x).freeCtr = s.freeCtr := rfl
@[simp] theorem setSlot_reg (s : State) (k : Nat) (x : Slot) : (setSlot s k x).reg = s.reg := rfl
@[simp] theorem setSlot_tb (s : State) (k : Nat) (x : Slot) : (setSlot s k x).tb = s.tb := rfl
@[simp] theorem setSlot_fl (s : State) (k : Nat) (x : Slot) : (setSlot s k x).fl = s.fl := rfl
@[simp] theorem setSlot_med (s : State) (k : Nat) (x : Slot) : (setSlot s k x).med = s.med := rfl
@[simp] theorem setSlot_port (s : State) (k : Nat) (x : Slot) : (setSlot s k x).port = s.port := rfl
@[simp] theorem setSlot_ten (s : State) (k : Nat) (x : Slot) : (setSlot s k x).ten = s.ten := rfl
@[simp] theorem setSlot_cph (s : State) (k : Nat) (x : Slot) : (setSlot s k x).cph = s.cph := rfl
@[simp] theorem setSlot_asy (s : State) (k : Nat) (x : Slot) : (setSlot s k x).asy = s.asy := rfl
@[simp] theorem setSlot_mem (s : State) (k : Nat) (x : Slot) : (setSlot s k x).mem = s.mem := rfl
@[simp] theorem setSlot_pwr (s : State) (k : Nat) (x : Slot) : (setSlot s k x).pwr = s.pwr := rfl
@[simp] theorem setSlot_blw (s : State) (k : Nat) (x : Slot) : (setSlot s k x).blw = s.blw := rfl
@[simp] theorem setSlot_hkp (s : State) (k : Nat) (x : Slot) : (setSlot s k x).hkp = s.hkp := rfl
@[simp] theorem setSlot_hm (s : State) (k : Nat) (x : Slot) : (setSlot s k x).hm = s.hm := rfl
@[simp] theorem setSlot_wall (s : State) (k : Nat) (x : Slot) : (setSlot s k x).wall = s.wall := rfl
@[simp] theorem setSlot_boot (s : State) (k : Nat) (x : Slot) : (setSlot s k x).boot = s.boot := rfl
@[simp] theorem setSlot_ord_reqs (s : State) (k : Nat) (x : Slot) : (setSlot s k x).ord.reqs = s.ord.reqs := rfl
@[simp] theorem setSlot_ord_nextReq (s : State) (k : Nat) (x : Slot) : (setSlot s k x).ord.nextReq = s.ord.nextReq := rfl
@[simp] theorem setSlot_ord_bufs (s : State) (k : Nat) (x : Slot) : (setSlot s k x).ord.bufs = s.ord.bufs := rfl
@[simp] theorem setSlot_ord_nextBuf (s : State) (k : Nat) (x : Slot) : (setSlot s k x).ord.nextBuf = s.ord.nextBuf := rfl
@[simp] theorem setSlot_ord_quenchQ (s : State) (k : Nat) (x : Slot) : (setSlot s k x).ord.quenchQ = s.ord.quenchQ := rfl
@[simp] theorem setSlot_ord_bodies (s : State) (k : Nat) (x : Slot) : (setSlot s k x).ord.bodies = s.ord.bodies := rfl
@[simp] theorem setSlot_ord_loaded (s : State) (k : Nat) (x : Slot) : (setSlot s k x).ord.loaded = s.ord.loaded := rfl
@[simp] theorem setSlot_ord_nextBody (s : State) (k : Nat) (x : Slot) : (setSlot s k x).ord.nextBody = s.ord.nextBody := rfl
@[simp] theorem setSlot_ord_mailbox (s : State) (k : Nat) (x : Slot) : (setSlot s k x).ord.mailbox = s.ord.mailbox := rfl
@[simp] theorem setSlot_ord_nextMail (s : State) (k : Nat) (x : Slot) : (setSlot s k x).ord.nextMail = s.ord.nextMail := rfl
@[simp] theorem setSlot_ord_cycles (s : State) (k : Nat) (x : Slot) : (setSlot s k x).ord.cycles = s.ord.cycles := rfl
@[simp] theorem setSlot_ord_slices (s : State) (k : Nat) (x : Slot) : (setSlot s k x).ord.slices = s.ord.slices := rfl
@[simp] theorem setSlot_ord_lastTenant (s : State) (k : Nat) (x : Slot) : (setSlot s k x).ord.lastTenant = s.ord.lastTenant := rfl
@[simp] theorem setSlot_ord_minFrom (s : State) (k : Nat) (x : Slot) : (setSlot s k x).ord.minFrom = s.ord.minFrom := rfl
/-! ### setReq -/

@[simp] theorem setReq_pending (s : State) (r : Nat) (x : Option Req) : (setReq s r x).pending = s.pending := rfl
@[simp] theorem setReq_out (s : State) (r : Nat) (x : Option Req) : (setReq s r x).out = s.out := rfl
@[simp] theorem setReq_freeCtr (s : State) (r : Nat) (x : Option Req) : (setReq s r x).freeCtr = s.freeCtr := rfl
@[simp] theorem setReq_reg (s : State) (r : Nat) (x : Option Req) : (setReq s r x).reg = s.reg := rfl
@[simp] theorem setReq_tb (s : State) (r : Nat) (x : Option Req) : (setReq s r x).tb = s.tb := rfl
@[simp] theorem setReq_fl (s : State) (r : Nat) (x : Option Req) : (setReq s r x).fl = s.fl := rfl
@[simp] theorem setReq_med (s : State) (r : Nat) (x : Option Req) : (setReq s r x).med = s.med := rfl
@[simp] theorem setReq_port (s : State) (r : Nat) (x : Option Req) : (setReq s r x).port = s.port := rfl
@[simp] theorem setReq_ten (s : State) (r : Nat) (x : Option Req) : (setReq s r x).ten = s.ten := rfl
@[simp] theorem setReq_cph (s : State) (r : Nat) (x : Option Req) : (setReq s r x).cph = s.cph := rfl
@[simp] theorem setReq_asy (s : State) (r : Nat) (x : Option Req) : (setReq s r x).asy = s.asy := rfl
@[simp] theorem setReq_mem (s : State) (r : Nat) (x : Option Req) : (setReq s r x).mem = s.mem := rfl
@[simp] theorem setReq_pwr (s : State) (r : Nat) (x : Option Req) : (setReq s r x).pwr = s.pwr := rfl
@[simp] theorem setReq_blw (s : State) (r : Nat) (x : Option Req) : (setReq s r x).blw = s.blw := rfl
@[simp] theorem setReq_hkp (s : State) (r : Nat) (x : Option Req) : (setReq s r x).hkp = s.hkp := rfl
@[simp] theorem setReq_hm (s : State) (r : Nat) (x : Option Req) : (setReq s r x).hm = s.hm := rfl
@[simp] theorem setReq_wall (s : State) (r : Nat) (x : Option Req) : (setReq s r x).wall = s.wall := rfl
@[simp] theorem setReq_boot (s : State) (r : Nat) (x : Option Req) : (setReq s r x).boot = s.boot := rfl
@[simp] theorem setReq_ord_slots (s : State) (r : Nat) (x : Option Req) : (setReq s r x).ord.slots = s.ord.slots := rfl
@[simp] theorem setReq_ord_nextReq (s : State) (r : Nat) (x : Option Req) : (setReq s r x).ord.nextReq = s.ord.nextReq := rfl
@[simp] theorem setReq_ord_bufs (s : State) (r : Nat) (x : Option Req) : (setReq s r x).ord.bufs = s.ord.bufs := rfl
@[simp] theorem setReq_ord_nextBuf (s : State) (r : Nat) (x : Option Req) : (setReq s r x).ord.nextBuf = s.ord.nextBuf := rfl
@[simp] theorem setReq_ord_quenchQ (s : State) (r : Nat) (x : Option Req) : (setReq s r x).ord.quenchQ = s.ord.quenchQ := rfl
@[simp] theorem setReq_ord_bodies (s : State) (r : Nat) (x : Option Req) : (setReq s r x).ord.bodies = s.ord.bodies := rfl
@[simp] theorem setReq_ord_loaded (s : State) (r : Nat) (x : Option Req) : (setReq s r x).ord.loaded = s.ord.loaded := rfl
@[simp] theorem setReq_ord_nextBody (s : State) (r : Nat) (x : Option Req) : (setReq s r x).ord.nextBody = s.ord.nextBody := rfl
@[simp] theorem setReq_ord_mailbox (s : State) (r : Nat) (x : Option Req) : (setReq s r x).ord.mailbox = s.ord.mailbox := rfl
@[simp] theorem setReq_ord_nextMail (s : State) (r : Nat) (x : Option Req) : (setReq s r x).ord.nextMail = s.ord.nextMail := rfl
@[simp] theorem setReq_ord_cycles (s : State) (r : Nat) (x : Option Req) : (setReq s r x).ord.cycles = s.ord.cycles := rfl
@[simp] theorem setReq_ord_slices (s : State) (r : Nat) (x : Option Req) : (setReq s r x).ord.slices = s.ord.slices := rfl
@[simp] theorem setReq_ord_lastTenant (s : State) (r : Nat) (x : Option Req) : (setReq s r x).ord.lastTenant = s.ord.lastTenant := rfl
@[simp] theorem setReq_ord_minFrom (s : State) (r : Nat) (x : Option Req) : (setReq s r x).ord.minFrom = s.ord.minFrom := rfl
/-! ### setBuf -/

@[simp] theorem setBuf_pending (s : State) (b : Nat) (x : Option Buf) : (setBuf s b x).pending = s.pending := rfl
@[simp] theorem setBuf_out (s : State) (b : Nat) (x : Option Buf) : (setBuf s b x).out = s.out := rfl
@[simp] theorem setBuf_freeCtr (s : State) (b : Nat) (x : Option Buf) : (setBuf s b x).freeCtr = s.freeCtr := rfl
@[simp] theorem setBuf_reg (s : State) (b : Nat) (x : Option Buf) : (setBuf s b x).reg = s.reg := rfl
@[simp] theorem setBuf_tb (s : State) (b : Nat) (x : Option Buf) : (setBuf s b x).tb = s.tb := rfl
@[simp] theorem setBuf_fl (s : State) (b : Nat) (x : Option Buf) : (setBuf s b x).fl = s.fl := rfl
@[simp] theorem setBuf_med (s : State) (b : Nat) (x : Option Buf) : (setBuf s b x).med = s.med := rfl
@[simp] theorem setBuf_port (s : State) (b : Nat) (x : Option Buf) : (setBuf s b x).port = s.port := rfl
@[simp] theorem setBuf_ten (s : State) (b : Nat) (x : Option Buf) : (setBuf s b x).ten = s.ten := rfl
@[simp] theorem setBuf_cph (s : State) (b : Nat) (x : Option Buf) : (setBuf s b x).cph = s.cph := rfl
@[simp] theorem setBuf_asy (s : State) (b : Nat) (x : Option Buf) : (setBuf s b x).asy = s.asy := rfl
@[simp] theorem setBuf_mem (s : State) (b : Nat) (x : Option Buf) : (setBuf s b x).mem = s.mem := rfl
@[simp] theorem setBuf_pwr (s : State) (b : Nat) (x : Option Buf) : (setBuf s b x).pwr = s.pwr := rfl
@[simp] theorem setBuf_blw (s : State) (b : Nat) (x : Option Buf) : (setBuf s b x).blw = s.blw := rfl
@[simp] theorem setBuf_hkp (s : State) (b : Nat) (x : Option Buf) : (setBuf s b x).hkp = s.hkp := rfl
@[simp] theorem setBuf_hm (s : State) (b : Nat) (x : Option Buf) : (setBuf s b x).hm = s.hm := rfl
@[simp] theorem setBuf_wall (s : State) (b : Nat) (x : Option Buf) : (setBuf s b x).wall = s.wall := rfl
@[simp] theorem setBuf_boot (s : State) (b : Nat) (x : Option Buf) : (setBuf s b x).boot = s.boot := rfl
@[simp] theorem setBuf_ord_slots (s : State) (b : Nat) (x : Option Buf) : (setBuf s b x).ord.slots = s.ord.slots := rfl
@[simp] theorem setBuf_ord_reqs (s : State) (b : Nat) (x : Option Buf) : (setBuf s b x).ord.reqs = s.ord.reqs := rfl
@[simp] theorem setBuf_ord_nextReq (s : State) (b : Nat) (x : Option Buf) : (setBuf s b x).ord.nextReq = s.ord.nextReq := rfl
@[simp] theorem setBuf_ord_nextBuf (s : State) (b : Nat) (x : Option Buf) : (setBuf s b x).ord.nextBuf = s.ord.nextBuf := rfl
@[simp] theorem setBuf_ord_quenchQ (s : State) (b : Nat) (x : Option Buf) : (setBuf s b x).ord.quenchQ = s.ord.quenchQ := rfl
@[simp] theorem setBuf_ord_bodies (s : State) (b : Nat) (x : Option Buf) : (setBuf s b x).ord.bodies = s.ord.bodies := rfl
@[simp] theorem setBuf_ord_loaded (s : State) (b : Nat) (x : Option Buf) : (setBuf s b x).ord.loaded = s.ord.loaded := rfl
@[simp] theorem setBuf_ord_nextBody (s : State) (b : Nat) (x : Option Buf) : (setBuf s b x).ord.nextBody = s.ord.nextBody := rfl
@[simp] theorem setBuf_ord_mailbox (s : State) (b : Nat) (x : Option Buf) : (setBuf s b x).ord.mailbox = s.ord.mailbox := rfl
@[simp] theorem setBuf_ord_nextMail (s : State) (b : Nat) (x : Option Buf) : (setBuf s b x).ord.nextMail = s.ord.nextMail := rfl
@[simp] theorem setBuf_ord_cycles (s : State) (b : Nat) (x : Option Buf) : (setBuf s b x).ord.cycles = s.ord.cycles := rfl
@[simp] theorem setBuf_ord_slices (s : State) (b : Nat) (x : Option Buf) : (setBuf s b x).ord.slices = s.ord.slices := rfl
@[simp] theorem setBuf_ord_lastTenant (s : State) (b : Nat) (x : Option Buf) : (setBuf s b x).ord.lastTenant = s.ord.lastTenant := rfl
@[simp] theorem setBuf_ord_minFrom (s : State) (b : Nat) (x : Option Buf) : (setBuf s b x).ord.minFrom = s.ord.minFrom := rfl
/-! ### setBody -/

@[simp] theorem setBody_pending (s : State) (b : Nat) (x : Option Pattern) : (setBody s b x).pending = s.pending := rfl
@[simp] theorem setBody_out (s : State) (b : Nat) (x : Option Pattern) : (setBody s b x).out = s.out := rfl
@[simp] theorem setBody_freeCtr (s : State) (b : Nat) (x : Option Pattern) : (setBody s b x).freeCtr = s.freeCtr := rfl
@[simp] theorem setBody_reg (s : State) (b : Nat) (x : Option Pattern) : (setBody s b x).reg = s.reg := rfl
@[simp] theorem setBody_tb (s : State) (b : Nat) (x : Option Pattern) : (setBody s b x).tb = s.tb := rfl
@[simp] theorem setBody_fl (s : State) (b : Nat) (x : Option Pattern) : (setBody s b x).fl = s.fl := rfl
@[simp] theorem setBody_med (s : State) (b : Nat) (x : Option Pattern) : (setBody s b x).med = s.med := rfl
@[simp] theorem setBody_port (s : State) (b : Nat) (x : Option Pattern) : (setBody s b x).port = s.port := rfl
@[simp] theorem setBody_ten (s : State) (b : Nat) (x : Option Pattern) : (setBody s b x).ten = s.ten := rfl
@[simp] theorem setBody_cph (s : State) (b : Nat) (x : Option Pattern) : (setBody s b x).cph = s.cph := rfl
@[simp] theorem setBody_asy (s : State) (b : Nat) (x : Option Pattern) : (setBody s b x).asy = s.asy := rfl
@[simp] theorem setBody_mem (s : State) (b : Nat) (x : Option Pattern) : (setBody s b x).mem = s.mem := rfl
@[simp] theorem setBody_pwr (s : State) (b : Nat) (x : Option Pattern) : (setBody s b x).pwr = s.pwr := rfl
@[simp] theorem setBody_blw (s : State) (b : Nat) (x : Option Pattern) : (setBody s b x).blw = s.blw := rfl
@[simp] theorem setBody_hkp (s : State) (b : Nat) (x : Option Pattern) : (setBody s b x).hkp = s.hkp := rfl
@[simp] theorem setBody_hm (s : State) (b : Nat) (x : Option Pattern) : (setBody s b x).hm = s.hm := rfl
@[simp] theorem setBody_wall (s : State) (b : Nat) (x : Option Pattern) : (setBody s b x).wall = s.wall := rfl
@[simp] theorem setBody_boot (s : State) (b : Nat) (x : Option Pattern) : (setBody s b x).boot = s.boot := rfl
@[simp] theorem setBody_ord_slots (s : State) (b : Nat) (x : Option Pattern) : (setBody s b x).ord.slots = s.ord.slots := rfl
@[simp] theorem setBody_ord_reqs (s : State) (b : Nat) (x : Option Pattern) : (setBody s b x).ord.reqs = s.ord.reqs := rfl
@[simp] theorem setBody_ord_nextReq (s : State) (b : Nat) (x : Option Pattern) : (setBody s b x).ord.nextReq = s.ord.nextReq := rfl
@[simp] theorem setBody_ord_bufs (s : State) (b : Nat) (x : Option Pattern) : (setBody s b x).ord.bufs = s.ord.bufs := rfl
@[simp] theorem setBody_ord_nextBuf (s : State) (b : Nat) (x : Option Pattern) : (setBody s b x).ord.nextBuf = s.ord.nextBuf := rfl
@[simp] theorem setBody_ord_quenchQ (s : State) (b : Nat) (x : Option Pattern) : (setBody s b x).ord.quenchQ = s.ord.quenchQ := rfl
@[simp] theorem setBody_ord_loaded (s : State) (b : Nat) (x : Option Pattern) : (setBody s b x).ord.loaded = s.ord.loaded := rfl
@[simp] theorem setBody_ord_nextBody (s : State) (b : Nat) (x : Option Pattern) : (setBody s b x).ord.nextBody = s.ord.nextBody := rfl
@[simp] theorem setBody_ord_mailbox (s : State) (b : Nat) (x : Option Pattern) : (setBody s b x).ord.mailbox = s.ord.mailbox := rfl
@[simp] theorem setBody_ord_nextMail (s : State) (b : Nat) (x : Option Pattern) : (setBody s b x).ord.nextMail = s.ord.nextMail := rfl
@[simp] theorem setBody_ord_cycles (s : State) (b : Nat) (x : Option Pattern) : (setBody s b x).ord.cycles = s.ord.cycles := rfl
@[simp] theorem setBody_ord_slices (s : State) (b : Nat) (x : Option Pattern) : (setBody s b x).ord.slices = s.ord.slices := rfl
@[simp] theorem setBody_ord_lastTenant (s : State) (b : Nat) (x : Option Pattern) : (setBody s b x).ord.lastTenant = s.ord.lastTenant := rfl
@[simp] theorem setBody_ord_minFrom (s : State) (b : Nat) (x : Option Pattern) : (setBody s b x).ord.minFrom = s.ord.minFrom := rfl
/-! ### setNs -/

@[simp] theorem setNs_pending (s : State) (n : Nat) (x : Option Namespace) : (setNs s n x).pending = s.pending := rfl
@[simp] theorem setNs_out (s : State) (n : Nat) (x : Option Namespace) : (setNs s n x).out = s.out := rfl
@[simp] theorem setNs_freeCtr (s : State) (n : Nat) (x : Option Namespace) : (setNs s n x).freeCtr = s.freeCtr := rfl
@[simp] theorem setNs_reg (s : State) (n : Nat) (x : Option Namespace) : (setNs s n x).reg = s.reg := rfl
@[simp] theorem setNs_tb (s : State) (n : Nat) (x : Option Namespace) : (setNs s n x).tb = s.tb := rfl
@[simp] theorem setNs_fl (s : State) (n : Nat) (x : Option Namespace) : (setNs s n x).fl = s.fl := rfl
@[simp] theorem setNs_ord (s : State) (n : Nat) (x : Option Namespace) : (setNs s n x).ord = s.ord := rfl
@[simp] theorem setNs_port (s : State) (n : Nat) (x : Option Namespace) : (setNs s n x).port = s.port := rfl
@[simp] theorem setNs_ten (s : State) (n : Nat) (x : Option Namespace) : (setNs s n x).ten = s.ten := rfl
@[simp] theorem setNs_cph (s : State) (n : Nat) (x : Option Namespace) : (setNs s n x).cph = s.cph := rfl
@[simp] theorem setNs_asy (s : State) (n : Nat) (x : Option Namespace) : (setNs s n x).asy = s.asy := rfl
@[simp] theorem setNs_mem (s : State) (n : Nat) (x : Option Namespace) : (setNs s n x).mem = s.mem := rfl
@[simp] theorem setNs_pwr (s : State) (n : Nat) (x : Option Namespace) : (setNs s n x).pwr = s.pwr := rfl
@[simp] theorem setNs_blw (s : State) (n : Nat) (x : Option Namespace) : (setNs s n x).blw = s.blw := rfl
@[simp] theorem setNs_hkp (s : State) (n : Nat) (x : Option Namespace) : (setNs s n x).hkp = s.hkp := rfl
@[simp] theorem setNs_hm (s : State) (n : Nat) (x : Option Namespace) : (setNs s n x).hm = s.hm := rfl
@[simp] theorem setNs_wall (s : State) (n : Nat) (x : Option Namespace) : (setNs s n x).wall = s.wall := rfl
@[simp] theorem setNs_boot (s : State) (n : Nat) (x : Option Namespace) : (setNs s n x).boot = s.boot := rfl
@[simp] theorem setNs_med_formatted (s : State) (n : Nat) (x : Option Namespace) : (setNs s n x).med.formatted = s.med.formatted := rfl
@[simp] theorem setNs_med_zones (s : State) (n : Nat) (x : Option Namespace) : (setNs s n x).med.zones = s.med.zones := rfl
@[simp] theorem setNs_med_bays (s : State) (n : Nat) (x : Option Namespace) : (setNs s n x).med.bays = s.med.bays := rfl
@[simp] theorem setNs_med_slabs (s : State) (n : Nat) (x : Option Namespace) : (setNs s n x).med.slabs = s.med.slabs := rfl
@[simp] theorem setNs_med_courses (s : State) (n : Nat) (x : Option Namespace) : (setNs s n x).med.courses = s.med.courses := rfl
@[simp] theorem setNs_med_nextCourse (s : State) (n : Nat) (x : Option Namespace) : (setNs s n x).med.nextCourse = s.med.nextCourse := rfl
@[simp] theorem setNs_med_domains (s : State) (n : Nat) (x : Option Namespace) : (setNs s n x).med.domains = s.med.domains := rfl
@[simp] theorem setNs_med_map (s : State) (n : Nat) (x : Option Namespace) : (setNs s n x).med.map = s.med.map := rfl
@[simp] theorem setNs_med_data (s : State) (n : Nat) (x : Option Namespace) : (setNs s n x).med.data = s.med.data := rfl
@[simp] theorem setNs_med_keys (s : State) (n : Nat) (x : Option Namespace) : (setNs s n x).med.keys = s.med.keys := rfl
@[simp] theorem setNs_med_rev (s : State) (n : Nat) (x : Option Namespace) : (setNs s n x).med.rev = s.med.rev := rfl
@[simp] theorem setNs_med_unrec (s : State) (n : Nat) (x : Option Namespace) : (setNs s n x).med.unrec = s.med.unrec := rfl
@[simp] theorem setNs_med_gone (s : State) (n : Nat) (x : Option Namespace) : (setNs s n x).med.gone = s.med.gone := rfl
@[simp] theorem setNs_med_accs (s : State) (n : Nat) (x : Option Namespace) : (setNs s n x).med.accs = s.med.accs := rfl
@[simp] theorem setNs_med_jrn (s : State) (n : Nat) (x : Option Namespace) : (setNs s n x).med.jrn = s.med.jrn := rfl
@[simp] theorem setNs_med_sets (s : State) (n : Nat) (x : Option Namespace) : (setNs s n x).med.sets = s.med.sets := rfl
@[simp] theorem setNs_med_resident (s : State) (n : Nat) (x : Option Namespace) : (setNs s n x).med.resident = s.med.resident := rfl
@[simp] theorem setNs_med_releases (s : State) (n : Nat) (x : Option Namespace) : (setNs s n x).med.releases = s.med.releases := rfl
@[simp] theorem setNs_med_nextRel (s : State) (n : Nat) (x : Option Namespace) : (setNs s n x).med.nextRel = s.med.nextRel := rfl
@[simp] theorem setNs_med_restored (s : State) (n : Nat) (x : Option Namespace) : (setNs s n x).med.restored = s.med.restored := rfl
@[simp] theorem setNs_med_ledger (s : State) (n : Nat) (x : Option Namespace) : (setNs s n x).med.ledger = s.med.ledger := rfl
@[simp] theorem setNs_med_region4 (s : State) (n : Nat) (x : Option Namespace) : (setNs s n x).med.region4 = s.med.region4 := rfl
@[simp] theorem setNs_med_good (s : State) (n : Nat) (x : Option Namespace) : (setNs s n x).med.good = s.med.good := rfl
@[simp] theorem setNs_med_retiredCnt (s : State) (n : Nat) (x : Option Namespace) : (setNs s n x).med.retiredCnt = s.med.retiredCnt := rfl
@[simp] theorem setNs_med_factory (s : State) (n : Nat) (x : Option Namespace) : (setNs s n x).med.factory = s.med.factory := rfl
@[simp] theorem setNs_med_slcReserve (s : State) (n : Nat) (x : Option Namespace) : (setNs s n x).med.slcReserve = s.med.slcReserve := rfl
@[simp] theorem setNs_med_systemArea (s : State) (n : Nat) (x : Option Namespace) : (setNs s n x).med.systemArea = s.med.systemArea := rfl
@[simp] theorem setNs_med_dataCourses (s : State) (n : Nat) (x : Option Namespace) : (setNs s n x).med.dataCourses = s.med.dataCourses := rfl
@[simp] theorem setNs_med_mapPool (s : State) (n : Nat) (x : Option Namespace) : (setNs s n x).med.mapPool = s.med.mapPool := rfl
@[simp] theorem setNs_med_areaA (s : State) (n : Nat) (x : Option Namespace) : (setNs s n x).med.areaA = s.med.areaA := rfl
@[simp] theorem setNs_med_areaB (s : State) (n : Nat) (x : Option Namespace) : (setNs s n x).med.areaB = s.med.areaB := rfl
@[simp] theorem setNs_med_armedB (s : State) (n : Nat) (x : Option Namespace) : (setNs s n x).med.armedB = s.med.armedB := rfl
@[simp] theorem setNs_med_areaHeld (s : State) (n : Nat) (x : Option Namespace) : (setNs s n x).med.areaHeld = s.med.areaHeld := rfl
@[simp] theorem setNs_med_roLatch (s : State) (n : Nat) (x : Option Namespace) : (setNs s n x).med.roLatch = s.med.roLatch := rfl
@[simp] theorem setNs_med_lowReported (s : State) (n : Nat) (x : Option Namespace) : (setNs s n x).med.lowReported = s.med.lowReported := rfl
@[simp] theorem setNs_med_floorReported (s : State) (n : Nat) (x : Option Namespace) : (setNs s n x).med.floorReported = s.med.floorReported := rfl
@[simp] theorem setNs_med_degraded (s : State) (n : Nat) (x : Option Namespace) : (setNs s n x).med.degraded = s.med.degraded := rfl
@[simp] theorem setNs_med_lossWarn (s : State) (n : Nat) (x : Option Namespace) : (setNs s n x).med.lossWarn = s.med.lossWarn := rfl
@[simp] theorem setNs_med_bringupFault (s : State) (n : Nat) (x : Option Namespace) : (setNs s n x).med.bringupFault = s.med.bringupFault := rfl
/-! ### setZone -/

@[simp] theorem setZone_pending (s : State) (nsid k : Nat) (x : Zone) : (setZone s nsid k x).pending = s.pending := rfl
@[simp] theorem setZone_out (s : State) (nsid k : Nat) (x : Zone) : (setZone s nsid k x).out = s.out := rfl
@[simp] theorem setZone_freeCtr (s : State) (nsid k : Nat) (x : Zone) : (setZone s nsid k x).freeCtr = s.freeCtr := rfl
@[simp] theorem setZone_reg (s : State) (nsid k : Nat) (x : Zone) : (setZone s nsid k x).reg = s.reg := rfl
@[simp] theorem setZone_tb (s : State) (nsid k : Nat) (x : Zone) : (setZone s nsid k x).tb = s.tb := rfl
@[simp] theorem setZone_fl (s : State) (nsid k : Nat) (x : Zone) : (setZone s nsid k x).fl = s.fl := rfl
@[simp] theorem setZone_ord (s : State) (nsid k : Nat) (x : Zone) : (setZone s nsid k x).ord = s.ord := rfl
@[simp] theorem setZone_port (s : State) (nsid k : Nat) (x : Zone) : (setZone s nsid k x).port = s.port := rfl
@[simp] theorem setZone_ten (s : State) (nsid k : Nat) (x : Zone) : (setZone s nsid k x).ten = s.ten := rfl
@[simp] theorem setZone_cph (s : State) (nsid k : Nat) (x : Zone) : (setZone s nsid k x).cph = s.cph := rfl
@[simp] theorem setZone_asy (s : State) (nsid k : Nat) (x : Zone) : (setZone s nsid k x).asy = s.asy := rfl
@[simp] theorem setZone_mem (s : State) (nsid k : Nat) (x : Zone) : (setZone s nsid k x).mem = s.mem := rfl
@[simp] theorem setZone_pwr (s : State) (nsid k : Nat) (x : Zone) : (setZone s nsid k x).pwr = s.pwr := rfl
@[simp] theorem setZone_blw (s : State) (nsid k : Nat) (x : Zone) : (setZone s nsid k x).blw = s.blw := rfl
@[simp] theorem setZone_hkp (s : State) (nsid k : Nat) (x : Zone) : (setZone s nsid k x).hkp = s.hkp := rfl
@[simp] theorem setZone_hm (s : State) (nsid k : Nat) (x : Zone) : (setZone s nsid k x).hm = s.hm := rfl
@[simp] theorem setZone_wall (s : State) (nsid k : Nat) (x : Zone) : (setZone s nsid k x).wall = s.wall := rfl
@[simp] theorem setZone_boot (s : State) (nsid k : Nat) (x : Zone) : (setZone s nsid k x).boot = s.boot := rfl
@[simp] theorem setZone_med_formatted (s : State) (nsid k : Nat) (x : Zone) : (setZone s nsid k x).med.formatted = s.med.formatted := rfl
@[simp] theorem setZone_med_ns (s : State) (nsid k : Nat) (x : Zone) : (setZone s nsid k x).med.ns = s.med.ns := rfl
@[simp] theorem setZone_med_bays (s : State) (nsid k : Nat) (x : Zone) : (setZone s nsid k x).med.bays = s.med.bays := rfl
@[simp] theorem setZone_med_slabs (s : State) (nsid k : Nat) (x : Zone) : (setZone s nsid k x).med.slabs = s.med.slabs := rfl
@[simp] theorem setZone_med_courses (s : State) (nsid k : Nat) (x : Zone) : (setZone s nsid k x).med.courses = s.med.courses := rfl
@[simp] theorem setZone_med_nextCourse (s : State) (nsid k : Nat) (x : Zone) : (setZone s nsid k x).med.nextCourse = s.med.nextCourse := rfl
@[simp] theorem setZone_med_domains (s : State) (nsid k : Nat) (x : Zone) : (setZone s nsid k x).med.domains = s.med.domains := rfl
@[simp] theorem setZone_med_map (s : State) (nsid k : Nat) (x : Zone) : (setZone s nsid k x).med.map = s.med.map := rfl
@[simp] theorem setZone_med_data (s : State) (nsid k : Nat) (x : Zone) : (setZone s nsid k x).med.data = s.med.data := rfl
@[simp] theorem setZone_med_keys (s : State) (nsid k : Nat) (x : Zone) : (setZone s nsid k x).med.keys = s.med.keys := rfl
@[simp] theorem setZone_med_rev (s : State) (nsid k : Nat) (x : Zone) : (setZone s nsid k x).med.rev = s.med.rev := rfl
@[simp] theorem setZone_med_unrec (s : State) (nsid k : Nat) (x : Zone) : (setZone s nsid k x).med.unrec = s.med.unrec := rfl
@[simp] theorem setZone_med_gone (s : State) (nsid k : Nat) (x : Zone) : (setZone s nsid k x).med.gone = s.med.gone := rfl
@[simp] theorem setZone_med_accs (s : State) (nsid k : Nat) (x : Zone) : (setZone s nsid k x).med.accs = s.med.accs := rfl
@[simp] theorem setZone_med_jrn (s : State) (nsid k : Nat) (x : Zone) : (setZone s nsid k x).med.jrn = s.med.jrn := rfl
@[simp] theorem setZone_med_sets (s : State) (nsid k : Nat) (x : Zone) : (setZone s nsid k x).med.sets = s.med.sets := rfl
@[simp] theorem setZone_med_resident (s : State) (nsid k : Nat) (x : Zone) : (setZone s nsid k x).med.resident = s.med.resident := rfl
@[simp] theorem setZone_med_releases (s : State) (nsid k : Nat) (x : Zone) : (setZone s nsid k x).med.releases = s.med.releases := rfl
@[simp] theorem setZone_med_nextRel (s : State) (nsid k : Nat) (x : Zone) : (setZone s nsid k x).med.nextRel = s.med.nextRel := rfl
@[simp] theorem setZone_med_restored (s : State) (nsid k : Nat) (x : Zone) : (setZone s nsid k x).med.restored = s.med.restored := rfl
@[simp] theorem setZone_med_ledger (s : State) (nsid k : Nat) (x : Zone) : (setZone s nsid k x).med.ledger = s.med.ledger := rfl
@[simp] theorem setZone_med_region4 (s : State) (nsid k : Nat) (x : Zone) : (setZone s nsid k x).med.region4 = s.med.region4 := rfl
@[simp] theorem setZone_med_good (s : State) (nsid k : Nat) (x : Zone) : (setZone s nsid k x).med.good = s.med.good := rfl
@[simp] theorem setZone_med_retiredCnt (s : State) (nsid k : Nat) (x : Zone) : (setZone s nsid k x).med.retiredCnt = s.med.retiredCnt := rfl
@[simp] theorem setZone_med_factory (s : State) (nsid k : Nat) (x : Zone) : (setZone s nsid k x).med.factory = s.med.factory := rfl
@[simp] theorem setZone_med_slcReserve (s : State) (nsid k : Nat) (x : Zone) : (setZone s nsid k x).med.slcReserve = s.med.slcReserve := rfl
@[simp] theorem setZone_med_systemArea (s : State) (nsid k : Nat) (x : Zone) : (setZone s nsid k x).med.systemArea = s.med.systemArea := rfl
@[simp] theorem setZone_med_dataCourses (s : State) (nsid k : Nat) (x : Zone) : (setZone s nsid k x).med.dataCourses = s.med.dataCourses := rfl
@[simp] theorem setZone_med_mapPool (s : State) (nsid k : Nat) (x : Zone) : (setZone s nsid k x).med.mapPool = s.med.mapPool := rfl
@[simp] theorem setZone_med_areaA (s : State) (nsid k : Nat) (x : Zone) : (setZone s nsid k x).med.areaA = s.med.areaA := rfl
@[simp] theorem setZone_med_areaB (s : State) (nsid k : Nat) (x : Zone) : (setZone s nsid k x).med.areaB = s.med.areaB := rfl
@[simp] theorem setZone_med_armedB (s : State) (nsid k : Nat) (x : Zone) : (setZone s nsid k x).med.armedB = s.med.armedB := rfl
@[simp] theorem setZone_med_areaHeld (s : State) (nsid k : Nat) (x : Zone) : (setZone s nsid k x).med.areaHeld = s.med.areaHeld := rfl
@[simp] theorem setZone_med_roLatch (s : State) (nsid k : Nat) (x : Zone) : (setZone s nsid k x).med.roLatch = s.med.roLatch := rfl
@[simp] theorem setZone_med_lowReported (s : State) (nsid k : Nat) (x : Zone) : (setZone s nsid k x).med.lowReported = s.med.lowReported := rfl
@[simp] theorem setZone_med_floorReported (s : State) (nsid k : Nat) (x : Zone) : (setZone s nsid k x).med.floorReported = s.med.floorReported := rfl
@[simp] theorem setZone_med_degraded (s : State) (nsid k : Nat) (x : Zone) : (setZone s nsid k x).med.degraded = s.med.degraded := rfl
@[simp] theorem setZone_med_lossWarn (s : State) (nsid k : Nat) (x : Zone) : (setZone s nsid k x).med.lossWarn = s.med.lossWarn := rfl
@[simp] theorem setZone_med_bringupFault (s : State) (nsid k : Nat) (x : Zone) : (setZone s nsid k x).med.bringupFault = s.med.bringupFault := rfl
/-! ### setSlab -/

@[simp] theorem setSlab_pending (s : State) (a : Nat) (x : Slab) : (setSlab s a x).pending = s.pending := rfl
@[simp] theorem setSlab_out (s : State) (a : Nat) (x : Slab) : (setSlab s a x).out = s.out := rfl
@[simp] theorem setSlab_freeCtr (s : State) (a : Nat) (x : Slab) : (setSlab s a x).freeCtr = s.freeCtr := rfl
@[simp] theorem setSlab_reg (s : State) (a : Nat) (x : Slab) : (setSlab s a x).reg = s.reg := rfl
@[simp] theorem setSlab_tb (s : State) (a : Nat) (x : Slab) : (setSlab s a x).tb = s.tb := rfl
@[simp] theorem setSlab_fl (s : State) (a : Nat) (x : Slab) : (setSlab s a x).fl = s.fl := rfl
@[simp] theorem setSlab_ord (s : State) (a : Nat) (x : Slab) : (setSlab s a x).ord = s.ord := rfl
@[simp] theorem setSlab_port (s : State) (a : Nat) (x : Slab) : (setSlab s a x).port = s.port := rfl
@[simp] theorem setSlab_ten (s : State) (a : Nat) (x : Slab) : (setSlab s a x).ten = s.ten := rfl
@[simp] theorem setSlab_cph (s : State) (a : Nat) (x : Slab) : (setSlab s a x).cph = s.cph := rfl
@[simp] theorem setSlab_asy (s : State) (a : Nat) (x : Slab) : (setSlab s a x).asy = s.asy := rfl
@[simp] theorem setSlab_mem (s : State) (a : Nat) (x : Slab) : (setSlab s a x).mem = s.mem := rfl
@[simp] theorem setSlab_pwr (s : State) (a : Nat) (x : Slab) : (setSlab s a x).pwr = s.pwr := rfl
@[simp] theorem setSlab_blw (s : State) (a : Nat) (x : Slab) : (setSlab s a x).blw = s.blw := rfl
@[simp] theorem setSlab_hkp (s : State) (a : Nat) (x : Slab) : (setSlab s a x).hkp = s.hkp := rfl
@[simp] theorem setSlab_hm (s : State) (a : Nat) (x : Slab) : (setSlab s a x).hm = s.hm := rfl
@[simp] theorem setSlab_wall (s : State) (a : Nat) (x : Slab) : (setSlab s a x).wall = s.wall := rfl
@[simp] theorem setSlab_boot (s : State) (a : Nat) (x : Slab) : (setSlab s a x).boot = s.boot := rfl
@[simp] theorem setSlab_med_formatted (s : State) (a : Nat) (x : Slab) : (setSlab s a x).med.formatted = s.med.formatted := rfl
@[simp] theorem setSlab_med_ns (s : State) (a : Nat) (x : Slab) : (setSlab s a x).med.ns = s.med.ns := rfl
@[simp] theorem setSlab_med_zones (s : State) (a : Nat) (x : Slab) : (setSlab s a x).med.zones = s.med.zones := rfl
@[simp] theorem setSlab_med_bays (s : State) (a : Nat) (x : Slab) : (setSlab s a x).med.bays = s.med.bays := rfl
@[simp] theorem setSlab_med_courses (s : State) (a : Nat) (x : Slab) : (setSlab s a x).med.courses = s.med.courses := rfl
@[simp] theorem setSlab_med_nextCourse (s : State) (a : Nat) (x : Slab) : (setSlab s a x).med.nextCourse = s.med.nextCourse := rfl
@[simp] theorem setSlab_med_domains (s : State) (a : Nat) (x : Slab) : (setSlab s a x).med.domains = s.med.domains := rfl
@[simp] theorem setSlab_med_map (s : State) (a : Nat) (x : Slab) : (setSlab s a x).med.map = s.med.map := rfl
@[simp] theorem setSlab_med_data (s : State) (a : Nat) (x : Slab) : (setSlab s a x).med.data = s.med.data := rfl
@[simp] theorem setSlab_med_keys (s : State) (a : Nat) (x : Slab) : (setSlab s a x).med.keys = s.med.keys := rfl
@[simp] theorem setSlab_med_rev (s : State) (a : Nat) (x : Slab) : (setSlab s a x).med.rev = s.med.rev := rfl
@[simp] theorem setSlab_med_unrec (s : State) (a : Nat) (x : Slab) : (setSlab s a x).med.unrec = s.med.unrec := rfl
@[simp] theorem setSlab_med_gone (s : State) (a : Nat) (x : Slab) : (setSlab s a x).med.gone = s.med.gone := rfl
@[simp] theorem setSlab_med_accs (s : State) (a : Nat) (x : Slab) : (setSlab s a x).med.accs = s.med.accs := rfl
@[simp] theorem setSlab_med_jrn (s : State) (a : Nat) (x : Slab) : (setSlab s a x).med.jrn = s.med.jrn := rfl
@[simp] theorem setSlab_med_sets (s : State) (a : Nat) (x : Slab) : (setSlab s a x).med.sets = s.med.sets := rfl
@[simp] theorem setSlab_med_resident (s : State) (a : Nat) (x : Slab) : (setSlab s a x).med.resident = s.med.resident := rfl
@[simp] theorem setSlab_med_releases (s : State) (a : Nat) (x : Slab) : (setSlab s a x).med.releases = s.med.releases := rfl
@[simp] theorem setSlab_med_nextRel (s : State) (a : Nat) (x : Slab) : (setSlab s a x).med.nextRel = s.med.nextRel := rfl
@[simp] theorem setSlab_med_restored (s : State) (a : Nat) (x : Slab) : (setSlab s a x).med.restored = s.med.restored := rfl
@[simp] theorem setSlab_med_ledger (s : State) (a : Nat) (x : Slab) : (setSlab s a x).med.ledger = s.med.ledger := rfl
@[simp] theorem setSlab_med_region4 (s : State) (a : Nat) (x : Slab) : (setSlab s a x).med.region4 = s.med.region4 := rfl
@[simp] theorem setSlab_med_good (s : State) (a : Nat) (x : Slab) : (setSlab s a x).med.good = s.med.good := rfl
@[simp] theorem setSlab_med_retiredCnt (s : State) (a : Nat) (x : Slab) : (setSlab s a x).med.retiredCnt = s.med.retiredCnt := rfl
@[simp] theorem setSlab_med_factory (s : State) (a : Nat) (x : Slab) : (setSlab s a x).med.factory = s.med.factory := rfl
@[simp] theorem setSlab_med_slcReserve (s : State) (a : Nat) (x : Slab) : (setSlab s a x).med.slcReserve = s.med.slcReserve := rfl
@[simp] theorem setSlab_med_systemArea (s : State) (a : Nat) (x : Slab) : (setSlab s a x).med.systemArea = s.med.systemArea := rfl
@[simp] theorem setSlab_med_dataCourses (s : State) (a : Nat) (x : Slab) : (setSlab s a x).med.dataCourses = s.med.dataCourses := rfl
@[simp] theorem setSlab_med_mapPool (s : State) (a : Nat) (x : Slab) : (setSlab s a x).med.mapPool = s.med.mapPool := rfl
@[simp] theorem setSlab_med_areaA (s : State) (a : Nat) (x : Slab) : (setSlab s a x).med.areaA = s.med.areaA := rfl
@[simp] theorem setSlab_med_areaB (s : State) (a : Nat) (x : Slab) : (setSlab s a x).med.areaB = s.med.areaB := rfl
@[simp] theorem setSlab_med_armedB (s : State) (a : Nat) (x : Slab) : (setSlab s a x).med.armedB = s.med.armedB := rfl
@[simp] theorem setSlab_med_areaHeld (s : State) (a : Nat) (x : Slab) : (setSlab s a x).med.areaHeld = s.med.areaHeld := rfl
@[simp] theorem setSlab_med_roLatch (s : State) (a : Nat) (x : Slab) : (setSlab s a x).med.roLatch = s.med.roLatch := rfl
@[simp] theorem setSlab_med_lowReported (s : State) (a : Nat) (x : Slab) : (setSlab s a x).med.lowReported = s.med.lowReported := rfl
@[simp] theorem setSlab_med_floorReported (s : State) (a : Nat) (x : Slab) : (setSlab s a x).med.floorReported = s.med.floorReported := rfl
@[simp] theorem setSlab_med_degraded (s : State) (a : Nat) (x : Slab) : (setSlab s a x).med.degraded = s.med.degraded := rfl
@[simp] theorem setSlab_med_lossWarn (s : State) (a : Nat) (x : Slab) : (setSlab s a x).med.lossWarn = s.med.lossWarn := rfl
@[simp] theorem setSlab_med_bringupFault (s : State) (a : Nat) (x : Slab) : (setSlab s a x).med.bringupFault = s.med.bringupFault := rfl
/-! ### setCourse -/

@[simp] theorem setCourse_pending (s : State) (c : Nat) (x : Option Course) : (setCourse s c x).pending = s.pending := rfl
@[simp] theorem setCourse_out (s : State) (c : Nat) (x : Option Course) : (setCourse s c x).out = s.out := rfl
@[simp] theorem setCourse_freeCtr (s : State) (c : Nat) (x : Option Course) : (setCourse s c x).freeCtr = s.freeCtr := rfl
@[simp] theorem setCourse_reg (s : State) (c : Nat) (x : Option Course) : (setCourse s c x).reg = s.reg := rfl
@[simp] theorem setCourse_tb (s : State) (c : Nat) (x : Option Course) : (setCourse s c x).tb = s.tb := rfl
@[simp] theorem setCourse_fl (s : State) (c : Nat) (x : Option Course) : (setCourse s c x).fl = s.fl := rfl
@[simp] theorem setCourse_ord (s : State) (c : Nat) (x : Option Course) : (setCourse s c x).ord = s.ord := rfl
@[simp] theorem setCourse_port (s : State) (c : Nat) (x : Option Course) : (setCourse s c x).port = s.port := rfl
@[simp] theorem setCourse_ten (s : State) (c : Nat) (x : Option Course) : (setCourse s c x).ten = s.ten := rfl
@[simp] theorem setCourse_cph (s : State) (c : Nat) (x : Option Course) : (setCourse s c x).cph = s.cph := rfl
@[simp] theorem setCourse_asy (s : State) (c : Nat) (x : Option Course) : (setCourse s c x).asy = s.asy := rfl
@[simp] theorem setCourse_mem (s : State) (c : Nat) (x : Option Course) : (setCourse s c x).mem = s.mem := rfl
@[simp] theorem setCourse_pwr (s : State) (c : Nat) (x : Option Course) : (setCourse s c x).pwr = s.pwr := rfl
@[simp] theorem setCourse_blw (s : State) (c : Nat) (x : Option Course) : (setCourse s c x).blw = s.blw := rfl
@[simp] theorem setCourse_hkp (s : State) (c : Nat) (x : Option Course) : (setCourse s c x).hkp = s.hkp := rfl
@[simp] theorem setCourse_hm (s : State) (c : Nat) (x : Option Course) : (setCourse s c x).hm = s.hm := rfl
@[simp] theorem setCourse_wall (s : State) (c : Nat) (x : Option Course) : (setCourse s c x).wall = s.wall := rfl
@[simp] theorem setCourse_boot (s : State) (c : Nat) (x : Option Course) : (setCourse s c x).boot = s.boot := rfl
@[simp] theorem setCourse_med_formatted (s : State) (c : Nat) (x : Option Course) : (setCourse s c x).med.formatted = s.med.formatted := rfl
@[simp] theorem setCourse_med_ns (s : State) (c : Nat) (x : Option Course) : (setCourse s c x).med.ns = s.med.ns := rfl
@[simp] theorem setCourse_med_zones (s : State) (c : Nat) (x : Option Course) : (setCourse s c x).med.zones = s.med.zones := rfl
@[simp] theorem setCourse_med_bays (s : State) (c : Nat) (x : Option Course) : (setCourse s c x).med.bays = s.med.bays := rfl
@[simp] theorem setCourse_med_slabs (s : State) (c : Nat) (x : Option Course) : (setCourse s c x).med.slabs = s.med.slabs := rfl
@[simp] theorem setCourse_med_nextCourse (s : State) (c : Nat) (x : Option Course) : (setCourse s c x).med.nextCourse = s.med.nextCourse := rfl
@[simp] theorem setCourse_med_domains (s : State) (c : Nat) (x : Option Course) : (setCourse s c x).med.domains = s.med.domains := rfl
@[simp] theorem setCourse_med_map (s : State) (c : Nat) (x : Option Course) : (setCourse s c x).med.map = s.med.map := rfl
@[simp] theorem setCourse_med_data (s : State) (c : Nat) (x : Option Course) : (setCourse s c x).med.data = s.med.data := rfl
@[simp] theorem setCourse_med_keys (s : State) (c : Nat) (x : Option Course) : (setCourse s c x).med.keys = s.med.keys := rfl
@[simp] theorem setCourse_med_rev (s : State) (c : Nat) (x : Option Course) : (setCourse s c x).med.rev = s.med.rev := rfl
@[simp] theorem setCourse_med_unrec (s : State) (c : Nat) (x : Option Course) : (setCourse s c x).med.unrec = s.med.unrec := rfl
@[simp] theorem setCourse_med_gone (s : State) (c : Nat) (x : Option Course) : (setCourse s c x).med.gone = s.med.gone := rfl
@[simp] theorem setCourse_med_accs (s : State) (c : Nat) (x : Option Course) : (setCourse s c x).med.accs = s.med.accs := rfl
@[simp] theorem setCourse_med_jrn (s : State) (c : Nat) (x : Option Course) : (setCourse s c x).med.jrn = s.med.jrn := rfl
@[simp] theorem setCourse_med_sets (s : State) (c : Nat) (x : Option Course) : (setCourse s c x).med.sets = s.med.sets := rfl
@[simp] theorem setCourse_med_resident (s : State) (c : Nat) (x : Option Course) : (setCourse s c x).med.resident = s.med.resident := rfl
@[simp] theorem setCourse_med_releases (s : State) (c : Nat) (x : Option Course) : (setCourse s c x).med.releases = s.med.releases := rfl
@[simp] theorem setCourse_med_nextRel (s : State) (c : Nat) (x : Option Course) : (setCourse s c x).med.nextRel = s.med.nextRel := rfl
@[simp] theorem setCourse_med_restored (s : State) (c : Nat) (x : Option Course) : (setCourse s c x).med.restored = s.med.restored := rfl
@[simp] theorem setCourse_med_ledger (s : State) (c : Nat) (x : Option Course) : (setCourse s c x).med.ledger = s.med.ledger := rfl
@[simp] theorem setCourse_med_region4 (s : State) (c : Nat) (x : Option Course) : (setCourse s c x).med.region4 = s.med.region4 := rfl
@[simp] theorem setCourse_med_good (s : State) (c : Nat) (x : Option Course) : (setCourse s c x).med.good = s.med.good := rfl
@[simp] theorem setCourse_med_retiredCnt (s : State) (c : Nat) (x : Option Course) : (setCourse s c x).med.retiredCnt = s.med.retiredCnt := rfl
@[simp] theorem setCourse_med_factory (s : State) (c : Nat) (x : Option Course) : (setCourse s c x).med.factory = s.med.factory := rfl
@[simp] theorem setCourse_med_slcReserve (s : State) (c : Nat) (x : Option Course) : (setCourse s c x).med.slcReserve = s.med.slcReserve := rfl
@[simp] theorem setCourse_med_systemArea (s : State) (c : Nat) (x : Option Course) : (setCourse s c x).med.systemArea = s.med.systemArea := rfl
@[simp] theorem setCourse_med_dataCourses (s : State) (c : Nat) (x : Option Course) : (setCourse s c x).med.dataCourses = s.med.dataCourses := rfl
@[simp] theorem setCourse_med_mapPool (s : State) (c : Nat) (x : Option Course) : (setCourse s c x).med.mapPool = s.med.mapPool := rfl
@[simp] theorem setCourse_med_areaA (s : State) (c : Nat) (x : Option Course) : (setCourse s c x).med.areaA = s.med.areaA := rfl
@[simp] theorem setCourse_med_areaB (s : State) (c : Nat) (x : Option Course) : (setCourse s c x).med.areaB = s.med.areaB := rfl
@[simp] theorem setCourse_med_armedB (s : State) (c : Nat) (x : Option Course) : (setCourse s c x).med.armedB = s.med.armedB := rfl
@[simp] theorem setCourse_med_areaHeld (s : State) (c : Nat) (x : Option Course) : (setCourse s c x).med.areaHeld = s.med.areaHeld := rfl
@[simp] theorem setCourse_med_roLatch (s : State) (c : Nat) (x : Option Course) : (setCourse s c x).med.roLatch = s.med.roLatch := rfl
@[simp] theorem setCourse_med_lowReported (s : State) (c : Nat) (x : Option Course) : (setCourse s c x).med.lowReported = s.med.lowReported := rfl
@[simp] theorem setCourse_med_floorReported (s : State) (c : Nat) (x : Option Course) : (setCourse s c x).med.floorReported = s.med.floorReported := rfl
@[simp] theorem setCourse_med_degraded (s : State) (c : Nat) (x : Option Course) : (setCourse s c x).med.degraded = s.med.degraded := rfl
@[simp] theorem setCourse_med_lossWarn (s : State) (c : Nat) (x : Option Course) : (setCourse s c x).med.lossWarn = s.med.lossWarn := rfl
@[simp] theorem setCourse_med_bringupFault (s : State) (c : Nat) (x : Option Course) : (setCourse s c x).med.bringupFault = s.med.bringupFault := rfl
/-! ### setDomain -/

@[simp] theorem setDomain_pending (s : State) (nsid k : Nat) (x : Option Domain) : (setDomain s nsid k x).pending = s.pending := rfl
@[simp] theorem setDomain_out (s : State) (nsid k : Nat) (x : Option Domain) : (setDomain s nsid k x).out = s.out := rfl
@[simp] theorem setDomain_freeCtr (s : State) (nsid k : Nat) (x : Option Domain) : (setDomain s nsid k x).freeCtr = s.freeCtr := rfl
@[simp] theorem setDomain_reg (s : State) (nsid k : Nat) (x : Option Domain) : (setDomain s nsid k x).reg = s.reg := rfl
@[simp] theorem setDomain_tb (s : State) (nsid k : Nat) (x : Option Domain) : (setDomain s nsid k x).tb = s.tb := rfl
@[simp] theorem setDomain_fl (s : State) (nsid k : Nat) (x : Option Domain) : (setDomain s nsid k x).fl = s.fl := rfl
@[simp] theorem setDomain_ord (s : State) (nsid k : Nat) (x : Option Domain) : (setDomain s nsid k x).ord = s.ord := rfl
@[simp] theorem setDomain_port (s : State) (nsid k : Nat) (x : Option Domain) : (setDomain s nsid k x).port = s.port := rfl
@[simp] theorem setDomain_ten (s : State) (nsid k : Nat) (x : Option Domain) : (setDomain s nsid k x).ten = s.ten := rfl
@[simp] theorem setDomain_cph (s : State) (nsid k : Nat) (x : Option Domain) : (setDomain s nsid k x).cph = s.cph := rfl
@[simp] theorem setDomain_asy (s : State) (nsid k : Nat) (x : Option Domain) : (setDomain s nsid k x).asy = s.asy := rfl
@[simp] theorem setDomain_mem (s : State) (nsid k : Nat) (x : Option Domain) : (setDomain s nsid k x).mem = s.mem := rfl
@[simp] theorem setDomain_pwr (s : State) (nsid k : Nat) (x : Option Domain) : (setDomain s nsid k x).pwr = s.pwr := rfl
@[simp] theorem setDomain_blw (s : State) (nsid k : Nat) (x : Option Domain) : (setDomain s nsid k x).blw = s.blw := rfl
@[simp] theorem setDomain_hkp (s : State) (nsid k : Nat) (x : Option Domain) : (setDomain s nsid k x).hkp = s.hkp := rfl
@[simp] theorem setDomain_hm (s : State) (nsid k : Nat) (x : Option Domain) : (setDomain s nsid k x).hm = s.hm := rfl
@[simp] theorem setDomain_wall (s : State) (nsid k : Nat) (x : Option Domain) : (setDomain s nsid k x).wall = s.wall := rfl
@[simp] theorem setDomain_boot (s : State) (nsid k : Nat) (x : Option Domain) : (setDomain s nsid k x).boot = s.boot := rfl
@[simp] theorem setDomain_med_formatted (s : State) (nsid k : Nat) (x : Option Domain) : (setDomain s nsid k x).med.formatted = s.med.formatted := rfl
@[simp] theorem setDomain_med_ns (s : State) (nsid k : Nat) (x : Option Domain) : (setDomain s nsid k x).med.ns = s.med.ns := rfl
@[simp] theorem setDomain_med_zones (s : State) (nsid k : Nat) (x : Option Domain) : (setDomain s nsid k x).med.zones = s.med.zones := rfl
@[simp] theorem setDomain_med_bays (s : State) (nsid k : Nat) (x : Option Domain) : (setDomain s nsid k x).med.bays = s.med.bays := rfl
@[simp] theorem setDomain_med_slabs (s : State) (nsid k : Nat) (x : Option Domain) : (setDomain s nsid k x).med.slabs = s.med.slabs := rfl
@[simp] theorem setDomain_med_courses (s : State) (nsid k : Nat) (x : Option Domain) : (setDomain s nsid k x).med.courses = s.med.courses := rfl
@[simp] theorem setDomain_med_nextCourse (s : State) (nsid k : Nat) (x : Option Domain) : (setDomain s nsid k x).med.nextCourse = s.med.nextCourse := rfl
@[simp] theorem setDomain_med_map (s : State) (nsid k : Nat) (x : Option Domain) : (setDomain s nsid k x).med.map = s.med.map := rfl
@[simp] theorem setDomain_med_data (s : State) (nsid k : Nat) (x : Option Domain) : (setDomain s nsid k x).med.data = s.med.data := rfl
@[simp] theorem setDomain_med_keys (s : State) (nsid k : Nat) (x : Option Domain) : (setDomain s nsid k x).med.keys = s.med.keys := rfl
@[simp] theorem setDomain_med_rev (s : State) (nsid k : Nat) (x : Option Domain) : (setDomain s nsid k x).med.rev = s.med.rev := rfl
@[simp] theorem setDomain_med_unrec (s : State) (nsid k : Nat) (x : Option Domain) : (setDomain s nsid k x).med.unrec = s.med.unrec := rfl
@[simp] theorem setDomain_med_gone (s : State) (nsid k : Nat) (x : Option Domain) : (setDomain s nsid k x).med.gone = s.med.gone := rfl
@[simp] theorem setDomain_med_accs (s : State) (nsid k : Nat) (x : Option Domain) : (setDomain s nsid k x).med.accs = s.med.accs := rfl
@[simp] theorem setDomain_med_jrn (s : State) (nsid k : Nat) (x : Option Domain) : (setDomain s nsid k x).med.jrn = s.med.jrn := rfl
@[simp] theorem setDomain_med_sets (s : State) (nsid k : Nat) (x : Option Domain) : (setDomain s nsid k x).med.sets = s.med.sets := rfl
@[simp] theorem setDomain_med_resident (s : State) (nsid k : Nat) (x : Option Domain) : (setDomain s nsid k x).med.resident = s.med.resident := rfl
@[simp] theorem setDomain_med_releases (s : State) (nsid k : Nat) (x : Option Domain) : (setDomain s nsid k x).med.releases = s.med.releases := rfl
@[simp] theorem setDomain_med_nextRel (s : State) (nsid k : Nat) (x : Option Domain) : (setDomain s nsid k x).med.nextRel = s.med.nextRel := rfl
@[simp] theorem setDomain_med_restored (s : State) (nsid k : Nat) (x : Option Domain) : (setDomain s nsid k x).med.restored = s.med.restored := rfl
@[simp] theorem setDomain_med_ledger (s : State) (nsid k : Nat) (x : Option Domain) : (setDomain s nsid k x).med.ledger = s.med.ledger := rfl
@[simp] theorem setDomain_med_region4 (s : State) (nsid k : Nat) (x : Option Domain) : (setDomain s nsid k x).med.region4 = s.med.region4 := rfl
@[simp] theorem setDomain_med_good (s : State) (nsid k : Nat) (x : Option Domain) : (setDomain s nsid k x).med.good = s.med.good := rfl
@[simp] theorem setDomain_med_retiredCnt (s : State) (nsid k : Nat) (x : Option Domain) : (setDomain s nsid k x).med.retiredCnt = s.med.retiredCnt := rfl
@[simp] theorem setDomain_med_factory (s : State) (nsid k : Nat) (x : Option Domain) : (setDomain s nsid k x).med.factory = s.med.factory := rfl
@[simp] theorem setDomain_med_slcReserve (s : State) (nsid k : Nat) (x : Option Domain) : (setDomain s nsid k x).med.slcReserve = s.med.slcReserve := rfl
@[simp] theorem setDomain_med_systemArea (s : State) (nsid k : Nat) (x : Option Domain) : (setDomain s nsid k x).med.systemArea = s.med.systemArea := rfl
@[simp] theorem setDomain_med_dataCourses (s : State) (nsid k : Nat) (x : Option Domain) : (setDomain s nsid k x).med.dataCourses = s.med.dataCourses := rfl
@[simp] theorem setDomain_med_mapPool (s : State) (nsid k : Nat) (x : Option Domain) : (setDomain s nsid k x).med.mapPool = s.med.mapPool := rfl
@[simp] theorem setDomain_med_areaA (s : State) (nsid k : Nat) (x : Option Domain) : (setDomain s nsid k x).med.areaA = s.med.areaA := rfl
@[simp] theorem setDomain_med_areaB (s : State) (nsid k : Nat) (x : Option Domain) : (setDomain s nsid k x).med.areaB = s.med.areaB := rfl
@[simp] theorem setDomain_med_armedB (s : State) (nsid k : Nat) (x : Option Domain) : (setDomain s nsid k x).med.armedB = s.med.armedB := rfl
@[simp] theorem setDomain_med_areaHeld (s : State) (nsid k : Nat) (x : Option Domain) : (setDomain s nsid k x).med.areaHeld = s.med.areaHeld := rfl
@[simp] theorem setDomain_med_roLatch (s : State) (nsid k : Nat) (x : Option Domain) : (setDomain s nsid k x).med.roLatch = s.med.roLatch := rfl
@[simp] theorem setDomain_med_lowReported (s : State) (nsid k : Nat) (x : Option Domain) : (setDomain s nsid k x).med.lowReported = s.med.lowReported := rfl
@[simp] theorem setDomain_med_floorReported (s : State) (nsid k : Nat) (x : Option Domain) : (setDomain s nsid k x).med.floorReported = s.med.floorReported := rfl
@[simp] theorem setDomain_med_degraded (s : State) (nsid k : Nat) (x : Option Domain) : (setDomain s nsid k x).med.degraded = s.med.degraded := rfl
@[simp] theorem setDomain_med_lossWarn (s : State) (nsid k : Nat) (x : Option Domain) : (setDomain s nsid k x).med.lossWarn = s.med.lossWarn := rfl
@[simp] theorem setDomain_med_bringupFault (s : State) (nsid k : Nat) (x : Option Domain) : (setDomain s nsid k x).med.bringupFault = s.med.bringupFault := rfl
/-! ### setDev -/

@[simp] theorem setDev_pending (s : State) (i : Nat) (x : Option DevRead) : (setDev s i x).pending = s.pending := rfl
@[simp] theorem setDev_out (s : State) (i : Nat) (x : Option DevRead) : (setDev s i x).out = s.out := rfl
@[simp] theorem setDev_freeCtr (s : State) (i : Nat) (x : Option DevRead) : (setDev s i x).freeCtr = s.freeCtr := rfl
@[simp] theorem setDev_reg (s : State) (i : Nat) (x : Option DevRead) : (setDev s i x).reg = s.reg := rfl
@[simp] theorem setDev_tb (s : State) (i : Nat) (x : Option DevRead) : (setDev s i x).tb = s.tb := rfl
@[simp] theorem setDev_ord (s : State) (i : Nat) (x : Option DevRead) : (setDev s i x).ord = s.ord := rfl
@[simp] theorem setDev_med (s : State) (i : Nat) (x : Option DevRead) : (setDev s i x).med = s.med := rfl
@[simp] theorem setDev_port (s : State) (i : Nat) (x : Option DevRead) : (setDev s i x).port = s.port := rfl
@[simp] theorem setDev_ten (s : State) (i : Nat) (x : Option DevRead) : (setDev s i x).ten = s.ten := rfl
@[simp] theorem setDev_cph (s : State) (i : Nat) (x : Option DevRead) : (setDev s i x).cph = s.cph := rfl
@[simp] theorem setDev_asy (s : State) (i : Nat) (x : Option DevRead) : (setDev s i x).asy = s.asy := rfl
@[simp] theorem setDev_mem (s : State) (i : Nat) (x : Option DevRead) : (setDev s i x).mem = s.mem := rfl
@[simp] theorem setDev_pwr (s : State) (i : Nat) (x : Option DevRead) : (setDev s i x).pwr = s.pwr := rfl
@[simp] theorem setDev_blw (s : State) (i : Nat) (x : Option DevRead) : (setDev s i x).blw = s.blw := rfl
@[simp] theorem setDev_hkp (s : State) (i : Nat) (x : Option DevRead) : (setDev s i x).hkp = s.hkp := rfl
@[simp] theorem setDev_hm (s : State) (i : Nat) (x : Option DevRead) : (setDev s i x).hm = s.hm := rfl
@[simp] theorem setDev_wall (s : State) (i : Nat) (x : Option DevRead) : (setDev s i x).wall = s.wall := rfl
@[simp] theorem setDev_boot (s : State) (i : Nat) (x : Option DevRead) : (setDev s i x).boot = s.boot := rfl
@[simp] theorem setDev_fl_dies (s : State) (i : Nat) (x : Option DevRead) : (setDev s i x).fl.dies = s.fl.dies := rfl
@[simp] theorem setDev_fl_chans (s : State) (i : Nat) (x : Option DevRead) : (setDev s i x).fl.chans = s.fl.chans := rfl
@[simp] theorem setDev_fl_engines (s : State) (i : Nat) (x : Option DevRead) : (setDev s i x).fl.engines = s.fl.engines := rfl
@[simp] theorem setDev_fl_softQ (s : State) (i : Nat) (x : Option DevRead) : (setDev s i x).fl.softQ = s.fl.softQ := rfl
@[simp] theorem setDev_fl_nextDev (s : State) (i : Nat) (x : Option DevRead) : (setDev s i x).fl.nextDev = s.fl.nextDev := rfl
@[simp] theorem setDev_fl_rebuilds (s : State) (i : Nat) (x : Option DevRead) : (setDev s i x).fl.rebuilds = s.fl.rebuilds := rfl
@[simp] theorem setDev_fl_nextAdm (s : State) (i : Nat) (x : Option DevRead) : (setDev s i x).fl.nextAdm = s.fl.nextAdm := rfl
/-! ### setLPort -/

@[simp] theorem setLPort_pending (s : State) (p : Nat) (x : LPort) : (setLPort s p x).pending = s.pending := rfl
@[simp] theorem setLPort_out (s : State) (p : Nat) (x : LPort) : (setLPort s p x).out = s.out := rfl
@[simp] theorem setLPort_freeCtr (s : State) (p : Nat) (x : LPort) : (setLPort s p x).freeCtr = s.freeCtr := rfl
@[simp] theorem setLPort_reg (s : State) (p : Nat) (x : LPort) : (setLPort s p x).reg = s.reg := rfl
@[simp] theorem setLPort_tb (s : State) (p : Nat) (x : LPort) : (setLPort s p x).tb = s.tb := rfl
@[simp] theorem setLPort_fl (s : State) (p : Nat) (x : LPort) : (setLPort s p x).fl = s.fl := rfl
@[simp] theorem setLPort_ord (s : State) (p : Nat) (x : LPort) : (setLPort s p x).ord = s.ord := rfl
@[simp] theorem setLPort_med (s : State) (p : Nat) (x : LPort) : (setLPort s p x).med = s.med := rfl
@[simp] theorem setLPort_ten (s : State) (p : Nat) (x : LPort) : (setLPort s p x).ten = s.ten := rfl
@[simp] theorem setLPort_cph (s : State) (p : Nat) (x : LPort) : (setLPort s p x).cph = s.cph := rfl
@[simp] theorem setLPort_asy (s : State) (p : Nat) (x : LPort) : (setLPort s p x).asy = s.asy := rfl
@[simp] theorem setLPort_mem (s : State) (p : Nat) (x : LPort) : (setLPort s p x).mem = s.mem := rfl
@[simp] theorem setLPort_pwr (s : State) (p : Nat) (x : LPort) : (setLPort s p x).pwr = s.pwr := rfl
@[simp] theorem setLPort_blw (s : State) (p : Nat) (x : LPort) : (setLPort s p x).blw = s.blw := rfl
@[simp] theorem setLPort_hkp (s : State) (p : Nat) (x : LPort) : (setLPort s p x).hkp = s.hkp := rfl
@[simp] theorem setLPort_hm (s : State) (p : Nat) (x : LPort) : (setLPort s p x).hm = s.hm := rfl
@[simp] theorem setLPort_wall (s : State) (p : Nat) (x : LPort) : (setLPort s p x).wall = s.wall := rfl
@[simp] theorem setLPort_boot (s : State) (p : Nat) (x : LPort) : (setLPort s p x).boot = s.boot := rfl
@[simp] theorem setLPort_port_qps (s : State) (p : Nat) (x : LPort) : (setLPort s p x).port.qps = s.port.qps := rfl
@[simp] theorem setLPort_port_lastQp (s : State) (p : Nat) (x : LPort) : (setLPort s p x).port.lastQp = s.port.lastQp := rfl
@[simp] theorem setLPort_port_keepAlive (s : State) (p : Nat) (x : LPort) : (setLPort s p x).port.keepAlive = s.port.keepAlive := rfl
@[simp] theorem setLPort_port_funcs (s : State) (p : Nat) (x : LPort) : (setLPort s p x).port.funcs = s.port.funcs := rfl
@[simp] theorem setLPort_port_lastFn (s : State) (p : Nat) (x : LPort) : (setLPort s p x).port.lastFn = s.port.lastFn := rfl
@[simp] theorem setLPort_port_linkUp (s : State) (p : Nat) (x : LPort) : (setLPort s p x).port.linkUp = s.port.linkUp := rfl
@[simp] theorem setLPort_port_linkSpeed (s : State) (p : Nat) (x : LPort) : (setLPort s p x).port.linkSpeed = s.port.linkSpeed := rfl
@[simp] theorem setLPort_port_linkWidth (s : State) (p : Nat) (x : LPort) : (setLPort s p x).port.linkWidth = s.port.linkWidth := rfl
@[simp] theorem setLPort_port_linkFlit (s : State) (p : Nat) (x : LPort) : (setLPort s p x).port.linkFlit = s.port.linkFlit := rfl
@[simp] theorem setLPort_port_perstHigh (s : State) (p : Nat) (x : LPort) : (setLPort s p x).port.perstHigh = s.port.perstHigh := rfl
@[simp] theorem setLPort_port_heldTlps (s : State) (p : Nat) (x : LPort) : (setLPort s p x).port.heldTlps = s.port.heldTlps := rfl
@[simp] theorem setLPort_port_eid (s : State) (p : Nat) (x : LPort) : (setLPort s p x).port.eid = s.port.eid := rfl
@[simp] theorem setLPort_port_miCfg (s : State) (p : Nat) (x : LPort) : (setLPort s p x).port.miCfg = s.port.miCfg := rfl
@[simp] theorem setLPort_port_ips (s : State) (p : Nat) (x : LPort) : (setLPort s p x).port.ips = s.port.ips := rfl
/-! ### setQp -/

@[simp] theorem setQp_pending (s : State) (q : Nat) (x : QPair) : (setQp s q x).pending = s.pending := rfl
@[simp] theorem setQp_out (s : State) (q : Nat) (x : QPair) : (setQp s q x).out = s.out := rfl
@[simp] theorem setQp_freeCtr (s : State) (q : Nat) (x : QPair) : (setQp s q x).freeCtr = s.freeCtr := rfl
@[simp] theorem setQp_reg (s : State) (q : Nat) (x : QPair) : (setQp s q x).reg = s.reg := rfl
@[simp] theorem setQp_tb (s : State) (q : Nat) (x : QPair) : (setQp s q x).tb = s.tb := rfl
@[simp] theorem setQp_fl (s : State) (q : Nat) (x : QPair) : (setQp s q x).fl = s.fl := rfl
@[simp] theorem setQp_ord (s : State) (q : Nat) (x : QPair) : (setQp s q x).ord = s.ord := rfl
@[simp] theorem setQp_med (s : State) (q : Nat) (x : QPair) : (setQp s q x).med = s.med := rfl
@[simp] theorem setQp_ten (s : State) (q : Nat) (x : QPair) : (setQp s q x).ten = s.ten := rfl
@[simp] theorem setQp_cph (s : State) (q : Nat) (x : QPair) : (setQp s q x).cph = s.cph := rfl
@[simp] theorem setQp_asy (s : State) (q : Nat) (x : QPair) : (setQp s q x).asy = s.asy := rfl
@[simp] theorem setQp_mem (s : State) (q : Nat) (x : QPair) : (setQp s q x).mem = s.mem := rfl
@[simp] theorem setQp_pwr (s : State) (q : Nat) (x : QPair) : (setQp s q x).pwr = s.pwr := rfl
@[simp] theorem setQp_blw (s : State) (q : Nat) (x : QPair) : (setQp s q x).blw = s.blw := rfl
@[simp] theorem setQp_hkp (s : State) (q : Nat) (x : QPair) : (setQp s q x).hkp = s.hkp := rfl
@[simp] theorem setQp_hm (s : State) (q : Nat) (x : QPair) : (setQp s q x).hm = s.hm := rfl
@[simp] theorem setQp_wall (s : State) (q : Nat) (x : QPair) : (setQp s q x).wall = s.wall := rfl
@[simp] theorem setQp_boot (s : State) (q : Nat) (x : QPair) : (setQp s q x).boot = s.boot := rfl
@[simp] theorem setQp_port_lports (s : State) (q : Nat) (x : QPair) : (setQp s q x).port.lports = s.port.lports := rfl
@[simp] theorem setQp_port_lastQp (s : State) (q : Nat) (x : QPair) : (setQp s q x).port.lastQp = s.port.lastQp := rfl
@[simp] theorem setQp_port_keepAlive (s : State) (q : Nat) (x : QPair) : (setQp s q x).port.keepAlive = s.port.keepAlive := rfl
@[simp] theorem setQp_port_funcs (s : State) (q : Nat) (x : QPair) : (setQp s q x).port.funcs = s.port.funcs := rfl
@[simp] theorem setQp_port_lastFn (s : State) (q : Nat) (x : QPair) : (setQp s q x).port.lastFn = s.port.lastFn := rfl
@[simp] theorem setQp_port_linkUp (s : State) (q : Nat) (x : QPair) : (setQp s q x).port.linkUp = s.port.linkUp := rfl
@[simp] theorem setQp_port_linkSpeed (s : State) (q : Nat) (x : QPair) : (setQp s q x).port.linkSpeed = s.port.linkSpeed := rfl
@[simp] theorem setQp_port_linkWidth (s : State) (q : Nat) (x : QPair) : (setQp s q x).port.linkWidth = s.port.linkWidth := rfl
@[simp] theorem setQp_port_linkFlit (s : State) (q : Nat) (x : QPair) : (setQp s q x).port.linkFlit = s.port.linkFlit := rfl
@[simp] theorem setQp_port_perstHigh (s : State) (q : Nat) (x : QPair) : (setQp s q x).port.perstHigh = s.port.perstHigh := rfl
@[simp] theorem setQp_port_heldTlps (s : State) (q : Nat) (x : QPair) : (setQp s q x).port.heldTlps = s.port.heldTlps := rfl
@[simp] theorem setQp_port_eid (s : State) (q : Nat) (x : QPair) : (setQp s q x).port.eid = s.port.eid := rfl
@[simp] theorem setQp_port_miCfg (s : State) (q : Nat) (x : QPair) : (setQp s q x).port.miCfg = s.port.miCfg := rfl
@[simp] theorem setQp_port_ips (s : State) (q : Nat) (x : QPair) : (setQp s q x).port.ips = s.port.ips := rfl
/-! ### setFunc -/

@[simp] theorem setFunc_pending (s : State) (f : Nat) (x : PFunc) : (setFunc s f x).pending = s.pending := rfl
@[simp] theorem setFunc_out (s : State) (f : Nat) (x : PFunc) : (setFunc s f x).out = s.out := rfl
@[simp] theorem setFunc_freeCtr (s : State) (f : Nat) (x : PFunc) : (setFunc s f x).freeCtr = s.freeCtr := rfl
@[simp] theorem setFunc_reg (s : State) (f : Nat) (x : PFunc) : (setFunc s f x).reg = s.reg := rfl
@[simp] theorem setFunc_tb (s : State) (f : Nat) (x : PFunc) : (setFunc s f x).tb = s.tb := rfl
@[simp] theorem setFunc_fl (s : State) (f : Nat) (x : PFunc) : (setFunc s f x).fl = s.fl := rfl
@[simp] theorem setFunc_ord (s : State) (f : Nat) (x : PFunc) : (setFunc s f x).ord = s.ord := rfl
@[simp] theorem setFunc_med (s : State) (f : Nat) (x : PFunc) : (setFunc s f x).med = s.med := rfl
@[simp] theorem setFunc_ten (s : State) (f : Nat) (x : PFunc) : (setFunc s f x).ten = s.ten := rfl
@[simp] theorem setFunc_cph (s : State) (f : Nat) (x : PFunc) : (setFunc s f x).cph = s.cph := rfl
@[simp] theorem setFunc_asy (s : State) (f : Nat) (x : PFunc) : (setFunc s f x).asy = s.asy := rfl
@[simp] theorem setFunc_mem (s : State) (f : Nat) (x : PFunc) : (setFunc s f x).mem = s.mem := rfl
@[simp] theorem setFunc_pwr (s : State) (f : Nat) (x : PFunc) : (setFunc s f x).pwr = s.pwr := rfl
@[simp] theorem setFunc_blw (s : State) (f : Nat) (x : PFunc) : (setFunc s f x).blw = s.blw := rfl
@[simp] theorem setFunc_hkp (s : State) (f : Nat) (x : PFunc) : (setFunc s f x).hkp = s.hkp := rfl
@[simp] theorem setFunc_hm (s : State) (f : Nat) (x : PFunc) : (setFunc s f x).hm = s.hm := rfl
@[simp] theorem setFunc_wall (s : State) (f : Nat) (x : PFunc) : (setFunc s f x).wall = s.wall := rfl
@[simp] theorem setFunc_boot (s : State) (f : Nat) (x : PFunc) : (setFunc s f x).boot = s.boot := rfl
@[simp] theorem setFunc_port_lports (s : State) (f : Nat) (x : PFunc) : (setFunc s f x).port.lports = s.port.lports := rfl
@[simp] theorem setFunc_port_qps (s : State) (f : Nat) (x : PFunc) : (setFunc s f x).port.qps = s.port.qps := rfl
@[simp] theorem setFunc_port_lastQp (s : State) (f : Nat) (x : PFunc) : (setFunc s f x).port.lastQp = s.port.lastQp := rfl
@[simp] theorem setFunc_port_keepAlive (s : State) (f : Nat) (x : PFunc) : (setFunc s f x).port.keepAlive = s.port.keepAlive := rfl
@[simp] theorem setFunc_port_lastFn (s : State) (f : Nat) (x : PFunc) : (setFunc s f x).port.lastFn = s.port.lastFn := rfl
@[simp] theorem setFunc_port_linkUp (s : State) (f : Nat) (x : PFunc) : (setFunc s f x).port.linkUp = s.port.linkUp := rfl
@[simp] theorem setFunc_port_linkSpeed (s : State) (f : Nat) (x : PFunc) : (setFunc s f x).port.linkSpeed = s.port.linkSpeed := rfl
@[simp] theorem setFunc_port_linkWidth (s : State) (f : Nat) (x : PFunc) : (setFunc s f x).port.linkWidth = s.port.linkWidth := rfl
@[simp] theorem setFunc_port_linkFlit (s : State) (f : Nat) (x : PFunc) : (setFunc s f x).port.linkFlit = s.port.linkFlit := rfl
@[simp] theorem setFunc_port_perstHigh (s : State) (f : Nat) (x : PFunc) : (setFunc s f x).port.perstHigh = s.port.perstHigh := rfl
@[simp] theorem setFunc_port_heldTlps (s : State) (f : Nat) (x : PFunc) : (setFunc s f x).port.heldTlps = s.port.heldTlps := rfl
@[simp] theorem setFunc_port_eid (s : State) (f : Nat) (x : PFunc) : (setFunc s f x).port.eid = s.port.eid := rfl
@[simp] theorem setFunc_port_miCfg (s : State) (f : Nat) (x : PFunc) : (setFunc s f x).port.miCfg = s.port.miCfg := rfl
@[simp] theorem setFunc_port_ips (s : State) (f : Nat) (x : PFunc) : (setFunc s f x).port.ips = s.port.ips := rfl
/-! ### setTen -/

@[simp] theorem setTen_pending (s : State) (t : Nat) (x : Tenant) : (setTen s t x).pending = s.pending := rfl
@[simp] theorem setTen_out (s : State) (t : Nat) (x : Tenant) : (setTen s t x).out = s.out := rfl
@[simp] theorem setTen_freeCtr (s : State) (t : Nat) (x : Tenant) : (setTen s t x).freeCtr = s.freeCtr := rfl
@[simp] theorem setTen_reg (s : State) (t : Nat) (x : Tenant) : (setTen s t x).reg = s.reg := rfl
@[simp] theorem setTen_tb (s : State) (t : Nat) (x : Tenant) : (setTen s t x).tb = s.tb := rfl
@[simp] theorem setTen_fl (s : State) (t : Nat) (x : Tenant) : (setTen s t x).fl = s.fl := rfl
@[simp] theorem setTen_ord (s : State) (t : Nat) (x : Tenant) : (setTen s t x).ord = s.ord := rfl
@[simp] theorem setTen_med (s : State) (t : Nat) (x : Tenant) : (setTen s t x).med = s.med := rfl
@[simp] theorem setTen_port (s : State) (t : Nat) (x : Tenant) : (setTen s t x).port = s.port := rfl
@[simp] theorem setTen_cph (s : State) (t : Nat) (x : Tenant) : (setTen s t x).cph = s.cph := rfl
@[simp] theorem setTen_asy (s : State) (t : Nat) (x : Tenant) : (setTen s t x).asy = s.asy := rfl
@[simp] theorem setTen_mem (s : State) (t : Nat) (x : Tenant) : (setTen s t x).mem = s.mem := rfl
@[simp] theorem setTen_pwr (s : State) (t : Nat) (x : Tenant) : (setTen s t x).pwr = s.pwr := rfl
@[simp] theorem setTen_blw (s : State) (t : Nat) (x : Tenant) : (setTen s t x).blw = s.blw := rfl
@[simp] theorem setTen_hkp (s : State) (t : Nat) (x : Tenant) : (setTen s t x).hkp = s.hkp := rfl
@[simp] theorem setTen_hm (s : State) (t : Nat) (x : Tenant) : (setTen s t x).hm = s.hm := rfl
@[simp] theorem setTen_wall (s : State) (t : Nat) (x : Tenant) : (setTen s t x).wall = s.wall := rfl
@[simp] theorem setTen_boot (s : State) (t : Nat) (x : Tenant) : (setTen s t x).boot = s.boot := rfl
/-! ### setLane -/

@[simp] theorem setLane_pending (s : State) (l : Nat) (x : Lane) : (setLane s l x).pending = s.pending := rfl
@[simp] theorem setLane_out (s : State) (l : Nat) (x : Lane) : (setLane s l x).out = s.out := rfl
@[simp] theorem setLane_freeCtr (s : State) (l : Nat) (x : Lane) : (setLane s l x).freeCtr = s.freeCtr := rfl
@[simp] theorem setLane_reg (s : State) (l : Nat) (x : Lane) : (setLane s l x).reg = s.reg := rfl
@[simp] theorem setLane_tb (s : State) (l : Nat) (x : Lane) : (setLane s l x).tb = s.tb := rfl
@[simp] theorem setLane_fl (s : State) (l : Nat) (x : Lane) : (setLane s l x).fl = s.fl := rfl
@[simp] theorem setLane_ord (s : State) (l : Nat) (x : Lane) : (setLane s l x).ord = s.ord := rfl
@[simp] theorem setLane_med (s : State) (l : Nat) (x : Lane) : (setLane s l x).med = s.med := rfl
@[simp] theorem setLane_port (s : State) (l : Nat) (x : Lane) : (setLane s l x).port = s.port := rfl
@[simp] theorem setLane_ten (s : State) (l : Nat) (x : Lane) : (setLane s l x).ten = s.ten := rfl
@[simp] theorem setLane_asy (s : State) (l : Nat) (x : Lane) : (setLane s l x).asy = s.asy := rfl
@[simp] theorem setLane_mem (s : State) (l : Nat) (x : Lane) : (setLane s l x).mem = s.mem := rfl
@[simp] theorem setLane_pwr (s : State) (l : Nat) (x : Lane) : (setLane s l x).pwr = s.pwr := rfl
@[simp] theorem setLane_blw (s : State) (l : Nat) (x : Lane) : (setLane s l x).blw = s.blw := rfl
@[simp] theorem setLane_hkp (s : State) (l : Nat) (x : Lane) : (setLane s l x).hkp = s.hkp := rfl
@[simp] theorem setLane_hm (s : State) (l : Nat) (x : Lane) : (setLane s l x).hm = s.hm := rfl
@[simp] theorem setLane_wall (s : State) (l : Nat) (x : Lane) : (setLane s l x).wall = s.wall := rfl
@[simp] theorem setLane_boot (s : State) (l : Nat) (x : Lane) : (setLane s l x).boot = s.boot := rfl
@[simp] theorem setLane_cph_slots (s : State) (l : Nat) (x : Lane) : (setLane s l x).cph.slots = s.cph.slots := rfl
@[simp] theorem setLane_cph_retired (s : State) (l : Nat) (x : Lane) : (setLane s l x).cph.retired = s.cph.retired := rfl
@[simp] theorem setLane_cph_nextVersion (s : State) (l : Nat) (x : Lane) : (setLane s l x).cph.nextVersion = s.cph.nextVersion := rfl
@[simp] theorem setLane_cph_epochs (s : State) (l : Nat) (x : Lane) : (setLane s l x).cph.epochs = s.cph.epochs := rfl
@[simp] theorem setLane_cph_loads (s : State) (l : Nat) (x : Lane) : (setLane s l x).cph.loads = s.cph.loads := rfl
@[simp] theorem setLane_cph_sinceSet (s : State) (l : Nat) (x : Lane) : (setLane s l x).cph.sinceSet = s.cph.sinceSet := rfl
/-! ### setKey -/

@[simp] theorem setKey_pending (s : State) (k : Nat) (x : Option KeyRec) : (setKey s k x).pending = s.pending := rfl
@[simp] theorem setKey_out (s : State) (k : Nat) (x : Option KeyRec) : (setKey s k x).out = s.out := rfl
@[simp] theorem setKey_freeCtr (s : State) (k : Nat) (x : Option KeyRec) : (setKey s k x).freeCtr = s.freeCtr := rfl
@[simp] theorem setKey_reg (s : State) (k : Nat) (x : Option KeyRec) : (setKey s k x).reg = s.reg := rfl
@[simp] theorem setKey_tb (s : State) (k : Nat) (x : Option KeyRec) : (setKey s k x).tb = s.tb := rfl
@[simp] theorem setKey_fl (s : State) (k : Nat) (x : Option KeyRec) : (setKey s k x).fl = s.fl := rfl
@[simp] theorem setKey_ord (s : State) (k : Nat) (x : Option KeyRec) : (setKey s k x).ord = s.ord := rfl
@[simp] theorem setKey_med (s : State) (k : Nat) (x : Option KeyRec) : (setKey s k x).med = s.med := rfl
@[simp] theorem setKey_port (s : State) (k : Nat) (x : Option KeyRec) : (setKey s k x).port = s.port := rfl
@[simp] theorem setKey_ten (s : State) (k : Nat) (x : Option KeyRec) : (setKey s k x).ten = s.ten := rfl
@[simp] theorem setKey_asy (s : State) (k : Nat) (x : Option KeyRec) : (setKey s k x).asy = s.asy := rfl
@[simp] theorem setKey_mem (s : State) (k : Nat) (x : Option KeyRec) : (setKey s k x).mem = s.mem := rfl
@[simp] theorem setKey_pwr (s : State) (k : Nat) (x : Option KeyRec) : (setKey s k x).pwr = s.pwr := rfl
@[simp] theorem setKey_blw (s : State) (k : Nat) (x : Option KeyRec) : (setKey s k x).blw = s.blw := rfl
@[simp] theorem setKey_hkp (s : State) (k : Nat) (x : Option KeyRec) : (setKey s k x).hkp = s.hkp := rfl
@[simp] theorem setKey_hm (s : State) (k : Nat) (x : Option KeyRec) : (setKey s k x).hm = s.hm := rfl
@[simp] theorem setKey_wall (s : State) (k : Nat) (x : Option KeyRec) : (setKey s k x).wall = s.wall := rfl
@[simp] theorem setKey_boot (s : State) (k : Nat) (x : Option KeyRec) : (setKey s k x).boot = s.boot := rfl
@[simp] theorem setKey_cph_retired (s : State) (k : Nat) (x : Option KeyRec) : (setKey s k x).cph.retired = s.cph.retired := rfl
@[simp] theorem setKey_cph_nextVersion (s : State) (k : Nat) (x : Option KeyRec) : (setKey s k x).cph.nextVersion = s.cph.nextVersion := rfl
@[simp] theorem setKey_cph_epochs (s : State) (k : Nat) (x : Option KeyRec) : (setKey s k x).cph.epochs = s.cph.epochs := rfl
@[simp] theorem setKey_cph_lanes (s : State) (k : Nat) (x : Option KeyRec) : (setKey s k x).cph.lanes = s.cph.lanes := rfl
@[simp] theorem setKey_cph_loads (s : State) (k : Nat) (x : Option KeyRec) : (setKey s k x).cph.loads = s.cph.loads := rfl
@[simp] theorem setKey_cph_sinceSet (s : State) (k : Nat) (x : Option KeyRec) : (setKey s k x).cph.sinceSet = s.cph.sinceSet := rfl
/-! ### setEpoch -/

@[simp] theorem setEpoch_pending (s : State) (t : Nat) (e : W32) : (setEpoch s t e).pending = s.pending := rfl
@[simp] theorem setEpoch_out (s : State) (t : Nat) (e : W32) : (setEpoch s t e).out = s.out := rfl
@[simp] theorem setEpoch_freeCtr (s : State) (t : Nat) (e : W32) : (setEpoch s t e).freeCtr = s.freeCtr := rfl
@[simp] theorem setEpoch_reg (s : State) (t : Nat) (e : W32) : (setEpoch s t e).reg = s.reg := rfl
@[simp] theorem setEpoch_tb (s : State) (t : Nat) (e : W32) : (setEpoch s t e).tb = s.tb := rfl
@[simp] theorem setEpoch_fl (s : State) (t : Nat) (e : W32) : (setEpoch s t e).fl = s.fl := rfl
@[simp] theorem setEpoch_ord (s : State) (t : Nat) (e : W32) : (setEpoch s t e).ord = s.ord := rfl
@[simp] theorem setEpoch_med (s : State) (t : Nat) (e : W32) : (setEpoch s t e).med = s.med := rfl
@[simp] theorem setEpoch_port (s : State) (t : Nat) (e : W32) : (setEpoch s t e).port = s.port := rfl
@[simp] theorem setEpoch_ten (s : State) (t : Nat) (e : W32) : (setEpoch s t e).ten = s.ten := rfl
@[simp] theorem setEpoch_asy (s : State) (t : Nat) (e : W32) : (setEpoch s t e).asy = s.asy := rfl
@[simp] theorem setEpoch_mem (s : State) (t : Nat) (e : W32) : (setEpoch s t e).mem = s.mem := rfl
@[simp] theorem setEpoch_pwr (s : State) (t : Nat) (e : W32) : (setEpoch s t e).pwr = s.pwr := rfl
@[simp] theorem setEpoch_blw (s : State) (t : Nat) (e : W32) : (setEpoch s t e).blw = s.blw := rfl
@[simp] theorem setEpoch_hkp (s : State) (t : Nat) (e : W32) : (setEpoch s t e).hkp = s.hkp := rfl
@[simp] theorem setEpoch_hm (s : State) (t : Nat) (e : W32) : (setEpoch s t e).hm = s.hm := rfl
@[simp] theorem setEpoch_wall (s : State) (t : Nat) (e : W32) : (setEpoch s t e).wall = s.wall := rfl
@[simp] theorem setEpoch_boot (s : State) (t : Nat) (e : W32) : (setEpoch s t e).boot = s.boot := rfl
@[simp] theorem setEpoch_cph_slots (s : State) (t : Nat) (e : W32) : (setEpoch s t e).cph.slots = s.cph.slots := rfl
@[simp] theorem setEpoch_cph_retired (s : State) (t : Nat) (e : W32) : (setEpoch s t e).cph.retired = s.cph.retired := rfl
@[simp] theorem setEpoch_cph_nextVersion (s : State) (t : Nat) (e : W32) : (setEpoch s t e).cph.nextVersion = s.cph.nextVersion := rfl
@[simp] theorem setEpoch_cph_lanes (s : State) (t : Nat) (e : W32) : (setEpoch s t e).cph.lanes = s.cph.lanes := rfl
@[simp] theorem setEpoch_cph_loads (s : State) (t : Nat) (e : W32) : (setEpoch s t e).cph.loads = s.cph.loads := rfl
@[simp] theorem setEpoch_cph_sinceSet (s : State) (t : Nat) (e : W32) : (setEpoch s t e).cph.sinceSet = s.cph.sinceSet := rfl
/-! ### setCtx -/

@[simp] theorem setCtx_pending (s : State) (c : Nat) (x : AssayCtx) : (setCtx s c x).pending = s.pending := rfl
@[simp] theorem setCtx_out (s : State) (c : Nat) (x : AssayCtx) : (setCtx s c x).out = s.out := rfl
@[simp] theorem setCtx_freeCtr (s : State) (c : Nat) (x : AssayCtx) : (setCtx s c x).freeCtr = s.freeCtr := rfl
@[simp] theorem setCtx_reg (s : State) (c : Nat) (x : AssayCtx) : (setCtx s c x).reg = s.reg := rfl
@[simp] theorem setCtx_tb (s : State) (c : Nat) (x : AssayCtx) : (setCtx s c x).tb = s.tb := rfl
@[simp] theorem setCtx_fl (s : State) (c : Nat) (x : AssayCtx) : (setCtx s c x).fl = s.fl := rfl
@[simp] theorem setCtx_ord (s : State) (c : Nat) (x : AssayCtx) : (setCtx s c x).ord = s.ord := rfl
@[simp] theorem setCtx_med (s : State) (c : Nat) (x : AssayCtx) : (setCtx s c x).med = s.med := rfl
@[simp] theorem setCtx_port (s : State) (c : Nat) (x : AssayCtx) : (setCtx s c x).port = s.port := rfl
@[simp] theorem setCtx_ten (s : State) (c : Nat) (x : AssayCtx) : (setCtx s c x).ten = s.ten := rfl
@[simp] theorem setCtx_cph (s : State) (c : Nat) (x : AssayCtx) : (setCtx s c x).cph = s.cph := rfl
@[simp] theorem setCtx_mem (s : State) (c : Nat) (x : AssayCtx) : (setCtx s c x).mem = s.mem := rfl
@[simp] theorem setCtx_pwr (s : State) (c : Nat) (x : AssayCtx) : (setCtx s c x).pwr = s.pwr := rfl
@[simp] theorem setCtx_blw (s : State) (c : Nat) (x : AssayCtx) : (setCtx s c x).blw = s.blw := rfl
@[simp] theorem setCtx_hkp (s : State) (c : Nat) (x : AssayCtx) : (setCtx s c x).hkp = s.hkp := rfl
@[simp] theorem setCtx_hm (s : State) (c : Nat) (x : AssayCtx) : (setCtx s c x).hm = s.hm := rfl
@[simp] theorem setCtx_wall (s : State) (c : Nat) (x : AssayCtx) : (setCtx s c x).wall = s.wall := rfl
@[simp] theorem setCtx_boot (s : State) (c : Nat) (x : AssayCtx) : (setCtx s c x).boot = s.boot := rfl
@[simp] theorem setCtx_asy_allocRes (s : State) (c : Nat) (x : AssayCtx) : (setCtx s c x).asy.allocRes = s.asy.allocRes := rfl
@[simp] theorem setCtx_asy_left (s : State) (c : Nat) (x : AssayCtx) : (setCtx s c x).asy.left = s.asy.left := rfl
@[simp] theorem setCtx_asy_lastCtx (s : State) (c : Nat) (x : AssayCtx) : (setCtx s c x).asy.lastCtx = s.asy.lastCtx := rfl
@[simp] theorem setCtx_asy_secOps (s : State) (c : Nat) (x : AssayCtx) : (setCtx s c x).asy.secOps = s.asy.secOps := rfl
@[simp] theorem setCtx_asy_kmHash (s : State) (c : Nat) (x : AssayCtx) : (setCtx s c x).asy.kmHash = s.asy.kmHash := rfl
@[simp] theorem setCtx_asy_kmKey (s : State) (c : Nat) (x : AssayCtx) : (setCtx s c x).asy.kmKey = s.asy.kmKey := rfl
@[simp] theorem setCtx_asy_identity (s : State) (c : Nat) (x : AssayCtx) : (setCtx s c x).asy.identity = s.asy.identity := rfl
@[simp] theorem setCtx_asy_mSec (s : State) (c : Nat) (x : AssayCtx) : (setCtx s c x).asy.mSec = s.asy.mSec := rfl
@[simp] theorem setCtx_asy_mMgmt (s : State) (c : Nat) (x : AssayCtx) : (setCtx s c x).asy.mMgmt = s.asy.mMgmt := rfl
@[simp] theorem setCtx_asy_mCfg (s : State) (c : Nat) (x : AssayCtx) : (setCtx s c x).asy.mCfg = s.asy.mCfg := rfl
@[simp] theorem setCtx_asy_stored (s : State) (c : Nat) (x : AssayCtx) : (setCtx s c x).asy.stored = s.asy.stored := rfl
@[simp] theorem setCtx_asy_cert (s : State) (c : Nat) (x : AssayCtx) : (setCtx s c x).asy.cert = s.asy.cert := rfl
@[simp] theorem setCtx_asy_chainNew (s : State) (c : Nat) (x : AssayCtx) : (setCtx s c x).asy.chainNew = s.asy.chainNew := rfl
@[simp] theorem setCtx_asy_arb (s : State) (c : Nat) (x : AssayCtx) : (setCtx s c x).asy.arb = s.asy.arb := rfl
@[simp] theorem setCtx_asy_arbBad (s : State) (c : Nat) (x : AssayCtx) : (setCtx s c x).asy.arbBad = s.asy.arbBad := rfl
@[simp] theorem setCtx_asy_floor0 (s : State) (c : Nat) (x : AssayCtx) : (setCtx s c x).asy.floor0 = s.asy.floor0 := rfl
@[simp] theorem setCtx_asy_floor1 (s : State) (c : Nat) (x : AssayCtx) : (setCtx s c x).asy.floor1 = s.asy.floor1 := rfl
/-! ### setDram -/

@[simp] theorem setDram_pending (s : State) (c : Nat) (x : DramCh) : (setDram s c x).pending = s.pending := rfl
@[simp] theorem setDram_out (s : State) (c : Nat) (x : DramCh) : (setDram s c x).out = s.out := rfl
@[simp] theorem setDram_freeCtr (s : State) (c : Nat) (x : DramCh) : (setDram s c x).freeCtr = s.freeCtr := rfl
@[simp] theorem setDram_reg (s : State) (c : Nat) (x : DramCh) : (setDram s c x).reg = s.reg := rfl
@[simp] theorem setDram_tb (s : State) (c : Nat) (x : DramCh) : (setDram s c x).tb = s.tb := rfl
@[simp] theorem setDram_fl (s : State) (c : Nat) (x : DramCh) : (setDram s c x).fl = s.fl := rfl
@[simp] theorem setDram_ord (s : State) (c : Nat) (x : DramCh) : (setDram s c x).ord = s.ord := rfl
@[simp] theorem setDram_med (s : State) (c : Nat) (x : DramCh) : (setDram s c x).med = s.med := rfl
@[simp] theorem setDram_port (s : State) (c : Nat) (x : DramCh) : (setDram s c x).port = s.port := rfl
@[simp] theorem setDram_ten (s : State) (c : Nat) (x : DramCh) : (setDram s c x).ten = s.ten := rfl
@[simp] theorem setDram_cph (s : State) (c : Nat) (x : DramCh) : (setDram s c x).cph = s.cph := rfl
@[simp] theorem setDram_asy (s : State) (c : Nat) (x : DramCh) : (setDram s c x).asy = s.asy := rfl
@[simp] theorem setDram_pwr (s : State) (c : Nat) (x : DramCh) : (setDram s c x).pwr = s.pwr := rfl
@[simp] theorem setDram_blw (s : State) (c : Nat) (x : DramCh) : (setDram s c x).blw = s.blw := rfl
@[simp] theorem setDram_hkp (s : State) (c : Nat) (x : DramCh) : (setDram s c x).hkp = s.hkp := rfl
@[simp] theorem setDram_hm (s : State) (c : Nat) (x : DramCh) : (setDram s c x).hm = s.hm := rfl
@[simp] theorem setDram_wall (s : State) (c : Nat) (x : DramCh) : (setDram s c x).wall = s.wall := rfl
@[simp] theorem setDram_boot (s : State) (c : Nat) (x : DramCh) : (setDram s c x).boot = s.boot := rfl
@[simp] theorem setDram_mem_groups (s : State) (c : Nat) (x : DramCh) : (setDram s c x).mem.groups = s.mem.groups := rfl
@[simp] theorem setDram_mem_dramFree (s : State) (c : Nat) (x : DramCh) : (setDram s c x).mem.dramFree = s.mem.dramFree := rfl
@[simp] theorem setDram_mem_poison (s : State) (c : Nat) (x : DramCh) : (setDram s c x).mem.poison = s.mem.poison := rfl
/-! ### setGroup -/

@[simp] theorem setGroup_pending (s : State) (g : Nat) (x : BankGroup) : (setGroup s g x).pending = s.pending := rfl
@[simp] theorem setGroup_out (s : State) (g : Nat) (x : BankGroup) : (setGroup s g x).out = s.out := rfl
@[simp] theorem setGroup_freeCtr (s : State) (g : Nat) (x : BankGroup) : (setGroup s g x).freeCtr = s.freeCtr := rfl
@[simp] theorem setGroup_reg (s : State) (g : Nat) (x : BankGroup) : (setGroup s g x).reg = s.reg := rfl
@[simp] theorem setGroup_tb (s : State) (g : Nat) (x : BankGroup) : (setGroup s g x).tb = s.tb := rfl
@[simp] theorem setGroup_fl (s : State) (g : Nat) (x : BankGroup) : (setGroup s g x).fl = s.fl := rfl
@[simp] theorem setGroup_ord (s : State) (g : Nat) (x : BankGroup) : (setGroup s g x).ord = s.ord := rfl
@[simp] theorem setGroup_med (s : State) (g : Nat) (x : BankGroup) : (setGroup s g x).med = s.med := rfl
@[simp] theorem setGroup_port (s : State) (g : Nat) (x : BankGroup) : (setGroup s g x).port = s.port := rfl
@[simp] theorem setGroup_ten (s : State) (g : Nat) (x : BankGroup) : (setGroup s g x).ten = s.ten := rfl
@[simp] theorem setGroup_cph (s : State) (g : Nat) (x : BankGroup) : (setGroup s g x).cph = s.cph := rfl
@[simp] theorem setGroup_asy (s : State) (g : Nat) (x : BankGroup) : (setGroup s g x).asy = s.asy := rfl
@[simp] theorem setGroup_pwr (s : State) (g : Nat) (x : BankGroup) : (setGroup s g x).pwr = s.pwr := rfl
@[simp] theorem setGroup_blw (s : State) (g : Nat) (x : BankGroup) : (setGroup s g x).blw = s.blw := rfl
@[simp] theorem setGroup_hkp (s : State) (g : Nat) (x : BankGroup) : (setGroup s g x).hkp = s.hkp := rfl
@[simp] theorem setGroup_hm (s : State) (g : Nat) (x : BankGroup) : (setGroup s g x).hm = s.hm := rfl
@[simp] theorem setGroup_wall (s : State) (g : Nat) (x : BankGroup) : (setGroup s g x).wall = s.wall := rfl
@[simp] theorem setGroup_boot (s : State) (g : Nat) (x : BankGroup) : (setGroup s g x).boot = s.boot := rfl
@[simp] theorem setGroup_mem_dram (s : State) (g : Nat) (x : BankGroup) : (setGroup s g x).mem.dram = s.mem.dram := rfl
@[simp] theorem setGroup_mem_dramFree (s : State) (g : Nat) (x : BankGroup) : (setGroup s g x).mem.dramFree = s.mem.dramFree := rfl
@[simp] theorem setGroup_mem_poison (s : State) (g : Nat) (x : BankGroup) : (setGroup s g x).mem.poison = s.mem.poison := rfl
/-! ### setDom -/

@[simp] theorem setDom_pending (s : State) (d : Nat) (x : Dom) : (setDom s d x).pending = s.pending := rfl
@[simp] theorem setDom_out (s : State) (d : Nat) (x : Dom) : (setDom s d x).out = s.out := rfl
@[simp] theorem setDom_freeCtr (s : State) (d : Nat) (x : Dom) : (setDom s d x).freeCtr = s.freeCtr := rfl
@[simp] theorem setDom_reg (s : State) (d : Nat) (x : Dom) : (setDom s d x).reg = s.reg := rfl
@[simp] theorem setDom_tb (s : State) (d : Nat) (x : Dom) : (setDom s d x).tb = s.tb := rfl
@[simp] theorem setDom_fl (s : State) (d : Nat) (x : Dom) : (setDom s d x).fl = s.fl := rfl
@[simp] theorem setDom_ord (s : State) (d : Nat) (x : Dom) : (setDom s d x).ord = s.ord := rfl
@[simp] theorem setDom_med (s : State) (d : Nat) (x : Dom) : (setDom s d x).med = s.med := rfl
@[simp] theorem setDom_port (s : State) (d : Nat) (x : Dom) : (setDom s d x).port = s.port := rfl
@[simp] theorem setDom_ten (s : State) (d : Nat) (x : Dom) : (setDom s d x).ten = s.ten := rfl
@[simp] theorem setDom_cph (s : State) (d : Nat) (x : Dom) : (setDom s d x).cph = s.cph := rfl
@[simp] theorem setDom_asy (s : State) (d : Nat) (x : Dom) : (setDom s d x).asy = s.asy := rfl
@[simp] theorem setDom_mem (s : State) (d : Nat) (x : Dom) : (setDom s d x).mem = s.mem := rfl
@[simp] theorem setDom_blw (s : State) (d : Nat) (x : Dom) : (setDom s d x).blw = s.blw := rfl
@[simp] theorem setDom_hkp (s : State) (d : Nat) (x : Dom) : (setDom s d x).hkp = s.hkp := rfl
@[simp] theorem setDom_hm (s : State) (d : Nat) (x : Dom) : (setDom s d x).hm = s.hm := rfl
@[simp] theorem setDom_wall (s : State) (d : Nat) (x : Dom) : (setDom s d x).wall = s.wall := rfl
@[simp] theorem setDom_boot (s : State) (d : Nat) (x : Dom) : (setDom s d x).boot = s.boot := rfl
@[simp] theorem setDom_pwr_st (s : State) (d : Nat) (x : Dom) : (setDom s d x).pwr.st = s.pwr.st := rfl
@[simp] theorem setDom_pwr_entry (s : State) (d : Nat) (x : Dom) : (setDom s d x).pwr.entry = s.pwr.entry := rfl
@[simp] theorem setDom_pwr_wakeCause (s : State) (d : Nat) (x : Dom) : (setDom s d x).pwr.wakeCause = s.pwr.wakeCause := rfl
@[simp] theorem setDom_pwr_cur (s : State) (d : Nat) (x : Dom) : (setDom s d x).pwr.cur = s.pwr.cur := rfl
@[simp] theorem setDom_pwr_seq (s : State) (d : Nat) (x : Dom) : (setDom s d x).pwr.seq = s.pwr.seq := rfl
@[simp] theorem setDom_pwr_opAtEntry (s : State) (d : Nat) (x : Dom) : (setDom s d x).pwr.opAtEntry = s.pwr.opAtEntry := rfl
@[simp] theorem setDom_pwr_emberNeed (s : State) (d : Nat) (x : Dom) : (setDom s d x).pwr.emberNeed = s.pwr.emberNeed := rfl
@[simp] theorem setDom_pwr_imageHash (s : State) (d : Nat) (x : Dom) : (setDom s d x).pwr.imageHash = s.pwr.imageHash := rfl
@[simp] theorem setDom_pwr_parked (s : State) (d : Nat) (x : Dom) : (setDom s d x).pwr.parked = s.pwr.parked := rfl
@[simp] theorem setDom_pwr_padEn (s : State) (d : Nat) (x : Dom) : (setDom s d x).pwr.padEn = s.pwr.padEn := rfl
@[simp] theorem setDom_pwr_thermHeld (s : State) (d : Nat) (x : Dom) : (setDom s d x).pwr.thermHeld = s.pwr.thermHeld := rfl
@[simp] theorem setDom_pwr_resumeAt (s : State) (d : Nat) (x : Dom) : (setDom s d x).pwr.resumeAt = s.pwr.resumeAt := rfl
@[simp] theorem setDom_pwr_halted (s : State) (d : Nat) (x : Dom) : (setDom s d x).pwr.halted = s.pwr.halted := rfl
/-! ### setInput -/

@[simp] theorem setInput_pending (s : State) (k : Nat) (x : HkInput) : (setInput s k x).pending = s.pending := rfl
@[simp] theorem setInput_out (s : State) (k : Nat) (x : HkInput) : (setInput s k x).out = s.out := rfl
@[simp] theorem setInput_freeCtr (s : State) (k : Nat) (x : HkInput) : (setInput s k x).freeCtr = s.freeCtr := rfl
@[simp] theorem setInput_reg (s : State) (k : Nat) (x : HkInput) : (setInput s k x).reg = s.reg := rfl
@[simp] theorem setInput_tb (s : State) (k : Nat) (x : HkInput) : (setInput s k x).tb = s.tb := rfl
@[simp] theorem setInput_fl (s : State) (k : Nat) (x : HkInput) : (setInput s k x).fl = s.fl := rfl
@[simp] theorem setInput_ord (s : State) (k : Nat) (x : HkInput) : (setInput s k x).ord = s.ord := rfl
@[simp] theorem setInput_med (s : State) (k : Nat) (x : HkInput) : (setInput s k x).med = s.med := rfl
@[simp] theorem setInput_port (s : State) (k : Nat) (x : HkInput) : (setInput s k x).port = s.port := rfl
@[simp] theorem setInput_ten (s : State) (k : Nat) (x : HkInput) : (setInput s k x).ten = s.ten := rfl
@[simp] theorem setInput_cph (s : State) (k : Nat) (x : HkInput) : (setInput s k x).cph = s.cph := rfl
@[simp] theorem setInput_asy (s : State) (k : Nat) (x : HkInput) : (setInput s k x).asy = s.asy := rfl
@[simp] theorem setInput_mem (s : State) (k : Nat) (x : HkInput) : (setInput s k x).mem = s.mem := rfl
@[simp] theorem setInput_pwr (s : State) (k : Nat) (x : HkInput) : (setInput s k x).pwr = s.pwr := rfl
@[simp] theorem setInput_blw (s : State) (k : Nat) (x : HkInput) : (setInput s k x).blw = s.blw := rfl
@[simp] theorem setInput_hm (s : State) (k : Nat) (x : HkInput) : (setInput s k x).hm = s.hm := rfl
@[simp] theorem setInput_wall (s : State) (k : Nat) (x : HkInput) : (setInput s k x).wall = s.wall := rfl
@[simp] theorem setInput_boot (s : State) (k : Nat) (x : HkInput) : (setInput s k x).boot = s.boot := rfl
@[simp] theorem setInput_hkp_fcLvl (s : State) (k : Nat) (x : HkInput) : (setInput s k x).hkp.fcLvl = s.hkp.fcLvl := rfl
@[simp] theorem setInput_hkp_thermSd (s : State) (k : Nat) (x : HkInput) : (setInput s k x).hkp.thermSd = s.hkp.thermSd := rfl
@[simp] theorem setInput_hkp_thermWarn (s : State) (k : Nat) (x : HkInput) : (setInput s k x).hkp.thermWarn = s.hkp.thermWarn := rfl
@[simp] theorem setInput_hkp_shutdown (s : State) (k : Nat) (x : HkInput) : (setInput s k x).hkp.shutdown = s.hkp.shutdown := rfl
/-! ### setCk -/

@[simp] theorem setCk_pending (s : State) (p : Nat) (x : CkPort) : (setCk s p x).pending = s.pending := rfl
@[simp] theorem setCk_out (s : State) (p : Nat) (x : CkPort) : (setCk s p x).out = s.out := rfl
@[simp] theorem setCk_freeCtr (s : State) (p : Nat) (x : CkPort) : (setCk s p x).freeCtr = s.freeCtr := rfl
@[simp] theorem setCk_reg (s : State) (p : Nat) (x : CkPort) : (setCk s p x).reg = s.reg := rfl
@[simp] theorem setCk_tb (s : State) (p : Nat) (x : CkPort) : (setCk s p x).tb = s.tb := rfl
@[simp] theorem setCk_fl (s : State) (p : Nat) (x : CkPort) : (setCk s p x).fl = s.fl := rfl
@[simp] theorem setCk_ord (s : State) (p : Nat) (x : CkPort) : (setCk s p x).ord = s.ord := rfl
@[simp] theorem setCk_med (s : State) (p : Nat) (x : CkPort) : (setCk s p x).med = s.med := rfl
@[simp] theorem setCk_port (s : State) (p : Nat) (x : CkPort) : (setCk s p x).port = s.port := rfl
@[simp] theorem setCk_ten (s : State) (p : Nat) (x : CkPort) : (setCk s p x).ten = s.ten := rfl
@[simp] theorem setCk_cph (s : State) (p : Nat) (x : CkPort) : (setCk s p x).cph = s.cph := rfl
@[simp] theorem setCk_asy (s : State) (p : Nat) (x : CkPort) : (setCk s p x).asy = s.asy := rfl
@[simp] theorem setCk_mem (s : State) (p : Nat) (x : CkPort) : (setCk s p x).mem = s.mem := rfl
@[simp] theorem setCk_pwr (s : State) (p : Nat) (x : CkPort) : (setCk s p x).pwr = s.pwr := rfl
@[simp] theorem setCk_blw (s : State) (p : Nat) (x : CkPort) : (setCk s p x).blw = s.blw := rfl
@[simp] theorem setCk_hkp (s : State) (p : Nat) (x : CkPort) : (setCk s p x).hkp = s.hkp := rfl
@[simp] theorem setCk_hm (s : State) (p : Nat) (x : CkPort) : (setCk s p x).hm = s.hm := rfl
@[simp] theorem setCk_boot (s : State) (p : Nat) (x : CkPort) : (setCk s p x).boot = s.boot := rfl
@[simp] theorem setCk_wall_formed (s : State) (p : Nat) (x : CkPort) : (setCk s p x).wall.formed = s.wall.formed := rfl
@[simp] theorem setCk_wall_live (s : State) (p : Nat) (x : CkPort) : (setCk s p x).wall.live = s.wall.live := rfl
@[simp] theorem setCk_wall_size (s : State) (p : Nat) (x : CkPort) : (setCk s p x).wall.size = s.wall.size := rfl
@[simp] theorem setCk_wall_skip (s : State) (p : Nat) (x : CkPort) : (setCk s p x).wall.skip = s.wall.skip := rfl
@[simp] theorem setCk_wall_routes (s : State) (p : Nat) (x : CkPort) : (setCk s p x).wall.routes = s.wall.routes := rfl
@[simp] theorem setCk_wall_recompute (s : State) (p : Nat) (x : CkPort) : (setCk s p x).wall.recompute = s.wall.recompute := rfl
@[simp] theorem setCk_wall_markOut (s : State) (p : Nat) (x : CkPort) : (setCk s p x).wall.markOut = s.wall.markOut := rfl
@[simp] theorem setCk_wall_packets (s : State) (p : Nat) (x : CkPort) : (setCk s p x).wall.packets = s.wall.packets := rfl
@[simp] theorem setCk_wall_nextPkt (s : State) (p : Nat) (x : CkPort) : (setCk s p x).wall.nextPkt = s.wall.nextPkt := rfl
@[simp] theorem setCk_wall_credits (s : State) (p : Nat) (x : CkPort) : (setCk s p x).wall.credits = s.wall.credits := rfl
@[simp] theorem setCk_wall_seen (s : State) (p : Nat) (x : CkPort) : (setCk s p x).wall.seen = s.wall.seen := rfl
@[simp] theorem setCk_wall_granted (s : State) (p : Nat) (x : CkPort) : (setCk s p x).wall.granted = s.wall.granted := rfl
@[simp] theorem setCk_wall_failedAt (s : State) (p : Nat) (x : CkPort) : (setCk s p x).wall.failedAt = s.wall.failedAt := rfl
@[simp] theorem setCk_wall_noticed (s : State) (p : Nat) (x : CkPort) : (setCk s p x).wall.noticed = s.wall.noticed := rfl
@[simp] theorem setCk_wall_locked (s : State) (p : Nat) (x : CkPort) : (setCk s p x).wall.locked = s.wall.locked := rfl
@[simp] theorem setCk_wall_holdover (s : State) (p : Nat) (x : CkPort) : (setCk s p x).wall.holdover = s.wall.holdover := rfl
@[simp] theorem setCk_wall_far (s : State) (p : Nat) (x : CkPort) : (setCk s p x).wall.far = s.wall.far := rfl
@[simp] theorem setCk_wall_err (s : State) (p : Nat) (x : CkPort) : (setCk s p x).wall.err = s.wall.err := rfl
@[simp] theorem setCk_wall_hops (s : State) (p : Nat) (x : CkPort) : (setCk s p x).wall.hops = s.wall.hops := rfl
@[simp] theorem setCk_wall_noMarker (s : State) (p : Nat) (x : CkPort) : (setCk s p x).wall.noMarker = s.wall.noMarker := rfl
@[simp] theorem setCk_wall_announced (s : State) (p : Nat) (x : CkPort) : (setCk s p x).wall.announced = s.wall.announced := rfl

@[simp] theorem getDie_setDie_self (s : State) (d : Nat) (x : Die) : getDie (setDie s d x) d = x := Tbl.get_set_self ..
theorem getDie_setDie_ne (s : State) (d : Nat) (x : Die) {j : Nat} (h : j ≠ d) : getDie (setDie s d x) j = getDie s j := Tbl.get_set_ne _ _ _ h
theorem getDie_setDie (s : State) (d : Nat) (x : Die) (j : Nat) : getDie (setDie s d x) j = if j = d then x else getDie s j := Tbl.get_set ..
@[simp] theorem getChan_setDie (s : State) (d : Nat) (x : Die) (y0 : Nat) : getChan (setDie s d x) y0 = getChan s y0 := rfl
@[simp] theorem getSlot_setDie (s : State) (d : Nat) (x : Die) (y0 : Nat) : getSlot (setDie s d x) y0 = getSlot s y0 := rfl
@[simp] theorem getReq_setDie (s : State) (d : Nat) (x : Die) (y0 : Nat) : getReq (setDie s d x) y0 = getReq s y0 := rfl
@[simp] theorem getBuf_setDie (s : State) (d : Nat) (x : Die) (y0 : Nat) : getBuf (setDie s d x) y0 = getBuf s y0 := rfl
@[simp] theorem getBody_setDie (s : State) (d : Nat) (x : Die) (y0 : Nat) : getBody (setDie s d x) y0 = getBody s y0 := rfl
@[simp] theorem getNs_setDie (s : State) (d : Nat) (x : Die) (y0 : Nat) : getNs (setDie s d x) y0 = getNs s y0 := rfl
@[simp] theorem getZone_setDie (s : State) (d : Nat) (x : Die) (y0 y1 : Nat) : getZone (setDie s d x) y0 y1 = getZone s y0 y1 := rfl
@[simp] theorem getSlab_setDie (s : State) (d : Nat) (x : Die) (y0 : Nat) : getSlab (setDie s d x) y0 = getSlab s y0 := rfl
@[simp] theorem getCourse_setDie (s : State) (d : Nat) (x : Die) (y0 : Nat) : getCourse (setDie s d x) y0 = getCourse s y0 := rfl
@[simp] theorem getDomain_setDie (s : State) (d : Nat) (x : Die) (y0 y1 : Nat) : getDomain (setDie s d x) y0 y1 = getDomain s y0 y1 := rfl
@[simp] theorem getDev_setDie (s : State) (d : Nat) (x : Die) (y0 : Nat) : getDev (setDie s d x) y0 = getDev s y0 := rfl
@[simp] theorem getLPort_setDie (s : State) (d : Nat) (x : Die) (y0 : Nat) : getLPort (setDie s d x) y0 = getLPort s y0 := rfl
@[simp] theorem getQp_setDie (s : State) (d : Nat) (x : Die) (y0 : Nat) : getQp (setDie s d x) y0 = getQp s y0 := rfl
@[simp] theorem getFunc_setDie (s : State) (d : Nat) (x : Die) (y0 : Nat) : getFunc (setDie s d x) y0 = getFunc s y0 := rfl
@[simp] theorem getTen_setDie (s : State) (d : Nat) (x : Die) (y0 : Nat) : getTen (setDie s d x) y0 = getTen s y0 := rfl
@[simp] theorem getLane_setDie (s : State) (d : Nat) (x : Die) (y0 : Nat) : getLane (setDie s d x) y0 = getLane s y0 := rfl
@[simp] theorem getKey_setDie (s : State) (d : Nat) (x : Die) (y0 : Nat) : getKey (setDie s d x) y0 = getKey s y0 := rfl
@[simp] theorem getCtx_setDie (s : State) (d : Nat) (x : Die) (y0 : Nat) : getCtx (setDie s d x) y0 = getCtx s y0 := rfl
@[simp] theorem getDram_setDie (s : State) (d : Nat) (x : Die) (y0 : Nat) : getDram (setDie s d x) y0 = getDram s y0 := rfl
@[simp] theorem getGroup_setDie (s : State) (d : Nat) (x : Die) (y0 : Nat) : getGroup (setDie s d x) y0 = getGroup s y0 := rfl
@[simp] theorem getDom_setDie (s : State) (d : Nat) (x : Die) (y0 : Nat) : getDom (setDie s d x) y0 = getDom s y0 := rfl
@[simp] theorem getInput_setDie (s : State) (d : Nat) (x : Die) (y0 : Nat) : getInput (setDie s d x) y0 = getInput s y0 := rfl
@[simp] theorem getCk_setDie (s : State) (d : Nat) (x : Die) (y0 : Nat) : getCk (setDie s d x) y0 = getCk s y0 := rfl
@[simp] theorem regWord_setDie (s : State) (d : Nat) (x : Die) (key : Nat) : regWord (setDie s d x) key = regWord s key := rfl

@[simp] theorem getChan_setChan_self (s : State) (c : Nat) (x : Chan) : getChan (setChan s c x) c = x := Tbl.get_set_self ..
theorem getChan_setChan_ne (s : State) (c : Nat) (x : Chan) {j : Nat} (h : j ≠ c) : getChan (setChan s c x) j = getChan s j := Tbl.get_set_ne _ _ _ h
theorem getChan_setChan (s : State) (c : Nat) (x : Chan) (j : Nat) : getChan (setChan s c x) j = if j = c then x else getChan s j := Tbl.get_set ..
@[simp] theorem getDie_setChan (s : State) (c : Nat) (x : Chan) (y0 : Nat) : getDie (setChan s c x) y0 = getDie s y0 := rfl
@[simp] theorem getSlot_setChan (s : State) (c : Nat) (x : Chan) (y0 : Nat) : getSlot (setChan s c x) y0 = getSlot s y0 := rfl
@[simp] theorem getReq_setChan (s : State) (c : Nat) (x : Chan) (y0 : Nat) : getReq (setChan s c x) y0 = getReq s y0 := rfl
@[simp] theorem getBuf_setChan (s : State) (c : Nat) (x : Chan) (y0 : Nat) : getBuf (setChan s c x) y0 = getBuf s y0 := rfl
@[simp] theorem getBody_setChan (s : State) (c : Nat) (x : Chan) (y0 : Nat) : getBody (setChan s c x) y0 = getBody s y0 := rfl
@[simp] theorem getNs_setChan (s : State) (c : Nat) (x : Chan) (y0 : Nat) : getNs (setChan s c x) y0 = getNs s y0 := rfl
@[simp] theorem getZone_setChan (s : State) (c : Nat) (x : Chan) (y0 y1 : Nat) : getZone (setChan s c x) y0 y1 = getZone s y0 y1 := rfl
@[simp] theorem getSlab_setChan (s : State) (c : Nat) (x : Chan) (y0 : Nat) : getSlab (setChan s c x) y0 = getSlab s y0 := rfl
@[simp] theorem getCourse_setChan (s : State) (c : Nat) (x : Chan) (y0 : Nat) : getCourse (setChan s c x) y0 = getCourse s y0 := rfl
@[simp] theorem getDomain_setChan (s : State) (c : Nat) (x : Chan) (y0 y1 : Nat) : getDomain (setChan s c x) y0 y1 = getDomain s y0 y1 := rfl
@[simp] theorem getDev_setChan (s : State) (c : Nat) (x : Chan) (y0 : Nat) : getDev (setChan s c x) y0 = getDev s y0 := rfl
@[simp] theorem getLPort_setChan (s : State) (c : Nat) (x : Chan) (y0 : Nat) : getLPort (setChan s c x) y0 = getLPort s y0 := rfl
@[simp] theorem getQp_setChan (s : State) (c : Nat) (x : Chan) (y0 : Nat) : getQp (setChan s c x) y0 = getQp s y0 := rfl
@[simp] theorem getFunc_setChan (s : State) (c : Nat) (x : Chan) (y0 : Nat) : getFunc (setChan s c x) y0 = getFunc s y0 := rfl
@[simp] theorem getTen_setChan (s : State) (c : Nat) (x : Chan) (y0 : Nat) : getTen (setChan s c x) y0 = getTen s y0 := rfl
@[simp] theorem getLane_setChan (s : State) (c : Nat) (x : Chan) (y0 : Nat) : getLane (setChan s c x) y0 = getLane s y0 := rfl
@[simp] theorem getKey_setChan (s : State) (c : Nat) (x : Chan) (y0 : Nat) : getKey (setChan s c x) y0 = getKey s y0 := rfl
@[simp] theorem getCtx_setChan (s : State) (c : Nat) (x : Chan) (y0 : Nat) : getCtx (setChan s c x) y0 = getCtx s y0 := rfl
@[simp] theorem getDram_setChan (s : State) (c : Nat) (x : Chan) (y0 : Nat) : getDram (setChan s c x) y0 = getDram s y0 := rfl
@[simp] theorem getGroup_setChan (s : State) (c : Nat) (x : Chan) (y0 : Nat) : getGroup (setChan s c x) y0 = getGroup s y0 := rfl
@[simp] theorem getDom_setChan (s : State) (c : Nat) (x : Chan) (y0 : Nat) : getDom (setChan s c x) y0 = getDom s y0 := rfl
@[simp] theorem getInput_setChan (s : State) (c : Nat) (x : Chan) (y0 : Nat) : getInput (setChan s c x) y0 = getInput s y0 := rfl
@[simp] theorem getCk_setChan (s : State) (c : Nat) (x : Chan) (y0 : Nat) : getCk (setChan s c x) y0 = getCk s y0 := rfl
@[simp] theorem regWord_setChan (s : State) (c : Nat) (x : Chan) (key : Nat) : regWord (setChan s c x) key = regWord s key := rfl

@[simp] theorem getSlot_setSlot_self (s : State) (k : Nat) (x : Slot) : getSlot (setSlot s k x) k = x := Tbl.get_set_self ..
theorem getSlot_setSlot_ne (s : State) (k : Nat) (x : Slot) {j : Nat} (h : j ≠ k) : getSlot (setSlot s k x) j = getSlot s j := Tbl.get_set_ne _ _ _ h
theorem getSlot_setSlot (s : State) (k : Nat) (x : Slot) (j : Nat) : getSlot (setSlot s k x) j = if j = k then x else getSlot s j := Tbl.get_set ..
@[simp] theorem getDie_setSlot (s : State) (k : Nat) (x : Slot) (y0 : Nat) : getDie (setSlot s k x) y0 = getDie s y0 := rfl
@[simp] theorem getChan_setSlot (s : State) (k : Nat) (x : Slot) (y0 : Nat) : getChan (setSlot s k x) y0 = getChan s y0 := rfl
@[simp] theorem getReq_setSlot (s : State) (k : Nat) (x : Slot) (y0 : Nat) : getReq (setSlot s k x) y0 = getReq s y0 := rfl
@[simp] theorem getBuf_setSlot (s : State) (k : Nat) (x : Slot) (y0 : Nat) : getBuf (setSlot s k x) y0 = getBuf s y0 := rfl
@[simp] theorem getBody_setSlot (s : State) (k : Nat) (x : Slot) (y0 : Nat) : getBody (setSlot s k x) y0 = getBody s y0 := rfl
@[simp] theorem getNs_setSlot (s : State) (k : Nat) (x : Slot) (y0 : Nat) : getNs (setSlot s k x) y0 = getNs s y0 := rfl
@[simp] theorem getZone_setSlot (s : State) (k : Nat) (x : Slot) (y0 y1 : Nat) : getZone (setSlot s k x) y0 y1 = getZone s y0 y1 := rfl
@[simp] theorem getSlab_setSlot (s : State) (k : Nat) (x : Slot) (y0 : Nat) : getSlab (setSlot s k x) y0 = getSlab s y0 := rfl
@[simp] theorem getCourse_setSlot (s : State) (k : Nat) (x : Slot) (y0 : Nat) : getCourse (setSlot s k x) y0 = getCourse s y0 := rfl
@[simp] theorem getDomain_setSlot (s : State) (k : Nat) (x : Slot) (y0 y1 : Nat) : getDomain (setSlot s k x) y0 y1 = getDomain s y0 y1 := rfl
@[simp] theorem getDev_setSlot (s : State) (k : Nat) (x : Slot) (y0 : Nat) : getDev (setSlot s k x) y0 = getDev s y0 := rfl
@[simp] theorem getLPort_setSlot (s : State) (k : Nat) (x : Slot) (y0 : Nat) : getLPort (setSlot s k x) y0 = getLPort s y0 := rfl
@[simp] theorem getQp_setSlot (s : State) (k : Nat) (x : Slot) (y0 : Nat) : getQp (setSlot s k x) y0 = getQp s y0 := rfl
@[simp] theorem getFunc_setSlot (s : State) (k : Nat) (x : Slot) (y0 : Nat) : getFunc (setSlot s k x) y0 = getFunc s y0 := rfl
@[simp] theorem getTen_setSlot (s : State) (k : Nat) (x : Slot) (y0 : Nat) : getTen (setSlot s k x) y0 = getTen s y0 := rfl
@[simp] theorem getLane_setSlot (s : State) (k : Nat) (x : Slot) (y0 : Nat) : getLane (setSlot s k x) y0 = getLane s y0 := rfl
@[simp] theorem getKey_setSlot (s : State) (k : Nat) (x : Slot) (y0 : Nat) : getKey (setSlot s k x) y0 = getKey s y0 := rfl
@[simp] theorem getCtx_setSlot (s : State) (k : Nat) (x : Slot) (y0 : Nat) : getCtx (setSlot s k x) y0 = getCtx s y0 := rfl
@[simp] theorem getDram_setSlot (s : State) (k : Nat) (x : Slot) (y0 : Nat) : getDram (setSlot s k x) y0 = getDram s y0 := rfl
@[simp] theorem getGroup_setSlot (s : State) (k : Nat) (x : Slot) (y0 : Nat) : getGroup (setSlot s k x) y0 = getGroup s y0 := rfl
@[simp] theorem getDom_setSlot (s : State) (k : Nat) (x : Slot) (y0 : Nat) : getDom (setSlot s k x) y0 = getDom s y0 := rfl
@[simp] theorem getInput_setSlot (s : State) (k : Nat) (x : Slot) (y0 : Nat) : getInput (setSlot s k x) y0 = getInput s y0 := rfl
@[simp] theorem getCk_setSlot (s : State) (k : Nat) (x : Slot) (y0 : Nat) : getCk (setSlot s k x) y0 = getCk s y0 := rfl
@[simp] theorem regWord_setSlot (s : State) (k : Nat) (x : Slot) (key : Nat) : regWord (setSlot s k x) key = regWord s key := rfl

@[simp] theorem getReq_setReq_self (s : State) (r : Nat) (x : Option Req) : getReq (setReq s r x) r = x := Tbl.get_set_self ..
theorem getReq_setReq_ne (s : State) (r : Nat) (x : Option Req) {j : Nat} (h : j ≠ r) : getReq (setReq s r x) j = getReq s j := Tbl.get_set_ne _ _ _ h
theorem getReq_setReq (s : State) (r : Nat) (x : Option Req) (j : Nat) : getReq (setReq s r x) j = if j = r then x else getReq s j := Tbl.get_set ..
@[simp] theorem getDie_setReq (s : State) (r : Nat) (x : Option Req) (y0 : Nat) : getDie (setReq s r x) y0 = getDie s y0 := rfl
@[simp] theorem getChan_setReq (s : State) (r : Nat) (x : Option Req) (y0 : Nat) : getChan (setReq s r x) y0 = getChan s y0 := rfl
@[simp] theorem getSlot_setReq (s : State) (r : Nat) (x : Option Req) (y0 : Nat) : getSlot (setReq s r x) y0 = getSlot s y0 := rfl
@[simp] theorem getBuf_setReq (s : State) (r : Nat) (x : Option Req) (y0 : Nat) : getBuf (setReq s r x) y0 = getBuf s y0 := rfl
@[simp] theorem getBody_setReq (s : State) (r : Nat) (x : Option Req) (y0 : Nat) : getBody (setReq s r x) y0 = getBody s y0 := rfl
@[simp] theorem getNs_setReq (s : State) (r : Nat) (x : Option Req) (y0 : Nat) : getNs (setReq s r x) y0 = getNs s y0 := rfl
@[simp] theorem getZone_setReq (s : State) (r : Nat) (x : Option Req) (y0 y1 : Nat) : getZone (setReq s r x) y0 y1 = getZone s y0 y1 := rfl
@[simp] theorem getSlab_setReq (s : State) (r : Nat) (x : Option Req) (y0 : Nat) : getSlab (setReq s r x) y0 = getSlab s y0 := rfl
@[simp] theorem getCourse_setReq (s : State) (r : Nat) (x : Option Req) (y0 : Nat) : getCourse (setReq s r x) y0 = getCourse s y0 := rfl
@[simp] theorem getDomain_setReq (s : State) (r : Nat) (x : Option Req) (y0 y1 : Nat) : getDomain (setReq s r x) y0 y1 = getDomain s y0 y1 := rfl
@[simp] theorem getDev_setReq (s : State) (r : Nat) (x : Option Req) (y0 : Nat) : getDev (setReq s r x) y0 = getDev s y0 := rfl
@[simp] theorem getLPort_setReq (s : State) (r : Nat) (x : Option Req) (y0 : Nat) : getLPort (setReq s r x) y0 = getLPort s y0 := rfl
@[simp] theorem getQp_setReq (s : State) (r : Nat) (x : Option Req) (y0 : Nat) : getQp (setReq s r x) y0 = getQp s y0 := rfl
@[simp] theorem getFunc_setReq (s : State) (r : Nat) (x : Option Req) (y0 : Nat) : getFunc (setReq s r x) y0 = getFunc s y0 := rfl
@[simp] theorem getTen_setReq (s : State) (r : Nat) (x : Option Req) (y0 : Nat) : getTen (setReq s r x) y0 = getTen s y0 := rfl
@[simp] theorem getLane_setReq (s : State) (r : Nat) (x : Option Req) (y0 : Nat) : getLane (setReq s r x) y0 = getLane s y0 := rfl
@[simp] theorem getKey_setReq (s : State) (r : Nat) (x : Option Req) (y0 : Nat) : getKey (setReq s r x) y0 = getKey s y0 := rfl
@[simp] theorem getCtx_setReq (s : State) (r : Nat) (x : Option Req) (y0 : Nat) : getCtx (setReq s r x) y0 = getCtx s y0 := rfl
@[simp] theorem getDram_setReq (s : State) (r : Nat) (x : Option Req) (y0 : Nat) : getDram (setReq s r x) y0 = getDram s y0 := rfl
@[simp] theorem getGroup_setReq (s : State) (r : Nat) (x : Option Req) (y0 : Nat) : getGroup (setReq s r x) y0 = getGroup s y0 := rfl
@[simp] theorem getDom_setReq (s : State) (r : Nat) (x : Option Req) (y0 : Nat) : getDom (setReq s r x) y0 = getDom s y0 := rfl
@[simp] theorem getInput_setReq (s : State) (r : Nat) (x : Option Req) (y0 : Nat) : getInput (setReq s r x) y0 = getInput s y0 := rfl
@[simp] theorem getCk_setReq (s : State) (r : Nat) (x : Option Req) (y0 : Nat) : getCk (setReq s r x) y0 = getCk s y0 := rfl
@[simp] theorem regWord_setReq (s : State) (r : Nat) (x : Option Req) (key : Nat) : regWord (setReq s r x) key = regWord s key := rfl

@[simp] theorem getBuf_setBuf_self (s : State) (b : Nat) (x : Option Buf) : getBuf (setBuf s b x) b = x := Tbl.get_set_self ..
theorem getBuf_setBuf_ne (s : State) (b : Nat) (x : Option Buf) {j : Nat} (h : j ≠ b) : getBuf (setBuf s b x) j = getBuf s j := Tbl.get_set_ne _ _ _ h
theorem getBuf_setBuf (s : State) (b : Nat) (x : Option Buf) (j : Nat) : getBuf (setBuf s b x) j = if j = b then x else getBuf s j := Tbl.get_set ..
@[simp] theorem getDie_setBuf (s : State) (b : Nat) (x : Option Buf) (y0 : Nat) : getDie (setBuf s b x) y0 = getDie s y0 := rfl
@[simp] theorem getChan_setBuf (s : State) (b : Nat) (x : Option Buf) (y0 : Nat) : getChan (setBuf s b x) y0 = getChan s y0 := rfl
@[simp] theorem getSlot_setBuf (s : State) (b : Nat) (x : Option Buf) (y0 : Nat) : getSlot (setBuf s b x) y0 = getSlot s y0 := rfl
@[simp] theorem getReq_setBuf (s : State) (b : Nat) (x : Option Buf) (y0 : Nat) : getReq (setBuf s b x) y0 = getReq s y0 := rfl
@[simp] theorem getBody_setBuf (s : State) (b : Nat) (x : Option Buf) (y0 : Nat) : getBody (setBuf s b x) y0 = getBody s y0 := rfl
@[simp] theorem getNs_setBuf (s : State) (b : Nat) (x : Option Buf) (y0 : Nat) : getNs (setBuf s b x) y0 = getNs s y0 := rfl
@[simp] theorem getZone_setBuf (s : State) (b : Nat) (x : Option Buf) (y0 y1 : Nat) : getZone (setBuf s b x) y0 y1 = getZone s y0 y1 := rfl
@[simp] theorem getSlab_setBuf (s : State) (b : Nat) (x : Option Buf) (y0 : Nat) : getSlab (setBuf s b x) y0 = getSlab s y0 := rfl
@[simp] theorem getCourse_setBuf (s : State) (b : Nat) (x : Option Buf) (y0 : Nat) : getCourse (setBuf s b x) y0 = getCourse s y0 := rfl
@[simp] theorem getDomain_setBuf (s : State) (b : Nat) (x : Option Buf) (y0 y1 : Nat) : getDomain (setBuf s b x) y0 y1 = getDomain s y0 y1 := rfl
@[simp] theorem getDev_setBuf (s : State) (b : Nat) (x : Option Buf) (y0 : Nat) : getDev (setBuf s b x) y0 = getDev s y0 := rfl
@[simp] theorem getLPort_setBuf (s : State) (b : Nat) (x : Option Buf) (y0 : Nat) : getLPort (setBuf s b x) y0 = getLPort s y0 := rfl
@[simp] theorem getQp_setBuf (s : State) (b : Nat) (x : Option Buf) (y0 : Nat) : getQp (setBuf s b x) y0 = getQp s y0 := rfl
@[simp] theorem getFunc_setBuf (s : State) (b : Nat) (x : Option Buf) (y0 : Nat) : getFunc (setBuf s b x) y0 = getFunc s y0 := rfl
@[simp] theorem getTen_setBuf (s : State) (b : Nat) (x : Option Buf) (y0 : Nat) : getTen (setBuf s b x) y0 = getTen s y0 := rfl
@[simp] theorem getLane_setBuf (s : State) (b : Nat) (x : Option Buf) (y0 : Nat) : getLane (setBuf s b x) y0 = getLane s y0 := rfl
@[simp] theorem getKey_setBuf (s : State) (b : Nat) (x : Option Buf) (y0 : Nat) : getKey (setBuf s b x) y0 = getKey s y0 := rfl
@[simp] theorem getCtx_setBuf (s : State) (b : Nat) (x : Option Buf) (y0 : Nat) : getCtx (setBuf s b x) y0 = getCtx s y0 := rfl
@[simp] theorem getDram_setBuf (s : State) (b : Nat) (x : Option Buf) (y0 : Nat) : getDram (setBuf s b x) y0 = getDram s y0 := rfl
@[simp] theorem getGroup_setBuf (s : State) (b : Nat) (x : Option Buf) (y0 : Nat) : getGroup (setBuf s b x) y0 = getGroup s y0 := rfl
@[simp] theorem getDom_setBuf (s : State) (b : Nat) (x : Option Buf) (y0 : Nat) : getDom (setBuf s b x) y0 = getDom s y0 := rfl
@[simp] theorem getInput_setBuf (s : State) (b : Nat) (x : Option Buf) (y0 : Nat) : getInput (setBuf s b x) y0 = getInput s y0 := rfl
@[simp] theorem getCk_setBuf (s : State) (b : Nat) (x : Option Buf) (y0 : Nat) : getCk (setBuf s b x) y0 = getCk s y0 := rfl
@[simp] theorem regWord_setBuf (s : State) (b : Nat) (x : Option Buf) (key : Nat) : regWord (setBuf s b x) key = regWord s key := rfl

@[simp] theorem getBody_setBody_self (s : State) (b : Nat) (x : Option Pattern) : getBody (setBody s b x) b = x := Tbl.get_set_self ..
theorem getBody_setBody_ne (s : State) (b : Nat) (x : Option Pattern) {j : Nat} (h : j ≠ b) : getBody (setBody s b x) j = getBody s j := Tbl.get_set_ne _ _ _ h
theorem getBody_setBody (s : State) (b : Nat) (x : Option Pattern) (j : Nat) : getBody (setBody s b x) j = if j = b then x else getBody s j := Tbl.get_set ..
@[simp] theorem getDie_setBody (s : State) (b : Nat) (x : Option Pattern) (y0 : Nat) : getDie (setBody s b x) y0 = getDie s y0 := rfl
@[simp] theorem getChan_setBody (s : State) (b : Nat) (x : Option Pattern) (y0 : Nat) : getChan (setBody s b x) y0 = getChan s y0 := rfl
@[simp] theorem getSlot_setBody (s : State) (b : Nat) (x : Option Pattern) (y0 : Nat) : getSlot (setBody s b x) y0 = getSlot s y0 := rfl
@[simp] theorem getReq_setBody (s : State) (b : Nat) (x : Option Pattern) (y0 : Nat) : getReq (setBody s b x) y0 = getReq s y0 := rfl
@[simp] theorem getBuf_setBody (s : State) (b : Nat) (x : Option Pattern) (y0 : Nat) : getBuf (setBody s b x) y0 = getBuf s y0 := rfl
@[simp] theorem getNs_setBody (s : State) (b : Nat) (x : Option Pattern) (y0 : Nat) : getNs (setBody s b x) y0 = getNs s y0 := rfl
@[simp] theorem getZone_setBody (s : State) (b : Nat) (x : Option Pattern) (y0 y1 : Nat) : getZone (setBody s b x) y0 y1 = getZone s y0 y1 := rfl
@[simp] theorem getSlab_setBody (s : State) (b : Nat) (x : Option Pattern) (y0 : Nat) : getSlab (setBody s b x) y0 = getSlab s y0 := rfl
@[simp] theorem getCourse_setBody (s : State) (b : Nat) (x : Option Pattern) (y0 : Nat) : getCourse (setBody s b x) y0 = getCourse s y0 := rfl
@[simp] theorem getDomain_setBody (s : State) (b : Nat) (x : Option Pattern) (y0 y1 : Nat) : getDomain (setBody s b x) y0 y1 = getDomain s y0 y1 := rfl
@[simp] theorem getDev_setBody (s : State) (b : Nat) (x : Option Pattern) (y0 : Nat) : getDev (setBody s b x) y0 = getDev s y0 := rfl
@[simp] theorem getLPort_setBody (s : State) (b : Nat) (x : Option Pattern) (y0 : Nat) : getLPort (setBody s b x) y0 = getLPort s y0 := rfl
@[simp] theorem getQp_setBody (s : State) (b : Nat) (x : Option Pattern) (y0 : Nat) : getQp (setBody s b x) y0 = getQp s y0 := rfl
@[simp] theorem getFunc_setBody (s : State) (b : Nat) (x : Option Pattern) (y0 : Nat) : getFunc (setBody s b x) y0 = getFunc s y0 := rfl
@[simp] theorem getTen_setBody (s : State) (b : Nat) (x : Option Pattern) (y0 : Nat) : getTen (setBody s b x) y0 = getTen s y0 := rfl
@[simp] theorem getLane_setBody (s : State) (b : Nat) (x : Option Pattern) (y0 : Nat) : getLane (setBody s b x) y0 = getLane s y0 := rfl
@[simp] theorem getKey_setBody (s : State) (b : Nat) (x : Option Pattern) (y0 : Nat) : getKey (setBody s b x) y0 = getKey s y0 := rfl
@[simp] theorem getCtx_setBody (s : State) (b : Nat) (x : Option Pattern) (y0 : Nat) : getCtx (setBody s b x) y0 = getCtx s y0 := rfl
@[simp] theorem getDram_setBody (s : State) (b : Nat) (x : Option Pattern) (y0 : Nat) : getDram (setBody s b x) y0 = getDram s y0 := rfl
@[simp] theorem getGroup_setBody (s : State) (b : Nat) (x : Option Pattern) (y0 : Nat) : getGroup (setBody s b x) y0 = getGroup s y0 := rfl
@[simp] theorem getDom_setBody (s : State) (b : Nat) (x : Option Pattern) (y0 : Nat) : getDom (setBody s b x) y0 = getDom s y0 := rfl
@[simp] theorem getInput_setBody (s : State) (b : Nat) (x : Option Pattern) (y0 : Nat) : getInput (setBody s b x) y0 = getInput s y0 := rfl
@[simp] theorem getCk_setBody (s : State) (b : Nat) (x : Option Pattern) (y0 : Nat) : getCk (setBody s b x) y0 = getCk s y0 := rfl
@[simp] theorem regWord_setBody (s : State) (b : Nat) (x : Option Pattern) (key : Nat) : regWord (setBody s b x) key = regWord s key := rfl

@[simp] theorem getNs_setNs_self (s : State) (n : Nat) (x : Option Namespace) : getNs (setNs s n x) n = x := Tbl.get_set_self ..
theorem getNs_setNs_ne (s : State) (n : Nat) (x : Option Namespace) {j : Nat} (h : j ≠ n) : getNs (setNs s n x) j = getNs s j := Tbl.get_set_ne _ _ _ h
theorem getNs_setNs (s : State) (n : Nat) (x : Option Namespace) (j : Nat) : getNs (setNs s n x) j = if j = n then x else getNs s j := Tbl.get_set ..
@[simp] theorem getDie_setNs (s : State) (n : Nat) (x : Option Namespace) (y0 : Nat) : getDie (setNs s n x) y0 = getDie s y0 := rfl
@[simp] theorem getChan_setNs (s : State) (n : Nat) (x : Option Namespace) (y0 : Nat) : getChan (setNs s n x) y0 = getChan s y0 := rfl
@[simp] theorem getSlot_setNs (s : State) (n : Nat) (x : Option Namespace) (y0 : Nat) : getSlot (setNs s n x) y0 = getSlot s y0 := rfl
@[simp] theorem getReq_setNs (s : State) (n : Nat) (x : Option Namespace) (y0 : Nat) : getReq (setNs s n x) y0 = getReq s y0 := rfl
@[simp] theorem getBuf_setNs (s : State) (n : Nat) (x : Option Namespace) (y0 : Nat) : getBuf (setNs s n x) y0 = getBuf s y0 := rfl
@[simp] theorem getBody_setNs (s : State) (n : Nat) (x : Option Namespace) (y0 : Nat) : getBody (setNs s n x) y0 = getBody s y0 := rfl
@[simp] theorem getZone_setNs (s : State) (n : Nat) (x : Option Namespace) (y0 y1 : Nat) : getZone (setNs s n x) y0 y1 = getZone s y0 y1 := rfl
@[simp] theorem getSlab_setNs (s : State) (n : Nat) (x : Option Namespace) (y0 : Nat) : getSlab (setNs s n x) y0 = getSlab s y0 := rfl
@[simp] theorem getCourse_setNs (s : State) (n : Nat) (x : Option Namespace) (y0 : Nat) : getCourse (setNs s n x) y0 = getCourse s y0 := rfl
@[simp] theorem getDomain_setNs (s : State) (n : Nat) (x : Option Namespace) (y0 y1 : Nat) : getDomain (setNs s n x) y0 y1 = getDomain s y0 y1 := rfl
@[simp] theorem getDev_setNs (s : State) (n : Nat) (x : Option Namespace) (y0 : Nat) : getDev (setNs s n x) y0 = getDev s y0 := rfl
@[simp] theorem getLPort_setNs (s : State) (n : Nat) (x : Option Namespace) (y0 : Nat) : getLPort (setNs s n x) y0 = getLPort s y0 := rfl
@[simp] theorem getQp_setNs (s : State) (n : Nat) (x : Option Namespace) (y0 : Nat) : getQp (setNs s n x) y0 = getQp s y0 := rfl
@[simp] theorem getFunc_setNs (s : State) (n : Nat) (x : Option Namespace) (y0 : Nat) : getFunc (setNs s n x) y0 = getFunc s y0 := rfl
@[simp] theorem getTen_setNs (s : State) (n : Nat) (x : Option Namespace) (y0 : Nat) : getTen (setNs s n x) y0 = getTen s y0 := rfl
@[simp] theorem getLane_setNs (s : State) (n : Nat) (x : Option Namespace) (y0 : Nat) : getLane (setNs s n x) y0 = getLane s y0 := rfl
@[simp] theorem getKey_setNs (s : State) (n : Nat) (x : Option Namespace) (y0 : Nat) : getKey (setNs s n x) y0 = getKey s y0 := rfl
@[simp] theorem getCtx_setNs (s : State) (n : Nat) (x : Option Namespace) (y0 : Nat) : getCtx (setNs s n x) y0 = getCtx s y0 := rfl
@[simp] theorem getDram_setNs (s : State) (n : Nat) (x : Option Namespace) (y0 : Nat) : getDram (setNs s n x) y0 = getDram s y0 := rfl
@[simp] theorem getGroup_setNs (s : State) (n : Nat) (x : Option Namespace) (y0 : Nat) : getGroup (setNs s n x) y0 = getGroup s y0 := rfl
@[simp] theorem getDom_setNs (s : State) (n : Nat) (x : Option Namespace) (y0 : Nat) : getDom (setNs s n x) y0 = getDom s y0 := rfl
@[simp] theorem getInput_setNs (s : State) (n : Nat) (x : Option Namespace) (y0 : Nat) : getInput (setNs s n x) y0 = getInput s y0 := rfl
@[simp] theorem getCk_setNs (s : State) (n : Nat) (x : Option Namespace) (y0 : Nat) : getCk (setNs s n x) y0 = getCk s y0 := rfl
@[simp] theorem regWord_setNs (s : State) (n : Nat) (x : Option Namespace) (key : Nat) : regWord (setNs s n x) key = regWord s key := rfl

@[simp] theorem getZone_setZone_self (s : State) (nsid k : Nat) (x : Zone) : getZone (setZone s nsid k x) nsid k = x := Tbl.get_set_self ..
theorem getZone_setZone_ne (s : State) (nsid k : Nat) (x : Zone) {m j : Nat} (h : zoneKey m j ≠ zoneKey nsid k) : getZone (setZone s nsid k x) m j = getZone s m j := Tbl.get_set_ne _ _ _ h
@[simp] theorem getDie_setZone (s : State) (nsid k : Nat) (x : Zone) (y0 : Nat) : getDie (setZone s nsid k x) y0 = getDie s y0 := rfl
@[simp] theorem getChan_setZone (s : State) (nsid k : Nat) (x : Zone) (y0 : Nat) : getChan (setZone s nsid k x) y0 = getChan s y0 := rfl
@[simp] theorem getSlot_setZone (s : State) (nsid k : Nat) (x : Zone) (y0 : Nat) : getSlot (setZone s nsid k x) y0 = getSlot s y0 := rfl
@[simp] theorem getReq_setZone (s : State) (nsid k : Nat) (x : Zone) (y0 : Nat) : getReq (setZone s nsid k x) y0 = getReq s y0 := rfl
@[simp] theorem getBuf_setZone (s : State) (nsid k : Nat) (x : Zone) (y0 : Nat) : getBuf (setZone s nsid k x) y0 = getBuf s y0 := rfl
@[simp] theorem getBody_setZone (s : State) (nsid k : Nat) (x : Zone) (y0 : Nat) : getBody (setZone s nsid k x) y0 = getBody s y0 := rfl
@[simp] theorem getNs_setZone (s : State) (nsid k : Nat) (x : Zone) (y0 : Nat) : getNs (setZone s nsid k x) y0 = getNs s y0 := rfl
@[simp] theorem getSlab_setZone (s : State) (nsid k : Nat) (x : Zone) (y0 : Nat) : getSlab (setZone s nsid k x) y0 = getSlab s y0 := rfl
@[simp] theorem getCourse_setZone (s : State) (nsid k : Nat) (x : Zone) (y0 : Nat) : getCourse (setZone s nsid k x) y0 = getCourse s y0 := rfl
@[simp] theorem getDomain_setZone (s : State) (nsid k : Nat) (x : Zone) (y0 y1 : Nat) : getDomain (setZone s nsid k x) y0 y1 = getDomain s y0 y1 := rfl
@[simp] theorem getDev_setZone (s : State) (nsid k : Nat) (x : Zone) (y0 : Nat) : getDev (setZone s nsid k x) y0 = getDev s y0 := rfl
@[simp] theorem getLPort_setZone (s : State) (nsid k : Nat) (x : Zone) (y0 : Nat) : getLPort (setZone s nsid k x) y0 = getLPort s y0 := rfl
@[simp] theorem getQp_setZone (s : State) (nsid k : Nat) (x : Zone) (y0 : Nat) : getQp (setZone s nsid k x) y0 = getQp s y0 := rfl
@[simp] theorem getFunc_setZone (s : State) (nsid k : Nat) (x : Zone) (y0 : Nat) : getFunc (setZone s nsid k x) y0 = getFunc s y0 := rfl
@[simp] theorem getTen_setZone (s : State) (nsid k : Nat) (x : Zone) (y0 : Nat) : getTen (setZone s nsid k x) y0 = getTen s y0 := rfl
@[simp] theorem getLane_setZone (s : State) (nsid k : Nat) (x : Zone) (y0 : Nat) : getLane (setZone s nsid k x) y0 = getLane s y0 := rfl
@[simp] theorem getKey_setZone (s : State) (nsid k : Nat) (x : Zone) (y0 : Nat) : getKey (setZone s nsid k x) y0 = getKey s y0 := rfl
@[simp] theorem getCtx_setZone (s : State) (nsid k : Nat) (x : Zone) (y0 : Nat) : getCtx (setZone s nsid k x) y0 = getCtx s y0 := rfl
@[simp] theorem getDram_setZone (s : State) (nsid k : Nat) (x : Zone) (y0 : Nat) : getDram (setZone s nsid k x) y0 = getDram s y0 := rfl
@[simp] theorem getGroup_setZone (s : State) (nsid k : Nat) (x : Zone) (y0 : Nat) : getGroup (setZone s nsid k x) y0 = getGroup s y0 := rfl
@[simp] theorem getDom_setZone (s : State) (nsid k : Nat) (x : Zone) (y0 : Nat) : getDom (setZone s nsid k x) y0 = getDom s y0 := rfl
@[simp] theorem getInput_setZone (s : State) (nsid k : Nat) (x : Zone) (y0 : Nat) : getInput (setZone s nsid k x) y0 = getInput s y0 := rfl
@[simp] theorem getCk_setZone (s : State) (nsid k : Nat) (x : Zone) (y0 : Nat) : getCk (setZone s nsid k x) y0 = getCk s y0 := rfl
@[simp] theorem regWord_setZone (s : State) (nsid k : Nat) (x : Zone) (key : Nat) : regWord (setZone s nsid k x) key = regWord s key := rfl

@[simp] theorem getSlab_setSlab_self (s : State) (a : Nat) (x : Slab) : getSlab (setSlab s a x) a = x := Tbl.get_set_self ..
theorem getSlab_setSlab_ne (s : State) (a : Nat) (x : Slab) {j : Nat} (h : j ≠ a) : getSlab (setSlab s a x) j = getSlab s j := Tbl.get_set_ne _ _ _ h
theorem getSlab_setSlab (s : State) (a : Nat) (x : Slab) (j : Nat) : getSlab (setSlab s a x) j = if j = a then x else getSlab s j := Tbl.get_set ..
@[simp] theorem getDie_setSlab (s : State) (a : Nat) (x : Slab) (y0 : Nat) : getDie (setSlab s a x) y0 = getDie s y0 := rfl
@[simp] theorem getChan_setSlab (s : State) (a : Nat) (x : Slab) (y0 : Nat) : getChan (setSlab s a x) y0 = getChan s y0 := rfl
@[simp] theorem getSlot_setSlab (s : State) (a : Nat) (x : Slab) (y0 : Nat) : getSlot (setSlab s a x) y0 = getSlot s y0 := rfl
@[simp] theorem getReq_setSlab (s : State) (a : Nat) (x : Slab) (y0 : Nat) : getReq (setSlab s a x) y0 = getReq s y0 := rfl
@[simp] theorem getBuf_setSlab (s : State) (a : Nat) (x : Slab) (y0 : Nat) : getBuf (setSlab s a x) y0 = getBuf s y0 := rfl
@[simp] theorem getBody_setSlab (s : State) (a : Nat) (x : Slab) (y0 : Nat) : getBody (setSlab s a x) y0 = getBody s y0 := rfl
@[simp] theorem getNs_setSlab (s : State) (a : Nat) (x : Slab) (y0 : Nat) : getNs (setSlab s a x) y0 = getNs s y0 := rfl
@[simp] theorem getZone_setSlab (s : State) (a : Nat) (x : Slab) (y0 y1 : Nat) : getZone (setSlab s a x) y0 y1 = getZone s y0 y1 := rfl
@[simp] theorem getCourse_setSlab (s : State) (a : Nat) (x : Slab) (y0 : Nat) : getCourse (setSlab s a x) y0 = getCourse s y0 := rfl
@[simp] theorem getDomain_setSlab (s : State) (a : Nat) (x : Slab) (y0 y1 : Nat) : getDomain (setSlab s a x) y0 y1 = getDomain s y0 y1 := rfl
@[simp] theorem getDev_setSlab (s : State) (a : Nat) (x : Slab) (y0 : Nat) : getDev (setSlab s a x) y0 = getDev s y0 := rfl
@[simp] theorem getLPort_setSlab (s : State) (a : Nat) (x : Slab) (y0 : Nat) : getLPort (setSlab s a x) y0 = getLPort s y0 := rfl
@[simp] theorem getQp_setSlab (s : State) (a : Nat) (x : Slab) (y0 : Nat) : getQp (setSlab s a x) y0 = getQp s y0 := rfl
@[simp] theorem getFunc_setSlab (s : State) (a : Nat) (x : Slab) (y0 : Nat) : getFunc (setSlab s a x) y0 = getFunc s y0 := rfl
@[simp] theorem getTen_setSlab (s : State) (a : Nat) (x : Slab) (y0 : Nat) : getTen (setSlab s a x) y0 = getTen s y0 := rfl
@[simp] theorem getLane_setSlab (s : State) (a : Nat) (x : Slab) (y0 : Nat) : getLane (setSlab s a x) y0 = getLane s y0 := rfl
@[simp] theorem getKey_setSlab (s : State) (a : Nat) (x : Slab) (y0 : Nat) : getKey (setSlab s a x) y0 = getKey s y0 := rfl
@[simp] theorem getCtx_setSlab (s : State) (a : Nat) (x : Slab) (y0 : Nat) : getCtx (setSlab s a x) y0 = getCtx s y0 := rfl
@[simp] theorem getDram_setSlab (s : State) (a : Nat) (x : Slab) (y0 : Nat) : getDram (setSlab s a x) y0 = getDram s y0 := rfl
@[simp] theorem getGroup_setSlab (s : State) (a : Nat) (x : Slab) (y0 : Nat) : getGroup (setSlab s a x) y0 = getGroup s y0 := rfl
@[simp] theorem getDom_setSlab (s : State) (a : Nat) (x : Slab) (y0 : Nat) : getDom (setSlab s a x) y0 = getDom s y0 := rfl
@[simp] theorem getInput_setSlab (s : State) (a : Nat) (x : Slab) (y0 : Nat) : getInput (setSlab s a x) y0 = getInput s y0 := rfl
@[simp] theorem getCk_setSlab (s : State) (a : Nat) (x : Slab) (y0 : Nat) : getCk (setSlab s a x) y0 = getCk s y0 := rfl
@[simp] theorem regWord_setSlab (s : State) (a : Nat) (x : Slab) (key : Nat) : regWord (setSlab s a x) key = regWord s key := rfl

@[simp] theorem getCourse_setCourse_self (s : State) (c : Nat) (x : Option Course) : getCourse (setCourse s c x) c = x := Tbl.get_set_self ..
theorem getCourse_setCourse_ne (s : State) (c : Nat) (x : Option Course) {j : Nat} (h : j ≠ c) : getCourse (setCourse s c x) j = getCourse s j := Tbl.get_set_ne _ _ _ h
theorem getCourse_setCourse (s : State) (c : Nat) (x : Option Course) (j : Nat) : getCourse (setCourse s c x) j = if j = c then x else getCourse s j := Tbl.get_set ..
@[simp] theorem getDie_setCourse (s : State) (c : Nat) (x : Option Course) (y0 : Nat) : getDie (setCourse s c x) y0 = getDie s y0 := rfl
@[simp] theorem getChan_setCourse (s : State) (c : Nat) (x : Option Course) (y0 : Nat) : getChan (setCourse s c x) y0 = getChan s y0 := rfl
@[simp] theorem getSlot_setCourse (s : State) (c : Nat) (x : Option Course) (y0 : Nat) : getSlot (setCourse s c x) y0 = getSlot s y0 := rfl
@[simp] theorem getReq_setCourse (s : State) (c : Nat) (x : Option Course) (y0 : Nat) : getReq (setCourse s c x) y0 = getReq s y0 := rfl
@[simp] theorem getBuf_setCourse (s : State) (c : Nat) (x : Option Course) (y0 : Nat) : getBuf (setCourse s c x) y0 = getBuf s y0 := rfl
@[simp] theorem getBody_setCourse (s : State) (c : Nat) (x : Option Course) (y0 : Nat) : getBody (setCourse s c x) y0 = getBody s y0 := rfl
@[simp] theorem getNs_setCourse (s : State) (c : Nat) (x : Option Course) (y0 : Nat) : getNs (setCourse s c x) y0 = getNs s y0 := rfl
@[simp] theorem getZone_setCourse (s : State) (c : Nat) (x : Option Course) (y0 y1 : Nat) : getZone (setCourse s c x) y0 y1 = getZone s y0 y1 := rfl
@[simp] theorem getSlab_setCourse (s : State) (c : Nat) (x : Option Course) (y0 : Nat) : getSlab (setCourse s c x) y0 = getSlab s y0 := rfl
@[simp] theorem getDomain_setCourse (s : State) (c : Nat) (x : Option Course) (y0 y1 : Nat) : getDomain (setCourse s c x) y0 y1 = getDomain s y0 y1 := rfl
@[simp] theorem getDev_setCourse (s : State) (c : Nat) (x : Option Course) (y0 : Nat) : getDev (setCourse s c x) y0 = getDev s y0 := rfl
@[simp] theorem getLPort_setCourse (s : State) (c : Nat) (x : Option Course) (y0 : Nat) : getLPort (setCourse s c x) y0 = getLPort s y0 := rfl
@[simp] theorem getQp_setCourse (s : State) (c : Nat) (x : Option Course) (y0 : Nat) : getQp (setCourse s c x) y0 = getQp s y0 := rfl
@[simp] theorem getFunc_setCourse (s : State) (c : Nat) (x : Option Course) (y0 : Nat) : getFunc (setCourse s c x) y0 = getFunc s y0 := rfl
@[simp] theorem getTen_setCourse (s : State) (c : Nat) (x : Option Course) (y0 : Nat) : getTen (setCourse s c x) y0 = getTen s y0 := rfl
@[simp] theorem getLane_setCourse (s : State) (c : Nat) (x : Option Course) (y0 : Nat) : getLane (setCourse s c x) y0 = getLane s y0 := rfl
@[simp] theorem getKey_setCourse (s : State) (c : Nat) (x : Option Course) (y0 : Nat) : getKey (setCourse s c x) y0 = getKey s y0 := rfl
@[simp] theorem getCtx_setCourse (s : State) (c : Nat) (x : Option Course) (y0 : Nat) : getCtx (setCourse s c x) y0 = getCtx s y0 := rfl
@[simp] theorem getDram_setCourse (s : State) (c : Nat) (x : Option Course) (y0 : Nat) : getDram (setCourse s c x) y0 = getDram s y0 := rfl
@[simp] theorem getGroup_setCourse (s : State) (c : Nat) (x : Option Course) (y0 : Nat) : getGroup (setCourse s c x) y0 = getGroup s y0 := rfl
@[simp] theorem getDom_setCourse (s : State) (c : Nat) (x : Option Course) (y0 : Nat) : getDom (setCourse s c x) y0 = getDom s y0 := rfl
@[simp] theorem getInput_setCourse (s : State) (c : Nat) (x : Option Course) (y0 : Nat) : getInput (setCourse s c x) y0 = getInput s y0 := rfl
@[simp] theorem getCk_setCourse (s : State) (c : Nat) (x : Option Course) (y0 : Nat) : getCk (setCourse s c x) y0 = getCk s y0 := rfl
@[simp] theorem regWord_setCourse (s : State) (c : Nat) (x : Option Course) (key : Nat) : regWord (setCourse s c x) key = regWord s key := rfl

@[simp] theorem getDomain_setDomain_self (s : State) (nsid k : Nat) (x : Option Domain) : getDomain (setDomain s nsid k x) nsid k = x := Tbl.get_set_self ..
theorem getDomain_setDomain_ne (s : State) (nsid k : Nat) (x : Option Domain) {m j : Nat} (h : domKey m j ≠ domKey nsid k) : getDomain (setDomain s nsid k x) m j = getDomain s m j := Tbl.get_set_ne _ _ _ h
@[simp] theorem getDie_setDomain (s : State) (nsid k : Nat) (x : Option Domain) (y0 : Nat) : getDie (setDomain s nsid k x) y0 = getDie s y0 := rfl
@[simp] theorem getChan_setDomain (s : State) (nsid k : Nat) (x : Option Domain) (y0 : Nat) : getChan (setDomain s nsid k x) y0 = getChan s y0 := rfl
@[simp] theorem getSlot_setDomain (s : State) (nsid k : Nat) (x : Option Domain) (y0 : Nat) : getSlot (setDomain s nsid k x) y0 = getSlot s y0 := rfl
@[simp] theorem getReq_setDomain (s : State) (nsid k : Nat) (x : Option Domain) (y0 : Nat) : getReq (setDomain s nsid k x) y0 = getReq s y0 := rfl
@[simp] theorem getBuf_setDomain (s : State) (nsid k : Nat) (x : Option Domain) (y0 : Nat) : getBuf (setDomain s nsid k x) y0 = getBuf s y0 := rfl
@[simp] theorem getBody_setDomain (s : State) (nsid k : Nat) (x : Option Domain) (y0 : Nat) : getBody (setDomain s nsid k x) y0 = getBody s y0 := rfl
@[simp] theorem getNs_setDomain (s : State) (nsid k : Nat) (x : Option Domain) (y0 : Nat) : getNs (setDomain s nsid k x) y0 = getNs s y0 := rfl
@[simp] theorem getZone_setDomain (s : State) (nsid k : Nat) (x : Option Domain) (y0 y1 : Nat) : getZone (setDomain s nsid k x) y0 y1 = getZone s y0 y1 := rfl
@[simp] theorem getSlab_setDomain (s : State) (nsid k : Nat) (x : Option Domain) (y0 : Nat) : getSlab (setDomain s nsid k x) y0 = getSlab s y0 := rfl
@[simp] theorem getCourse_setDomain (s : State) (nsid k : Nat) (x : Option Domain) (y0 : Nat) : getCourse (setDomain s nsid k x) y0 = getCourse s y0 := rfl
@[simp] theorem getDev_setDomain (s : State) (nsid k : Nat) (x : Option Domain) (y0 : Nat) : getDev (setDomain s nsid k x) y0 = getDev s y0 := rfl
@[simp] theorem getLPort_setDomain (s : State) (nsid k : Nat) (x : Option Domain) (y0 : Nat) : getLPort (setDomain s nsid k x) y0 = getLPort s y0 := rfl
@[simp] theorem getQp_setDomain (s : State) (nsid k : Nat) (x : Option Domain) (y0 : Nat) : getQp (setDomain s nsid k x) y0 = getQp s y0 := rfl
@[simp] theorem getFunc_setDomain (s : State) (nsid k : Nat) (x : Option Domain) (y0 : Nat) : getFunc (setDomain s nsid k x) y0 = getFunc s y0 := rfl
@[simp] theorem getTen_setDomain (s : State) (nsid k : Nat) (x : Option Domain) (y0 : Nat) : getTen (setDomain s nsid k x) y0 = getTen s y0 := rfl
@[simp] theorem getLane_setDomain (s : State) (nsid k : Nat) (x : Option Domain) (y0 : Nat) : getLane (setDomain s nsid k x) y0 = getLane s y0 := rfl
@[simp] theorem getKey_setDomain (s : State) (nsid k : Nat) (x : Option Domain) (y0 : Nat) : getKey (setDomain s nsid k x) y0 = getKey s y0 := rfl
@[simp] theorem getCtx_setDomain (s : State) (nsid k : Nat) (x : Option Domain) (y0 : Nat) : getCtx (setDomain s nsid k x) y0 = getCtx s y0 := rfl
@[simp] theorem getDram_setDomain (s : State) (nsid k : Nat) (x : Option Domain) (y0 : Nat) : getDram (setDomain s nsid k x) y0 = getDram s y0 := rfl
@[simp] theorem getGroup_setDomain (s : State) (nsid k : Nat) (x : Option Domain) (y0 : Nat) : getGroup (setDomain s nsid k x) y0 = getGroup s y0 := rfl
@[simp] theorem getDom_setDomain (s : State) (nsid k : Nat) (x : Option Domain) (y0 : Nat) : getDom (setDomain s nsid k x) y0 = getDom s y0 := rfl
@[simp] theorem getInput_setDomain (s : State) (nsid k : Nat) (x : Option Domain) (y0 : Nat) : getInput (setDomain s nsid k x) y0 = getInput s y0 := rfl
@[simp] theorem getCk_setDomain (s : State) (nsid k : Nat) (x : Option Domain) (y0 : Nat) : getCk (setDomain s nsid k x) y0 = getCk s y0 := rfl
@[simp] theorem regWord_setDomain (s : State) (nsid k : Nat) (x : Option Domain) (key : Nat) : regWord (setDomain s nsid k x) key = regWord s key := rfl

@[simp] theorem getDev_setDev_self (s : State) (i : Nat) (x : Option DevRead) : getDev (setDev s i x) i = x := Tbl.get_set_self ..
theorem getDev_setDev_ne (s : State) (i : Nat) (x : Option DevRead) {j : Nat} (h : j ≠ i) : getDev (setDev s i x) j = getDev s j := Tbl.get_set_ne _ _ _ h
theorem getDev_setDev (s : State) (i : Nat) (x : Option DevRead) (j : Nat) : getDev (setDev s i x) j = if j = i then x else getDev s j := Tbl.get_set ..
@[simp] theorem getDie_setDev (s : State) (i : Nat) (x : Option DevRead) (y0 : Nat) : getDie (setDev s i x) y0 = getDie s y0 := rfl
@[simp] theorem getChan_setDev (s : State) (i : Nat) (x : Option DevRead) (y0 : Nat) : getChan (setDev s i x) y0 = getChan s y0 := rfl
@[simp] theorem getSlot_setDev (s : State) (i : Nat) (x : Option DevRead) (y0 : Nat) : getSlot (setDev s i x) y0 = getSlot s y0 := rfl
@[simp] theorem getReq_setDev (s : State) (i : Nat) (x : Option DevRead) (y0 : Nat) : getReq (setDev s i x) y0 = getReq s y0 := rfl
@[simp] theorem getBuf_setDev (s : State) (i : Nat) (x : Option DevRead) (y0 : Nat) : getBuf (setDev s i x) y0 = getBuf s y0 := rfl
@[simp] theorem getBody_setDev (s : State) (i : Nat) (x : Option DevRead) (y0 : Nat) : getBody (setDev s i x) y0 = getBody s y0 := rfl
@[simp] theorem getNs_setDev (s : State) (i : Nat) (x : Option DevRead) (y0 : Nat) : getNs (setDev s i x) y0 = getNs s y0 := rfl
@[simp] theorem getZone_setDev (s : State) (i : Nat) (x : Option DevRead) (y0 y1 : Nat) : getZone (setDev s i x) y0 y1 = getZone s y0 y1 := rfl
@[simp] theorem getSlab_setDev (s : State) (i : Nat) (x : Option DevRead) (y0 : Nat) : getSlab (setDev s i x) y0 = getSlab s y0 := rfl
@[simp] theorem getCourse_setDev (s : State) (i : Nat) (x : Option DevRead) (y0 : Nat) : getCourse (setDev s i x) y0 = getCourse s y0 := rfl
@[simp] theorem getDomain_setDev (s : State) (i : Nat) (x : Option DevRead) (y0 y1 : Nat) : getDomain (setDev s i x) y0 y1 = getDomain s y0 y1 := rfl
@[simp] theorem getLPort_setDev (s : State) (i : Nat) (x : Option DevRead) (y0 : Nat) : getLPort (setDev s i x) y0 = getLPort s y0 := rfl
@[simp] theorem getQp_setDev (s : State) (i : Nat) (x : Option DevRead) (y0 : Nat) : getQp (setDev s i x) y0 = getQp s y0 := rfl
@[simp] theorem getFunc_setDev (s : State) (i : Nat) (x : Option DevRead) (y0 : Nat) : getFunc (setDev s i x) y0 = getFunc s y0 := rfl
@[simp] theorem getTen_setDev (s : State) (i : Nat) (x : Option DevRead) (y0 : Nat) : getTen (setDev s i x) y0 = getTen s y0 := rfl
@[simp] theorem getLane_setDev (s : State) (i : Nat) (x : Option DevRead) (y0 : Nat) : getLane (setDev s i x) y0 = getLane s y0 := rfl
@[simp] theorem getKey_setDev (s : State) (i : Nat) (x : Option DevRead) (y0 : Nat) : getKey (setDev s i x) y0 = getKey s y0 := rfl
@[simp] theorem getCtx_setDev (s : State) (i : Nat) (x : Option DevRead) (y0 : Nat) : getCtx (setDev s i x) y0 = getCtx s y0 := rfl
@[simp] theorem getDram_setDev (s : State) (i : Nat) (x : Option DevRead) (y0 : Nat) : getDram (setDev s i x) y0 = getDram s y0 := rfl
@[simp] theorem getGroup_setDev (s : State) (i : Nat) (x : Option DevRead) (y0 : Nat) : getGroup (setDev s i x) y0 = getGroup s y0 := rfl
@[simp] theorem getDom_setDev (s : State) (i : Nat) (x : Option DevRead) (y0 : Nat) : getDom (setDev s i x) y0 = getDom s y0 := rfl
@[simp] theorem getInput_setDev (s : State) (i : Nat) (x : Option DevRead) (y0 : Nat) : getInput (setDev s i x) y0 = getInput s y0 := rfl
@[simp] theorem getCk_setDev (s : State) (i : Nat) (x : Option DevRead) (y0 : Nat) : getCk (setDev s i x) y0 = getCk s y0 := rfl
@[simp] theorem regWord_setDev (s : State) (i : Nat) (x : Option DevRead) (key : Nat) : regWord (setDev s i x) key = regWord s key := rfl

@[simp] theorem getLPort_setLPort_self (s : State) (p : Nat) (x : LPort) : getLPort (setLPort s p x) p = x := Tbl.get_set_self ..
theorem getLPort_setLPort_ne (s : State) (p : Nat) (x : LPort) {j : Nat} (h : j ≠ p) : getLPort (setLPort s p x) j = getLPort s j := Tbl.get_set_ne _ _ _ h
theorem getLPort_setLPort (s : State) (p : Nat) (x : LPort) (j : Nat) : getLPort (setLPort s p x) j = if j = p then x else getLPort s j := Tbl.get_set ..
@[simp] theorem getDie_setLPort (s : State) (p : Nat) (x : LPort) (y0 : Nat) : getDie (setLPort s p x) y0 = getDie s y0 := rfl
@[simp] theorem getChan_setLPort (s : State) (p : Nat) (x : LPort) (y0 : Nat) : getChan (setLPort s p x) y0 = getChan s y0 := rfl
@[simp] theorem getSlot_setLPort (s : State) (p : Nat) (x : LPort) (y0 : Nat) : getSlot (setLPort s p x) y0 = getSlot s y0 := rfl
@[simp] theorem getReq_setLPort (s : State) (p : Nat) (x : LPort) (y0 : Nat) : getReq (setLPort s p x) y0 = getReq s y0 := rfl
@[simp] theorem getBuf_setLPort (s : State) (p : Nat) (x : LPort) (y0 : Nat) : getBuf (setLPort s p x) y0 = getBuf s y0 := rfl
@[simp] theorem getBody_setLPort (s : State) (p : Nat) (x : LPort) (y0 : Nat) : getBody (setLPort s p x) y0 = getBody s y0 := rfl
@[simp] theorem getNs_setLPort (s : State) (p : Nat) (x : LPort) (y0 : Nat) : getNs (setLPort s p x) y0 = getNs s y0 := rfl
@[simp] theorem getZone_setLPort (s : State) (p : Nat) (x : LPort) (y0 y1 : Nat) : getZone (setLPort s p x) y0 y1 = getZone s y0 y1 := rfl
@[simp] theorem getSlab_setLPort (s : State) (p : Nat) (x : LPort) (y0 : Nat) : getSlab (setLPort s p x) y0 = getSlab s y0 := rfl
@[simp] theorem getCourse_setLPort (s : State) (p : Nat) (x : LPort) (y0 : Nat) : getCourse (setLPort s p x) y0 = getCourse s y0 := rfl
@[simp] theorem getDomain_setLPort (s : State) (p : Nat) (x : LPort) (y0 y1 : Nat) : getDomain (setLPort s p x) y0 y1 = getDomain s y0 y1 := rfl
@[simp] theorem getDev_setLPort (s : State) (p : Nat) (x : LPort) (y0 : Nat) : getDev (setLPort s p x) y0 = getDev s y0 := rfl
@[simp] theorem getQp_setLPort (s : State) (p : Nat) (x : LPort) (y0 : Nat) : getQp (setLPort s p x) y0 = getQp s y0 := rfl
@[simp] theorem getFunc_setLPort (s : State) (p : Nat) (x : LPort) (y0 : Nat) : getFunc (setLPort s p x) y0 = getFunc s y0 := rfl
@[simp] theorem getTen_setLPort (s : State) (p : Nat) (x : LPort) (y0 : Nat) : getTen (setLPort s p x) y0 = getTen s y0 := rfl
@[simp] theorem getLane_setLPort (s : State) (p : Nat) (x : LPort) (y0 : Nat) : getLane (setLPort s p x) y0 = getLane s y0 := rfl
@[simp] theorem getKey_setLPort (s : State) (p : Nat) (x : LPort) (y0 : Nat) : getKey (setLPort s p x) y0 = getKey s y0 := rfl
@[simp] theorem getCtx_setLPort (s : State) (p : Nat) (x : LPort) (y0 : Nat) : getCtx (setLPort s p x) y0 = getCtx s y0 := rfl
@[simp] theorem getDram_setLPort (s : State) (p : Nat) (x : LPort) (y0 : Nat) : getDram (setLPort s p x) y0 = getDram s y0 := rfl
@[simp] theorem getGroup_setLPort (s : State) (p : Nat) (x : LPort) (y0 : Nat) : getGroup (setLPort s p x) y0 = getGroup s y0 := rfl
@[simp] theorem getDom_setLPort (s : State) (p : Nat) (x : LPort) (y0 : Nat) : getDom (setLPort s p x) y0 = getDom s y0 := rfl
@[simp] theorem getInput_setLPort (s : State) (p : Nat) (x : LPort) (y0 : Nat) : getInput (setLPort s p x) y0 = getInput s y0 := rfl
@[simp] theorem getCk_setLPort (s : State) (p : Nat) (x : LPort) (y0 : Nat) : getCk (setLPort s p x) y0 = getCk s y0 := rfl
@[simp] theorem regWord_setLPort (s : State) (p : Nat) (x : LPort) (key : Nat) : regWord (setLPort s p x) key = regWord s key := rfl

@[simp] theorem getQp_setQp_self (s : State) (q : Nat) (x : QPair) : getQp (setQp s q x) q = x := Tbl.get_set_self ..
theorem getQp_setQp_ne (s : State) (q : Nat) (x : QPair) {j : Nat} (h : j ≠ q) : getQp (setQp s q x) j = getQp s j := Tbl.get_set_ne _ _ _ h
theorem getQp_setQp (s : State) (q : Nat) (x : QPair) (j : Nat) : getQp (setQp s q x) j = if j = q then x else getQp s j := Tbl.get_set ..
@[simp] theorem getDie_setQp (s : State) (q : Nat) (x : QPair) (y0 : Nat) : getDie (setQp s q x) y0 = getDie s y0 := rfl
@[simp] theorem getChan_setQp (s : State) (q : Nat) (x : QPair) (y0 : Nat) : getChan (setQp s q x) y0 = getChan s y0 := rfl
@[simp] theorem getSlot_setQp (s : State) (q : Nat) (x : QPair) (y0 : Nat) : getSlot (setQp s q x) y0 = getSlot s y0 := rfl
@[simp] theorem getReq_setQp (s : State) (q : Nat) (x : QPair) (y0 : Nat) : getReq (setQp s q x) y0 = getReq s y0 := rfl
@[simp] theorem getBuf_setQp (s : State) (q : Nat) (x : QPair) (y0 : Nat) : getBuf (setQp s q x) y0 = getBuf s y0 := rfl
@[simp] theorem getBody_setQp (s : State) (q : Nat) (x : QPair) (y0 : Nat) : getBody (setQp s q x) y0 = getBody s y0 := rfl
@[simp] theorem getNs_setQp (s : State) (q : Nat) (x : QPair) (y0 : Nat) : getNs (setQp s q x) y0 = getNs s y0 := rfl
@[simp] theorem getZone_setQp (s : State) (q : Nat) (x : QPair) (y0 y1 : Nat) : getZone (setQp s q x) y0 y1 = getZone s y0 y1 := rfl
@[simp] theorem getSlab_setQp (s : State) (q : Nat) (x : QPair) (y0 : Nat) : getSlab (setQp s q x) y0 = getSlab s y0 := rfl
@[simp] theorem getCourse_setQp (s : State) (q : Nat) (x : QPair) (y0 : Nat) : getCourse (setQp s q x) y0 = getCourse s y0 := rfl
@[simp] theorem getDomain_setQp (s : State) (q : Nat) (x : QPair) (y0 y1 : Nat) : getDomain (setQp s q x) y0 y1 = getDomain s y0 y1 := rfl
@[simp] theorem getDev_setQp (s : State) (q : Nat) (x : QPair) (y0 : Nat) : getDev (setQp s q x) y0 = getDev s y0 := rfl
@[simp] theorem getLPort_setQp (s : State) (q : Nat) (x : QPair) (y0 : Nat) : getLPort (setQp s q x) y0 = getLPort s y0 := rfl
@[simp] theorem getFunc_setQp (s : State) (q : Nat) (x : QPair) (y0 : Nat) : getFunc (setQp s q x) y0 = getFunc s y0 := rfl
@[simp] theorem getTen_setQp (s : State) (q : Nat) (x : QPair) (y0 : Nat) : getTen (setQp s q x) y0 = getTen s y0 := rfl
@[simp] theorem getLane_setQp (s : State) (q : Nat) (x : QPair) (y0 : Nat) : getLane (setQp s q x) y0 = getLane s y0 := rfl
@[simp] theorem getKey_setQp (s : State) (q : Nat) (x : QPair) (y0 : Nat) : getKey (setQp s q x) y0 = getKey s y0 := rfl
@[simp] theorem getCtx_setQp (s : State) (q : Nat) (x : QPair) (y0 : Nat) : getCtx (setQp s q x) y0 = getCtx s y0 := rfl
@[simp] theorem getDram_setQp (s : State) (q : Nat) (x : QPair) (y0 : Nat) : getDram (setQp s q x) y0 = getDram s y0 := rfl
@[simp] theorem getGroup_setQp (s : State) (q : Nat) (x : QPair) (y0 : Nat) : getGroup (setQp s q x) y0 = getGroup s y0 := rfl
@[simp] theorem getDom_setQp (s : State) (q : Nat) (x : QPair) (y0 : Nat) : getDom (setQp s q x) y0 = getDom s y0 := rfl
@[simp] theorem getInput_setQp (s : State) (q : Nat) (x : QPair) (y0 : Nat) : getInput (setQp s q x) y0 = getInput s y0 := rfl
@[simp] theorem getCk_setQp (s : State) (q : Nat) (x : QPair) (y0 : Nat) : getCk (setQp s q x) y0 = getCk s y0 := rfl
@[simp] theorem regWord_setQp (s : State) (q : Nat) (x : QPair) (key : Nat) : regWord (setQp s q x) key = regWord s key := rfl

@[simp] theorem getFunc_setFunc_self (s : State) (f : Nat) (x : PFunc) : getFunc (setFunc s f x) f = x := Tbl.get_set_self ..
theorem getFunc_setFunc_ne (s : State) (f : Nat) (x : PFunc) {j : Nat} (h : j ≠ f) : getFunc (setFunc s f x) j = getFunc s j := Tbl.get_set_ne _ _ _ h
theorem getFunc_setFunc (s : State) (f : Nat) (x : PFunc) (j : Nat) : getFunc (setFunc s f x) j = if j = f then x else getFunc s j := Tbl.get_set ..
@[simp] theorem getDie_setFunc (s : State) (f : Nat) (x : PFunc) (y0 : Nat) : getDie (setFunc s f x) y0 = getDie s y0 := rfl
@[simp] theorem getChan_setFunc (s : State) (f : Nat) (x : PFunc) (y0 : Nat) : getChan (setFunc s f x) y0 = getChan s y0 := rfl
@[simp] theorem getSlot_setFunc (s : State) (f : Nat) (x : PFunc) (y0 : Nat) : getSlot (setFunc s f x) y0 = getSlot s y0 := rfl
@[simp] theorem getReq_setFunc (s : State) (f : Nat) (x : PFunc) (y0 : Nat) : getReq (setFunc s f x) y0 = getReq s y0 := rfl
@[simp] theorem getBuf_setFunc (s : State) (f : Nat) (x : PFunc) (y0 : Nat) : getBuf (setFunc s f x) y0 = getBuf s y0 := rfl
@[simp] theorem getBody_setFunc (s : State) (f : Nat) (x : PFunc) (y0 : Nat) : getBody (setFunc s f x) y0 = getBody s y0 := rfl
@[simp] theorem getNs_setFunc (s : State) (f : Nat) (x : PFunc) (y0 : Nat) : getNs (setFunc s f x) y0 = getNs s y0 := rfl
@[simp] theorem getZone_setFunc (s : State) (f : Nat) (x : PFunc) (y0 y1 : Nat) : getZone (setFunc s f x) y0 y1 = getZone s y0 y1 := rfl
@[simp] theorem getSlab_setFunc (s : State) (f : Nat) (x : PFunc) (y0 : Nat) : getSlab (setFunc s f x) y0 = getSlab s y0 := rfl
@[simp] theorem getCourse_setFunc (s : State) (f : Nat) (x : PFunc) (y0 : Nat) : getCourse (setFunc s f x) y0 = getCourse s y0 := rfl
@[simp] theorem getDomain_setFunc (s : State) (f : Nat) (x : PFunc) (y0 y1 : Nat) : getDomain (setFunc s f x) y0 y1 = getDomain s y0 y1 := rfl
@[simp] theorem getDev_setFunc (s : State) (f : Nat) (x : PFunc) (y0 : Nat) : getDev (setFunc s f x) y0 = getDev s y0 := rfl
@[simp] theorem getLPort_setFunc (s : State) (f : Nat) (x : PFunc) (y0 : Nat) : getLPort (setFunc s f x) y0 = getLPort s y0 := rfl
@[simp] theorem getQp_setFunc (s : State) (f : Nat) (x : PFunc) (y0 : Nat) : getQp (setFunc s f x) y0 = getQp s y0 := rfl
@[simp] theorem getTen_setFunc (s : State) (f : Nat) (x : PFunc) (y0 : Nat) : getTen (setFunc s f x) y0 = getTen s y0 := rfl
@[simp] theorem getLane_setFunc (s : State) (f : Nat) (x : PFunc) (y0 : Nat) : getLane (setFunc s f x) y0 = getLane s y0 := rfl
@[simp] theorem getKey_setFunc (s : State) (f : Nat) (x : PFunc) (y0 : Nat) : getKey (setFunc s f x) y0 = getKey s y0 := rfl
@[simp] theorem getCtx_setFunc (s : State) (f : Nat) (x : PFunc) (y0 : Nat) : getCtx (setFunc s f x) y0 = getCtx s y0 := rfl
@[simp] theorem getDram_setFunc (s : State) (f : Nat) (x : PFunc) (y0 : Nat) : getDram (setFunc s f x) y0 = getDram s y0 := rfl
@[simp] theorem getGroup_setFunc (s : State) (f : Nat) (x : PFunc) (y0 : Nat) : getGroup (setFunc s f x) y0 = getGroup s y0 := rfl
@[simp] theorem getDom_setFunc (s : State) (f : Nat) (x : PFunc) (y0 : Nat) : getDom (setFunc s f x) y0 = getDom s y0 := rfl
@[simp] theorem getInput_setFunc (s : State) (f : Nat) (x : PFunc) (y0 : Nat) : getInput (setFunc s f x) y0 = getInput s y0 := rfl
@[simp] theorem getCk_setFunc (s : State) (f : Nat) (x : PFunc) (y0 : Nat) : getCk (setFunc s f x) y0 = getCk s y0 := rfl
@[simp] theorem regWord_setFunc (s : State) (f : Nat) (x : PFunc) (key : Nat) : regWord (setFunc s f x) key = regWord s key := rfl

@[simp] theorem getTen_setTen_self (s : State) (t : Nat) (x : Tenant) : getTen (setTen s t x) t = x := Tbl.get_set_self ..
theorem getTen_setTen_ne (s : State) (t : Nat) (x : Tenant) {j : Nat} (h : j ≠ t) : getTen (setTen s t x) j = getTen s j := Tbl.get_set_ne _ _ _ h
theorem getTen_setTen (s : State) (t : Nat) (x : Tenant) (j : Nat) : getTen (setTen s t x) j = if j = t then x else getTen s j := Tbl.get_set ..
@[simp] theorem getDie_setTen (s : State) (t : Nat) (x : Tenant) (y0 : Nat) : getDie (setTen s t x) y0 = getDie s y0 := rfl
@[simp] theorem getChan_setTen (s : State) (t : Nat) (x : Tenant) (y0 : Nat) : getChan (setTen s t x) y0 = getChan s y0 := rfl
@[simp] theorem getSlot_setTen (s : State) (t : Nat) (x : Tenant) (y0 : Nat) : getSlot (setTen s t x) y0 = getSlot s y0 := rfl
@[simp] theorem getReq_setTen (s : State) (t : Nat) (x : Tenant) (y0 : Nat) : getReq (setTen s t x) y0 = getReq s y0 := rfl
@[simp] theorem getBuf_setTen (s : State) (t : Nat) (x : Tenant) (y0 : Nat) : getBuf (setTen s t x) y0 = getBuf s y0 := rfl
@[simp] theorem getBody_setTen (s : State) (t : Nat) (x : Tenant) (y0 : Nat) : getBody (setTen s t x) y0 = getBody s y0 := rfl
@[simp] theorem getNs_setTen (s : State) (t : Nat) (x : Tenant) (y0 : Nat) : getNs (setTen s t x) y0 = getNs s y0 := rfl
@[simp] theorem getZone_setTen (s : State) (t : Nat) (x : Tenant) (y0 y1 : Nat) : getZone (setTen s t x) y0 y1 = getZone s y0 y1 := rfl
@[simp] theorem getSlab_setTen (s : State) (t : Nat) (x : Tenant) (y0 : Nat) : getSlab (setTen s t x) y0 = getSlab s y0 := rfl
@[simp] theorem getCourse_setTen (s : State) (t : Nat) (x : Tenant) (y0 : Nat) : getCourse (setTen s t x) y0 = getCourse s y0 := rfl
@[simp] theorem getDomain_setTen (s : State) (t : Nat) (x : Tenant) (y0 y1 : Nat) : getDomain (setTen s t x) y0 y1 = getDomain s y0 y1 := rfl
@[simp] theorem getDev_setTen (s : State) (t : Nat) (x : Tenant) (y0 : Nat) : getDev (setTen s t x) y0 = getDev s y0 := rfl
@[simp] theorem getLPort_setTen (s : State) (t : Nat) (x : Tenant) (y0 : Nat) : getLPort (setTen s t x) y0 = getLPort s y0 := rfl
@[simp] theorem getQp_setTen (s : State) (t : Nat) (x : Tenant) (y0 : Nat) : getQp (setTen s t x) y0 = getQp s y0 := rfl
@[simp] theorem getFunc_setTen (s : State) (t : Nat) (x : Tenant) (y0 : Nat) : getFunc (setTen s t x) y0 = getFunc s y0 := rfl
@[simp] theorem getLane_setTen (s : State) (t : Nat) (x : Tenant) (y0 : Nat) : getLane (setTen s t x) y0 = getLane s y0 := rfl
@[simp] theorem getKey_setTen (s : State) (t : Nat) (x : Tenant) (y0 : Nat) : getKey (setTen s t x) y0 = getKey s y0 := rfl
@[simp] theorem getCtx_setTen (s : State) (t : Nat) (x : Tenant) (y0 : Nat) : getCtx (setTen s t x) y0 = getCtx s y0 := rfl
@[simp] theorem getDram_setTen (s : State) (t : Nat) (x : Tenant) (y0 : Nat) : getDram (setTen s t x) y0 = getDram s y0 := rfl
@[simp] theorem getGroup_setTen (s : State) (t : Nat) (x : Tenant) (y0 : Nat) : getGroup (setTen s t x) y0 = getGroup s y0 := rfl
@[simp] theorem getDom_setTen (s : State) (t : Nat) (x : Tenant) (y0 : Nat) : getDom (setTen s t x) y0 = getDom s y0 := rfl
@[simp] theorem getInput_setTen (s : State) (t : Nat) (x : Tenant) (y0 : Nat) : getInput (setTen s t x) y0 = getInput s y0 := rfl
@[simp] theorem getCk_setTen (s : State) (t : Nat) (x : Tenant) (y0 : Nat) : getCk (setTen s t x) y0 = getCk s y0 := rfl
@[simp] theorem regWord_setTen (s : State) (t : Nat) (x : Tenant) (key : Nat) : regWord (setTen s t x) key = regWord s key := rfl

@[simp] theorem getLane_setLane_self (s : State) (l : Nat) (x : Lane) : getLane (setLane s l x) l = x := Tbl.get_set_self ..
theorem getLane_setLane_ne (s : State) (l : Nat) (x : Lane) {j : Nat} (h : j ≠ l) : getLane (setLane s l x) j = getLane s j := Tbl.get_set_ne _ _ _ h
theorem getLane_setLane (s : State) (l : Nat) (x : Lane) (j : Nat) : getLane (setLane s l x) j = if j = l then x else getLane s j := Tbl.get_set ..
@[simp] theorem getDie_setLane (s : State) (l : Nat) (x : Lane) (y0 : Nat) : getDie (setLane s l x) y0 = getDie s y0 := rfl
@[simp] theorem getChan_setLane (s : State) (l : Nat) (x : Lane) (y0 : Nat) : getChan (setLane s l x) y0 = getChan s y0 := rfl
@[simp] theorem getSlot_setLane (s : State) (l : Nat) (x : Lane) (y0 : Nat) : getSlot (setLane s l x) y0 = getSlot s y0 := rfl
@[simp] theorem getReq_setLane (s : State) (l : Nat) (x : Lane) (y0 : Nat) : getReq (setLane s l x) y0 = getReq s y0 := rfl
@[simp] theorem getBuf_setLane (s : State) (l : Nat) (x : Lane) (y0 : Nat) : getBuf (setLane s l x) y0 = getBuf s y0 := rfl
@[simp] theorem getBody_setLane (s : State) (l : Nat) (x : Lane) (y0 : Nat) : getBody (setLane s l x) y0 = getBody s y0 := rfl
@[simp] theorem getNs_setLane (s : State) (l : Nat) (x : Lane) (y0 : Nat) : getNs (setLane s l x) y0 = getNs s y0 := rfl
@[simp] theorem getZone_setLane (s : State) (l : Nat) (x : Lane) (y0 y1 : Nat) : getZone (setLane s l x) y0 y1 = getZone s y0 y1 := rfl
@[simp] theorem getSlab_setLane (s : State) (l : Nat) (x : Lane) (y0 : Nat) : getSlab (setLane s l x) y0 = getSlab s y0 := rfl
@[simp] theorem getCourse_setLane (s : State) (l : Nat) (x : Lane) (y0 : Nat) : getCourse (setLane s l x) y0 = getCourse s y0 := rfl
@[simp] theorem getDomain_setLane (s : State) (l : Nat) (x : Lane) (y0 y1 : Nat) : getDomain (setLane s l x) y0 y1 = getDomain s y0 y1 := rfl
@[simp] theorem getDev_setLane (s : State) (l : Nat) (x : Lane) (y0 : Nat) : getDev (setLane s l x) y0 = getDev s y0 := rfl
@[simp] theorem getLPort_setLane (s : State) (l : Nat) (x : Lane) (y0 : Nat) : getLPort (setLane s l x) y0 = getLPort s y0 := rfl
@[simp] theorem getQp_setLane (s : State) (l : Nat) (x : Lane) (y0 : Nat) : getQp (setLane s l x) y0 = getQp s y0 := rfl
@[simp] theorem getFunc_setLane (s : State) (l : Nat) (x : Lane) (y0 : Nat) : getFunc (setLane s l x) y0 = getFunc s y0 := rfl
@[simp] theorem getTen_setLane (s : State) (l : Nat) (x : Lane) (y0 : Nat) : getTen (setLane s l x) y0 = getTen s y0 := rfl
@[simp] theorem getKey_setLane (s : State) (l : Nat) (x : Lane) (y0 : Nat) : getKey (setLane s l x) y0 = getKey s y0 := rfl
@[simp] theorem getCtx_setLane (s : State) (l : Nat) (x : Lane) (y0 : Nat) : getCtx (setLane s l x) y0 = getCtx s y0 := rfl
@[simp] theorem getDram_setLane (s : State) (l : Nat) (x : Lane) (y0 : Nat) : getDram (setLane s l x) y0 = getDram s y0 := rfl
@[simp] theorem getGroup_setLane (s : State) (l : Nat) (x : Lane) (y0 : Nat) : getGroup (setLane s l x) y0 = getGroup s y0 := rfl
@[simp] theorem getDom_setLane (s : State) (l : Nat) (x : Lane) (y0 : Nat) : getDom (setLane s l x) y0 = getDom s y0 := rfl
@[simp] theorem getInput_setLane (s : State) (l : Nat) (x : Lane) (y0 : Nat) : getInput (setLane s l x) y0 = getInput s y0 := rfl
@[simp] theorem getCk_setLane (s : State) (l : Nat) (x : Lane) (y0 : Nat) : getCk (setLane s l x) y0 = getCk s y0 := rfl
@[simp] theorem regWord_setLane (s : State) (l : Nat) (x : Lane) (key : Nat) : regWord (setLane s l x) key = regWord s key := rfl

@[simp] theorem getKey_setKey_self (s : State) (k : Nat) (x : Option KeyRec) : getKey (setKey s k x) k = x := Tbl.get_set_self ..
theorem getKey_setKey_ne (s : State) (k : Nat) (x : Option KeyRec) {j : Nat} (h : j ≠ k) : getKey (setKey s k x) j = getKey s j := Tbl.get_set_ne _ _ _ h
theorem getKey_setKey (s : State) (k : Nat) (x : Option KeyRec) (j : Nat) : getKey (setKey s k x) j = if j = k then x else getKey s j := Tbl.get_set ..
@[simp] theorem getDie_setKey (s : State) (k : Nat) (x : Option KeyRec) (y0 : Nat) : getDie (setKey s k x) y0 = getDie s y0 := rfl
@[simp] theorem getChan_setKey (s : State) (k : Nat) (x : Option KeyRec) (y0 : Nat) : getChan (setKey s k x) y0 = getChan s y0 := rfl
@[simp] theorem getSlot_setKey (s : State) (k : Nat) (x : Option KeyRec) (y0 : Nat) : getSlot (setKey s k x) y0 = getSlot s y0 := rfl
@[simp] theorem getReq_setKey (s : State) (k : Nat) (x : Option KeyRec) (y0 : Nat) : getReq (setKey s k x) y0 = getReq s y0 := rfl
@[simp] theorem getBuf_setKey (s : State) (k : Nat) (x : Option KeyRec) (y0 : Nat) : getBuf (setKey s k x) y0 = getBuf s y0 := rfl
@[simp] theorem getBody_setKey (s : State) (k : Nat) (x : Option KeyRec) (y0 : Nat) : getBody (setKey s k x) y0 = getBody s y0 := rfl
@[simp] theorem getNs_setKey (s : State) (k : Nat) (x : Option KeyRec) (y0 : Nat) : getNs (setKey s k x) y0 = getNs s y0 := rfl
@[simp] theorem getZone_setKey (s : State) (k : Nat) (x : Option KeyRec) (y0 y1 : Nat) : getZone (setKey s k x) y0 y1 = getZone s y0 y1 := rfl
@[simp] theorem getSlab_setKey (s : State) (k : Nat) (x : Option KeyRec) (y0 : Nat) : getSlab (setKey s k x) y0 = getSlab s y0 := rfl
@[simp] theorem getCourse_setKey (s : State) (k : Nat) (x : Option KeyRec) (y0 : Nat) : getCourse (setKey s k x) y0 = getCourse s y0 := rfl
@[simp] theorem getDomain_setKey (s : State) (k : Nat) (x : Option KeyRec) (y0 y1 : Nat) : getDomain (setKey s k x) y0 y1 = getDomain s y0 y1 := rfl
@[simp] theorem getDev_setKey (s : State) (k : Nat) (x : Option KeyRec) (y0 : Nat) : getDev (setKey s k x) y0 = getDev s y0 := rfl
@[simp] theorem getLPort_setKey (s : State) (k : Nat) (x : Option KeyRec) (y0 : Nat) : getLPort (setKey s k x) y0 = getLPort s y0 := rfl
@[simp] theorem getQp_setKey (s : State) (k : Nat) (x : Option KeyRec) (y0 : Nat) : getQp (setKey s k x) y0 = getQp s y0 := rfl
@[simp] theorem getFunc_setKey (s : State) (k : Nat) (x : Option KeyRec) (y0 : Nat) : getFunc (setKey s k x) y0 = getFunc s y0 := rfl
@[simp] theorem getTen_setKey (s : State) (k : Nat) (x : Option KeyRec) (y0 : Nat) : getTen (setKey s k x) y0 = getTen s y0 := rfl
@[simp] theorem getLane_setKey (s : State) (k : Nat) (x : Option KeyRec) (y0 : Nat) : getLane (setKey s k x) y0 = getLane s y0 := rfl
@[simp] theorem getCtx_setKey (s : State) (k : Nat) (x : Option KeyRec) (y0 : Nat) : getCtx (setKey s k x) y0 = getCtx s y0 := rfl
@[simp] theorem getDram_setKey (s : State) (k : Nat) (x : Option KeyRec) (y0 : Nat) : getDram (setKey s k x) y0 = getDram s y0 := rfl
@[simp] theorem getGroup_setKey (s : State) (k : Nat) (x : Option KeyRec) (y0 : Nat) : getGroup (setKey s k x) y0 = getGroup s y0 := rfl
@[simp] theorem getDom_setKey (s : State) (k : Nat) (x : Option KeyRec) (y0 : Nat) : getDom (setKey s k x) y0 = getDom s y0 := rfl
@[simp] theorem getInput_setKey (s : State) (k : Nat) (x : Option KeyRec) (y0 : Nat) : getInput (setKey s k x) y0 = getInput s y0 := rfl
@[simp] theorem getCk_setKey (s : State) (k : Nat) (x : Option KeyRec) (y0 : Nat) : getCk (setKey s k x) y0 = getCk s y0 := rfl
@[simp] theorem regWord_setKey (s : State) (k : Nat) (x : Option KeyRec) (key : Nat) : regWord (setKey s k x) key = regWord s key := rfl

@[simp] theorem epochOf_setEpoch_self (s : State) (t : Nat) (e : W32) : epochOf (setEpoch s t e) t = e := Tbl.get_set_self ..
theorem epochOf_setEpoch_ne (s : State) (t : Nat) (e : W32) {j : Nat} (h : j ≠ t) : epochOf (setEpoch s t e) j = epochOf s j := Tbl.get_set_ne _ _ _ h
theorem epochOf_setEpoch (s : State) (t : Nat) (e : W32) (j : Nat) : epochOf (setEpoch s t e) j = if j = t then e else epochOf s j := Tbl.get_set ..
@[simp] theorem getDie_setEpoch (s : State) (t : Nat) (e : W32) (y0 : Nat) : getDie (setEpoch s t e) y0 = getDie s y0 := rfl
@[simp] theorem getChan_setEpoch (s : State) (t : Nat) (e : W32) (y0 : Nat) : getChan (setEpoch s t e) y0 = getChan s y0 := rfl
@[simp] theorem getSlot_setEpoch (s : State) (t : Nat) (e : W32) (y0 : Nat) : getSlot (setEpoch s t e) y0 = getSlot s y0 := rfl
@[simp] theorem getReq_setEpoch (s : State) (t : Nat) (e : W32) (y0 : Nat) : getReq (setEpoch s t e) y0 = getReq s y0 := rfl
@[simp] theorem getBuf_setEpoch (s : State) (t : Nat) (e : W32) (y0 : Nat) : getBuf (setEpoch s t e) y0 = getBuf s y0 := rfl
@[simp] theorem getBody_setEpoch (s : State) (t : Nat) (e : W32) (y0 : Nat) : getBody (setEpoch s t e) y0 = getBody s y0 := rfl
@[simp] theorem getNs_setEpoch (s : State) (t : Nat) (e : W32) (y0 : Nat) : getNs (setEpoch s t e) y0 = getNs s y0 := rfl
@[simp] theorem getZone_setEpoch (s : State) (t : Nat) (e : W32) (y0 y1 : Nat) : getZone (setEpoch s t e) y0 y1 = getZone s y0 y1 := rfl
@[simp] theorem getSlab_setEpoch (s : State) (t : Nat) (e : W32) (y0 : Nat) : getSlab (setEpoch s t e) y0 = getSlab s y0 := rfl
@[simp] theorem getCourse_setEpoch (s : State) (t : Nat) (e : W32) (y0 : Nat) : getCourse (setEpoch s t e) y0 = getCourse s y0 := rfl
@[simp] theorem getDomain_setEpoch (s : State) (t : Nat) (e : W32) (y0 y1 : Nat) : getDomain (setEpoch s t e) y0 y1 = getDomain s y0 y1 := rfl
@[simp] theorem getDev_setEpoch (s : State) (t : Nat) (e : W32) (y0 : Nat) : getDev (setEpoch s t e) y0 = getDev s y0 := rfl
@[simp] theorem getLPort_setEpoch (s : State) (t : Nat) (e : W32) (y0 : Nat) : getLPort (setEpoch s t e) y0 = getLPort s y0 := rfl
@[simp] theorem getQp_setEpoch (s : State) (t : Nat) (e : W32) (y0 : Nat) : getQp (setEpoch s t e) y0 = getQp s y0 := rfl
@[simp] theorem getFunc_setEpoch (s : State) (t : Nat) (e : W32) (y0 : Nat) : getFunc (setEpoch s t e) y0 = getFunc s y0 := rfl
@[simp] theorem getTen_setEpoch (s : State) (t : Nat) (e : W32) (y0 : Nat) : getTen (setEpoch s t e) y0 = getTen s y0 := rfl
@[simp] theorem getLane_setEpoch (s : State) (t : Nat) (e : W32) (y0 : Nat) : getLane (setEpoch s t e) y0 = getLane s y0 := rfl
@[simp] theorem getKey_setEpoch (s : State) (t : Nat) (e : W32) (y0 : Nat) : getKey (setEpoch s t e) y0 = getKey s y0 := rfl
@[simp] theorem getCtx_setEpoch (s : State) (t : Nat) (e : W32) (y0 : Nat) : getCtx (setEpoch s t e) y0 = getCtx s y0 := rfl
@[simp] theorem getDram_setEpoch (s : State) (t : Nat) (e : W32) (y0 : Nat) : getDram (setEpoch s t e) y0 = getDram s y0 := rfl
@[simp] theorem getGroup_setEpoch (s : State) (t : Nat) (e : W32) (y0 : Nat) : getGroup (setEpoch s t e) y0 = getGroup s y0 := rfl
@[simp] theorem getDom_setEpoch (s : State) (t : Nat) (e : W32) (y0 : Nat) : getDom (setEpoch s t e) y0 = getDom s y0 := rfl
@[simp] theorem getInput_setEpoch (s : State) (t : Nat) (e : W32) (y0 : Nat) : getInput (setEpoch s t e) y0 = getInput s y0 := rfl
@[simp] theorem getCk_setEpoch (s : State) (t : Nat) (e : W32) (y0 : Nat) : getCk (setEpoch s t e) y0 = getCk s y0 := rfl
@[simp] theorem regWord_setEpoch (s : State) (t : Nat) (e : W32) (key : Nat) : regWord (setEpoch s t e) key = regWord s key := rfl

@[simp] theorem getCtx_setCtx_self (s : State) (c : Nat) (x : AssayCtx) : getCtx (setCtx s c x) c = x := Tbl.get_set_self ..
theorem getCtx_setCtx_ne (s : State) (c : Nat) (x : AssayCtx) {j : Nat} (h : j ≠ c) : getCtx (setCtx s c x) j = getCtx s j := Tbl.get_set_ne _ _ _ h
theorem getCtx_setCtx (s : State) (c : Nat) (x : AssayCtx) (j : Nat) : getCtx (setCtx s c x) j = if j = c then x else getCtx s j := Tbl.get_set ..
@[simp] theorem getDie_setCtx (s : State) (c : Nat) (x : AssayCtx) (y0 : Nat) : getDie (setCtx s c x) y0 = getDie s y0 := rfl
@[simp] theorem getChan_setCtx (s : State) (c : Nat) (x : AssayCtx) (y0 : Nat) : getChan (setCtx s c x) y0 = getChan s y0 := rfl
@[simp] theorem getSlot_setCtx (s : State) (c : Nat) (x : AssayCtx) (y0 : Nat) : getSlot (setCtx s c x) y0 = getSlot s y0 := rfl
@[simp] theorem getReq_setCtx (s : State) (c : Nat) (x : AssayCtx) (y0 : Nat) : getReq (setCtx s c x) y0 = getReq s y0 := rfl
@[simp] theorem getBuf_setCtx (s : State) (c : Nat) (x : AssayCtx) (y0 : Nat) : getBuf (setCtx s c x) y0 = getBuf s y0 := rfl
@[simp] theorem getBody_setCtx (s : State) (c : Nat) (x : AssayCtx) (y0 : Nat) : getBody (setCtx s c x) y0 = getBody s y0 := rfl
@[simp] theorem getNs_setCtx (s : State) (c : Nat) (x : AssayCtx) (y0 : Nat) : getNs (setCtx s c x) y0 = getNs s y0 := rfl
@[simp] theorem getZone_setCtx (s : State) (c : Nat) (x : AssayCtx) (y0 y1 : Nat) : getZone (setCtx s c x) y0 y1 = getZone s y0 y1 := rfl
@[simp] theorem getSlab_setCtx (s : State) (c : Nat) (x : AssayCtx) (y0 : Nat) : getSlab (setCtx s c x) y0 = getSlab s y0 := rfl
@[simp] theorem getCourse_setCtx (s : State) (c : Nat) (x : AssayCtx) (y0 : Nat) : getCourse (setCtx s c x) y0 = getCourse s y0 := rfl
@[simp] theorem getDomain_setCtx (s : State) (c : Nat) (x : AssayCtx) (y0 y1 : Nat) : getDomain (setCtx s c x) y0 y1 = getDomain s y0 y1 := rfl
@[simp] theorem getDev_setCtx (s : State) (c : Nat) (x : AssayCtx) (y0 : Nat) : getDev (setCtx s c x) y0 = getDev s y0 := rfl
@[simp] theorem getLPort_setCtx (s : State) (c : Nat) (x : AssayCtx) (y0 : Nat) : getLPort (setCtx s c x) y0 = getLPort s y0 := rfl
@[simp] theorem getQp_setCtx (s : State) (c : Nat) (x : AssayCtx) (y0 : Nat) : getQp (setCtx s c x) y0 = getQp s y0 := rfl
@[simp] theorem getFunc_setCtx (s : State) (c : Nat) (x : AssayCtx) (y0 : Nat) : getFunc (setCtx s c x) y0 = getFunc s y0 := rfl
@[simp] theorem getTen_setCtx (s : State) (c : Nat) (x : AssayCtx) (y0 : Nat) : getTen (setCtx s c x) y0 = getTen s y0 := rfl
@[simp] theorem getLane_setCtx (s : State) (c : Nat) (x : AssayCtx) (y0 : Nat) : getLane (setCtx s c x) y0 = getLane s y0 := rfl
@[simp] theorem getKey_setCtx (s : State) (c : Nat) (x : AssayCtx) (y0 : Nat) : getKey (setCtx s c x) y0 = getKey s y0 := rfl
@[simp] theorem getDram_setCtx (s : State) (c : Nat) (x : AssayCtx) (y0 : Nat) : getDram (setCtx s c x) y0 = getDram s y0 := rfl
@[simp] theorem getGroup_setCtx (s : State) (c : Nat) (x : AssayCtx) (y0 : Nat) : getGroup (setCtx s c x) y0 = getGroup s y0 := rfl
@[simp] theorem getDom_setCtx (s : State) (c : Nat) (x : AssayCtx) (y0 : Nat) : getDom (setCtx s c x) y0 = getDom s y0 := rfl
@[simp] theorem getInput_setCtx (s : State) (c : Nat) (x : AssayCtx) (y0 : Nat) : getInput (setCtx s c x) y0 = getInput s y0 := rfl
@[simp] theorem getCk_setCtx (s : State) (c : Nat) (x : AssayCtx) (y0 : Nat) : getCk (setCtx s c x) y0 = getCk s y0 := rfl
@[simp] theorem regWord_setCtx (s : State) (c : Nat) (x : AssayCtx) (key : Nat) : regWord (setCtx s c x) key = regWord s key := rfl

@[simp] theorem getDram_setDram_self (s : State) (c : Nat) (x : DramCh) : getDram (setDram s c x) c = x := Tbl.get_set_self ..
theorem getDram_setDram_ne (s : State) (c : Nat) (x : DramCh) {j : Nat} (h : j ≠ c) : getDram (setDram s c x) j = getDram s j := Tbl.get_set_ne _ _ _ h
theorem getDram_setDram (s : State) (c : Nat) (x : DramCh) (j : Nat) : getDram (setDram s c x) j = if j = c then x else getDram s j := Tbl.get_set ..
@[simp] theorem getDie_setDram (s : State) (c : Nat) (x : DramCh) (y0 : Nat) : getDie (setDram s c x) y0 = getDie s y0 := rfl
@[simp] theorem getChan_setDram (s : State) (c : Nat) (x : DramCh) (y0 : Nat) : getChan (setDram s c x) y0 = getChan s y0 := rfl
@[simp] theorem getSlot_setDram (s : State) (c : Nat) (x : DramCh) (y0 : Nat) : getSlot (setDram s c x) y0 = getSlot s y0 := rfl
@[simp] theorem getReq_setDram (s : State) (c : Nat) (x : DramCh) (y0 : Nat) : getReq (setDram s c x) y0 = getReq s y0 := rfl
@[simp] theorem getBuf_setDram (s : State) (c : Nat) (x : DramCh) (y0 : Nat) : getBuf (setDram s c x) y0 = getBuf s y0 := rfl
@[simp] theorem getBody_setDram (s : State) (c : Nat) (x : DramCh) (y0 : Nat) : getBody (setDram s c x) y0 = getBody s y0 := rfl
@[simp] theorem getNs_setDram (s : State) (c : Nat) (x : DramCh) (y0 : Nat) : getNs (setDram s c x) y0 = getNs s y0 := rfl
@[simp] theorem getZone_setDram (s : State) (c : Nat) (x : DramCh) (y0 y1 : Nat) : getZone (setDram s c x) y0 y1 = getZone s y0 y1 := rfl
@[simp] theorem getSlab_setDram (s : State) (c : Nat) (x : DramCh) (y0 : Nat) : getSlab (setDram s c x) y0 = getSlab s y0 := rfl
@[simp] theorem getCourse_setDram (s : State) (c : Nat) (x : DramCh) (y0 : Nat) : getCourse (setDram s c x) y0 = getCourse s y0 := rfl
@[simp] theorem getDomain_setDram (s : State) (c : Nat) (x : DramCh) (y0 y1 : Nat) : getDomain (setDram s c x) y0 y1 = getDomain s y0 y1 := rfl
@[simp] theorem getDev_setDram (s : State) (c : Nat) (x : DramCh) (y0 : Nat) : getDev (setDram s c x) y0 = getDev s y0 := rfl
@[simp] theorem getLPort_setDram (s : State) (c : Nat) (x : DramCh) (y0 : Nat) : getLPort (setDram s c x) y0 = getLPort s y0 := rfl
@[simp] theorem getQp_setDram (s : State) (c : Nat) (x : DramCh) (y0 : Nat) : getQp (setDram s c x) y0 = getQp s y0 := rfl
@[simp] theorem getFunc_setDram (s : State) (c : Nat) (x : DramCh) (y0 : Nat) : getFunc (setDram s c x) y0 = getFunc s y0 := rfl
@[simp] theorem getTen_setDram (s : State) (c : Nat) (x : DramCh) (y0 : Nat) : getTen (setDram s c x) y0 = getTen s y0 := rfl
@[simp] theorem getLane_setDram (s : State) (c : Nat) (x : DramCh) (y0 : Nat) : getLane (setDram s c x) y0 = getLane s y0 := rfl
@[simp] theorem getKey_setDram (s : State) (c : Nat) (x : DramCh) (y0 : Nat) : getKey (setDram s c x) y0 = getKey s y0 := rfl
@[simp] theorem getCtx_setDram (s : State) (c : Nat) (x : DramCh) (y0 : Nat) : getCtx (setDram s c x) y0 = getCtx s y0 := rfl
@[simp] theorem getGroup_setDram (s : State) (c : Nat) (x : DramCh) (y0 : Nat) : getGroup (setDram s c x) y0 = getGroup s y0 := rfl
@[simp] theorem getDom_setDram (s : State) (c : Nat) (x : DramCh) (y0 : Nat) : getDom (setDram s c x) y0 = getDom s y0 := rfl
@[simp] theorem getInput_setDram (s : State) (c : Nat) (x : DramCh) (y0 : Nat) : getInput (setDram s c x) y0 = getInput s y0 := rfl
@[simp] theorem getCk_setDram (s : State) (c : Nat) (x : DramCh) (y0 : Nat) : getCk (setDram s c x) y0 = getCk s y0 := rfl
@[simp] theorem regWord_setDram (s : State) (c : Nat) (x : DramCh) (key : Nat) : regWord (setDram s c x) key = regWord s key := rfl

@[simp] theorem getGroup_setGroup_self (s : State) (g : Nat) (x : BankGroup) : getGroup (setGroup s g x) g = x := Tbl.get_set_self ..
theorem getGroup_setGroup_ne (s : State) (g : Nat) (x : BankGroup) {j : Nat} (h : j ≠ g) : getGroup (setGroup s g x) j = getGroup s j := Tbl.get_set_ne _ _ _ h
theorem getGroup_setGroup (s : State) (g : Nat) (x : BankGroup) (j : Nat) : getGroup (setGroup s g x) j = if j = g then x else getGroup s j := Tbl.get_set ..
@[simp] theorem getDie_setGroup (s : State) (g : Nat) (x : BankGroup) (y0 : Nat) : getDie (setGroup s g x) y0 = getDie s y0 := rfl
@[simp] theorem getChan_setGroup (s : State) (g : Nat) (x : BankGroup) (y0 : Nat) : getChan (setGroup s g x) y0 = getChan s y0 := rfl
@[simp] theorem getSlot_setGroup (s : State) (g : Nat) (x : BankGroup) (y0 : Nat) : getSlot (setGroup s g x) y0 = getSlot s y0 := rfl
@[simp] theorem getReq_setGroup (s : State) (g : Nat) (x : BankGroup) (y0 : Nat) : getReq (setGroup s g x) y0 = getReq s y0 := rfl
@[simp] theorem getBuf_setGroup (s : State) (g : Nat) (x : BankGroup) (y0 : Nat) : getBuf (setGroup s g x) y0 = getBuf s y0 := rfl
@[simp] theorem getBody_setGroup (s : State) (g : Nat) (x : BankGroup) (y0 : Nat) : getBody (setGroup s g x) y0 = getBody s y0 := rfl
@[simp] theorem getNs_setGroup (s : State) (g : Nat) (x : BankGroup) (y0 : Nat) : getNs (setGroup s g x) y0 = getNs s y0 := rfl
@[simp] theorem getZone_setGroup (s : State) (g : Nat) (x : BankGroup) (y0 y1 : Nat) : getZone (setGroup s g x) y0 y1 = getZone s y0 y1 := rfl
@[simp] theorem getSlab_setGroup (s : State) (g : Nat) (x : BankGroup) (y0 : Nat) : getSlab (setGroup s g x) y0 = getSlab s y0 := rfl
@[simp] theorem getCourse_setGroup (s : State) (g : Nat) (x : BankGroup) (y0 : Nat) : getCourse (setGroup s g x) y0 = getCourse s y0 := rfl
@[simp] theorem getDomain_setGroup (s : State) (g : Nat) (x : BankGroup) (y0 y1 : Nat) : getDomain (setGroup s g x) y0 y1 = getDomain s y0 y1 := rfl
@[simp] theorem getDev_setGroup (s : State) (g : Nat) (x : BankGroup) (y0 : Nat) : getDev (setGroup s g x) y0 = getDev s y0 := rfl
@[simp] theorem getLPort_setGroup (s : State) (g : Nat) (x : BankGroup) (y0 : Nat) : getLPort (setGroup s g x) y0 = getLPort s y0 := rfl
@[simp] theorem getQp_setGroup (s : State) (g : Nat) (x : BankGroup) (y0 : Nat) : getQp (setGroup s g x) y0 = getQp s y0 := rfl
@[simp] theorem getFunc_setGroup (s : State) (g : Nat) (x : BankGroup) (y0 : Nat) : getFunc (setGroup s g x) y0 = getFunc s y0 := rfl
@[simp] theorem getTen_setGroup (s : State) (g : Nat) (x : BankGroup) (y0 : Nat) : getTen (setGroup s g x) y0 = getTen s y0 := rfl
@[simp] theorem getLane_setGroup (s : State) (g : Nat) (x : BankGroup) (y0 : Nat) : getLane (setGroup s g x) y0 = getLane s y0 := rfl
@[simp] theorem getKey_setGroup (s : State) (g : Nat) (x : BankGroup) (y0 : Nat) : getKey (setGroup s g x) y0 = getKey s y0 := rfl
@[simp] theorem getCtx_setGroup (s : State) (g : Nat) (x : BankGroup) (y0 : Nat) : getCtx (setGroup s g x) y0 = getCtx s y0 := rfl
@[simp] theorem getDram_setGroup (s : State) (g : Nat) (x : BankGroup) (y0 : Nat) : getDram (setGroup s g x) y0 = getDram s y0 := rfl
@[simp] theorem getDom_setGroup (s : State) (g : Nat) (x : BankGroup) (y0 : Nat) : getDom (setGroup s g x) y0 = getDom s y0 := rfl
@[simp] theorem getInput_setGroup (s : State) (g : Nat) (x : BankGroup) (y0 : Nat) : getInput (setGroup s g x) y0 = getInput s y0 := rfl
@[simp] theorem getCk_setGroup (s : State) (g : Nat) (x : BankGroup) (y0 : Nat) : getCk (setGroup s g x) y0 = getCk s y0 := rfl
@[simp] theorem regWord_setGroup (s : State) (g : Nat) (x : BankGroup) (key : Nat) : regWord (setGroup s g x) key = regWord s key := rfl

@[simp] theorem getDom_setDom_self (s : State) (d : Nat) (x : Dom) : getDom (setDom s d x) d = x := Tbl.get_set_self ..
theorem getDom_setDom_ne (s : State) (d : Nat) (x : Dom) {j : Nat} (h : j ≠ d) : getDom (setDom s d x) j = getDom s j := Tbl.get_set_ne _ _ _ h
theorem getDom_setDom (s : State) (d : Nat) (x : Dom) (j : Nat) : getDom (setDom s d x) j = if j = d then x else getDom s j := Tbl.get_set ..
@[simp] theorem getDie_setDom (s : State) (d : Nat) (x : Dom) (y0 : Nat) : getDie (setDom s d x) y0 = getDie s y0 := rfl
@[simp] theorem getChan_setDom (s : State) (d : Nat) (x : Dom) (y0 : Nat) : getChan (setDom s d x) y0 = getChan s y0 := rfl
@[simp] theorem getSlot_setDom (s : State) (d : Nat) (x : Dom) (y0 : Nat) : getSlot (setDom s d x) y0 = getSlot s y0 := rfl
@[simp] theorem getReq_setDom (s : State) (d : Nat) (x : Dom) (y0 : Nat) : getReq (setDom s d x) y0 = getReq s y0 := rfl
@[simp] theorem getBuf_setDom (s : State) (d : Nat) (x : Dom) (y0 : Nat) : getBuf (setDom s d x) y0 = getBuf s y0 := rfl
@[simp] theorem getBody_setDom (s : State) (d : Nat) (x : Dom) (y0 : Nat) : getBody (setDom s d x) y0 = getBody s y0 := rfl
@[simp] theorem getNs_setDom (s : State) (d : Nat) (x : Dom) (y0 : Nat) : getNs (setDom s d x) y0 = getNs s y0 := rfl
@[simp] theorem getZone_setDom (s : State) (d : Nat) (x : Dom) (y0 y1 : Nat) : getZone (setDom s d x) y0 y1 = getZone s y0 y1 := rfl
@[simp] theorem getSlab_setDom (s : State) (d : Nat) (x : Dom) (y0 : Nat) : getSlab (setDom s d x) y0 = getSlab s y0 := rfl
@[simp] theorem getCourse_setDom (s : State) (d : Nat) (x : Dom) (y0 : Nat) : getCourse (setDom s d x) y0 = getCourse s y0 := rfl
@[simp] theorem getDomain_setDom (s : State) (d : Nat) (x : Dom) (y0 y1 : Nat) : getDomain (setDom s d x) y0 y1 = getDomain s y0 y1 := rfl
@[simp] theorem getDev_setDom (s : State) (d : Nat) (x : Dom) (y0 : Nat) : getDev (setDom s d x) y0 = getDev s y0 := rfl
@[simp] theorem getLPort_setDom (s : State) (d : Nat) (x : Dom) (y0 : Nat) : getLPort (setDom s d x) y0 = getLPort s y0 := rfl
@[simp] theorem getQp_setDom (s : State) (d : Nat) (x : Dom) (y0 : Nat) : getQp (setDom s d x) y0 = getQp s y0 := rfl
@[simp] theorem getFunc_setDom (s : State) (d : Nat) (x : Dom) (y0 : Nat) : getFunc (setDom s d x) y0 = getFunc s y0 := rfl
@[simp] theorem getTen_setDom (s : State) (d : Nat) (x : Dom) (y0 : Nat) : getTen (setDom s d x) y0 = getTen s y0 := rfl
@[simp] theorem getLane_setDom (s : State) (d : Nat) (x : Dom) (y0 : Nat) : getLane (setDom s d x) y0 = getLane s y0 := rfl
@[simp] theorem getKey_setDom (s : State) (d : Nat) (x : Dom) (y0 : Nat) : getKey (setDom s d x) y0 = getKey s y0 := rfl
@[simp] theorem getCtx_setDom (s : State) (d : Nat) (x : Dom) (y0 : Nat) : getCtx (setDom s d x) y0 = getCtx s y0 := rfl
@[simp] theorem getDram_setDom (s : State) (d : Nat) (x : Dom) (y0 : Nat) : getDram (setDom s d x) y0 = getDram s y0 := rfl
@[simp] theorem getGroup_setDom (s : State) (d : Nat) (x : Dom) (y0 : Nat) : getGroup (setDom s d x) y0 = getGroup s y0 := rfl
@[simp] theorem getInput_setDom (s : State) (d : Nat) (x : Dom) (y0 : Nat) : getInput (setDom s d x) y0 = getInput s y0 := rfl
@[simp] theorem getCk_setDom (s : State) (d : Nat) (x : Dom) (y0 : Nat) : getCk (setDom s d x) y0 = getCk s y0 := rfl
@[simp] theorem regWord_setDom (s : State) (d : Nat) (x : Dom) (key : Nat) : regWord (setDom s d x) key = regWord s key := rfl

@[simp] theorem getInput_setInput_self (s : State) (k : Nat) (x : HkInput) : getInput (setInput s k x) k = x := Tbl.get_set_self ..
theorem getInput_setInput_ne (s : State) (k : Nat) (x : HkInput) {j : Nat} (h : j ≠ k) : getInput (setInput s k x) j = getInput s j := Tbl.get_set_ne _ _ _ h
theorem getInput_setInput (s : State) (k : Nat) (x : HkInput) (j : Nat) : getInput (setInput s k x) j = if j = k then x else getInput s j := Tbl.get_set ..
@[simp] theorem getDie_setInput (s : State) (k : Nat) (x : HkInput) (y0 : Nat) : getDie (setInput s k x) y0 = getDie s y0 := rfl
@[simp] theorem getChan_setInput (s : State) (k : Nat) (x : HkInput) (y0 : Nat) : getChan (setInput s k x) y0 = getChan s y0 := rfl
@[simp] theorem getSlot_setInput (s : State) (k : Nat) (x : HkInput) (y0 : Nat) : getSlot (setInput s k x) y0 = getSlot s y0 := rfl
@[simp] theorem getReq_setInput (s : State) (k : Nat) (x : HkInput) (y0 : Nat) : getReq (setInput s k x) y0 = getReq s y0 := rfl
@[simp] theorem getBuf_setInput (s : State) (k : Nat) (x : HkInput) (y0 : Nat) : getBuf (setInput s k x) y0 = getBuf s y0 := rfl
@[simp] theorem getBody_setInput (s : State) (k : Nat) (x : HkInput) (y0 : Nat) : getBody (setInput s k x) y0 = getBody s y0 := rfl
@[simp] theorem getNs_setInput (s : State) (k : Nat) (x : HkInput) (y0 : Nat) : getNs (setInput s k x) y0 = getNs s y0 := rfl
@[simp] theorem getZone_setInput (s : State) (k : Nat) (x : HkInput) (y0 y1 : Nat) : getZone (setInput s k x) y0 y1 = getZone s y0 y1 := rfl
@[simp] theorem getSlab_setInput (s : State) (k : Nat) (x : HkInput) (y0 : Nat) : getSlab (setInput s k x) y0 = getSlab s y0 := rfl
@[simp] theorem getCourse_setInput (s : State) (k : Nat) (x : HkInput) (y0 : Nat) : getCourse (setInput s k x) y0 = getCourse s y0 := rfl
@[simp] theorem getDomain_setInput (s : State) (k : Nat) (x : HkInput) (y0 y1 : Nat) : getDomain (setInput s k x) y0 y1 = getDomain s y0 y1 := rfl
@[simp] theorem getDev_setInput (s : State) (k : Nat) (x : HkInput) (y0 : Nat) : getDev (setInput s k x) y0 = getDev s y0 := rfl
@[simp] theorem getLPort_setInput (s : State) (k : Nat) (x : HkInput) (y0 : Nat) : getLPort (setInput s k x) y0 = getLPort s y0 := rfl
@[simp] theorem getQp_setInput (s : State) (k : Nat) (x : HkInput) (y0 : Nat) : getQp (setInput s k x) y0 = getQp s y0 := rfl
@[simp] theorem getFunc_setInput (s : State) (k : Nat) (x : HkInput) (y0 : Nat) : getFunc (setInput s k x) y0 = getFunc s y0 := rfl
@[simp] theorem getTen_setInput (s : State) (k : Nat) (x : HkInput) (y0 : Nat) : getTen (setInput s k x) y0 = getTen s y0 := rfl
@[simp] theorem getLane_setInput (s : State) (k : Nat) (x : HkInput) (y0 : Nat) : getLane (setInput s k x) y0 = getLane s y0 := rfl
@[simp] theorem getKey_setInput (s : State) (k : Nat) (x : HkInput) (y0 : Nat) : getKey (setInput s k x) y0 = getKey s y0 := rfl
@[simp] theorem getCtx_setInput (s : State) (k : Nat) (x : HkInput) (y0 : Nat) : getCtx (setInput s k x) y0 = getCtx s y0 := rfl
@[simp] theorem getDram_setInput (s : State) (k : Nat) (x : HkInput) (y0 : Nat) : getDram (setInput s k x) y0 = getDram s y0 := rfl
@[simp] theorem getGroup_setInput (s : State) (k : Nat) (x : HkInput) (y0 : Nat) : getGroup (setInput s k x) y0 = getGroup s y0 := rfl
@[simp] theorem getDom_setInput (s : State) (k : Nat) (x : HkInput) (y0 : Nat) : getDom (setInput s k x) y0 = getDom s y0 := rfl
@[simp] theorem getCk_setInput (s : State) (k : Nat) (x : HkInput) (y0 : Nat) : getCk (setInput s k x) y0 = getCk s y0 := rfl
@[simp] theorem regWord_setInput (s : State) (k : Nat) (x : HkInput) (key : Nat) : regWord (setInput s k x) key = regWord s key := rfl

@[simp] theorem getCk_setCk_self (s : State) (p : Nat) (x : CkPort) : getCk (setCk s p x) p = x := Tbl.get_set_self ..
theorem getCk_setCk_ne (s : State) (p : Nat) (x : CkPort) {j : Nat} (h : j ≠ p) : getCk (setCk s p x) j = getCk s j := Tbl.get_set_ne _ _ _ h
theorem getCk_setCk (s : State) (p : Nat) (x : CkPort) (j : Nat) : getCk (setCk s p x) j = if j = p then x else getCk s j := Tbl.get_set ..
@[simp] theorem getDie_setCk (s : State) (p : Nat) (x : CkPort) (y0 : Nat) : getDie (setCk s p x) y0 = getDie s y0 := rfl
@[simp] theorem getChan_setCk (s : State) (p : Nat) (x : CkPort) (y0 : Nat) : getChan (setCk s p x) y0 = getChan s y0 := rfl
@[simp] theorem getSlot_setCk (s : State) (p : Nat) (x : CkPort) (y0 : Nat) : getSlot (setCk s p x) y0 = getSlot s y0 := rfl
@[simp] theorem getReq_setCk (s : State) (p : Nat) (x : CkPort) (y0 : Nat) : getReq (setCk s p x) y0 = getReq s y0 := rfl
@[simp] theorem getBuf_setCk (s : State) (p : Nat) (x : CkPort) (y0 : Nat) : getBuf (setCk s p x) y0 = getBuf s y0 := rfl
@[simp] theorem getBody_setCk (s : State) (p : Nat) (x : CkPort) (y0 : Nat) : getBody (setCk s p x) y0 = getBody s y0 := rfl
@[simp] theorem getNs_setCk (s : State) (p : Nat) (x : CkPort) (y0 : Nat) : getNs (setCk s p x) y0 = getNs s y0 := rfl
@[simp] theorem getZone_setCk (s : State) (p : Nat) (x : CkPort) (y0 y1 : Nat) : getZone (setCk s p x) y0 y1 = getZone s y0 y1 := rfl
@[simp] theorem getSlab_setCk (s : State) (p : Nat) (x : CkPort) (y0 : Nat) : getSlab (setCk s p x) y0 = getSlab s y0 := rfl
@[simp] theorem getCourse_setCk (s : State) (p : Nat) (x : CkPort) (y0 : Nat) : getCourse (setCk s p x) y0 = getCourse s y0 := rfl
@[simp] theorem getDomain_setCk (s : State) (p : Nat) (x : CkPort) (y0 y1 : Nat) : getDomain (setCk s p x) y0 y1 = getDomain s y0 y1 := rfl
@[simp] theorem getDev_setCk (s : State) (p : Nat) (x : CkPort) (y0 : Nat) : getDev (setCk s p x) y0 = getDev s y0 := rfl
@[simp] theorem getLPort_setCk (s : State) (p : Nat) (x : CkPort) (y0 : Nat) : getLPort (setCk s p x) y0 = getLPort s y0 := rfl
@[simp] theorem getQp_setCk (s : State) (p : Nat) (x : CkPort) (y0 : Nat) : getQp (setCk s p x) y0 = getQp s y0 := rfl
@[simp] theorem getFunc_setCk (s : State) (p : Nat) (x : CkPort) (y0 : Nat) : getFunc (setCk s p x) y0 = getFunc s y0 := rfl
@[simp] theorem getTen_setCk (s : State) (p : Nat) (x : CkPort) (y0 : Nat) : getTen (setCk s p x) y0 = getTen s y0 := rfl
@[simp] theorem getLane_setCk (s : State) (p : Nat) (x : CkPort) (y0 : Nat) : getLane (setCk s p x) y0 = getLane s y0 := rfl
@[simp] theorem getKey_setCk (s : State) (p : Nat) (x : CkPort) (y0 : Nat) : getKey (setCk s p x) y0 = getKey s y0 := rfl
@[simp] theorem getCtx_setCk (s : State) (p : Nat) (x : CkPort) (y0 : Nat) : getCtx (setCk s p x) y0 = getCtx s y0 := rfl
@[simp] theorem getDram_setCk (s : State) (p : Nat) (x : CkPort) (y0 : Nat) : getDram (setCk s p x) y0 = getDram s y0 := rfl
@[simp] theorem getGroup_setCk (s : State) (p : Nat) (x : CkPort) (y0 : Nat) : getGroup (setCk s p x) y0 = getGroup s y0 := rfl
@[simp] theorem getDom_setCk (s : State) (p : Nat) (x : CkPort) (y0 : Nat) : getDom (setCk s p x) y0 = getDom s y0 := rfl
@[simp] theorem getInput_setCk (s : State) (p : Nat) (x : CkPort) (y0 : Nat) : getInput (setCk s p x) y0 = getInput s y0 := rfl
@[simp] theorem regWord_setCk (s : State) (p : Nat) (x : CkPort) (key : Nat) : regWord (setCk s p x) key = regWord s key := rfl

/-! ### setWord -/

@[simp] theorem setWord_pending (s : State) (key : Nat) (w : W32) : (setWord s key w).pending = s.pending := rfl
@[simp] theorem setWord_out (s : State) (key : Nat) (w : W32) : (setWord s key w).out = s.out := rfl
@[simp] theorem setWord_freeCtr (s : State) (key : Nat) (w : W32) : (setWord s key w).freeCtr = s.freeCtr := rfl
@[simp] theorem setWord_tb (s : State) (key : Nat) (w : W32) : (setWord s key w).tb = s.tb := rfl
@[simp] theorem setWord_fl (s : State) (key : Nat) (w : W32) : (setWord s key w).fl = s.fl := rfl
@[simp] theorem setWord_ord (s : State) (key : Nat) (w : W32) : (setWord s key w).ord = s.ord := rfl
@[simp] theorem setWord_med (s : State) (key : Nat) (w : W32) : (setWord s key w).med = s.med := rfl
@[simp] theorem setWord_port (s : State) (key : Nat) (w : W32) : (setWord s key w).port = s.port := rfl
@[simp] theorem setWord_ten (s : State) (key : Nat) (w : W32) : (setWord s key w).ten = s.ten := rfl
@[simp] theorem setWord_cph (s : State) (key : Nat) (w : W32) : (setWord s key w).cph = s.cph := rfl
@[simp] theorem setWord_asy (s : State) (key : Nat) (w : W32) : (setWord s key w).asy = s.asy := rfl
@[simp] theorem setWord_mem (s : State) (key : Nat) (w : W32) : (setWord s key w).mem = s.mem := rfl
@[simp] theorem setWord_pwr (s : State) (key : Nat) (w : W32) : (setWord s key w).pwr = s.pwr := rfl
@[simp] theorem setWord_blw (s : State) (key : Nat) (w : W32) : (setWord s key w).blw = s.blw := rfl
@[simp] theorem setWord_hkp (s : State) (key : Nat) (w : W32) : (setWord s key w).hkp = s.hkp := rfl
@[simp] theorem setWord_hm (s : State) (key : Nat) (w : W32) : (setWord s key w).hm = s.hm := rfl
@[simp] theorem setWord_wall (s : State) (key : Nat) (w : W32) : (setWord s key w).wall = s.wall := rfl
@[simp] theorem setWord_boot (s : State) (key : Nat) (w : W32) : (setWord s key w).boot = s.boot := rfl
@[simp] theorem setWord_reg_inForce (s : State) (key : Nat) (w : W32) : (setWord s key w).reg.inForce = s.reg.inForce := rfl
@[simp] theorem setWord_reg_capture (s : State) (key : Nat) (w : W32) : (setWord s key w).reg.capture = s.reg.capture := rfl
@[simp] theorem setWord_reg_staging (s : State) (key : Nat) (w : W32) : (setWord s key w).reg.staging = s.reg.staging := rfl
@[simp] theorem setWord_reg_rdData (s : State) (key : Nat) (w : W32) : (setWord s key w).reg.rdData = s.reg.rdData := rfl
@[simp] theorem getDie_setWord (s : State) (key : Nat) (w : W32) (y0 : Nat) : getDie (setWord s key w) y0 = getDie s y0 := rfl
@[simp] theorem getChan_setWord (s : State) (key : Nat) (w : W32) (y0 : Nat) : getChan (setWord s key w) y0 = getChan s y0 := rfl
@[simp] theorem getSlot_setWord (s : State) (key : Nat) (w : W32) (y0 : Nat) : getSlot (setWord s key w) y0 = getSlot s y0 := rfl
@[simp] theorem getReq_setWord (s : State) (key : Nat) (w : W32) (y0 : Nat) : getReq (setWord s key w) y0 = getReq s y0 := rfl
@[simp] theorem getBuf_setWord (s : State) (key : Nat) (w : W32) (y0 : Nat) : getBuf (setWord s key w) y0 = getBuf s y0 := rfl
@[simp] theorem getBody_setWord (s : State) (key : Nat) (w : W32) (y0 : Nat) : getBody (setWord s key w) y0 = getBody s y0 := rfl
@[simp] theorem getNs_setWord (s : State) (key : Nat) (w : W32) (y0 : Nat) : getNs (setWord s key w) y0 = getNs s y0 := rfl
@[simp] theorem getZone_setWord (s : State) (key : Nat) (w : W32) (y0 y1 : Nat) : getZone (setWord s key w) y0 y1 = getZone s y0 y1 := rfl
@[simp] theorem getSlab_setWord (s : State) (key : Nat) (w : W32) (y0 : Nat) : getSlab (setWord s key w) y0 = getSlab s y0 := rfl
@[simp] theorem getCourse_setWord (s : State) (key : Nat) (w : W32) (y0 : Nat) : getCourse (setWord s key w) y0 = getCourse s y0 := rfl
@[simp] theorem getDomain_setWord (s : State) (key : Nat) (w : W32) (y0 y1 : Nat) : getDomain (setWord s key w) y0 y1 = getDomain s y0 y1 := rfl
@[simp] theorem getDev_setWord (s : State) (key : Nat) (w : W32) (y0 : Nat) : getDev (setWord s key w) y0 = getDev s y0 := rfl
@[simp] theorem getLPort_setWord (s : State) (key : Nat) (w : W32) (y0 : Nat) : getLPort (setWord s key w) y0 = getLPort s y0 := rfl
@[simp] theorem getQp_setWord (s : State) (key : Nat) (w : W32) (y0 : Nat) : getQp (setWord s key w) y0 = getQp s y0 := rfl
@[simp] theorem getFunc_setWord (s : State) (key : Nat) (w : W32) (y0 : Nat) : getFunc (setWord s key w) y0 = getFunc s y0 := rfl
@[simp] theorem getTen_setWord (s : State) (key : Nat) (w : W32) (y0 : Nat) : getTen (setWord s key w) y0 = getTen s y0 := rfl
@[simp] theorem getLane_setWord (s : State) (key : Nat) (w : W32) (y0 : Nat) : getLane (setWord s key w) y0 = getLane s y0 := rfl
@[simp] theorem getKey_setWord (s : State) (key : Nat) (w : W32) (y0 : Nat) : getKey (setWord s key w) y0 = getKey s y0 := rfl
@[simp] theorem getCtx_setWord (s : State) (key : Nat) (w : W32) (y0 : Nat) : getCtx (setWord s key w) y0 = getCtx s y0 := rfl
@[simp] theorem getDram_setWord (s : State) (key : Nat) (w : W32) (y0 : Nat) : getDram (setWord s key w) y0 = getDram s y0 := rfl
@[simp] theorem getGroup_setWord (s : State) (key : Nat) (w : W32) (y0 : Nat) : getGroup (setWord s key w) y0 = getGroup s y0 := rfl
@[simp] theorem getDom_setWord (s : State) (key : Nat) (w : W32) (y0 : Nat) : getDom (setWord s key w) y0 = getDom s y0 := rfl
@[simp] theorem getInput_setWord (s : State) (key : Nat) (w : W32) (y0 : Nat) : getInput (setWord s key w) y0 = getInput s y0 := rfl
@[simp] theorem getCk_setWord (s : State) (key : Nat) (w : W32) (y0 : Nat) : getCk (setWord s key w) y0 = getCk s y0 := rfl

/-! ### wrAt -/

@[simp] theorem wrAt_pending (s : State) (f : Fld) (off sel v : Nat) : (wrAt s f off sel v).pending = s.pending := by rw [wrAt, setWord_pending]
@[simp] theorem wrAt_out (s : State) (f : Fld) (off sel v : Nat) : (wrAt s f off sel v).out = s.out := by rw [wrAt, setWord_out]
@[simp] theorem wrAt_freeCtr (s : State) (f : Fld) (off sel v : Nat) : (wrAt s f off sel v).freeCtr = s.freeCtr := by rw [wrAt, setWord_freeCtr]
@[simp] theorem wrAt_tb (s : State) (f : Fld) (off sel v : Nat) : (wrAt s f off sel v).tb = s.tb := by rw [wrAt, setWord_tb]
@[simp] theorem wrAt_fl (s : State) (f : Fld) (off sel v : Nat) : (wrAt s f off sel v).fl = s.fl := by rw [wrAt, setWord_fl]
@[simp] theorem wrAt_ord (s : State) (f : Fld) (off sel v : Nat) : (wrAt s f off sel v).ord = s.ord := by rw [wrAt, setWord_ord]
@[simp] theorem wrAt_med (s : State) (f : Fld) (off sel v : Nat) : (wrAt s f off sel v).med = s.med := by rw [wrAt, setWord_med]
@[simp] theorem wrAt_port (s : State) (f : Fld) (off sel v : Nat) : (wrAt s f off sel v).port = s.port := by rw [wrAt, setWord_port]
@[simp] theorem wrAt_ten (s : State) (f : Fld) (off sel v : Nat) : (wrAt s f off sel v).ten = s.ten := by rw [wrAt, setWord_ten]
@[simp] theorem wrAt_cph (s : State) (f : Fld) (off sel v : Nat) : (wrAt s f off sel v).cph = s.cph := by rw [wrAt, setWord_cph]
@[simp] theorem wrAt_asy (s : State) (f : Fld) (off sel v : Nat) : (wrAt s f off sel v).asy = s.asy := by rw [wrAt, setWord_asy]
@[simp] theorem wrAt_mem (s : State) (f : Fld) (off sel v : Nat) : (wrAt s f off sel v).mem = s.mem := by rw [wrAt, setWord_mem]
@[simp] theorem wrAt_pwr (s : State) (f : Fld) (off sel v : Nat) : (wrAt s f off sel v).pwr = s.pwr := by rw [wrAt, setWord_pwr]
@[simp] theorem wrAt_blw (s : State) (f : Fld) (off sel v : Nat) : (wrAt s f off sel v).blw = s.blw := by rw [wrAt, setWord_blw]
@[simp] theorem wrAt_hkp (s : State) (f : Fld) (off sel v : Nat) : (wrAt s f off sel v).hkp = s.hkp := by rw [wrAt, setWord_hkp]
@[simp] theorem wrAt_hm (s : State) (f : Fld) (off sel v : Nat) : (wrAt s f off sel v).hm = s.hm := by rw [wrAt, setWord_hm]
@[simp] theorem wrAt_wall (s : State) (f : Fld) (off sel v : Nat) : (wrAt s f off sel v).wall = s.wall := by rw [wrAt, setWord_wall]
@[simp] theorem wrAt_boot (s : State) (f : Fld) (off sel v : Nat) : (wrAt s f off sel v).boot = s.boot := by rw [wrAt, setWord_boot]
@[simp] theorem wrAt_reg_inForce (s : State) (f : Fld) (off sel v : Nat) : (wrAt s f off sel v).reg.inForce = s.reg.inForce := by rw [wrAt, setWord_reg_inForce]
@[simp] theorem wrAt_reg_capture (s : State) (f : Fld) (off sel v : Nat) : (wrAt s f off sel v).reg.capture = s.reg.capture := by rw [wrAt, setWord_reg_capture]
@[simp] theorem wrAt_reg_staging (s : State) (f : Fld) (off sel v : Nat) : (wrAt s f off sel v).reg.staging = s.reg.staging := by rw [wrAt, setWord_reg_staging]
@[simp] theorem wrAt_reg_rdData (s : State) (f : Fld) (off sel v : Nat) : (wrAt s f off sel v).reg.rdData = s.reg.rdData := by rw [wrAt, setWord_reg_rdData]
@[simp] theorem getDie_wrAt (s : State) (f : Fld) (off sel v : Nat) (y0 : Nat) : getDie (wrAt s f off sel v) y0 = getDie s y0 := by rw [wrAt, getDie_setWord]
@[simp] theorem getChan_wrAt (s : State) (f : Fld) (off sel v : Nat) (y0 : Nat) : getChan (wrAt s f off sel v) y0 = getChan s y0 := by rw [wrAt, getChan_setWord]
@[simp] theorem getSlot_wrAt (s : State) (f : Fld) (off sel v : Nat) (y0 : Nat) : getSlot (wrAt s f off sel v) y0 = getSlot s y0 := by rw [wrAt, getSlot_setWord]
@[simp] theorem getReq_wrAt (s : State) (f : Fld) (off sel v : Nat) (y0 : Nat) : getReq (wrAt s f off sel v) y0 = getReq s y0 := by rw [wrAt, getReq_setWord]
@[simp] theorem getBuf_wrAt (s : State) (f : Fld) (off sel v : Nat) (y0 : Nat) : getBuf (wrAt s f off sel v) y0 = getBuf s y0 := by rw [wrAt, getBuf_setWord]
@[simp] theorem getBody_wrAt (s : State) (f : Fld) (off sel v : Nat) (y0 : Nat) : getBody (wrAt s f off sel v) y0 = getBody s y0 := by rw [wrAt, getBody_setWord]
@[simp] theorem getNs_wrAt (s : State) (f : Fld) (off sel v : Nat) (y0 : Nat) : getNs (wrAt s f off sel v) y0 = getNs s y0 := by rw [wrAt, getNs_setWord]
@[simp] theorem getZone_wrAt (s : State) (f : Fld) (off sel v : Nat) (y0 y1 : Nat) : getZone (wrAt s f off sel v) y0 y1 = getZone s y0 y1 := by rw [wrAt, getZone_setWord]
@[simp] theorem getSlab_wrAt (s : State) (f : Fld) (off sel v : Nat) (y0 : Nat) : getSlab (wrAt s f off sel v) y0 = getSlab s y0 := by rw [wrAt, getSlab_setWord]
@[simp] theorem getCourse_wrAt (s : State) (f : Fld) (off sel v : Nat) (y0 : Nat) : getCourse (wrAt s f off sel v) y0 = getCourse s y0 := by rw [wrAt, getCourse_setWord]
@[simp] theorem getDomain_wrAt (s : State) (f : Fld) (off sel v : Nat) (y0 y1 : Nat) : getDomain (wrAt s f off sel v) y0 y1 = getDomain s y0 y1 := by rw [wrAt, getDomain_setWord]
@[simp] theorem getDev_wrAt (s : State) (f : Fld) (off sel v : Nat) (y0 : Nat) : getDev (wrAt s f off sel v) y0 = getDev s y0 := by rw [wrAt, getDev_setWord]
@[simp] theorem getLPort_wrAt (s : State) (f : Fld) (off sel v : Nat) (y0 : Nat) : getLPort (wrAt s f off sel v) y0 = getLPort s y0 := by rw [wrAt, getLPort_setWord]
@[simp] theorem getQp_wrAt (s : State) (f : Fld) (off sel v : Nat) (y0 : Nat) : getQp (wrAt s f off sel v) y0 = getQp s y0 := by rw [wrAt, getQp_setWord]
@[simp] theorem getFunc_wrAt (s : State) (f : Fld) (off sel v : Nat) (y0 : Nat) : getFunc (wrAt s f off sel v) y0 = getFunc s y0 := by rw [wrAt, getFunc_setWord]
@[simp] theorem getTen_wrAt (s : State) (f : Fld) (off sel v : Nat) (y0 : Nat) : getTen (wrAt s f off sel v) y0 = getTen s y0 := by rw [wrAt, getTen_setWord]
@[simp] theorem getLane_wrAt (s : State) (f : Fld) (off sel v : Nat) (y0 : Nat) : getLane (wrAt s f off sel v) y0 = getLane s y0 := by rw [wrAt, getLane_setWord]
@[simp] theorem getKey_wrAt (s : State) (f : Fld) (off sel v : Nat) (y0 : Nat) : getKey (wrAt s f off sel v) y0 = getKey s y0 := by rw [wrAt, getKey_setWord]
@[simp] theorem getCtx_wrAt (s : State) (f : Fld) (off sel v : Nat) (y0 : Nat) : getCtx (wrAt s f off sel v) y0 = getCtx s y0 := by rw [wrAt, getCtx_setWord]
@[simp] theorem getDram_wrAt (s : State) (f : Fld) (off sel v : Nat) (y0 : Nat) : getDram (wrAt s f off sel v) y0 = getDram s y0 := by rw [wrAt, getDram_setWord]
@[simp] theorem getGroup_wrAt (s : State) (f : Fld) (off sel v : Nat) (y0 : Nat) : getGroup (wrAt s f off sel v) y0 = getGroup s y0 := by rw [wrAt, getGroup_setWord]
@[simp] theorem getDom_wrAt (s : State) (f : Fld) (off sel v : Nat) (y0 : Nat) : getDom (wrAt s f off sel v) y0 = getDom s y0 := by rw [wrAt, getDom_setWord]
@[simp] theorem getInput_wrAt (s : State) (f : Fld) (off sel v : Nat) (y0 : Nat) : getInput (wrAt s f off sel v) y0 = getInput s y0 := by rw [wrAt, getInput_setWord]
@[simp] theorem getCk_wrAt (s : State) (f : Fld) (off sel v : Nat) (y0 : Nat) : getCk (wrAt s f off sel v) y0 = getCk s y0 := by rw [wrAt, getCk_setWord]

/-! ### wr -/

@[simp] theorem wr_pending (s : State) (f : Fld) (v : Nat) : (wr s f v).pending = s.pending := by rw [wr, wrAt_pending]
@[simp] theorem wr_out (s : State) (f : Fld) (v : Nat) : (wr s f v).out = s.out := by rw [wr, wrAt_out]
@[simp] theorem wr_freeCtr (s : State) (f : Fld) (v : Nat) : (wr s f v).freeCtr = s.freeCtr := by rw [wr, wrAt_freeCtr]
@[simp] theorem wr_tb (s : State) (f : Fld) (v : Nat) : (wr s f v).tb = s.tb := by rw [wr, wrAt_tb]
@[simp] theorem wr_fl (s : State) (f : Fld) (v : Nat) : (wr s f v).fl = s.fl := by rw [wr, wrAt_fl]
@[simp] theorem wr_ord (s : State) (f : Fld) (v : Nat) : (wr s f v).ord = s.ord := by rw [wr, wrAt_ord]
@[simp] theorem wr_med (s : State) (f : Fld) (v : Nat) : (wr s f v).med = s.med := by rw [wr, wrAt_med]
@[simp] theorem wr_port (s : State) (f : Fld) (v : Nat) : (wr s f v).port = s.port := by rw [wr, wrAt_port]
@[simp] theorem wr_ten (s : State) (f : Fld) (v : Nat) : (wr s f v).ten = s.ten := by rw [wr, wrAt_ten]
@[simp] theorem wr_cph (s : State) (f : Fld) (v : Nat) : (wr s f v).cph = s.cph := by rw [wr, wrAt_cph]
@[simp] theorem wr_asy (s : State) (f : Fld) (v : Nat) : (wr s f v).asy = s.asy := by rw [wr, wrAt_asy]
@[simp] theorem wr_mem (s : State) (f : Fld) (v : Nat) : (wr s f v).mem = s.mem := by rw [wr, wrAt_mem]
@[simp] theorem wr_pwr (s : State) (f : Fld) (v : Nat) : (wr s f v).pwr = s.pwr := by rw [wr, wrAt_pwr]
@[simp] theorem wr_blw (s : State) (f : Fld) (v : Nat) : (wr s f v).blw = s.blw := by rw [wr, wrAt_blw]
@[simp] theorem wr_hkp (s : State) (f : Fld) (v : Nat) : (wr s f v).hkp = s.hkp := by rw [wr, wrAt_hkp]
@[simp] theorem wr_hm (s : State) (f : Fld) (v : Nat) : (wr s f v).hm = s.hm := by rw [wr, wrAt_hm]
@[simp] theorem wr_wall (s : State) (f : Fld) (v : Nat) : (wr s f v).wall = s.wall := by rw [wr, wrAt_wall]
@[simp] theorem wr_boot (s : State) (f : Fld) (v : Nat) : (wr s f v).boot = s.boot := by rw [wr, wrAt_boot]
@[simp] theorem wr_reg_inForce (s : State) (f : Fld) (v : Nat) : (wr s f v).reg.inForce = s.reg.inForce := by rw [wr, wrAt_reg_inForce]
@[simp] theorem wr_reg_capture (s : State) (f : Fld) (v : Nat) : (wr s f v).reg.capture = s.reg.capture := by rw [wr, wrAt_reg_capture]
@[simp] theorem wr_reg_staging (s : State) (f : Fld) (v : Nat) : (wr s f v).reg.staging = s.reg.staging := by rw [wr, wrAt_reg_staging]
@[simp] theorem wr_reg_rdData (s : State) (f : Fld) (v : Nat) : (wr s f v).reg.rdData = s.reg.rdData := by rw [wr, wrAt_reg_rdData]
@[simp] theorem getDie_wr (s : State) (f : Fld) (v : Nat) (y0 : Nat) : getDie (wr s f v) y0 = getDie s y0 := by rw [wr, getDie_wrAt]
@[simp] theorem getChan_wr (s : State) (f : Fld) (v : Nat) (y0 : Nat) : getChan (wr s f v) y0 = getChan s y0 := by rw [wr, getChan_wrAt]
@[simp] theorem getSlot_wr (s : State) (f : Fld) (v : Nat) (y0 : Nat) : getSlot (wr s f v) y0 = getSlot s y0 := by rw [wr, getSlot_wrAt]
@[simp] theorem getReq_wr (s : State) (f : Fld) (v : Nat) (y0 : Nat) : getReq (wr s f v) y0 = getReq s y0 := by rw [wr, getReq_wrAt]
@[simp] theorem getBuf_wr (s : State) (f : Fld) (v : Nat) (y0 : Nat) : getBuf (wr s f v) y0 = getBuf s y0 := by rw [wr, getBuf_wrAt]
@[simp] theorem getBody_wr (s : State) (f : Fld) (v : Nat) (y0 : Nat) : getBody (wr s f v) y0 = getBody s y0 := by rw [wr, getBody_wrAt]
@[simp] theorem getNs_wr (s : State) (f : Fld) (v : Nat) (y0 : Nat) : getNs (wr s f v) y0 = getNs s y0 := by rw [wr, getNs_wrAt]
@[simp] theorem getZone_wr (s : State) (f : Fld) (v : Nat) (y0 y1 : Nat) : getZone (wr s f v) y0 y1 = getZone s y0 y1 := by rw [wr, getZone_wrAt]
@[simp] theorem getSlab_wr (s : State) (f : Fld) (v : Nat) (y0 : Nat) : getSlab (wr s f v) y0 = getSlab s y0 := by rw [wr, getSlab_wrAt]
@[simp] theorem getCourse_wr (s : State) (f : Fld) (v : Nat) (y0 : Nat) : getCourse (wr s f v) y0 = getCourse s y0 := by rw [wr, getCourse_wrAt]
@[simp] theorem getDomain_wr (s : State) (f : Fld) (v : Nat) (y0 y1 : Nat) : getDomain (wr s f v) y0 y1 = getDomain s y0 y1 := by rw [wr, getDomain_wrAt]
@[simp] theorem getDev_wr (s : State) (f : Fld) (v : Nat) (y0 : Nat) : getDev (wr s f v) y0 = getDev s y0 := by rw [wr, getDev_wrAt]
@[simp] theorem getLPort_wr (s : State) (f : Fld) (v : Nat) (y0 : Nat) : getLPort (wr s f v) y0 = getLPort s y0 := by rw [wr, getLPort_wrAt]
@[simp] theorem getQp_wr (s : State) (f : Fld) (v : Nat) (y0 : Nat) : getQp (wr s f v) y0 = getQp s y0 := by rw [wr, getQp_wrAt]
@[simp] theorem getFunc_wr (s : State) (f : Fld) (v : Nat) (y0 : Nat) : getFunc (wr s f v) y0 = getFunc s y0 := by rw [wr, getFunc_wrAt]
@[simp] theorem getTen_wr (s : State) (f : Fld) (v : Nat) (y0 : Nat) : getTen (wr s f v) y0 = getTen s y0 := by rw [wr, getTen_wrAt]
@[simp] theorem getLane_wr (s : State) (f : Fld) (v : Nat) (y0 : Nat) : getLane (wr s f v) y0 = getLane s y0 := by rw [wr, getLane_wrAt]
@[simp] theorem getKey_wr (s : State) (f : Fld) (v : Nat) (y0 : Nat) : getKey (wr s f v) y0 = getKey s y0 := by rw [wr, getKey_wrAt]
@[simp] theorem getCtx_wr (s : State) (f : Fld) (v : Nat) (y0 : Nat) : getCtx (wr s f v) y0 = getCtx s y0 := by rw [wr, getCtx_wrAt]
@[simp] theorem getDram_wr (s : State) (f : Fld) (v : Nat) (y0 : Nat) : getDram (wr s f v) y0 = getDram s y0 := by rw [wr, getDram_wrAt]
@[simp] theorem getGroup_wr (s : State) (f : Fld) (v : Nat) (y0 : Nat) : getGroup (wr s f v) y0 = getGroup s y0 := by rw [wr, getGroup_wrAt]
@[simp] theorem getDom_wr (s : State) (f : Fld) (v : Nat) (y0 : Nat) : getDom (wr s f v) y0 = getDom s y0 := by rw [wr, getDom_wrAt]
@[simp] theorem getInput_wr (s : State) (f : Fld) (v : Nat) (y0 : Nat) : getInput (wr s f v) y0 = getInput s y0 := by rw [wr, getInput_wrAt]
@[simp] theorem getCk_wr (s : State) (f : Fld) (v : Nat) (y0 : Nat) : getCk (wr s f v) y0 = getCk s y0 := by rw [wr, getCk_wrAt]

/-! ### bumpAt -/

@[simp] theorem bumpAt_pending (s : State) (f : Fld) (off sel n : Nat) : (bumpAt s f off sel n).pending = s.pending := by rw [bumpAt, wrAt_pending]
@[simp] theorem bumpAt_out (s : State) (f : Fld) (off sel n : Nat) : (bumpAt s f off sel n).out = s.out := by rw [bumpAt, wrAt_out]
@[simp] theorem bumpAt_freeCtr (s : State) (f : Fld) (off sel n : Nat) : (bumpAt s f off sel n).freeCtr = s.freeCtr := by rw [bumpAt, wrAt_freeCtr]
@[simp] theorem bumpAt_tb (s : State) (f : Fld) (off sel n : Nat) : (bumpAt s f off sel n).tb = s.tb := by rw [bumpAt, wrAt_tb]
@[simp] theorem bumpAt_fl (s : State) (f : Fld) (off sel n : Nat) : (bumpAt s f off sel n).fl = s.fl := by rw [bumpAt, wrAt_fl]
@[simp] theorem bumpAt_ord (s : State) (f : Fld) (off sel n : Nat) : (bumpAt s f off sel n).ord = s.ord := by rw [bumpAt, wrAt_ord]
@[simp] theorem bumpAt_med (s : State) (f : Fld) (off sel n : Nat) : (bumpAt s f off sel n).med = s.med := by rw [bumpAt, wrAt_med]
@[simp] theorem bumpAt_port (s : State) (f : Fld) (off sel n : Nat) : (bumpAt s f off sel n).port = s.port := by rw [bumpAt, wrAt_port]
@[simp] theorem bumpAt_ten (s : State) (f : Fld) (off sel n : Nat) : (bumpAt s f off sel n).ten = s.ten := by rw [bumpAt, wrAt_ten]
@[simp] theorem bumpAt_cph (s : State) (f : Fld) (off sel n : Nat) : (bumpAt s f off sel n).cph = s.cph := by rw [bumpAt, wrAt_cph]
@[simp] theorem bumpAt_asy (s : State) (f : Fld) (off sel n : Nat) : (bumpAt s f off sel n).asy = s.asy := by rw [bumpAt, wrAt_asy]
@[simp] theorem bumpAt_mem (s : State) (f : Fld) (off sel n : Nat) : (bumpAt s f off sel n).mem = s.mem := by rw [bumpAt, wrAt_mem]
@[simp] theorem bumpAt_pwr (s : State) (f : Fld) (off sel n : Nat) : (bumpAt s f off sel n).pwr = s.pwr := by rw [bumpAt, wrAt_pwr]
@[simp] theorem bumpAt_blw (s : State) (f : Fld) (off sel n : Nat) : (bumpAt s f off sel n).blw = s.blw := by rw [bumpAt, wrAt_blw]
@[simp] theorem bumpAt_hkp (s : State) (f : Fld) (off sel n : Nat) : (bumpAt s f off sel n).hkp = s.hkp := by rw [bumpAt, wrAt_hkp]
@[simp] theorem bumpAt_hm (s : State) (f : Fld) (off sel n : Nat) : (bumpAt s f off sel n).hm = s.hm := by rw [bumpAt, wrAt_hm]
@[simp] theorem bumpAt_wall (s : State) (f : Fld) (off sel n : Nat) : (bumpAt s f off sel n).wall = s.wall := by rw [bumpAt, wrAt_wall]
@[simp] theorem bumpAt_boot (s : State) (f : Fld) (off sel n : Nat) : (bumpAt s f off sel n).boot = s.boot := by rw [bumpAt, wrAt_boot]
@[simp] theorem bumpAt_reg_inForce (s : State) (f : Fld) (off sel n : Nat) : (bumpAt s f off sel n).reg.inForce = s.reg.inForce := by rw [bumpAt, wrAt_reg_inForce]
@[simp] theorem bumpAt_reg_capture (s : State) (f : Fld) (off sel n : Nat) : (bumpAt s f off sel n).reg.capture = s.reg.capture := by rw [bumpAt, wrAt_reg_capture]
@[simp] theorem bumpAt_reg_staging (s : State) (f : Fld) (off sel n : Nat) : (bumpAt s f off sel n).reg.staging = s.reg.staging := by rw [bumpAt, wrAt_reg_staging]
@[simp] theorem bumpAt_reg_rdData (s : State) (f : Fld) (off sel n : Nat) : (bumpAt s f off sel n).reg.rdData = s.reg.rdData := by rw [bumpAt, wrAt_reg_rdData]
@[simp] theorem getDie_bumpAt (s : State) (f : Fld) (off sel n : Nat) (y0 : Nat) : getDie (bumpAt s f off sel n) y0 = getDie s y0 := by rw [bumpAt, getDie_wrAt]
@[simp] theorem getChan_bumpAt (s : State) (f : Fld) (off sel n : Nat) (y0 : Nat) : getChan (bumpAt s f off sel n) y0 = getChan s y0 := by rw [bumpAt, getChan_wrAt]
@[simp] theorem getSlot_bumpAt (s : State) (f : Fld) (off sel n : Nat) (y0 : Nat) : getSlot (bumpAt s f off sel n) y0 = getSlot s y0 := by rw [bumpAt, getSlot_wrAt]
@[simp] theorem getReq_bumpAt (s : State) (f : Fld) (off sel n : Nat) (y0 : Nat) : getReq (bumpAt s f off sel n) y0 = getReq s y0 := by rw [bumpAt, getReq_wrAt]
@[simp] theorem getBuf_bumpAt (s : State) (f : Fld) (off sel n : Nat) (y0 : Nat) : getBuf (bumpAt s f off sel n) y0 = getBuf s y0 := by rw [bumpAt, getBuf_wrAt]
@[simp] theorem getBody_bumpAt (s : State) (f : Fld) (off sel n : Nat) (y0 : Nat) : getBody (bumpAt s f off sel n) y0 = getBody s y0 := by rw [bumpAt, getBody_wrAt]
@[simp] theorem getNs_bumpAt (s : State) (f : Fld) (off sel n : Nat) (y0 : Nat) : getNs (bumpAt s f off sel n) y0 = getNs s y0 := by rw [bumpAt, getNs_wrAt]
@[simp] theorem getZone_bumpAt (s : State) (f : Fld) (off sel n : Nat) (y0 y1 : Nat) : getZone (bumpAt s f off sel n) y0 y1 = getZone s y0 y1 := by rw [bumpAt, getZone_wrAt]
@[simp] theorem getSlab_bumpAt (s : State) (f : Fld) (off sel n : Nat) (y0 : Nat) : getSlab (bumpAt s f off sel n) y0 = getSlab s y0 := by rw [bumpAt, getSlab_wrAt]
@[simp] theorem getCourse_bumpAt (s : State) (f : Fld) (off sel n : Nat) (y0 : Nat) : getCourse (bumpAt s f off sel n) y0 = getCourse s y0 := by rw [bumpAt, getCourse_wrAt]
@[simp] theorem getDomain_bumpAt (s : State) (f : Fld) (off sel n : Nat) (y0 y1 : Nat) : getDomain (bumpAt s f off sel n) y0 y1 = getDomain s y0 y1 := by rw [bumpAt, getDomain_wrAt]
@[simp] theorem getDev_bumpAt (s : State) (f : Fld) (off sel n : Nat) (y0 : Nat) : getDev (bumpAt s f off sel n) y0 = getDev s y0 := by rw [bumpAt, getDev_wrAt]
@[simp] theorem getLPort_bumpAt (s : State) (f : Fld) (off sel n : Nat) (y0 : Nat) : getLPort (bumpAt s f off sel n) y0 = getLPort s y0 := by rw [bumpAt, getLPort_wrAt]
@[simp] theorem getQp_bumpAt (s : State) (f : Fld) (off sel n : Nat) (y0 : Nat) : getQp (bumpAt s f off sel n) y0 = getQp s y0 := by rw [bumpAt, getQp_wrAt]
@[simp] theorem getFunc_bumpAt (s : State) (f : Fld) (off sel n : Nat) (y0 : Nat) : getFunc (bumpAt s f off sel n) y0 = getFunc s y0 := by rw [bumpAt, getFunc_wrAt]
@[simp] theorem getTen_bumpAt (s : State) (f : Fld) (off sel n : Nat) (y0 : Nat) : getTen (bumpAt s f off sel n) y0 = getTen s y0 := by rw [bumpAt, getTen_wrAt]
@[simp] theorem getLane_bumpAt (s : State) (f : Fld) (off sel n : Nat) (y0 : Nat) : getLane (bumpAt s f off sel n) y0 = getLane s y0 := by rw [bumpAt, getLane_wrAt]
@[simp] theorem getKey_bumpAt (s : State) (f : Fld) (off sel n : Nat) (y0 : Nat) : getKey (bumpAt s f off sel n) y0 = getKey s y0 := by rw [bumpAt, getKey_wrAt]
@[simp] theorem getCtx_bumpAt (s : State) (f : Fld) (off sel n : Nat) (y0 : Nat) : getCtx (bumpAt s f off sel n) y0 = getCtx s y0 := by rw [bumpAt, getCtx_wrAt]
@[simp] theorem getDram_bumpAt (s : State) (f : Fld) (off sel n : Nat) (y0 : Nat) : getDram (bumpAt s f off sel n) y0 = getDram s y0 := by rw [bumpAt, getDram_wrAt]
@[simp] theorem getGroup_bumpAt (s : State) (f : Fld) (off sel n : Nat) (y0 : Nat) : getGroup (bumpAt s f off sel n) y0 = getGroup s y0 := by rw [bumpAt, getGroup_wrAt]
@[simp] theorem getDom_bumpAt (s : State) (f : Fld) (off sel n : Nat) (y0 : Nat) : getDom (bumpAt s f off sel n) y0 = getDom s y0 := by rw [bumpAt, getDom_wrAt]
@[simp] theorem getInput_bumpAt (s : State) (f : Fld) (off sel n : Nat) (y0 : Nat) : getInput (bumpAt s f off sel n) y0 = getInput s y0 := by rw [bumpAt, getInput_wrAt]
@[simp] theorem getCk_bumpAt (s : State) (f : Fld) (off sel n : Nat) (y0 : Nat) : getCk (bumpAt s f off sel n) y0 = getCk s y0 := by rw [bumpAt, getCk_wrAt]

/-! ### bump -/

@[simp] theorem bump_pending (s : State) (f : Fld) : (bump s f).pending = s.pending := by rw [bump, bumpAt_pending]
@[simp] theorem bump_out (s : State) (f : Fld) : (bump s f).out = s.out := by rw [bump, bumpAt_out]
@[simp] theorem bump_freeCtr (s : State) (f : Fld) : (bump s f).freeCtr = s.freeCtr := by rw [bump, bumpAt_freeCtr]
@[simp] theorem bump_tb (s : State) (f : Fld) : (bump s f).tb = s.tb := by rw [bump, bumpAt_tb]
@[simp] theorem bump_fl (s : State) (f : Fld) : (bump s f).fl = s.fl := by rw [bump, bumpAt_fl]
@[simp] theorem bump_ord (s : State) (f : Fld) : (bump s f).ord = s.ord := by rw [bump, bumpAt_ord]
@[simp] theorem bump_med (s : State) (f : Fld) : (bump s f).med = s.med := by rw [bump, bumpAt_med]
@[simp] theorem bump_port (s : State) (f : Fld) : (bump s f).port = s.port := by rw [bump, bumpAt_port]
@[simp] theorem bump_ten (s : State) (f : Fld) : (bump s f).ten = s.ten := by rw [bump, bumpAt_ten]
@[simp] theorem bump_cph (s : State) (f : Fld) : (bump s f).cph = s.cph := by rw [bump, bumpAt_cph]
@[simp] theorem bump_asy (s : State) (f : Fld) : (bump s f).asy = s.asy := by rw [bump, bumpAt_asy]
@[simp] theorem bump_mem (s : State) (f : Fld) : (bump s f).mem = s.mem := by rw [bump, bumpAt_mem]
@[simp] theorem bump_pwr (s : State) (f : Fld) : (bump s f).pwr = s.pwr := by rw [bump, bumpAt_pwr]
@[simp] theorem bump_blw (s : State) (f : Fld) : (bump s f).blw = s.blw := by rw [bump, bumpAt_blw]
@[simp] theorem bump_hkp (s : State) (f : Fld) : (bump s f).hkp = s.hkp := by rw [bump, bumpAt_hkp]
@[simp] theorem bump_hm (s : State) (f : Fld) : (bump s f).hm = s.hm := by rw [bump, bumpAt_hm]
@[simp] theorem bump_wall (s : State) (f : Fld) : (bump s f).wall = s.wall := by rw [bump, bumpAt_wall]
@[simp] theorem bump_boot (s : State) (f : Fld) : (bump s f).boot = s.boot := by rw [bump, bumpAt_boot]
@[simp] theorem bump_reg_inForce (s : State) (f : Fld) : (bump s f).reg.inForce = s.reg.inForce := by rw [bump, bumpAt_reg_inForce]
@[simp] theorem bump_reg_capture (s : State) (f : Fld) : (bump s f).reg.capture = s.reg.capture := by rw [bump, bumpAt_reg_capture]
@[simp] theorem bump_reg_staging (s : State) (f : Fld) : (bump s f).reg.staging = s.reg.staging := by rw [bump, bumpAt_reg_staging]
@[simp] theorem bump_reg_rdData (s : State) (f : Fld) : (bump s f).reg.rdData = s.reg.rdData := by rw [bump, bumpAt_reg_rdData]
@[simp] theorem getDie_bump (s : State) (f : Fld) (y0 : Nat) : getDie (bump s f) y0 = getDie s y0 := by rw [bump, getDie_bumpAt]
@[simp] theorem getChan_bump (s : State) (f : Fld) (y0 : Nat) : getChan (bump s f) y0 = getChan s y0 := by rw [bump, getChan_bumpAt]
@[simp] theorem getSlot_bump (s : State) (f : Fld) (y0 : Nat) : getSlot (bump s f) y0 = getSlot s y0 := by rw [bump, getSlot_bumpAt]
@[simp] theorem getReq_bump (s : State) (f : Fld) (y0 : Nat) : getReq (bump s f) y0 = getReq s y0 := by rw [bump, getReq_bumpAt]
@[simp] theorem getBuf_bump (s : State) (f : Fld) (y0 : Nat) : getBuf (bump s f) y0 = getBuf s y0 := by rw [bump, getBuf_bumpAt]
@[simp] theorem getBody_bump (s : State) (f : Fld) (y0 : Nat) : getBody (bump s f) y0 = getBody s y0 := by rw [bump, getBody_bumpAt]
@[simp] theorem getNs_bump (s : State) (f : Fld) (y0 : Nat) : getNs (bump s f) y0 = getNs s y0 := by rw [bump, getNs_bumpAt]
@[simp] theorem getZone_bump (s : State) (f : Fld) (y0 y1 : Nat) : getZone (bump s f) y0 y1 = getZone s y0 y1 := by rw [bump, getZone_bumpAt]
@[simp] theorem getSlab_bump (s : State) (f : Fld) (y0 : Nat) : getSlab (bump s f) y0 = getSlab s y0 := by rw [bump, getSlab_bumpAt]
@[simp] theorem getCourse_bump (s : State) (f : Fld) (y0 : Nat) : getCourse (bump s f) y0 = getCourse s y0 := by rw [bump, getCourse_bumpAt]
@[simp] theorem getDomain_bump (s : State) (f : Fld) (y0 y1 : Nat) : getDomain (bump s f) y0 y1 = getDomain s y0 y1 := by rw [bump, getDomain_bumpAt]
@[simp] theorem getDev_bump (s : State) (f : Fld) (y0 : Nat) : getDev (bump s f) y0 = getDev s y0 := by rw [bump, getDev_bumpAt]
@[simp] theorem getLPort_bump (s : State) (f : Fld) (y0 : Nat) : getLPort (bump s f) y0 = getLPort s y0 := by rw [bump, getLPort_bumpAt]
@[simp] theorem getQp_bump (s : State) (f : Fld) (y0 : Nat) : getQp (bump s f) y0 = getQp s y0 := by rw [bump, getQp_bumpAt]
@[simp] theorem getFunc_bump (s : State) (f : Fld) (y0 : Nat) : getFunc (bump s f) y0 = getFunc s y0 := by rw [bump, getFunc_bumpAt]
@[simp] theorem getTen_bump (s : State) (f : Fld) (y0 : Nat) : getTen (bump s f) y0 = getTen s y0 := by rw [bump, getTen_bumpAt]
@[simp] theorem getLane_bump (s : State) (f : Fld) (y0 : Nat) : getLane (bump s f) y0 = getLane s y0 := by rw [bump, getLane_bumpAt]
@[simp] theorem getKey_bump (s : State) (f : Fld) (y0 : Nat) : getKey (bump s f) y0 = getKey s y0 := by rw [bump, getKey_bumpAt]
@[simp] theorem getCtx_bump (s : State) (f : Fld) (y0 : Nat) : getCtx (bump s f) y0 = getCtx s y0 := by rw [bump, getCtx_bumpAt]
@[simp] theorem getDram_bump (s : State) (f : Fld) (y0 : Nat) : getDram (bump s f) y0 = getDram s y0 := by rw [bump, getDram_bumpAt]
@[simp] theorem getGroup_bump (s : State) (f : Fld) (y0 : Nat) : getGroup (bump s f) y0 = getGroup s y0 := by rw [bump, getGroup_bumpAt]
@[simp] theorem getDom_bump (s : State) (f : Fld) (y0 : Nat) : getDom (bump s f) y0 = getDom s y0 := by rw [bump, getDom_bumpAt]
@[simp] theorem getInput_bump (s : State) (f : Fld) (y0 : Nat) : getInput (bump s f) y0 = getInput s y0 := by rw [bump, getInput_bumpAt]
@[simp] theorem getCk_bump (s : State) (f : Fld) (y0 : Nat) : getCk (bump s f) y0 = getCk s y0 := by rw [bump, getCk_bumpAt]

/-! ### emit -/

@[simp] theorem emit_pending (s : State) (o : Output) : (emit s o).pending = s.pending := rfl
@[simp] theorem emit_freeCtr (s : State) (o : Output) : (emit s o).freeCtr = s.freeCtr := rfl
@[simp] theorem emit_reg (s : State) (o : Output) : (emit s o).reg = s.reg := rfl
@[simp] theorem emit_tb (s : State) (o : Output) : (emit s o).tb = s.tb := rfl
@[simp] theorem emit_fl (s : State) (o : Output) : (emit s o).fl = s.fl := rfl
@[simp] theorem emit_ord (s : State) (o : Output) : (emit s o).ord = s.ord := rfl
@[simp] theorem emit_med (s : State) (o : Output) : (emit s o).med = s.med := rfl
@[simp] theorem emit_port (s : State) (o : Output) : (emit s o).port = s.port := rfl
@[simp] theorem emit_ten (s : State) (o : Output) : (emit s o).ten = s.ten := rfl
@[simp] theorem emit_cph (s : State) (o : Output) : (emit s o).cph = s.cph := rfl
@[simp] theorem emit_asy (s : State) (o : Output) : (emit s o).asy = s.asy := rfl
@[simp] theorem emit_mem (s : State) (o : Output) : (emit s o).mem = s.mem := rfl
@[simp] theorem emit_pwr (s : State) (o : Output) : (emit s o).pwr = s.pwr := rfl
@[simp] theorem emit_blw (s : State) (o : Output) : (emit s o).blw = s.blw := rfl
@[simp] theorem emit_hkp (s : State) (o : Output) : (emit s o).hkp = s.hkp := rfl
@[simp] theorem emit_hm (s : State) (o : Output) : (emit s o).hm = s.hm := rfl
@[simp] theorem emit_wall (s : State) (o : Output) : (emit s o).wall = s.wall := rfl
@[simp] theorem emit_boot (s : State) (o : Output) : (emit s o).boot = s.boot := rfl
@[simp] theorem emit_out (s : State) (o : Output) : (emit s o).out = s.out ++ [o] := rfl
@[simp] theorem regWord_emit (s : State) (o : Output) (key : Nat) : regWord (emit s o) key = regWord s key := rfl
@[simp] theorem getDie_emit (s : State) (o : Output) (y0 : Nat) : getDie (emit s o) y0 = getDie s y0 := rfl
@[simp] theorem getChan_emit (s : State) (o : Output) (y0 : Nat) : getChan (emit s o) y0 = getChan s y0 := rfl
@[simp] theorem getSlot_emit (s : State) (o : Output) (y0 : Nat) : getSlot (emit s o) y0 = getSlot s y0 := rfl
@[simp] theorem getReq_emit (s : State) (o : Output) (y0 : Nat) : getReq (emit s o) y0 = getReq s y0 := rfl
@[simp] theorem getBuf_emit (s : State) (o : Output) (y0 : Nat) : getBuf (emit s o) y0 = getBuf s y0 := rfl
@[simp] theorem getBody_emit (s : State) (o : Output) (y0 : Nat) : getBody (emit s o) y0 = getBody s y0 := rfl
@[simp] theorem getNs_emit (s : State) (o : Output) (y0 : Nat) : getNs (emit s o) y0 = getNs s y0 := rfl
@[simp] theorem getZone_emit (s : State) (o : Output) (y0 y1 : Nat) : getZone (emit s o) y0 y1 = getZone s y0 y1 := rfl
@[simp] theorem getSlab_emit (s : State) (o : Output) (y0 : Nat) : getSlab (emit s o) y0 = getSlab s y0 := rfl
@[simp] theorem getCourse_emit (s : State) (o : Output) (y0 : Nat) : getCourse (emit s o) y0 = getCourse s y0 := rfl
@[simp] theorem getDomain_emit (s : State) (o : Output) (y0 y1 : Nat) : getDomain (emit s o) y0 y1 = getDomain s y0 y1 := rfl
@[simp] theorem getDev_emit (s : State) (o : Output) (y0 : Nat) : getDev (emit s o) y0 = getDev s y0 := rfl
@[simp] theorem getLPort_emit (s : State) (o : Output) (y0 : Nat) : getLPort (emit s o) y0 = getLPort s y0 := rfl
@[simp] theorem getQp_emit (s : State) (o : Output) (y0 : Nat) : getQp (emit s o) y0 = getQp s y0 := rfl
@[simp] theorem getFunc_emit (s : State) (o : Output) (y0 : Nat) : getFunc (emit s o) y0 = getFunc s y0 := rfl
@[simp] theorem getTen_emit (s : State) (o : Output) (y0 : Nat) : getTen (emit s o) y0 = getTen s y0 := rfl
@[simp] theorem getLane_emit (s : State) (o : Output) (y0 : Nat) : getLane (emit s o) y0 = getLane s y0 := rfl
@[simp] theorem getKey_emit (s : State) (o : Output) (y0 : Nat) : getKey (emit s o) y0 = getKey s y0 := rfl
@[simp] theorem getCtx_emit (s : State) (o : Output) (y0 : Nat) : getCtx (emit s o) y0 = getCtx s y0 := rfl
@[simp] theorem getDram_emit (s : State) (o : Output) (y0 : Nat) : getDram (emit s o) y0 = getDram s y0 := rfl
@[simp] theorem getGroup_emit (s : State) (o : Output) (y0 : Nat) : getGroup (emit s o) y0 = getGroup s y0 := rfl
@[simp] theorem getDom_emit (s : State) (o : Output) (y0 : Nat) : getDom (emit s o) y0 = getDom s y0 := rfl
@[simp] theorem getInput_emit (s : State) (o : Output) (y0 : Nat) : getInput (emit s o) y0 = getInput s y0 := rfl
@[simp] theorem getCk_emit (s : State) (o : Output) (y0 : Nat) : getCk (emit s o) y0 = getCk s y0 := rfl

@[simp] theorem regWord_setWord_self (s : State) (key : Nat) (w : W32) : regWord (setWord s key w) key = w := Tbl.get_set_self ..
theorem regWord_setWord_ne (s : State) (key : Nat) (w : W32) {j : Nat} (h : j ≠ key) : regWord (setWord s key w) j = regWord s j :=
  Tbl.get_set_ne _ _ _ h
theorem regWord_setWord (s : State) (key : Nat) (w : W32) (j : Nat) :
    regWord (setWord s key w) j = if j = key then w else regWord s j := Tbl.get_set ..

end Sys2Proof.Machine
end

