-- ==== Sys2Proof/Laws/Words.lean ====
section
/-! SUPPORT. What an instruction word does where no limit of R65 stops it and its unused places are 0 (R61, R62, R84, R88,
R89), the limits themselves, and the fields of a Slot that the writers of its registers and tickets leave. -/

namespace Sys2Proof.Machine

@[simp] theorem stepIf_true (s t : State) : stepIf s true t = .next t := rfl

@[simp] theorem stepIf_false (s t : State) : stepIf s false t = .next s := rfl

theorem stepIf_of {p : Bool} (h : p = true) (s t : State) : stepIf s p t = .next t := by rw [h]; rfl

/-- What an answer can be: the next state under the premise, and the present state otherwise. -/
theorem stepIf_cases (s : State) (p : Bool) (t : State) :
    (p = true ∧ stepIf s p t = .next t) ∨ (p = false ∧ stepIf s p t = .next s) := by
  cases p
  · exact .inr ⟨rfl, rfl⟩
  · exact .inl ⟨rfl, rfl⟩

theorem eq_of_stepIf {p : Bool} {s t u : State} (h : stepIf s p t = .next u) : (p = true ∧ u = t) ∨ (p = false ∧ u = s) := by
  cases p
  · cases h; exact .inr ⟨rfl, rfl⟩
  · cases h; exact .inl ⟨rfl, rfl⟩

/-! ## Words -/

theorem wordRuns_iff (s : State) (k : Nat) (u : Bool) : wordRuns s k u = true ↔ overLimit s k = false ∧ u = true := by
  simp [wordRuns]

/-- A word that meets no limit and leaves its unused places 0 has its own effect. -/
theorem runWord_of_runs {s : State} {k c : Nat} {u : Bool} (body : State → W16 → State) (h : wordRuns s k u = true) :
    runWord s k c u body = wordDone s k c body := by
  obtain ⟨ho, rfl⟩ := (wordRuns_iff s k u).1 h
  simp only [overLimit, Bool.or_eq_false_iff] at ho
  simp [runWord, wordDone, ho.1, ho.2]

/-- A word past RUN_LIMIT outside a handler (R65). -/
theorem runWord_of_runaway {s : State} {k : Nat} (c : Nat) (u : Bool) (body : State → W16 → State)
    (hh : (getSlot s k).inHandler = false) (hr : (getSlot s k).hdr.runLimit ≤ (getSlot s k).executed) :
    runWord s k c u body = orderFault s k St.runaway (getSlot s k).position := by
  simp [runWord, hh, hr]

/-- A word past the allowance of a handler (R67). -/
theorem runWord_of_spent {s : State} {k : Nat} (c : Nat) (u : Bool) (body : State → W16 → State)
    (hh : (getSlot s k).inHandler = true) (hr : handlerAllow s ≤ (getSlot s k).handlerUsed) :
    runWord s k c u body = finishOrder s k (getSlot s k).original := by
  simp [runWord, hh, hr]

/-- A word with a value in an unused place (R84). -/
theorem runWord_of_badPlaces {s : State} {k : Nat} (c : Nat) (body : State → W16 → State) (h : overLimit s k = false) :
    runWord s k c false body = orderFault (countWord s k c) k St.illegalOp (getSlot s k).position := by
  simp only [overLimit, Bool.or_eq_false_iff] at h
  simp [runWord, h.1, h.2]

/-- What a word can do: one of its four ends. -/
theorem runWord_cases (s : State) (k c : Nat) (u : Bool) (body : State → W16 → State) :
    runWord s k c u body = finishOrder s k (getSlot s k).original ∨
    runWord s k c u body = orderFault s k St.runaway (getSlot s k).position ∨
    (wordRuns s k u = true ∧ runWord s k c u body = wordDone s k c body) ∨
    (u = false ∧ runWord s k c u body = orderFault (countWord s k c) k St.illegalOp (getSlot s k).position) := by
  cases hu : wordRuns s k u
  · unfold runWord
    dsimp only
    split
    · exact .inl rfl
    · split
      · exact .inr (.inl rfl)
      · cases u
        · exact .inr (.inr (.inr ⟨rfl, rfl⟩))
        · rename_i h1 h2
          simp [wordRuns, overLimit, h1, h2] at hu
  · exact .inr (.inr (.inl ⟨rfl, runWord_of_runs body hu⟩))

/-- A word that waits for tickets, with nothing to wait for. -/
theorem waitWord_of_ready {s : State} {k c : Nat} {u : Bool} {mask : BitVec 4} (body : State → W16 → State)
    (h : wordRuns s k u = true) (ho : outIn (getSlot s k) mask = false) :
    waitWord s k c u mask body = wordDone s k c body := by
  unfold waitWord
  rw [ho, Bool.and_false]
  exact runWord_of_runs body h

theorem waitRuns_iff (s : State) (k : Nat) (u : Bool) (mask : BitVec 4) :
    waitRuns s k u mask = true ↔
      wordRuns s k u = true ∧ outIn (getSlot s k) mask = false ∧ failedIn (getSlot s k) mask = none := by
  simp [waitRuns, and_assoc]

theorem waitWord_of_runs {s : State} {k c : Nat} {u : Bool} {mask : BitVec 4} (body : State → W16 → State)
    (h : waitRuns s k u mask = true) : waitWord s k c u mask body = wordDone s k c body := by
  obtain ⟨hw, ho, -⟩ := (waitRuns_iff ..).1 h
  exact waitWord_of_ready body hw ho

theorem raiseTickets_of_none {s : State} {k : Nat} {mask : BitVec 4} (go : State → State)
    (h : failedIn (getSlot s k) mask = none) : raiseTickets s k mask go = go s := by
  simp [raiseTickets, h]

@[simp] theorem getSlot_countWord_tickets (s : State) (k c : Nat) : (getSlot (countWord s k c) k).tickets = (getSlot s k).tickets := by
  show (Tbl.get slot0 (Tbl.set slot0 s.ord.slots k _) k).tickets = _
  rw [Tbl.get_set_self]

theorem failedIn_congr {x y : Slot} (mask : BitVec 4) (h : x.tickets = y.tickets) : failedIn x mask = failedIn y mask := by
  simp [failedIn, Slot.ticket, h]

theorem freeTicket_congr {x y : Slot} (h : x.tickets = y.tickets) : freeTicket x = freeTicket y := by
  simp [freeTicket, h]

/-- A word that waits for tickets, where none of them holds a failure: what it raises is nothing. -/
theorem wordDone_raise {s : State} {k c : Nat} {mask : BitVec 4} (go : State → State)
    (h : failedIn (getSlot s k) mask = none) :
    wordDone s k c (fun t _ => raiseTickets t k mask go) = wordDone s k c fun t _ => go t := by
  unfold wordDone
  dsimp only
  rw [raiseTickets_of_none go ((failedIn_congr mask (getSlot_countWord_tickets s k c)).trans h)]

theorem asyncRuns_iff (s : State) (k : Nat) (f : Fields) (o : AsyncOp) :
    asyncRuns s k f o = true ↔ wordRuns s k o.wellUsed = true ∧ hazards s (getSlot s k) o.reads o.writes o.ctx = 0 ∧
      (f.m 3 = true → (freeTicket (getSlot s k)).isSome) ∧ o.check (countWord s k 8) = St.ok := by
  unfold asyncRuns
  cases f.m 3 <;> simp [and_assoc]

/-- An asynchronous word that is issued. -/
theorem asyncWord_of_runs {s : State} {k op : Nat} {f : Fields} {o : AsyncOp} (h : asyncRuns s k f o = true) :
    asyncWord s k op f o = asyncDone s k op f o := by
  obtain ⟨hw, hz, ht, hc⟩ := (asyncRuns_iff ..).1 h
  have hn : (f.m 3 && (freeTicket (getSlot s k)).isNone) = false := by
    cases hm : f.m 3
    · rfl
    · have := ht hm; cases hf : freeTicket (getSlot s k) <;> simp_all
  unfold asyncWord
  simp only [hz, bne_self_eq_false, Bool.and_false, Bool.false_eq_true, if_false, Bool.and_assoc, hn]
  rw [runWord_of_runs _ hw]
  unfold wordDone asyncDone issue
  simp [hc]

/-! ## The fields of a Slot -/

theorem Slot.val_setVal (x : Slot) (i j : BitVec 4) (w : W64) :
    (x.setVal i w).val j = if j = 0 then 0 else if j = i then w else x.val j := by
  unfold Slot.val
  by_cases hj : j = 0
  · rw [if_pos hj, if_pos hj]
  · rw [if_neg hj, if_neg hj, if_neg hj]
    by_cases hi : i = 0
    · have h : j ≠ i := fun e => hj (e.trans hi)
      rw [if_neg h, Slot.setVal, if_pos hi]
    · rw [Slot.setVal, if_neg hi]
      by_cases h : j = i
      · subst h; simp
      · rw [if_neg h]
        exact Vector.getElem_set_ne (by omega) (by omega) fun e => h (BitVec.eq_of_toNat_eq e.symm)

@[simp] theorem Slot.val_zero (x : Slot) : x.val 0#4 = 0#64 := rfl

@[simp] theorem Slot.setVal_zero (x : Slot) (w : W64) : x.setVal 0#4 w = x := rfl

@[simp] theorem Slot.setVal_st (x : Slot) (i : BitVec 4) (w : W64) : (x.setVal i w).st = x.st := by
  unfold Slot.setVal; split <;> rfl
@[simp] theorem Slot.setVal_tenant (x : Slot) (i : BitVec 4) (w : W64) : (x.setVal i w).tenant = x.tenant := by
  unfold Slot.setVal; split <;> rfl
@[simp] theorem Slot.setVal_gen (x : Slot) (i : BitVec 4) (w : W64) : (x.setVal i w).gen = x.gen := by
  unfold Slot.setVal; split <;> rfl
@[simp] theorem Slot.setVal_kind (x : Slot) (i : BitVec 4) (w : W64) : (x.setVal i w).kind = x.kind := by
  unfold Slot.setVal; split <;> rfl
@[simp] theorem Slot.setVal_cmd (x : Slot) (i : BitVec 4) (w : W64) : (x.setVal i w).cmd = x.cmd := by
  unfold Slot.setVal; split <;> rfl
@[simp] theorem Slot.setVal_pcie (x : Slot) (i : BitVec 4) (w : W64) : (x.setVal i w).pcie = x.pcie := by
  unfold Slot.setVal; split <;> rfl
@[simp] theorem Slot.setVal_qp (x : Slot) (i : BitVec 4) (w : W64) : (x.setVal i w).qp = x.qp := by
  unfold Slot.setVal; split <;> rfl
@[simp] theorem Slot.setVal_arrival (x : Slot) (i : BitVec 4) (w : W64) : (x.setVal i w).arrival = x.arrival := by
  unfold Slot.setVal; split <;> rfl
@[simp] theorem Slot.setVal_hdr (x : Slot) (i : BitVec 4) (w : W64) : (x.setVal i w).hdr = x.hdr := by
  unfold Slot.setVal; split <;> rfl
@[simp] theorem Slot.setVal_text (x : Slot) (i : BitVec 4) (w : W64) : (x.setVal i w).text = x.text := by
  unfold Slot.setVal; split <;> rfl
@[simp] theorem Slot.setVal_h (x : Slot) (i : BitVec 4) (w : W64) : (x.setVal i w).h = x.h := by
  unfold Slot.setVal; split <;> rfl
@[simp] theorem Slot.setVal_flags (x : Slot) (i : BitVec 4) (w : W64) : (x.setVal i w).flags = x.flags := by
  unfold Slot.setVal; split <;> rfl
@[simp] theorem Slot.setVal_pc (x : Slot) (i : BitVec 4) (w : W64) : (x.setVal i w).pc = x.pc := by
  unfold Slot.setVal; split <;> rfl
@[simp] theorem Slot.setVal_stack (x : Slot) (i : BitVec 4) (w : W64) : (x.setVal i w).stack = x.stack := by
  unfold Slot.setVal; split <;> rfl
@[simp] theorem Slot.setVal_executed (x : Slot) (i : BitVec 4) (w : W64) : (x.setVal i w).executed = x.executed := by
  unfold Slot.setVal; split <;> rfl
@[simp] theorem Slot.setVal_handlerUsed (x : Slot) (i : BitVec 4) (w : W64) : (x.setVal i w).handlerUsed = x.handlerUsed := by
  unfold Slot.setVal; split <;> rfl
@[simp] theorem Slot.setVal_inHandler (x : Slot) (i : BitVec 4) (w : W64) : (x.setVal i w).inHandler = x.inHandler := by
  unfold Slot.setVal; split <;> rfl
@[simp] theorem Slot.setVal_hdepth (x : Slot) (i : BitVec 4) (w : W64) : (x.setVal i w).hdepth = x.hdepth := by
  unfold Slot.setVal; split <;> rfl
@[simp] theorem Slot.setVal_tickets (x : Slot) (i : BitVec 4) (w : W64) : (x.setVal i w).tickets = x.tickets := by
  unfold Slot.setVal; split <;> rfl
@[simp] theorem Slot.setVal_waiting (x : Slot) (i : BitVec 4) (w : W64) : (x.setVal i w).waiting = x.waiting := by
  unfold Slot.setVal; split <;> rfl
@[simp] theorem Slot.setVal_status (x : Slot) (i : BitVec 4) (w : W64) : (x.setVal i w).status = x.status := by
  unfold Slot.setVal; split <;> rfl
@[simp] theorem Slot.setVal_faultPos (x : Slot) (i : BitVec 4) (w : W64) : (x.setVal i w).faultPos = x.faultPos := by
  unfold Slot.setVal; split <;> rfl
@[simp] theorem Slot.setVal_faulted (x : Slot) (i : BitVec 4) (w : W64) : (x.setVal i w).faulted = x.faulted := by
  unfold Slot.setVal; split <;> rfl
@[simp] theorem Slot.setVal_original (x : Slot) (i : BitVec 4) (w : W64) : (x.setVal i w).original = x.original := by
  unfold Slot.setVal; split <;> rfl
@[simp] theorem Slot.setVal_notices (x : Slot) (i : BitVec 4) (w : W64) : (x.setVal i w).notices = x.notices := by
  unfold Slot.setVal; split <;> rfl
@[simp] theorem Slot.setVal_from_ (x : Slot) (i : BitVec 4) (w : W64) : (x.setVal i w).from_ = x.from_ := by
  unfold Slot.setVal; split <;> rfl
@[simp] theorem Slot.setVal_sliceAt (x : Slot) (i : BitVec 4) (w : W64) : (x.setVal i w).sliceAt = x.sliceAt := by
  unfold Slot.setVal; split <;> rfl
@[simp] theorem Slot.setVal_sliceLeft (x : Slot) (i : BitVec 4) (w : W64) : (x.setVal i w).sliceLeft = x.sliceLeft := by
  unfold Slot.setVal; split <;> rfl
@[simp] theorem Slot.setVal_smith (x : Slot) (i : BitVec 4) (w : W64) : (x.setVal i w).smith = x.smith := by
  unfold Slot.setVal; split <;> rfl
@[simp] theorem Slot.setVal_cached (x : Slot) (i : BitVec 4) (w : W64) : (x.setVal i w).cached = x.cached := by
  unfold Slot.setVal; split <;> rfl
@[simp] theorem Slot.setVal_stage (x : Slot) (i : BitVec 4) (w : W64) : (x.setVal i w).stage = x.stage := by
  unfold Slot.setVal; split <;> rfl
@[simp] theorem Slot.setVal_member (x : Slot) (i : BitVec 4) (w : W64) : (x.setVal i w).member = x.member := by
  unfold Slot.setVal; split <;> rfl
@[simp] theorem Slot.setVal_reply (x : Slot) (i : BitVec 4) (w : W64) : (x.setVal i w).reply = x.reply := by
  unfold Slot.setVal; split <;> rfl
@[simp] theorem Slot.setVal_p0 (x : Slot) (i : BitVec 4) (w : W64) : (x.setVal i w).p0 = x.p0 := by
  unfold Slot.setVal; split <;> rfl
@[simp] theorem Slot.setVal_p1 (x : Slot) (i : BitVec 4) (w : W64) : (x.setVal i w).p1 = x.p1 := by
  unfold Slot.setVal; split <;> rfl
@[simp] theorem Slot.setVal_handed (x : Slot) (i : BitVec 4) (w : W64) : (x.setVal i w).handed = x.handed := by
  unfold Slot.setVal; split <;> rfl
@[simp] theorem Slot.setVal_quenchAt (x : Slot) (i : BitVec 4) (w : W64) : (x.setVal i w).quenchAt = x.quenchAt := by
  unfold Slot.setVal; split <;> rfl
@[simp] theorem Slot.setVal_data (x : Slot) (i : BitVec 4) (w : W64) : (x.setVal i w).data = x.data := by
  unfold Slot.setVal; split <;> rfl
@[simp] theorem Slot.setTicket_st (x : Slot) (i : Nat) (c : Ticket) : (x.setTicket i c).st = x.st := by
  unfold Slot.setTicket; split <;> rfl
@[simp] theorem Slot.setTicket_tenant (x : Slot) (i : Nat) (c : Ticket) : (x.setTicket i c).tenant = x.tenant := by
  unfold Slot.setTicket; split <;> rfl
@[simp] theorem Slot.setTicket_gen (x : Slot) (i : Nat) (c : Ticket) : (x.setTicket i c).gen = x.gen := by
  unfold Slot.setTicket; split <;> rfl
@[simp] theorem Slot.setTicket_kind (x : Slot) (i : Nat) (c : Ticket) : (x.setTicket i c).kind = x.kind := by
  unfold Slot.setTicket; split <;> rfl
@[simp] theorem Slot.setTicket_cmd (x : Slot) (i : Nat) (c : Ticket) : (x.setTicket i c).cmd = x.cmd := by
  unfold Slot.setTicket; split <;> rfl
@[simp] theorem Slot.setTicket_pcie (x : Slot) (i : Nat) (c : Ticket) : (x.setTicket i c).pcie = x.pcie := by
  unfold Slot.setTicket; split <;> rfl
@[simp] theorem Slot.setTicket_qp (x : Slot) (i : Nat) (c : Ticket) : (x.setTicket i c).qp = x.qp := by
  unfold Slot.setTicket; split <;> rfl
@[simp] theorem Slot.setTicket_arrival (x : Slot) (i : Nat) (c : Ticket) : (x.setTicket i c).arrival = x.arrival := by
  unfold Slot.setTicket; split <;> rfl
@[simp] theorem Slot.setTicket_hdr (x : Slot) (i : Nat) (c : Ticket) : (x.setTicket i c).hdr = x.hdr := by
  unfold Slot.setTicket; split <;> rfl
@[simp] theorem Slot.setTicket_text (x : Slot) (i : Nat) (c : Ticket) : (x.setTicket i c).text = x.text := by
  unfold Slot.setTicket; split <;> rfl
@[simp] theorem Slot.setTicket_v (x : Slot) (i : Nat) (c : Ticket) : (x.setTicket i c).v = x.v := by
  unfold Slot.setTicket; split <;> rfl
@[simp] theorem Slot.setTicket_h (x : Slot) (i : Nat) (c : Ticket) : (x.setTicket i c).h = x.h := by
  unfold Slot.setTicket; split <;> rfl
@[simp] theorem Slot.setTicket_flags (x : Slot) (i : Nat) (c : Ticket) : (x.setTicket i c).flags = x.flags := by
  unfold Slot.setTicket; split <;> rfl
@[simp] theorem Slot.setTicket_pc (x : Slot) (i : Nat) (c : Ticket) : (x.setTicket i c).pc = x.pc := by
  unfold Slot.setTicket; split <;> rfl
@[simp] theorem Slot.setTicket_stack (x : Slot) (i : Nat) (c : Ticket) : (x.setTicket i c).stack = x.stack := by
  unfold Slot.setTicket; split <;> rfl
@[simp] theorem Slot.setTicket_executed (x : Slot) (i : Nat) (c : Ticket) : (x.setTicket i c).executed = x.executed := by
  unfold Slot.setTicket; split <;> rfl
@[simp] theorem Slot.setTicket_handlerUsed (x : Slot) (i : Nat) (c : Ticket) : (x.setTicket i c).handlerUsed = x.handlerUsed := by
  unfold Slot.setTicket; split <;> rfl
@[simp] theorem Slot.setTicket_inHandler (x : Slot) (i : Nat) (c : Ticket) : (x.setTicket i c).inHandler = x.inHandler := by
  unfold Slot.setTicket; split <;> rfl
@[simp] theorem Slot.setTicket_hdepth (x : Slot) (i : Nat) (c : Ticket) : (x.setTicket i c).hdepth = x.hdepth := by
  unfold Slot.setTicket; split <;> rfl
@[simp] theorem Slot.setTicket_waiting (x : Slot) (i : Nat) (c : Ticket) : (x.setTicket i c).waiting = x.waiting := by
  unfold Slot.setTicket; split <;> rfl
@[simp] theorem Slot.setTicket_status (x : Slot) (i : Nat) (c : Ticket) : (x.setTicket i c).status = x.status := by
  unfold Slot.setTicket; split <;> rfl
@[simp] theorem Slot.setTicket_faultPos (x : Slot) (i : Nat) (c : Ticket) : (x.setTicket i c).faultPos = x.faultPos := by
  unfold Slot.setTicket; split <;> rfl
@[simp] theorem Slot.setTicket_faulted (x : Slot) (i : Nat) (c : Ticket) : (x.setTicket i c).faulted = x.faulted := by
  unfold Slot.setTicket; split <;> rfl
@[simp] theorem Slot.setTicket_original (x : Slot) (i : Nat) (c : Ticket) : (x.setTicket i c).original = x.original := by
  unfold Slot.setTicket; split <;> rfl
@[simp] theorem Slot.setTicket_notices (x : Slot) (i : Nat) (c : Ticket) : (x.setTicket i c).notices = x.notices := by
  unfold Slot.setTicket; split <;> rfl
@[simp] theorem Slot.setTicket_from_ (x : Slot) (i : Nat) (c : Ticket) : (x.setTicket i c).from_ = x.from_ := by
  unfold Slot.setTicket; split <;> rfl
@[simp] theorem Slot.setTicket_sliceAt (x : Slot) (i : Nat) (c : Ticket) : (x.setTicket i c).sliceAt = x.sliceAt := by
  unfold Slot.setTicket; split <;> rfl
@[simp] theorem Slot.setTicket_sliceLeft (x : Slot) (i : Nat) (c : Ticket) : (x.setTicket i c).sliceLeft = x.sliceLeft := by
  unfold Slot.setTicket; split <;> rfl
@[simp] theorem Slot.setTicket_smith (x : Slot) (i : Nat) (c : Ticket) : (x.setTicket i c).smith = x.smith := by
  unfold Slot.setTicket; split <;> rfl
@[simp] theorem Slot.setTicket_cached (x : Slot) (i : Nat) (c : Ticket) : (x.setTicket i c).cached = x.cached := by
  unfold Slot.setTicket; split <;> rfl
@[simp] theorem Slot.setTicket_stage (x : Slot) (i : Nat) (c : Ticket) : (x.setTicket i c).stage = x.stage := by
  unfold Slot.setTicket; split <;> rfl
@[simp] theorem Slot.setTicket_member (x : Slot) (i : Nat) (c : Ticket) : (x.setTicket i c).member = x.member := by
  unfold Slot.setTicket; split <;> rfl
@[simp] theorem Slot.setTicket_reply (x : Slot) (i : Nat) (c : Ticket) : (x.setTicket i c).reply = x.reply := by
  unfold Slot.setTicket; split <;> rfl
@[simp] theorem Slot.setTicket_p0 (x : Slot) (i : Nat) (c : Ticket) : (x.setTicket i c).p0 = x.p0 := by
  unfold Slot.setTicket; split <;> rfl
@[simp] theorem Slot.setTicket_p1 (x : Slot) (i : Nat) (c : Ticket) : (x.setTicket i c).p1 = x.p1 := by
  unfold Slot.setTicket; split <;> rfl
@[simp] theorem Slot.setTicket_handed (x : Slot) (i : Nat) (c : Ticket) : (x.setTicket i c).handed = x.handed := by
  unfold Slot.setTicket; split <;> rfl
@[simp] theorem Slot.setTicket_quenchAt (x : Slot) (i : Nat) (c : Ticket) : (x.setTicket i c).quenchAt = x.quenchAt := by
  unfold Slot.setTicket; split <;> rfl
@[simp] theorem Slot.setTicket_data (x : Slot) (i : Nat) (c : Ticket) : (x.setTicket i c).data = x.data := by
  unfold Slot.setTicket; split <;> rfl
@[simp] theorem Slot.setHdl_st (x : Slot) (i : BitVec 4) (d : Option Hdl) : (x.setHdl i d).st = x.st := by
  unfold Slot.setHdl; (repeat' split) <;> rfl
@[simp] theorem Slot.setHdl_tenant (x : Slot) (i : BitVec 4) (d : Option Hdl) : (x.setHdl i d).tenant = x.tenant := by
  unfold Slot.setHdl; (repeat' split) <;> rfl
@[simp] theorem Slot.setHdl_gen (x : Slot) (i : BitVec 4) (d : Option Hdl) : (x.setHdl i d).gen = x.gen := by
  unfold Slot.setHdl; (repeat' split) <;> rfl
@[simp] theorem Slot.setHdl_kind (x : Slot) (i : BitVec 4) (d : Option Hdl) : (x.setHdl i d).kind = x.kind := by
  unfold Slot.setHdl; (repeat' split) <;> rfl
@[simp] theorem Slot.setHdl_cmd (x : Slot) (i : BitVec 4) (d : Option Hdl) : (x.setHdl i d).cmd = x.cmd := by
  unfold Slot.setHdl; (repeat' split) <;> rfl
@[simp] theorem Slot.setHdl_pcie (x : Slot) (i : BitVec 4) (d : Option Hdl) : (x.setHdl i d).pcie = x.pcie := by
  unfold Slot.setHdl; (repeat' split) <;> rfl
@[simp] theorem Slot.setHdl_qp (x : Slot) (i : BitVec 4) (d : Option Hdl) : (x.setHdl i d).qp = x.qp := by
  unfold Slot.setHdl; (repeat' split) <;> rfl
@[simp] theorem Slot.setHdl_arrival (x : Slot) (i : BitVec 4) (d : Option Hdl) : (x.setHdl i d).arrival = x.arrival := by
  unfold Slot.setHdl; (repeat' split) <;> rfl
@[simp] theorem Slot.setHdl_hdr (x : Slot) (i : BitVec 4) (d : Option Hdl) : (x.setHdl i d).hdr = x.hdr := by
  unfold Slot.setHdl; (repeat' split) <;> rfl
@[simp] theorem Slot.setHdl_text (x : Slot) (i : BitVec 4) (d : Option Hdl) : (x.setHdl i d).text = x.text := by
  unfold Slot.setHdl; (repeat' split) <;> rfl
@[simp] theorem Slot.setHdl_v (x : Slot) (i : BitVec 4) (d : Option Hdl) : (x.setHdl i d).v = x.v := by
  unfold Slot.setHdl; (repeat' split) <;> rfl
@[simp] theorem Slot.setHdl_flags (x : Slot) (i : BitVec 4) (d : Option Hdl) : (x.setHdl i d).flags = x.flags := by
  unfold Slot.setHdl; (repeat' split) <;> rfl
@[simp] theorem Slot.setHdl_pc (x : Slot) (i : BitVec 4) (d : Option Hdl) : (x.setHdl i d).pc = x.pc := by
  unfold Slot.setHdl; (repeat' split) <;> rfl
@[simp] theorem Slot.setHdl_stack (x : Slot) (i : BitVec 4) (d : Option Hdl) : (x.setHdl i d).stack = x.stack := by
  unfold Slot.setHdl; (repeat' split) <;> rfl
@[simp] theorem Slot.setHdl_executed (x : Slot) (i : BitVec 4) (d : Option Hdl) : (x.setHdl i d).executed = x.executed := by
  unfold Slot.setHdl; (repeat' split) <;> rfl
@[simp] theorem Slot.setHdl_handlerUsed (x : Slot) (i : BitVec 4) (d : Option Hdl) : (x.setHdl i d).handlerUsed = x.handlerUsed := by
  unfold Slot.setHdl; (repeat' split) <;> rfl
@[simp] theorem Slot.setHdl_inHandler (x : Slot) (i : BitVec 4) (d : Option Hdl) : (x.setHdl i d).inHandler = x.inHandler := by
  unfold Slot.setHdl; (repeat' split) <;> rfl
@[simp] theorem Slot.setHdl_hdepth (x : Slot) (i : BitVec 4) (d : Option Hdl) : (x.setHdl i d).hdepth = x.hdepth := by
  unfold Slot.setHdl; (repeat' split) <;> rfl
@[simp] theorem Slot.setHdl_tickets (x : Slot) (i : BitVec 4) (d : Option Hdl) : (x.setHdl i d).tickets = x.tickets := by
  unfold Slot.setHdl; (repeat' split) <;> rfl
@[simp] theorem Slot.setHdl_waiting (x : Slot) (i : BitVec 4) (d : Option Hdl) : (x.setHdl i d).waiting = x.waiting := by
  unfold Slot.setHdl; (repeat' split) <;> rfl
@[simp] theorem Slot.setHdl_status (x : Slot) (i : BitVec 4) (d : Option Hdl) : (x.setHdl i d).status = x.status := by
  unfold Slot.setHdl; (repeat' split) <;> rfl
@[simp] theorem Slot.setHdl_faultPos (x : Slot) (i : BitVec 4) (d : Option Hdl) : (x.setHdl i d).faultPos = x.faultPos := by
  unfold Slot.setHdl; (repeat' split) <;> rfl
@[simp] theorem Slot.setHdl_faulted (x : Slot) (i : BitVec 4) (d : Option Hdl) : (x.setHdl i d).faulted = x.faulted := by
  unfold Slot.setHdl; (repeat' split) <;> rfl
@[simp] theorem Slot.setHdl_original (x : Slot) (i : BitVec 4) (d : Option Hdl) : (x.setHdl i d).original = x.original := by
  unfold Slot.setHdl; (repeat' split) <;> rfl
@[simp] theorem Slot.setHdl_notices (x : Slot) (i : BitVec 4) (d : Option Hdl) : (x.setHdl i d).notices = x.notices := by
  unfold Slot.setHdl; (repeat' split) <;> rfl
@[simp] theorem Slot.setHdl_from_ (x : Slot) (i : BitVec 4) (d : Option Hdl) : (x.setHdl i d).from_ = x.from_ := by
  unfold Slot.setHdl; (repeat' split) <;> rfl
@[simp] theorem Slot.setHdl_sliceAt (x : Slot) (i : BitVec 4) (d : Option Hdl) : (x.setHdl i d).sliceAt = x.sliceAt := by
  unfold Slot.setHdl; (repeat' split) <;> rfl
@[simp] theorem Slot.setHdl_sliceLeft (x : Slot) (i : BitVec 4) (d : Option Hdl) : (x.setHdl i d).sliceLeft = x.sliceLeft := by
  unfold Slot.setHdl; (repeat' split) <;> rfl
@[simp] theorem Slot.setHdl_smith (x : Slot) (i : BitVec 4) (d : Option Hdl) : (x.setHdl i d).smith = x.smith := by
  unfold Slot.setHdl; (repeat' split) <;> rfl
@[simp] theorem Slot.setHdl_cached (x : Slot) (i : BitVec 4) (d : Option Hdl) : (x.setHdl i d).cached = x.cached := by
  unfold Slot.setHdl; (repeat' split) <;> rfl
@[simp] theorem Slot.setHdl_stage (x : Slot) (i : BitVec 4) (d : Option Hdl) : (x.setHdl i d).stage = x.stage := by
  unfold Slot.setHdl; (repeat' split) <;> rfl
@[simp] theorem Slot.setHdl_member (x : Slot) (i : BitVec 4) (d : Option Hdl) : (x.setHdl i d).member = x.member := by
  unfold Slot.setHdl; (repeat' split) <;> rfl
@[simp] theorem Slot.setHdl_reply (x : Slot) (i : BitVec 4) (d : Option Hdl) : (x.setHdl i d).reply = x.reply := by
  unfold Slot.setHdl; (repeat' split) <;> rfl
@[simp] theorem Slot.setHdl_handed (x : Slot) (i : BitVec 4) (d : Option Hdl) : (x.setHdl i d).handed = x.handed := by
  unfold Slot.setHdl; (repeat' split) <;> rfl
@[simp] theorem Slot.setHdl_quenchAt (x : Slot) (i : BitVec 4) (d : Option Hdl) : (x.setHdl i d).quenchAt = x.quenchAt := by
  unfold Slot.setHdl; (repeat' split) <;> rfl
@[simp] theorem Slot.setHdl_data (x : Slot) (i : BitVec 4) (d : Option Hdl) : (x.setHdl i d).data = x.data := by
  unfold Slot.setHdl; (repeat' split) <;> rfl

end Sys2Proof.Machine
end

