-- ==== Sys2Proof/Tests/Slice0.lean ====
section
/-! SUPPORT. Tests of the model: ill-formed commands that WellFormed refuses, for every statement with hypotheses a state
and operands that meet them, and single steps whose results are worked out by hand from the spec. -/

-- One theorem at a time: many kernel evaluations at once would each hold a thread's stack.
set_option Elab.async false

namespace Sys2Proof.Tests

open Sys2Proof.Machine

/-- A booted device in HOT: strikes fire, commands are taken (SMT_CTRL.EXEC_EN), and the strike counter stands at 1000. -/
def up : State :=
  wr { State.reset with
    tb := { State.reset.tb with stopped := false, count := 1000 }
    boot := { State.reset.boot with stage := 12, mapsLoaded := true } } R.SMT_CTRL_EXEC_EN 1

/-- An instruction word's fields. -/
def fl (a b c mod imm : Nat) : Fields :=
  { a := BitVec.ofNat 4 a, b := BitVec.ofNat 4 b, c := BitVec.ofNat 4 c, mod := BitVec.ofNat 4 mod, imm := BitVec.ofNat 40 imm }

/-- The command answers a next state that satisfies `p`. -/
def ends (o : Host.Outcome State Fault Refusal) (p : State → Bool := fun _ => true) : Bool :=
  match o with
  | .next t => p t
  | _ => false

/-! ## Commands that are not well formed -/

/-- One ill-formed command for each check of WellFormed: each operand one past the last unit it can name. -/
theorem wf_refuses : ∀ i ∈ [Instr.stkPeriodWrite 10 0, .senseDone 2048, .verifyPass 0 16 0, .recentreDone 64 false,
    .selfRefreshEntry 4, .refreshDue 3 32 false, .keepAlive 16384,
    .capsuleReceived 0 { cmd := nvme0, data := [0], sendLen := 64 }, .sqEntryFetch 1024 0 nvme0, .slotQuenchDone 262144,
    .add 262144 (fl 0 0 0 0 0), .securityReceive 262144, .foreignFrame 8, .laneRequestDone 24,
    .blockCompressed 256, .crucibleRetentionEntry 32, .domainWakeDone 169, .housekeepingSample 32 .opened,
    .criticalComparatorTrip 23, .flushOvertempHalt 28, .eventArrival { source := 243, code := 0, param := [] },
    .eventArrival { source := 242, code := 0, param := List.replicate 13 0 }, .downNotice 64,
    .eventStatusClear 0 12 0, .memberPowerCommand 4 false, .tenantResetEnd 1024], i.wf = false := by decide +kernel

theorem wf_accepts : ∀ i ∈ [Instr.stkPeriodWrite 9 0, .senseDone 2047, .verifyPass 0 15 0, .recentreDone 63 false,
    .selfRefreshEntry 3, .refreshDue 3 31 false, .keepAlive 16383,
    .capsuleReceived 0 { cmd := nvme0, data := [0], sendLen := 65 }, .slotQuenchDone 262143, .securityReceive 262143,
    .foreignFrame 7, .laneRequestDone 23, .blockCompressed 255, .crucibleRetentionEntry 31, .domainWakeDone 168,
    .criticalComparatorTrip 24, .flushOvertempHalt 27, .downNotice 63, .eventStatusClear 0 11 0,
    .tenantResetEnd 1023], i.wf = true := by decide +kernel

/-- No row of the table gives its command bits, so no word spells one. -/
theorem test_no_word_spells_a_command : decodeTableWord 64 0 = none := rfl

/-! ## Orders and their words -/

/-- A buffer of one granule in the Crucible, holding the bytes given. -/
def page (b : Nat) (bytes : List Byte) : State → State := fun s =>
  setBuf s b (some { dram := false, granules := 1, bytes := bytes.zipIdx.foldl (fun (t : Tbl Byte) e => Tbl.set byte0 t e.2 e.1) []
                     tenant := 0, slot := 7, orphan := false, staged := false, quench := none, groups := [(0, 1)],
                     poison := [] })

/-- A running order of MF in slot 7, with buffers 1 and 2 at h0 and h1, v1 = 3, v2 = 8,
v4 = 1 and v5 = 2 (the namespaces of `spaces`), and 16 words of its slice left. -/
def runner : Slot :=
  { slot0 7 with st := .running, gen := 1, sliceLeft := 16, text := List.replicate 20 0 } |>.setVal 1 3 |>.setVal 2 8
    |>.setVal 4 1 |>.setVal 5 2
    |>.setHdl 0 (some { buf := 1, off := 0, len := 4096 }) |>.setHdl 1 (some { buf := 2, off := 0, len := 4096 })

/-- A zoned namespace 1 of four Bedrock zones, a conventional namespace 2 of 1000 blocks, and such a namespace 3 with
protection information of type 1, all of MF. -/
def spaces : State → State := fun s =>
  let zoned : Namespace :=
    { zoned := true, lbaf := 0, blocks := 4194304, zones := 4, iu := 4096, bedrock := true, bay := 0, op := 0,
      committed := 0, pi := 0, tenant := some 0, ready := true }
  let conv := { zoned with zoned := false, blocks := 1000, zones := 0, bedrock := false }
  setNs (setNs (setNs s 1 (some zoned)) 2 (some conv)) 3 (some { conv with lbaf := 1, pi := 1 })

/-- The device with the order about to run the word of `op` and `f`. -/
def ready (op : Nat) (f : Fields) : State :=
  setSlot (spaces (page 2 [] (page 1 [] up))) 7 { runner with text := instrWord op f :: List.replicate 19 0 }

/-- The word of `op` and `f` stands next and its own effect follows. -/
def issues (op : Nat) (f : Fields) (o : State → Nat → Fields → AsyncOp) (s : State := ready op f) : Bool :=
  atWord s 7 op f && asyncRuns s 7 f (o s 7 f)

theorem wit_ArithmeticWordsWriteResultAndFlags :
    (∀ e ∈ [(0x00, false), (0x01, false), (0x02, false), (0x03, false), (0x04, false), (0x05, false), (0x06, true)],
      atWord (ready e.1 (fl 15 1 0 1 0xFFFFFFFFFF)) 7 e.1 (fl 15 1 0 1 0xFFFFFFFFFF) ∧
      wordRuns (ready e.1 (fl 15 1 0 1 0xFFFFFFFFFF)) 7 (aluUnused (fl 15 1 0 1 0xFFFFFFFFFF) e.2)) ∧
    wordRuns (ready 0x06 (fl 0 1 2 4 0)) 7 (aluUnused (fl 0 1 2 4 0) true) := by decide +kernel

theorem wit_LoadCompareSelectTimeWords :
    (atWord (ready 0x07 (fl 3 0 0 2 0xFFFFFF)) 7 0x07 (fl 3 0 0 2 0xFFFFFF) ∧
      wordRuns (ready 0x07 (fl 3 0 0 2 0xFFFFFF)) 7 (ldiUnused (fl 3 0 0 2 0xFFFFFF))) ∧
    (atWord (ready 0x08 (fl 0 1 2 0 0)) 7 0x08 (fl 0 1 2 0 0) ∧
      wordRuns (ready 0x08 (fl 0 1 2 0 0)) 7 (aluUnused (fl 0 1 2 0 0) false && (fl 0 1 2 0 0).a == 0)) ∧
    (atWord (ready 0x09 (fl 4 1 2 3 0)) 7 0x09 (fl 4 1 2 3 0) ∧
      wordRuns (ready 0x09 (fl 4 1 2 3 0)) 7 (unusedZero (fl 4 1 2 3 0) true true true 3 0)) ∧
    (atWord (ready 0x82 (fl 4 0 0 2 0)) 7 0x82 (fl 4 0 0 2 0) ∧
      wordRuns (ready 0x82 (fl 4 0 0 2 0)) 7 (unusedZero (fl 4 0 0 2 0) true false false 3 0 && (fl 4 0 0 2 0).mod != 3)) := by
  decide +kernel

theorem wit_BranchAndCallWords :
    (∀ f ∈ [fl 0 0 0 0 1023, fl 1 0 0 1 0], atWord (ready 0x20 f) 7 0x20 f ∧
      wordRuns (ready 0x20 f) 7 (if f.m 0 then unusedZero f true false false 1 0 else unusedZero f false false false 1 10)) ∧
    (∀ e ∈ [(fl 3 0 0 0 5, true), (fl 1 0 0 0 1023, false), (fl 0 0 0 4 20, true)], ∀ op ∈ [0x21, 0x22],
      atWord (ready op e.1) 7 op e.1 ∧ wordRuns (ready op e.1) 7 (branchUnused e.1) ∧
      branchZero (ready op e.1) 7 e.1 = e.2) ∧
    (∀ n ∈ [0x00, 0x82], atWord (ready 0x23 (fl 0 0 0 0 n)) 7 0x23 (fl 0 0 0 0 n) ∧
      wordRuns (ready 0x23 (fl 0 0 0 0 n)) 7 (unusedZero (fl 0 0 0 0 n) false false false 0 10) ∧
      (getSlot (ready 0x23 (fl 0 0 0 0 n)) 7).stack.length < 4 ∧
      callable (ready 0x23 (fl 0 0 0 0 n)) (getSlot (ready 0x23 (fl 0 0 0 0 n)) 7).tenant ((fl 0 0 0 0 n).i 9 0)) ∧
    (codeAt (ready 0x20 (fl 0 0 0 0 19)) (getSlot (ready 0x20 (fl 0 0 0 0 19)) 7)).map (·.length) = some 20 := by
  decide +kernel

/-- The order of `ready`, after a change. -/
def readyWith (op : Nat) (f : Fields) (g : Slot → Slot) : State := updSlot (ready op f) 7 g

theorem wit_EndingAndWaitingWords :
    (let s := readyWith 0x24 (fl 0 0 0 0 0) fun x => { x with stack := [x.pc] }
     atWord s 7 0x24 (fl 0 0 0 0 0) ∧ endReturns (getSlot s 7) ∧
       wordRuns s 7 (unusedZero (fl 0 0 0 0 0) false false false 0 0)) ∧
    (let s := ready 0x24 (fl 0 0 0 0 0)
     atWord s 7 0x24 (fl 0 0 0 0 0) ∧ endReturns (getSlot s 7) = false ∧
       waitRuns s 7 (unusedZero (fl 0 0 0 0 0) false false false 0 0) 15) ∧
    (∀ f ∈ [fl 1 0 0 1 0, fl 0 0 0 0 0xFFFF], atWord (ready 0x90 f) 7 0x90 f ∧ waitRuns (ready 0x90 f) 7
      (if f.m 0 then unusedZero f true false false 1 0 else unusedZero f false false false 1 16) 15) ∧
    (∀ f ∈ [fl 1 0 0 1 0, fl 0 0 0 0 0xFFFF], atWord (ready 0x25 f) 7 0x25 f ∧ wordRuns (ready 0x25 f) 7
      (if f.m 0 then unusedZero f true false false 1 0 else unusedZero f false false false 1 16)) ∧
    (let s := ready 0x26 (fl 0 0 0 0 0)
     atWord s 7 0x26 (fl 0 0 0 0 0) ∧ wordRuns s 7 (unusedZero (fl 0 0 0 0 0) false false false 0 0) ∧
       pastEnd (countWord s 7 2) (getSlot (countWord s 7 2) 7) = false) ∧
    (let s := ready 0x80 (fl 0 0 0 0 15)
     atWord s 7 0x80 (fl 0 0 0 0 15) ∧ (fl 0 0 0 0 15).m 0 = false ∧
       waitRuns s 7 (unusedZero (fl 0 0 0 0 15) false false false 1 4) (BitVec.ofNat 4 ((fl 0 0 0 0 15).i 3 0))) ∧
    (∀ e ∈ [(1000 - 3, true), (1001 - 3, false)],
      let f := fl 0 1 0 1 e.1
      let s := ready 0x80 f
      atWord s 7 0x80 f ∧ f.m 0 ∧ wordRuns s 7 (unusedZero f false true false 1 40) ∧
        decide (((getSlot s 7).val f.b + f.imm.zeroExtend 64).toNat ≤ s.tb.count) = e.2) ∧
    (let s := ready 0x81 (fl 0 0 0 0 0)
     atWord s 7 0x81 (fl 0 0 0 0 0) ∧ waitRuns s 7 (unusedZero (fl 0 0 0 0 0) false false false 0 0) 15) := by decide +kernel

theorem wit_RegisterZeroAndWordFaults :
    (let s := readyWith 0x06 (fl 3 1 0 1 2) fun x => { x with executed := x.hdr.runLimit }
     atWord s 7 0x06 (fl 3 1 0 1 2) ∧ (getSlot s 7).inHandler = false ∧
       (getSlot s 7).hdr.runLimit ≤ (getSlot s 7).executed) ∧
    (let s := ready 0x00 (fl 3 1 0 4 2)
     atWord s 7 0x00 (fl 3 1 0 4 2) ∧ overLimit s 7 = false ∧ aluUnused (fl 3 1 0 4 2) false = false) := by decide +kernel

theorem wit_FaultsEnterHandlerOrPost :
    (let s := readyWith 0x00 (fl 0 0 0 0 0) fun x => { x with
       st := .suspended, hdr := { x.hdr with handlerValid := true, handler := 4 } }
     (getSlot s 7).st = .suspended ∧ (getSlot s 7).inHandler = false ∧
       handlerOf s (getSlot s 7) = some { pat := none, body := 0, word := 4 }) ∧
    (let s := readyWith 0x00 (fl 0 0 0 0 0) fun x => { x with st := .suspended }
     (getSlot s 7).inHandler = false ∧ handlerOf s (getSlot s 7) = none) ∧
    (let s := readyWith 0x00 (fl 0 0 0 0 0) fun x => { x with st := .suspended, inHandler := true, original := 0x4002 }
     (getSlot s 7).st = .suspended ∧ (getSlot s 7).inHandler = true) := by decide +kernel

theorem wit_ControlWordsLeaveDeviceState :
    ends (exec (.add 7 (fl 3 1 2 0 0)) (ready 0x00 (fl 3 1 2 0 0))) ∧
    ends (exec (.yield 7 (fl 0 0 0 0 0)) (ready 0x26 (fl 0 0 0 0 0))) := by decide +kernel

theorem wit_BufferAndTransferWordsIssue :
    issues 0x30 (fl 2 0 0 2 2097152) ballocOp ∧ issues 0x32 (fl 0 1 0 8 0) bfillOp ∧ issues 0x33 (fl 0 1 0 0 0) bcopyOp ∧
    issues 0x33 (fl 0 1 0 9 0) bcopyOp ∧ issues 0x40 (fl 0 1 0 1 0) hgetOp ∧ issues 0x41 (fl 0 1 0 1 0) hputOp ∧
    issues 0x91 (fl 1 2 0 0 0) noteOp ∧
    (let f := fl 1 0 0 0 0
     let s := ready 0x31 f
     atWord s 7 0x31 f ∧ wordRuns s 7 (unusedZero f true false false 0 0) ∧ f.a.toNat < 8 ∧
       (getSlot s 7).hdl f.a = some { buf := 2, off := 0, len := 4096 } ∧
       outIn (getSlot s 7) (hazards s (getSlot s 7) [] [2] none) = false) ∧
    (∀ f ∈ [fl 2 0 1 0 0, fl 2 0 0 1 0xFFFFFFFFFF],
      let s := ready 0x34 f
      atWord s 7 0x34 f ∧ wordRuns s 7 (unusedZero f true true (!f.m 0) 1 (if f.m 0 then 40 else 0)) ∧
        (getSlot s 7).hdl f.b = some { buf := 1, off := 0, len := 4096 } ∧
        outIn (getSlot s 7) (hazards s (getSlot s 7) [] [1] none) = false) := by decide +kernel

theorem wit_MediaReadAndWriteWordsIssue :
    issues 0x50 (fl 0 3 4 8 0) (readOp · · · true) ∧ issues 0x54 (fl 0 3 5 8 0) (readOp · · · false) ∧
    issues 0x57 (fl 0 3 4 0 0) parchkOp ∧ issues 0x83 (fl 3 3 4 0 0) plumbOp ∧ issues 0x83 (fl 3 3 5 1 0) plumbOp ∧
    issues 0x51 (fl 0 3 4 0 0) (zoneWriteOp · · · true) ∧ issues 0x52 (fl 1 1 4 0 0) (zoneWriteOp · · · false) ∧
    issues 0x55 (fl 0 1 5 0 0) cwriteOp ∧ issues 0x56 (fl 3 1 5 8 0) ctrimOp := by decide +kernel

theorem wit_ZoneManagementWordsIssue :
    (∀ code ∈ [0x01, 0x02, 0x03, 0x04, 0x05, 0x10], zmgmtIs (fl 0 3 4 0 code) false code ∧
      issues 0x53 (fl (if code = 0x10 then 1 else 0) 3 4 0 code) actionOp) ∧
    (∀ code ∈ [0, 1], zmgmtIs (fl 0 3 4 0 (0x100 + code)) true code ∧
      issues 0x53 (fl 0 3 4 0 (0x100 + code)) (reportOp · · · (code == 1))) := by decide +kernel

/-- The order of `ready` with bytes placed in its buffer 1, and h0 that long. -/
def holding (len : Nat) (bytes : List Byte) (op : Nat) (f : Fields) : State :=
  page 1 bytes (updSlot (ready op f) 7 (·.setHdl 0 (some { buf := 1, off := 0, len := len })))

/-- The parameter block of a small PCIe tenant, all of whose groups are in range (Table 10.1). -/
def smallBlock : List Byte :=
  leBytes 8 1 ++ leBytes 4 1 ++ leBytes 4 1 ++ leBytes 4 0 ++ leBytes 2 8191 ++ leBytes 2 1 ++ leBytes 16 0
    ++ leBytes 4 0x02000200 ++ leBytes 20 0 ++ leBytes 1 1

/-- The order of `ready` with keys for GCM at key slot 3 and for XTS at key slot 4, and its own Assay context 3. -/
def secured (op : Nat) (f : Fields) : State :=
  let k : KeyRec := { ktype := 1, usage := 0xFFFF, tenant := 0, keyId := 1, version := 1, key := List.replicate 32 0 }
  setCtx (setKey (setKey (ready op f) 3 (some k)) 4 (some { k with ktype := 2, key := List.replicate 64 0 }))
    3 (freshCtx (.order 7 0) false)

theorem wit_CipherAssayPatternWordsIssue :
    (∀ f ∈ [fl 0 1 3 0 4], issues 0x70 f (cipherOp · · 0x70 ·) (secured 0x70 f)) ∧
    (∀ f ∈ [fl 0 1 3 0 4], issues 0x71 f (cipherOp · · 0x71 ·) (secured 0x71 f)) ∧
    (∀ f ∈ [fl 0 1 0 0 3], issues 0x72 f (cipherOp · · 0x72 ·) (secured 0x72 f)) ∧
    issues 0x73 (fl 1 0 0 0 0) dgfeedOp (secured 0x73 (fl 1 0 0 0 0)) ∧
    issues 0x74 (fl 1 0 0 0 0) dgfinOp (secured 0x74 (fl 1 0 0 0 0)) ∧
    issues 0x75 (fl 0 0 0 4 0) dgloadOp ∧ issues 0xE2 (fl 0 0 0 0 0) keyloadOp ∧
    issues 0xE3 (fl 0 3 0 0 0x100) patloadOp (holding 16 (leBytes 6 0xFFFF00000001) 0xE3 (fl 0 3 0 0 0x100)) := by decide +kernel

theorem wit_ManagerWordsIssue :
    (let f := fl 0 4 0 0 0
     f.i 2 0 = 0 ∧ issues 0xE1 f tenantOp (holding 1152 smallBlock 0xE1 f)) ∧
    (let f := fl 0 3 0 0 1
     f.i 2 0 = 1 ∧ issues 0xE1 f tenantOp (holding 1152 [1] 0xE1 f)) ∧
    (∀ a ∈ [2, 3], issues 0xE1 (fl 0 4 0 0 a) tenantOp
      (setTen (ready 0xE1 (fl 0 4 0 0 a)) 1 { ten0 1 with st := .active, gen := 9 })) ∧
    issues 0xE1 (fl 0 3 0 0 4) tenantOp ∧ issues 0xE0 (fl 0 0 0 0 3) powerOp ∧
    issues 0xE4 (fl 0 0 0 0 5) opsetOp ∧ issues 0xE5 (fl 0 3 0 0 128) hmreadOp := by decide +kernel

/-- A request of the order in slot 7, number 30, as the registers above would capture it. -/
def asked (op : Nat) : Req :=
  { slot := 7, tenant := 0, gen := 1, issued := 990, ticket := none, pos := 4, op := op, mod := 0, imm := 0, va := 0,
    vb := 0, vc := 0, fa := 0, fb := 0, ha := none, hb := none, phase := .done, reads := [], writes := [], ctx := none,
    read := none, write := none, work := 0, key := none, result := 0, value := none, bytes := [], delivered := 0, lane := 0,
    doneAt := 0 }

/-- The device with that request outstanding, and the order in the state given. -/
def withReq (q : Req) (g : Slot → Slot) : State := setReq (readyWith 0x00 (fl 0 0 0 0 0) g) 30 (some q)

theorem wit_IssuedRequestCapturesOperands : ∀ i ∈ [0, 3], i < 4 := by decide

theorem wit_ResultsReachOrderOrTicket :
    (let s := withReq (asked 0x50) fun x => { x with st := .suspended, waiting := .attached 30 }
     getReq s 30 = some (asked 0x50) ∧ (getTen s 0).gen = 1 ∧ awaited s 30 (asked 0x50) ∧
       pastEnd s (getSlot s 7) = false) ∧
    (let q := { asked 0x50 with ticket := some 3 }
     let s := withReq q fun x => { x with tickets := x.tickets.set 3 (.out 30) }
     getReq s 30 = some q ∧ awaited s 30 q ∧ (getSlot s 7).st = .running) := by decide +kernel
/-! ## Commands on their way in and out -/

/-- `up` with the RoCE ports enabled and queue pair 9 live, with two credits. -/
def fabric : State :=
  setQp (wr up R.ETH_RT_CTRL_RT_EN 1) 9 { qp0 9 with st := .live, assoc := 4, credit := 2, sqsize := 32 }

/-- `up` as a member of a Wall (CFG_MODE 2), and as its head with members 1 and 2 live and one credit of member 1. -/
def member : State := { up with boot := { up.boot with cfgMode := 2, memberId := 3 } }
def head : State :=
  { up with boot := { up.boot with cfgMode := 1 }, wall := { up.wall with formed := true, live := 7, credits := [(1, 1)] } }

/-- `up` with function 5 ready, and one entry waiting in its submission queue 2. -/
def queued : State :=
  setFunc (setTen { up with port := { up.port with linkUp := true } } 5
    { ten0 5 with st := .active, gen := 1, blk := { tblock0 with slots := 1 } }) 5 { func0 5 with
    en := true, rdy := true, sqs := [(2, some { base := 0, size := 8, head := 0, tail := 1, cqid := 2 })],
    cqs := [(2, some { base := 0, size := 8, head := 0, tail := 0, cqid := 2 })] }

/-- An entry with an opcode. -/
def cmdOf (op : Nat) : NvmeCmd := { nvme0 with opcode := BitVec.ofNat 8 op }

theorem wit_CommandsEnterSlots :
    (∀ n ∈ [64, 8256], (getQp fabric 9).st = .live ∧ flag fabric R.ETH_RT_CTRL_RT_EN ∧ portsOpen fabric ∧
      isMember fabric = false ∧ 0 < (getQp fabric 9).credit ∧ 64 ≤ n ∧ n ≤ 8256 ∧ findSlot fabric = some 0) ∧
    (let s := setQp fabric 9 { getQp fabric 9 with credit := 0 }
     (getQp s 9).st = .live ∧ flag s R.ETH_RT_CTRL_RT_EN ∧ portsOpen s ∧ isMember s = false ∧ (getQp s 9).credit = 0) ∧
    (portsOpen queued ∧ isMember queued = false ∧ nextFetch queued = some (5, 2) ∧ (findSlot queued).isSome) ∧
    (let s := setSlot up 0 { slot0 0 with st := .arriving, kind := .byPointer }
     (getSlot s 0).st = .arriving ∧ (getSlot s 0).kind = .byPointer ∧ strikesRun s) ∧
    (isMember member ∧ portsOpen member ∧ findSlot member = some 0 ∧ takesCommands member 0 ∧
      (getTen member 0).gen = 1 ∧ seenBefore member 0 5 = false ∧ seenBefore (noteSeq member 0 5) 0 5) := by decide +kernel

/-- The device with slot 7 as given. -/
def slotIs (s : State) (x : Slot) : State := setSlot s 7 x

/-- An admin command of a tenant's function in slot 8. -/
def adminIn (s : State) (t : Nat) (c : NvmeCmd) : State :=
  setSlot s 8 { slot0 8 with st := .arriving, kind := .management, tenant := t, gen := 1, cmd := c }

theorem wit_TakenSlotHoldsTheCommand : ∀ j ∈ [0, 8], j ≠ 7 := by decide

theorem wit_CompletionsLeaveAndSlotsFree :
    (let s := slotIs up { slot0 7 with st := .posting, gen := 1 }
     (getSlot s 7).st = .posting ∧ (getSlot s 7).handed = false ∧ hostWritesDone s 7 ∧
       (getSlot s 7).gen = (getTen s (getSlot s 7).tenant).gen ∧ strikesRun s) ∧
    (let s := slotIs up { slot0 7 with st := .quench, quenchAt := 1000 }
     (getSlot s 7).st = .quench ∧ (getSlot s 7).quenchAt ≤ s.tb.count) ∧
    (let s := slotIs fabric { slot0 7 with st := .posting, gen := 1, qp := some 9 }
     (getSlot s 7).qp = some 9 ∧ (getSlot s 7).st = .posting ∧ (getQp s 9).st = .live ∧ hostWritesDone s 7) ∧
    (let s := withReq (asked 0x50) id
     getReq s 30 = some (asked 0x50) ∧ (asked 0x50).gen = (getTen s 0).gen ∧ strikesRun s ∧ (asked 0x50).phase = .done) ∧
    (let q := { asked 0x40 with phase := .queued }
     getReq (withReq q id) 30 = some q ∧ q.gen = (getTen (withReq q id) 0).gen ∧ strikesRun (withReq q id) ∧
       q.phase = .queued ∧ q.isHost) ∧
    (∀ p ∈ [ReqPhase.zeroing, .releasing],
      let q := { asked 0x71 with mod := 4, phase := p }
      getReq (withReq q id) 30 = some q ∧ q.op = 0x71 ∧ q.mod.getLsbD 2 ∧ q.held = false) ∧
    (∀ op ∈ [0x00, 0x24, 0x50], presentWord (ready op (fl 3 1 2 0 0)) 7 = some (instrWord op (fl 3 1 2 0 0)) ∧
      wordOp (instrWord op (fl 3 1 2 0 0)) = op) ∧
    ends (stepWord 7 (ready 0x00 (fl 3 1 2 0 0))) := by decide +kernel

/-- A transfer that member 1 asks of the head for the command in slot 7. -/
def transfer (write : Bool) (gen : Nat) : MemberTransfer :=
  { member := 1, slot := 7, tenant := 0, gen := gen, write := write, mode := 0, rkey := 0, addr := 0, data := [], seq := 5 }

theorem wit_WallCommandsTravel :
    (let s := slotIs head { slot0 7 with st := .suspended, gen := 1, member := some 1 }
     (getSlot s 7).member = some 1 ∧ isHead s ∧ (getSlot s 7).st = .suspended ∧ (getSlot s 7).stage = 0 ∧
       0 < Tbl.get nat0 s.wall.credits 1 ∧ s.wall.live.getLsbD 1 ∧ strikesRun s) ∧
    (let s := slotIs head { slot0 7 with st := .suspended, gen := 1, member := some 1, stage := 1 }
     isHead s ∧ (getSlot s 7).st = .suspended ∧ (getSlot s 7).stage = 1 ∧ (getSlot s 7).member.isSome ∧
       (getSlot s 7).gen = (getTen s (getSlot s 7).tenant).gen ∧ s.wall.live.getLsbD 1 ∧ (getSlot s 7).member = some 1 ∧
       seenBefore s 1 5 = false ∧ seenBefore (noteSeq s 1 5) 1 5 ∧
       (transfer true 1).gen = (getTen s (transfer true 1).tenant).gen ∧ (transfer true 1).write ∧
       (transfer false 1).write = false ∧ (transfer true 2).gen ≠ (getTen s (transfer true 2).tenant).gen) := by decide +kernel

/-- A standard command of MF on a namespace of `spaces` in slot 7, with its registers as R74 loads them. -/
def standard (op nsid nlb : Nat) (g : Slot → Slot := id) : State :=
  setSlot (spaces (page 2 [1] (page 1 [] up))) 7 (g ({ slot0 7 with
    st := .running, gen := 1, sliceLeft := 16, kind := .standard
    cmd := { cmdOf op with ptr := .host (4096 * (nlb + 1)) } }.setVal 3 (BitVec.ofNat 64 nlb) |>.setVal 7 (BitVec.ofNat 64 nsid)))

/-- Such a command of one block in a later stage, with so many bytes of the buffers 1 and `b` as its private buffers. -/
def staged (op nsid stage : Nat) (b : Nat := 1) (len : Nat := 4096) : State :=
  standard op nsid 0 fun x => { x with stage := stage, p0 := some { buf := 1, off := 0, len := len },
                                       p1 := some { buf := b, off := 0, len := len } }

/-- Such a command on namespace 3 that expects the reference tag 1 in a block whose tag is 0. -/
def wrongTag (op stage : Nat) : State :=
  standard op 3 0 fun x => { (x.setVal 3 (2 ^ 26)).setVal 5 1 with stage := stage }

/-- What the statements ask of a read's first stage and of its later ones, in this state. -/
def readStarts (op : Nat) (data : Bool) (s : State) : Bool :=
  let x := getSlot s 7
  stdReady s 7 op && x.stage == 0 && pieceLen s x 0 != 0
    && patternStarts s 7 (stdZoned s x) data false (stdBlocks x * hostSize s x)
    && stdWordRuns 7 (stdRead s 7 (stdLba x) (pieceLen s x 0 * stdSize s x))
def clean (op : Nat) (s : State) : Bool :=
  stdReady s 7 op && piFailure s (getSlot s 7) 0 (pieceLen s (getSlot s 7) 0) == none
def fails (op : Nat) (s : State) : Bool :=
  stdReady s 7 op && piFailure s (getSlot s 7) 0 (pieceLen s (getSlot s 7) 0) == some (2, 0x84, true)
def past (op p : Nat) (s : State) : Bool := stdReady s 7 op && pieceLen s (getSlot s 7) p == 0

theorem wit_StandardReadsRunTheirPatterns :
    (readStarts 0x02 true (standard 0x02 1 0) ∧ readStarts 0x02 true (standard 0x02 2 0) ∧
      clean 0x02 (staged 0x02 1 1) ∧ stdWordRuns 7 (stdHput (piOut (staged 0x02 1 1) 7 1) 7 0) ∧
      fails 0x02 (wrongTag 0x02 1) ∧ past 0x02 1 (staged 0x02 1 2)) ∧
    (readStarts 0x05 true (standard 0x05 1 0) ∧ readStarts 0x05 true (standard 0x05 2 0) ∧
      clean 0x05 (staged 0x05 1 1) ∧ stdWordRuns 7 (stdHget (staged 0x05 1 1) 7 9 0 4096 false) ∧
      fails 0x05 (wrongTag 0x05 1) ∧ past 0x05 1 (staged 0x05 1 2) ∧
      sameBytes (staged 0x05 1 2 1 16) (getSlot (staged 0x05 1 2 1 16) 7) ∧
      sameBytes (staged 0x05 1 2 2 16) (getSlot (staged 0x05 1 2 2 16) 7) = false) ∧
    (readStarts 0x0C false (standard 0x0C 1 0) ∧ readStarts 0x0C false (standard 0x0C 2 0) ∧
      clean 0x0C (staged 0x0C 1 1) ∧ fails 0x0C (wrongTag 0x0C 1) ∧ past 0x0C 1 (staged 0x0C 1 1)) := by decide +kernel

/-- What the statement asks of the first stage of Write and Zone Append, and of a later one that writes. -/
def fetchStarts (op : Nat) (zoned : Bool) (s : State) : Bool :=
  let x := getSlot s 7
  stdReady s 7 op && x.stage == 0 && pieceLen s x 0 != 0
    && patternStarts s 7 zoned true true (stdBlocks x * hostSize s x)
    && stdWordRuns 7 (stdHget s 7 8 0 (stdBlocks x * hostSize s x) true)
def writeRuns (op : Nat) (append : Bool) (s : State) : Bool :=
  stdReady s 7 op && !stdWriteHeld s 7 && piRefuses s 7 0 1 == none
    && stdWordRuns 7 (stdWrite (piIn s 7 0 1) 7 (stdLba (getSlot s 7)) append)
def tagRefused (op : Nat) (s : State) : Bool :=
  stdReady s 7 op && !stdWriteHeld s 7 && piRefuses s 7 0 1 == some (2, 0x84, true)

theorem wit_StandardWritesRunTheirPatterns :
    (fetchStarts 0x01 true (standard 0x01 1 0) ∧ fetchStarts 0x01 false (standard 0x01 2 0) ∧
      writeRuns 0x01 false (staged 0x01 1 1) ∧ writeRuns 0x01 false (staged 0x01 2 1) ∧ tagRefused 0x01 (wrongTag 0x01 1) ∧
      past 0x01 1 (staged 0x01 1 2)) ∧
    (let d := standard 0x08 2 0 (·.setVal 3 (2 ^ 25))
     let z := standard 0x08 2 0
     stdReady d 7 0x08 ∧ deac (getSlot d 7) ∧ (getSlot d 7).stage = 0 ∧ patternStarts d 7 false false true 0 ∧
       stdWordRuns 7 (stdTrim d 7 0 1) ∧ stdReady z 7 0x08 ∧ deac (getSlot z 7) = false ∧
       pieceLen z (getSlot z 7) 0 ≠ 0 ∧ patternStarts z 7 false false true 0 ∧
       stdWordRuns 7 (stdWrite (stageZeros z 7 0 1) 7 0 false) ∧ past 0x08 1 (staged 0x08 2 1)) ∧
    (fetchStarts 0x7D true (standard 0x7D 1 0) ∧ piType (standard 0x7D 1 0) (getSlot (standard 0x7D 1 0) 7) = 0 ∧
      stdReady (standard 0x7D 1 512) 7 0x7D ∧
      2097152 < stdBlocks (getSlot (standard 0x7D 1 512) 7) * stdSize (standard 0x7D 1 512) (getSlot (standard 0x7D 1 512) 7) ∧
      writeRuns 0x7D true (staged 0x7D 1 1) ∧ tagRefused 0x7D (wrongTag 0x7D 1) ∧ stdReady (staged 0x7D 1 2) 7 0x7D) := by
  decide +kernel

/-- A Dataset Management of namespace 2 with AD set, whose list in buffer 1 begins with these bytes. -/
def dsm (stage : Nat) (bytes : List Byte) : State :=
  page 1 bytes (standard 0x09 2 0 fun x => { x.setVal 2 4 with
    cmd := { x.cmd with ptr := .host 16 }, stage := stage, p0 := some { buf := 1, off := 0, len := 16 } })

/-- A zone management command with CDW13 as given, in a stage. -/
def zoneCmd (op dw13 len stage : Nat) : State :=
  standard op 1 0 fun x => { (x.setVal 3 1023).setVal 4 (BitVec.ofNat 64 dw13) with
    cmd := { x.cmd with ptr := .host len }, stage := stage, p0 := some { buf := 1, off := 0, len := 64 } }

theorem wit_StandardManagementRunsItsPatterns :
    stdReady (standard 0x00 1 0) 7 0x00 ∧
    (stdReady (standard 0x09 2 0) 7 0x09 ∧ ((getSlot (standard 0x09 2 0) 7).val 2).getLsbD 2 = false ∧
      stdReady (dsm 0 []) 7 0x09 ∧ ((getSlot (dsm 0 []) 7).val 2).getLsbD 2 ∧ badLength (getSlot (dsm 0 []) 7) 16 = false ∧
      dsmRanges (getSlot (dsm 0 []) 7) = 1 ∧ stdWordRuns 7 (stdHget (dsm 0 []) 7 8 0 16 false) ∧
      stdReady (dsm 1 [0, 0, 0, 0, 1]) 7 0x09 ∧
      dsmRange (dsm 1 [0, 0, 0, 0, 1]) (getSlot (dsm 1 [0, 0, 0, 0, 1]) 7) 0 = (0, 1) ∧
      stdWordRuns 7 (stdTrim (dsm 1 [0, 0, 0, 0, 1]) 7 0 1) ∧ stdReady (dsm 1 []) 7 0x09 ∧
      dsmRange (dsm 1 []) (getSlot (dsm 1 []) 7) 0 = (0, 0) ∧ stdReady (dsm 2 []) 7 0x09) ∧
    (let e := zoneCmd 0x79 0x10 64 0
     stdReady e 7 0x79 ∧ badLength (getSlot e 7) 64 = false ∧ stdWordRuns 7 (stdHget e 7 8 0 64 true) ∧
       stdReady (zoneCmd 0x79 0x10 64 1) 7 0x79 ∧ stdWordRuns 7 (sendAction (zoneCmd 0x79 0x10 64 1) 7) ∧
       stdReady (zoneCmd 0x79 0x10 64 2) 7 0x79 ∧ stdReady (zoneCmd 0x79 0x03 0 0) 7 0x79 ∧
       stdWordRuns 7 (sendAction (zoneCmd 0x79 0x03 0 0) 7) ∧ stdReady (zoneCmd 0x79 0x03 0 1) 7 0x79) ∧
    (let r := zoneCmd 0x7A 0x701 4096 0
     stdReady r 7 0x7A ∧ receiveLen (getSlot r 7) = 4096 ∧ badLength (getSlot r 7) 4096 = false ∧
       stdWordRuns 7 (receiveReport r 7) ∧ stdReady (zoneCmd 0x7A 0x801 4096 0) 7 0x7A ∧
       stdReady (zoneCmd 0x7A 0x02 4096 0) 7 0x7A ∧ stdReady (zoneCmd 0x7A 0x701 4096 1) 7 0x7A ∧
       stdWordRuns 7 (sendReport (zoneCmd 0x7A 0x701 4096 1) 7) ∧ stdReady (zoneCmd 0x7A 0x701 4096 2) 7 0x7A) := by
  decide +kernel

/-- MF's mailbox entry of slot 7. -/
def mail : MailEntry :=
  { reqId := 1, slot := 7, tenant := 6, gen := 1, action := 1, target := 0, data := [], arrival := 999 }

/-- `up` with tenant 6 and its Manager Request for action `a` in slot 7. -/
def asking (a : Nat) : State :=
  slotIs (setTen up 6 { ten0 6 with st := .active, gen := 1 }) { slot0 7 with
    st := .arriving, kind := .management, tenant := 6, gen := 1, cmd := { cmdOf 0xC2 with dw10 := BitVec.ofNat 32 a } }

theorem wit_ManagerMailboxCommands :
    (∀ a ∈ [1, 4], windowOpen (asking a) ∧ adminAt (asking a) 7 0xC2 ∧ (getSlot (asking a) 7).tenant ≠ 0 ∧
      1 ≤ (getSlot (asking a) 7).cmd.dw10.toNat % 256 ∧ (getSlot (asking a) 7).cmd.dw10.toNat % 256 ≤ 4 ∧
      mailOf (asking a) 6 < 4 ∧ (asking a).ord.mailbox.length < mailboxSize) ∧
    (let s := { asking 1 with ord := { (asking 1).ord with mailbox := List.replicate 4 mail } }
     4 ≤ mailOf s (getSlot s 7).tenant) ∧
    (let s := adminIn { asking 1 with ord := { (asking 1).ord with mailbox := [mail] } } 0 { cmdOf 0xC3 with dw10 := 1 }
     windowOpen s ∧ adminAt s 8 0xC3 ∧ senderOf s 8 = 0 ∧
       s.ord.mailbox.find? (fun m => m.reqId == (getSlot s 8).cmd.dw10.toNat % 65536) = some mail) ∧
    (let s := adminIn up 0 { cmdOf 0x02 with dw10 := 0xC9 }
     endpointOpen s ∧ logPageAt s 8 0xC9 ∧ senderOf s 8 = 0 ∧ logSpecific (getSlot s 8).cmd = 0) ∧
    (let s := adminIn { asking 1 with ord := { (asking 1).ord with mailbox := [mail] } } 0
       { cmdOf 0x02 with dw10 := 0xC9, dw11 := 0x10000 }
     endpointOpen s ∧ logPageAt s 8 0xC9 ∧ logSpecific (getSlot s 8).cmd = 1 ∧
       s.ord.mailbox.find? (fun m => m.reqId == logSpecific (getSlot s 8).cmd) = some mail) := by decide +kernel

/-- Namespace Management or Attachment of a tenant's function for namespace 1, in slot 8. -/
def nsCommand (op sel t : Nat) : State := adminIn (spaces up) t { cmdOf op with dw10 := BitVec.ofNat 32 sel, nsid := 1 }

/-- What the statement asks of such a command. -/
def nsCommandOk (op sel t : Nat) : Bool :=
  let s := nsCommand op sel t
  windowOpen s && adminAt s 8 (BitVec.ofNat 8 op) && cmdSel (getSlot s 8).cmd == sel && senderOf s 8 == t
    && decide ((getSlot s 8).cmd.dw12.toNat < 64) && (getSlot s 8).cmd.nsid.toNat != 0xFFFFFFFF && !isHead s

/-- A Wall head of four members with a namespace command of MF in slot 8: CDW12 names the member, or the NSID does. -/
def headNs (op dw12 nsid : Nat) : State :=
  adminIn { spaces head with wall := { head.wall with size := 4 } } 0
    { cmdOf op with dw12 := BitVec.ofNat 32 dw12, nsid := BitVec.ofNat 32 nsid }

/-- A conventional namespace of 1000 blocks. -/
def convParams : NsParams :=
  { zoned := false, ncap := 1000, lbaf := 0, iu := 0, cls := 0, bay := 0, op := 0, z := 0, pi := 0, reservedZero := true }

theorem wit_NamespaceCommandsOfManager :
    (∀ t ∈ [0, 6], nsCommandOk 0x0D 0 t ∧ nsCommandOk 0x0D 1 t ∧ nsCommandOk 0x15 0 t ∧ nsCommandOk 0x15 1 t) ∧
    ((getNs (spaces up) 1).map (·.tenant)) = some (some 0) ∧
    (let s := setTen (setNs up 1 ((getNs (spaces up) 1).map fun n => { n with tenant := none })) 6
       { ten0 6 with st := .active, gen := 1 }
     ((getNs s 1).map fun n => (n.tenant, n.zoned)) = some (none, true) ∧ (getTen s 6).st = .active) ∧
    (let s := setWord { spaces up with med := { (spaces up).med with dataCourses := 100, mapPool := 1 } }
       (R.FCH_FAM_WORD.key 0x24 0) 0x00400104
     isHead s = false ∧ paramsOk convParams ∧ freeNsid s = some 4 ∧
       committedCourses s + (nsOf s convParams).committed ≤ s.med.dataCourses ∧
       courseBytes s (nsOf s convParams).bedrock ≠ 0 ∧
       4 * (mappedUnits s + (nsOf s convParams).units) ≤ s.med.mapPool * 2 ^ 30) ∧
    (∀ m ∈ [0, 2], let s := headNs 0x0D m 1
     windowOpen s ∧ adminAt s 8 0x0D ∧ isHead s ∧ senderOf s 8 = 0 ∧ (getSlot s 8).cmd.dw12.toNat = m ∧ m < s.wall.size) ∧
    (∀ op ∈ [0x0D, 0x15], let s := headNs op 0 0x2001
     adminAt s 8 (BitVec.ofNat 8 op) ∧ (getSlot s 8).cmd.nsid.toNat ≠ 0xFFFFFFFF ∧
       nsidMember s (getSlot s 8).cmd.nsid.toNat = 2 ∧ 2 < s.wall.size) ∧
    (let s := headNs 0x0D 0 0xFFFFFFFF
     (getSlot s 8).cmd.nsid.toNat = 0xFFFFFFFF) := by decide +kernel

/-! ## Strikes, dies, channels and courses -/

theorem wit_StrikeRunsOrFlushGoesOn :
    (up.tb.stopped = false ∧ up.pwr.halted = false ∧ up.blw.flush = none) ∧
    (∀ b ∈ [false, true],
      let f : FlushRun := { thermal := false, supply := true, started := b, recs := 0, total := 0, written := 0 }
      let s := { up with blw := { up.blw with flush := some f } }
      s.tb.stopped = false ∧ s.pwr.halted = false ∧ s.blw.flush = some f ∧ f.started = b) ∧
    State.reset.tb.stopped ∧ { up with pwr := { up.pwr with halted := true } }.pwr.halted := by decide +kernel

/-- Course 5 of namespace 1, zone 0, on slabs 0 to 15 (channels 0 to 15, die 32 * channel), with row 0 filled. -/
def course : Course :=
  { kind := .zone, nsid := 1, owner := 0, slabs := List.range 16, bedrock := false, bay := 0, hint := 0, isOpen := true,
    fill := 4194304, finished := false, sent := 0, keyLeft := 0, done := List.replicate 16 0,
    units := Vector.replicate 16 { row := 0, bitmap := 0, st := .none, moved := 0, sensed := 0 }, set := none, mends := [],
    closeStrike := 0, lastWrite := 0, marked := false, wear := false, copied := 0, holes := [] }

/-- The device with that course, and die 480 (channel 15) as given. -/
def withCourse (k : Course) (x : Die := { die0 0 with present := true }) : State :=
  setDie (setCourse (spaces up) 5 (some k)) 480 x

/-- Position 15 of the course in a state of its program. -/
def unitIn (st : UnitState) : Course :=
  course.setUnit 15 { row := 0, bitmap := 0, st := st, moved := 512, sensed := 16 }

/-- A mend of position 15 to slab 527, with no row on its way, and a course with it. -/
def mend : Mend :=
  { pos := 15, slab := 527, retire := 1, row := 0, unit := { row := 0, bitmap := 0, st := .none, moved := 0, sensed := 0 }
    phase := .between, lost := [] }
def mended (m : Mend) : Course := { course with mends := [m] }

/-- A die with a program that has ended. -/
def programmed (g : ProgTarget) : Die :=
  { die0 0 with present := true, st := .programming, target := some g, polled := true }

/-- A die whose erase of slab 15 has ended, and the state of that slab. -/
def eraseEnds (y : Slab) : State :=
  setSlab (withCourse course { die0 0 with present := true, st := .erasing, erasing := true, slab := 15, polled := true }) 15 y

theorem wit_DieOperationsEnd :
    (let s := withCourse (unitIn .sending) (programmed (.unit 5 15 0))
     (getDie s 480).target = some (.unit 5 15 0) ∧ statusDue (getDie s 480) ∧ getCourse s 5 = some (unitIn .sending) ∧
       ((unitIn .sending).unit 15).st = .sending ∧ ((unitIn .sending).unit 15).row = 0 ∧
       slabDie ((unitIn .sending).slabs.getD 15 0) = 480) ∧
    (let s := withCourse (mended mend) (programmed (.mend 5 15 0))
     (getDie s 480).target = some (.mend 5 15 0) ∧ statusDue (getDie s 480)) ∧
    (let s := withCourse course (programmed .journal)
     (getDie s 480).target = some .journal ∧ statusDue (getDie s 480)) ∧
    (∀ y ∈ [slab0 15, { slab0 15 with fail := 3 }, { slab0 15 with st := .system }],
      (getDie (eraseEnds y) 480).erasing ∧ statusDue (getDie (eraseEnds y) 480) ∧ getSlab (eraseEnds y) 15 = y) ∧
    (slab0 15).reserved = false ∧ ({ slab0 15 with st := .system } : Slab).reserved ∧
    (let s := withCourse course { die0 0 with present := true, st := .programming, susSent := true, polled := true }
     (getDie s 480).susSent ∧ (getDie s 480).polled ∧ (getDie s 480).resetting = false ∧ (getDie s 480).lost = false) ∧
    (let s := withCourse (unitIn .programmed) { die0 0 with present := true, bg := some (.verify 5 15), polled := true }
     (getDie s 480).sensing = none ∧ (getDie s 480).bg = some (.verify 5 15) ∧ (getDie s 480).polled ∧
       (getDie s 480).resetting = false ∧ (getDie s 480).lost = false ∧ getCourse s 5 = some (unitIn .programmed) ∧
       ((unitIn .programmed).unit 15).st = .programmed) ∧
    (let x : PlanStep := { who := .order 3, part := 0, si := 990, sd := 1000 }
     let s := withCourse course { die0 0 with present := true, st := .reading, sensing := some x }
     (getDie s 480).sensing = some x ∧ (getDie s 480).resetting = false ∧ (getDie s 480).lost = false ∧
       x.sd ≤ s.tb.count + 1) ∧
    (let s := withCourse course { die0 0 with present := true, progs := [(.journal, 0)] }
     (getDie s 480).progs = [(.journal, 0)] ∧ (getDie s 480).aged = false ∧ 0 + rd s R.STK_SUSP_PROG_AGE ≤ s.tb.count) := by
  decide +kernel

theorem wit_TimeoutsTrainingAndReleases :
    (let s := withCourse course { die0 0 with
       present := true, st := .programming, target := some .journal, runTotal := 4000001 }
     (getDie s 480).present ∧ (getDie s 480).lost = false ∧ (getDie s 480).resetting = false ∧ timedOut s (getDie s 480)) ∧
    (getDie (withCourse course { die0 0 with present := true, resetting := true }) 480).resetting ∧
    (let s := setChan up 63 { chan0 63 with st := .training }
     (getChan s 63).st = .training ∧ startRate s 63 = (⟨0, by decide⟩ : Fin 3).val ∧
       startRate s 63 < (⟨2, by decide⟩ : Fin 3).val) ∧
    (getChan (setChan up 63 { chan0 63 with st := .ready, recentre := 1 }) 63).recentre = 1 ∧
    (let s := { up with med := { up.med with releases := [(4, some { slabs := [3], until_ := 1000, retire := 0 })] } }
     Tbl.get Tbl.absent s.med.releases 4 = some { slabs := [3], until_ := 1000, retire := 0 } ∧ 1000 ≤ s.tb.count ∧
       devOn s [3] = false) := by
  decide +kernel

theorem wit_RowsUnitsAndMends :
    (getCourse (withCourse course) 5 = some course ∧ rowReady (withCourse course) course ∧ strikesRun (withCourse course)) ∧
    (let k := unitIn .programmed
     getCourse (withCourse k) 5 = some k ∧ k.mendAt 15 = none ∧ k.kind = .zone ∧
       readBackIn (withCourse k) (k.unit 15) (k.slabs.getD 15 0) ∧ 0 ≤ rdForce (withCourse k) R.MED_LADDER_REFRESH_TH ∧
       rdForce (withCourse k) R.MED_LADDER_REFRESH_TH < 65536 ∧ (k.unit 15).st = .programmed ∧ 0 < (k.unit 15).sensed) ∧
    (let k := { unitIn .programmed with kind := .collect }
     k.kind ≠ .zone ∧ k.kind ≠ .conv ∧ k.mendAt 15 = none ∧ readBackIn (withCourse k) (k.unit 15) (k.slabs.getD 15 0)) ∧
    (let m := { mend with unit := (unitIn .programmed).unit 15 }
     getCourse (withCourse (mended m)) 5 = some (mended m) ∧ (mended m).mendAt 15 = some m ∧
       readBackIn (withCourse (mended m)) m.unit m.slab ∧ m.unit.st = .programmed ∧ 0 < m.unit.sensed) ∧
    (((unitIn .verifying).unit 15).st = .verifying ∧ ((unitIn .verifying).unit 15).bitmap = 0) ∧
    (let s := withCourse (mended mend)
     getCourse s 5 = some (mended mend) ∧ (mended mend).mends.find? (mendCaught s 5 (mended mend)) = some mend ∧
       5 ∈ (mendOrder s).take (max 1 (rdForce s R.MED_GC_CTRL_PARALLEL))) ∧
    (let d := { course with kind := .dest, isOpen := false, finished := true, fill := 0 }
     let z : Zone := { zone0 0 with st := .full, course := some 5, hidden := .migrating, moveTo := some 9 }
     let s := setZone (setCourse (withCourse course) 9 (some d)) 1 0 z
     getCourse s 5 = some course ∧ course.kind = .zone ∧ (getZone s 1 0).moveTo = some 9 ∧
       (getZone s 1 0).hidden = .migrating ∧ (getZone s 1 0).course = some 5 ∧ (getZone s 1 0).cutAt = none ∧
       getCourse s 9 = some d ∧ allVerified s d) ∧
    (let r : Collection := { victim := 5, valid := 0, urgent := 0, copied := 0, host := 0, stripe := 0, copies := [] }
     let d : Domain := { courses := 2, run := some r, dest := none, borrowed := false, repay := [] }
     let s := setDomain (withCourse course) 2 0 (some d)
     getDomain s 2 0 = some d ∧ d.run = some r ∧ r.copies = [] ∧ validUnits s 2 r.victim = [] ∧ s.fl.devs = []) := by
  decide +kernel

/-- One codeword of a read, in step 4 of the ladder with its page in the write buffer, and a read of it. -/
def part : RdPart :=
  { die := 480, slab := 15, course := 5, page := 15, cw := 0, si := 900, sd := 940, slast := 950, bursts := [], need := 8,
    moved := 8, sensed := some 940, decoded := false, ladder := { noLadder with step := 4 }, companion := false, seg := none, segRun := false }
def reading : ReadPlan :=
  { s0 := 890, promise := 960, adm := 0, cause := none, deadline := 0, parts := [part], segs := [], around := false, voided := true, postAt := 1000,
    period := 4, data := [], unrec := false }

theorem wit_RowsUnitsAndMends_ladder :
    let q := { asked 0x50 with phase := .admitted, read := some reading }
    let s := setReq (withCourse course) 30 (some q)
    (readerParts s (.order 30))[0]? = some part ∧ ladderRuns s (.order 30) 0 part true := by decide +kernel

/-- A write of one block to zone 0 of namespace 1, or to namespace 2. -/
def writing (nsid : Nat) : WritePlan :=
  { nsid := nsid, zone := if nsid = 1 then some 0 else none, lba := 0, blocks := 1, bay := none, cls := none,
    bytes := [], gated := false, placed := false, merged := false, remap := false }

/-- Sixteen erased slabs, one on each of channels 0 to 15. -/
def erased : State → State := fun s =>
  { s with med := { s.med with slabs := (List.range 16).map fun a => (a, { slab0 a with st := .erased }) } }

theorem wit_WaitingMediaInstructionsGoOn :
    (postDue (withReq { asked 0x50 with phase := .effect, read := some reading } id) 30) ∧
    (let q := { asked 0x50 with phase := .pending, vc := 1 }
     getReq (withReq q id) 30 = some q ∧ pendingReady (withReq q id) q) ∧
    (let q := { asked 0x51 with phase := .pending, write := some (writing 1) }
     getReq (withReq q id) 30 = some q ∧ pendingReady (withReq q id) q ∧ q.op ≠ 0x50 ∧ q.op ≠ 0x54 ∧ q.op ≠ 0x57) ∧
    (let q := { asked 0x51 with phase := .placed, write := some (writing 1) }
     getReq (erased (withReq q id)) 30 = some q ∧ formationReady (erased (withReq q id)) q) ∧
    (let q := { asked 0x53 with phase := .waitAction, imm := 0x04, write := some (writing 1) }
     getReq (withReq q id) 30 = some q ∧ (getNs (withReq q id) 1).isSome ∧
       ∀ n, getNs (withReq q id) 1 = some n → actBlocked (withReq q id) 30 (q.imm.toNat % 256) (writing 1) n = false) := by
  refine ⟨by decide +kernel, by decide +kernel, by decide +kernel, by decide +kernel, by decide +kernel, by decide +kernel, ?_⟩
  intro n h
  cases h
  decide +kernel

/-! ## Registers, the Hallmark, ports, functions and tenants -/

theorem wit_RegisterPairsReadWhole :
    (∀ req ∈ [0, 9], accessOpen up req) ∧ isLow 0x40001C ∧ isHigh (0x40001C + 4) := by decide +kernel

theorem wit_BayMaskUnderSixteenIsRefused :
    accessOpen up 9 ∧
    ((List.range 64).filter fun ch => (BitVec.ofNat 64 (0x7FFF + 0 * 2 ^ 32)).getLsbD ch).length < 16 ∧
    16 ≤ ((List.range 64).filter fun ch => (BitVec.ofNat 64 (0x7FFF + 1 * 2 ^ 32)).getLsbD ch).length := by decide +kernel

theorem wit_RegisterAccessByCode :
    (∀ addr ∈ [0x100008, 0x100009, 0xFFFFFC], isLow addr = false ∧ isHigh addr = false) ∧ accessOpen up 0 ∧
    0x100008 % 4 = 0 ∧ 0x100009 % 4 ≠ 0 ∧ (0x100008 : Nat) ≠ R.GLB_SW_RESET_KEY.addr ∧
    (forMf 9 = false ∧ forMf 8 ∧ (0x5EEC : W32).toNat % 65536 ≠ 0x5EED) ∧ regAt 0xFFFFFC = none ∧
    (regAt 0x100008).isSome := by decide +kernel

theorem wit_WritesKeepLockedAndReadOnlyBits : ∃ r, r ∈ regMap := ⟨regMap.head (by decide), List.head_mem _⟩

theorem wit_WritesWithTheirOwnEffect :
    accessOpen up 0 ∧ (11 : Nat) < 12 ∧ (1 : W32).getLsbD 0 ∧ (0 : W32).getLsbD 0 = false := by decide +kernel

/-- A record, and a device that commits it. -/
def record : HmRecord := { seq := 1, code := 0x0101, repeat_ := 1, cycle := 0, opMs := 0, param := [] }
def recording (rewriting : Bool) : State :=
  { up with hm := { up.hm with committing := some record, rewriting := rewriting } }

theorem wit_HallmarkTakesEveryEvent :
    (∀ b ∈ [false, true], (recording b).hm.committing = some record ∧ (recording b).hm.rewriting = b ∧
      (recording b).hm.degraded = false) ∧ up.pwr.st ≠ .cold ∧
    (let s := adminIn up 0 { cmdOf 0x02 with dw10 := 0xC8 }
     endpointOpen s ∧ logPageAt s 8 0xC8) := by decide +kernel

theorem wit_RecorderCountsOrLosesNoRepeat :
    (recording false).hm.committing = some record ∧ record.same 0x0101 [] ∧ record.same 0x0102 [] = false ∧
    (let h := { (recording false).hm with fifo := [{ record with code := 0x0102 }] }
     h.fifo.any (fun x => x.same 0x0102 []) ∧ h.fifo.any (fun x => x.same 0x0103 []) = false ∧
       h.fifo.length + b2n h.lost.isSome < 64) ∧
    (let h := { (recording false).hm with fifo := List.replicate 63 record }
     h.fifo.any (fun x => x.same 0x0103 []) = false ∧ h.fifo.length + b2n h.lost.isSome < 64 ∧ h.fifo.length ≤ 64) ∧
    0 < { (recording false).hm with pendingRep := 1 }.pendingRep := by decide +kernel

/-- The address 10.0.0.1, and a device whose logical port 7 of four per port is up and has it. -/
def ip : IpAddr := { v6 := false, addr := 0x0A000001 }
def linked : State :=
  let s := setLPort (wrAt fabric R.ETH_PORT_CFG_EN 4 0 1) 7 { lport0 7 with up := true, mode := 2 }
  { s with port := { s.port with ips := [(28, some (ip, 24))] } }

theorem wit_PortsAnswerTheirOwnAddresses :
    (let s := setLPort linked 7 { getLPort linked 7 with up := false }
     (getLPort s 7).up ≠ true ∧ isMember s = false ∧ portEnabled s (portOf 7) ∧ lportExists (getLPort s 7).mode 7) ∧
    ((getLPort linked 7).up ≠ false ∧ (getLPort linked 7).up ∧ linked.pwr.st = .hot ∧ ownAddress linked 7 ip ∧
      vlanOk linked 7 none ∧ vlanOk linked 7 (some 5) = false ∧ ownAddress linked 7 { ip with v6 := true } = false) ∧
    (let s := wrAt (wrAt linked R.ETH_LPORT_CFG_PFC_EN 0 7 1) R.ETH_LPORT_CFG_PRIO 0 7 3
     lportField s R.ETH_LPORT_CFG_PFC_EN 7 = 1 ∧ lportField s R.ETH_LPORT_CFG_PRIO 7 = (3 : BitVec 3).toNat ∧
       lportField s R.ETH_LPORT_CFG_PRIO 7 ≠ (4 : BitVec 3).toNat) ∧
    qpWorks linked 9 := by decide +kernel

/-- An admin Connect of association 6 by the name `[1]`, which tenant 6 has. -/
def admitMe : ConnectCmd := { nqn := [1], discovery := false, sqsize := 31, admin := true, assoc := 6 }
def connecting : State :=
  setQp (setTen fabric 6 { ten0 6 with st := .active, gen := 1, blk := { tblock0 with fabric := true, nqns := [[1]] } })
    8 { qp0 8 with st := .connected }

theorem wit_QueuePairsConnectAndFail :
    ((getLPort linked 7).up ∧ flag linked R.ETH_RT_CTRL_RT_EN ∧ windowOpen linked ∧ findQp linked = some 0) ∧
    { admitMe with discovery := true }.discovery ∧
    ((getQp connecting 8).st = .connected ∧ windowOpen connecting ∧ assocQps connecting 6 = [] ∧
      nqnTenant connecting [1] = some 6 ∧ nqnTenant connecting [2] = none ∧ connectStatus connecting 6 admitMe ≠ (0, 0)) ∧
    (let s := setTen connecting 6 { getTen connecting 6 with blk := { (getTen connecting 6).blk with queues := 1 } }
     connectStatus s 6 admitMe = (0, 0)) ∧
    (let s := setQp fabric 9 { getQp fabric 9 with admin := true }
     (getQp s 9).st = .live ∧ (getQp s 9).admin ∧
       (s.port.qps.filter fun e => e.2.st == .live && e.2.assoc == 4) ≠ []) ∧
    (qpWorks fabric 9 ∧ R.ETH_RT_CTRL_RETRY_CNT.of (getQp fabric 9).rtWord ≤ (getQp fabric 9).ackTries) ∧
    (let s := setQp fabric 9 { getQp fabric 9 with rtWord := 0xFFFFFFFF }
     qpWorks s 9 ∧ (getQp s 9).ackTries < R.ETH_RT_CTRL_RETRY_CNT.of (getQp s 9).rtWord) := by decide +kernel

theorem wit_CongestionControlCommands :
    (let s := setQp fabric 9 { getQp fabric 9 with npWord := 0xFFFFFFFF }
     qpWorks s 9 ∧ R.ETH_CC_NP_NP_EN.of (getQp s 9).npWord = 1 ∧ R.ETH_CC_NP_RP_EN.of (getQp s 9).npWord = 1 ∧
       (getQp s 9).lastCnpUs = none) ∧
    (let x := { getQp fabric 9 with npWord := 0xFFFFFFFF, lastCnpUs := some 0 }
     R.ETH_CC_NP_INTERVAL.of x.npWord ≤ R.ETH_CC_NP_INTERVAL.of x.npWord - 0 ∧ ¬ R.ETH_CC_NP_INTERVAL.of x.npWord ≤ 0 - 0) ∧
    (qpWorks fabric 9 ∧ R.ETH_CC_NP_NP_EN.of (getQp fabric 9).npWord ≠ 1 ∧
      R.ETH_CC_NP_RP_EN.of (getQp fabric 9).npWord ≠ 1) := by decide +kernel

theorem wit_PcieFunctionsAndQueues :
    (up.port.linkUp = false ∧ isMember up = false ∧ windowOpen up ∧ 6 ≤ maxSpeed up ∧ 8 ∈ [1, 2, 4, 8] ∧ 8 ≤ maxWidth up) ∧
    (queued.port.linkUp ∧ windowOpen queued ∧ (getFunc queued 5).rdy ∧ (getFunc queued 6).rdy = false ∧
      (getFunc queued 0).rdy = false ∧ functionWorks queued 0 ∧ functionWorks queued 6 = false) ∧
    (let s := setTen queued 5 { getTen queued 5 with blk := { tblock0 with queues := 4 } }
     createStatus s 5 4095 2 (getFunc s 5).cqs = (0, 0) ∧ createStatus s 5 4095 4096 (getFunc s 5).sqs = (0, 0) ∧
       createStatus s 5 2 2 (getFunc s 5).cqs ≠ (0, 0) ∧ (Tbl.get Tbl.absent (getFunc s 5).cqs 2).isSome) ∧
    (∀ op ∈ [0, 1, 4, 5], ∀ q ∈ [2, 4095],
      let s := adminIn queued 5 { cmdOf op with dw10 := BitVec.ofNat 32 (65536 + q), dw11 := 0x20000 }
      (getFunc s (senderOf s 8)).rdy ∧ windowOpen s ∧ adminAt s 8 (BitVec.ofNat 8 op) ∧ queueId (getSlot s 8).cmd = q ∧
        queueSize (getSlot s 8).cmd = 2 ∧ (getSlot s 8).cmd.dw11.toNat / 65536 = 2) ∧
    ((Tbl.get Tbl.absent (getFunc queued 5).sqs 2).isSome ∧
      ((getFunc queued 5).sqs.any (fun e => (e.2.map (·.cqid)) == some 2)) = true ∧
      Tbl.get Tbl.absent (getFunc queued 5).sqs 3 = none) ∧
    (ringDist 8 1 7 ≤ 8 - 1 - ringDist 8 0 1 ∧ 8 - 1 - ringDist 8 0 1 < ringDist 8 1 0 ∧
      ringDist 8 0 0 ≤ ringDist 8 0 0 ∧ ringDist 8 0 0 < ringDist 8 0 1) ∧
    (let s := setFunc queued 5 { getFunc queued 5 with sqs := [] }
     (Tbl.get Tbl.absent (getFunc s 5).cqs 2).isSome ∧ (getFunc s 5).rdy ∧
       ((getFunc s 5).sqs.any (fun e => (e.2.map (·.cqid)) == some 2)) = false) ∧ up.pwr.halted = false ∧ up.pwr.st = .hot := by
  decide +kernel

theorem wit_TenantsResetAndRecordDirtyPages :
    (let s := withReq { asked 0x40 with gen := 2, phase := .queued } id
     getReq s 30 = some { asked 0x40 with gen := 2, phase := .queued } ∧ (getTen s 0).gen ≠ 2) ∧
    (∀ st ∈ [TState.resetting, .destroying],
      let s := setTen up 6 { ten0 6 with st := st, gen := 2 }
      (getTen s 6).resetAt = none ∧ oldRequests s 6 = false ∧ (getTen s 6).st = st ∧ (getTen s 6).flrWaiting = false ∧
        slotsUsed s 6 = 0) ∧
    (let s := setTen up 6 { ten0 6 with st := .resetting, gen := 2, flrWaiting := true }
     (getTen s 6).flrWaiting ∧ (getTen s 6).st = .resetting ∧ genClash s 6 = false) ∧
    (let s := setTen member 6 { ten0 6 with st := .active, gen := 2 }
     isMember s ∧ (getTen s 6).there ∧ (getTen s 1023).there = false) ∧ windowOpen up ∧
    (let s := setTen up 6 { ten0 6 with st := .active, gen := 2, dirty := { dirtyOff with busy := true, swapAt := 999 } }
     (getTen s 6).dirty.busy ∧ (getTen s 6).dirty.swapNext = false ∧ (getTen s 6).dirty.en = false ∧
       writesBefore s 6 (getTen s 6).dirty.swapAt = false) := by decide +kernel

theorem wit_TokensAndRatesStayInTheirBounds :
    (let x := { mfTenant with blk := { mfBlock with rdDepth := 512, wrDepth := 512 }, rd := 512, wr := 0 }
     x.rd ≤ x.blk.rdDepth ∧ x.wr ≤ x.blk.wrDepth) ∧ (0 : Nat) < 3 ∧ (1 : Nat) ≤ 1 ∧
    (let x := { qp0 9 with alpha := 2 ^ 32, rc := 10000 * 65536, rt := 10000 * 65536 }
     x.alpha ≤ 2 ^ 32 ∧ rateMin x ≤ x.rc ∧ x.rt ≤ 25000 * 65536 ∧ x.rc ≤ x.rt) := by decide +kernel

/-! ## Cipher, Assay, security operations, memories, power, losses, the Wall and resets -/

/-- An operation that SEC core 1 holds, done or not. -/
def secOp (fin : Bool) : SecOp := { req := .identity, fin := fin, status := (0, 0), answer := [], asked := none }
def sending (l : List SecOp) : State := { up with asy := { up.asy with secOps := l } }

theorem wit_CipherAndAssayCommands :
    (let s := setLane (withReq (asked 0x70) id) 23 { lane0 23 with finished := [30] }
     (getLane s 23).finished = [30] ∧ getReq s 30 = some (asked 0x70)) ∧
    (let s := setLane (withReq { asked 0x71 with doneAt := 999 } id) 23 { lane0 23 with releasing := some 30 }
     (getLane s 23).releasing = some 30 ∧ (999 : Nat) < s.tb.count) ∧
    (let q := { asked 0x71 with phase := .zeroing, lane := 23 }
     zeroingOn (withReq q id) 23 = some (30, q)) ∧
    (let s := setCtx up 255 { freshCtx .register true with busy := true, readyAt := 999 }
     let t := { s with asy := { s.asy with left := [(7, 100)] } }
     groupTurn t (homeGroup 255) = some 255 ∧ domServes t (asDom (homeGroup 255)) ∧
       blockCost (getCtx t 255).sha512 ≤ groupLeft t (homeGroup 255) ∧ strikesRun t) ∧
    (windowOpen up ∧ (0x80000000 : W32).getLsbD 31 ∧ allocContext up 0 = some 0 ∧ regOwned up 3 = false) ∧
    (let s := setTen up 0 { mfTenant with blk := { mfBlock with assay := 0 } }
     allocContext s 0 = none) ∧ regOwned (setCtx up 3 (freshCtx .register false)) 3 := by decide +kernel

theorem wit_SecurityProtocolCommands :
    (sending (List.replicate 7 (secOp false))).asy.secOps.length < 8 ∧
    8 ≤ (sending (List.replicate 8 (secOp false))).asy.secOps.length ∧ (List.replicate 32 (0 : Byte)).length = 32 ∧
    (∃ o ∈ (sending [secOp false]).asy.secOps, o.fin = false) ∧
    (∀ b ∈ [false, true], windowOpen (sending [secOp b]) ∧ (sending [secOp b]).asy.secOps = secOp b :: [] ∧
      (secOp b).req.code = 1 ∧ (secOp b).asked = none ∧ (secOp b).fin = b) ∧
    (∀ t ∈ [0, 6], ∀ op ∈ [1, 2, 3, 4],
      let c := { cmdOf 0x81 with dw10 := BitVec.ofNat 32 (0xF0000000 + 256 * op) }
      sendAt (adminIn up t c) 8 op ∧ senderOf (adminIn up t c) 8 = t ∧
        adminAt (adminIn (sending [secOp true]) t { c with opcode := 0x82 }) 8 0x82 ∧ secProtocol c = 0xF0 ∧
        secOperation c = op) ∧
    ((sending [secOp true]).asy.secOps.all fun o => o.req.code != 2 || o.asked.isSome) := by
  refine ⟨by decide, by decide, by decide, ⟨_, List.mem_singleton_self _, rfl⟩, by decide +kernel, by decide +kernel,
    by decide +kernel⟩

/-- The memories at work, with DRAM channel 3 as given. -/
def drams (x : DramCh) : State := setDram (wr up R.DRM_CTRL_EN 1) 3 x

theorem wit_MemoryCommands :
    (let s := drams { dram0 3 with entering := true }
     dramRuns s ∧ (getDram s 3).entering) ∧
    (let s := drams { dram0 3 with sr := true, idle := 8191 }
     dramRuns s ∧ (getDram s 3).sr ∧ (getDram s 3).entering = false ∧ (getDram s 3).exiting = false ∧
       (getDram s 3).gated = false ∧ (getDom s (125 + 3)).st = .on ∧ rdForce s R.DRM_SR_CTRL_GATE_EN = 1 ∧
       rdForce s R.DRM_SR_CTRL_GATE_IDLE ≤ (getDram s 3).idle ∧ gateAllowed s (125 + 3)) ∧
    (let s := drams { dram0 3 with sr := true, exiting := true }
     dramRuns s ∧ (getDram s 3).sr ∧ (getDram s 3).exiting ∧ (getDram s 3).gated = false ∧ domServes s (125 + 3)) ∧
    (let s := drams { dram0 3 with openRows := [31], owed := [(31, 3)] }
     (getDram s 3).sr = false ∧ 31 ∈ (getDram s 3).openRows ∧ (getDram s 3).entering = false ∧
       rd s R.DRM_SCRUB_HOURS ≠ 0 ∧ dramChannel 0x3000 = 3 ∧
       placeThere s { crucible := false, addr := 0x3000, place := .structures } ∧ s.pwr.st = .hot ∧ strikesRun s) ∧
    placeThere (page 1 [] up) { crucible := true, addr := 0, place := .buffer 1 4095 } ∧
    (let s := setGroup up 15 { group0 15 with idle := 65535 }
     (getGroup s 15).retention = false ∧ (getDom s (137 + 15)).st = .on ∧ rd s R.CRU_CTRL_IDLE ≤ (getGroup s 15).idle ∧
       groupBusy s 15 = false ∧ neverRetained s 15 = false ∧ allowsNs s (137 + 15) 500) := by decide +kernel

theorem wit_SwitchedDomainsGateAndWake :
    (let s := setDom up 67 { dom0 0 67 with idle := 64 }
     autoGates 67 ∧ (getDom s 67).st = .on ∧ flag s R.PWR_AUTO_EN ∧ rd s R.PWR_AUTO_IDLE ≤ (getDom s 67).idle ∧
       domIdle s 67 ∧ gateAllowed s 67) ∧
    (∀ m ∈ [false, true],
      let s := setDom up 67 { dom0 0 67 with st := .draining, mgr := m }
      (getDom s 67).st = .draining ∧ (getDom s 67).mgr = m ∧ (getDom s 67).back = false ∧ domDrained s 67) ∧
    (let s := wr (setDom up 67 { dom0 0 67 with st := .draining, mgr := true, drainAt := 999 }) R.PWR_DRAIN_LIMIT_STRIKES 1
     (getDom s 67).mgr ∧ (getDom s 67).drainAt + drainLimit s ≤ s.tb.count) ∧
    ((getDom (setDom up 168 { dom0 0 168 with st := .waking }) 168).st = .waking ∧ isDm 168 = false) ∧
    forMf 8 ∧ forMf 9 = false ∧ windowOpen up := by decide +kernel

/-- The device asleep in a state, with all wake events enabled. -/
def asleep (st : PState) : State := wr { linked with pwr := { linked.pwr with st := st } } R.PWR_WAKE_EN_EN 0x3F

theorem wit_WakeEventsAct :
    ((asleep .banked).pwr.halted = false ∧ (asleep .banked).pwr.st ≠ .hot ∧
      (rd (asleep .banked) R.PWR_WAKE_EN_EN).testBit 4 ∧ (rd (wr up R.PWR_WAKE_EN_EN 0) R.PWR_WAKE_EN_EN).testBit 4 = false ∧
      (asleep .banked).hkp.shutdown = false ∧ (asleep .ember).pwr.st = .ember ∧ isMember (asleep .ember) = false) ∧
    rd (wr (asleep .cold) R.PWR_WAKE_TIMER_MS 1) R.PWR_WAKE_TIMER_MS ≠ 0 ∧
    isMember { (asleep .banked) with boot := member.boot } ∧
    (getLPort (asleep .banked) 7).up ∧ ownAddress (asleep .banked) 7 ip ∧
    (let s := { asleep .banked with port := { (asleep .banked).port with linkUp := true } }
     s.pwr.st = .banked ∧ s.port.linkUp ∧ s.port.heldTlps + 65536 ≤ 65536) ∧
    (let s := { asleep .cold with hkp := { (asleep .cold).hkp with shutdown := true } }
     s.hkp.shutdown ∧ s.pwr.thermHeld = none ∧ coolEnough s ∧
       { s.pwr with thermHeld := some 0x20 }.thermHeld = some 0x20) := by decide +kernel

/-- An entry at a step, begun at strike 990 by a Set Features of slot 7. -/
def entering (step : Nat) : State :=
  { up with pwr := { up.pwr with entry := some { target := .banked, step := step, startAt := 990, by_ := .feature 7 1,
                                                 abort := [], heldHot := [], failing := false } } }
def sequencing (p : OpPhase) : State :=
  { up with pwr := { up.pwr with seq := some { rid := 30, target := 3, up := true, phase := p } } }

/-- Set Features for a power state, in slot 7. -/
def feature (s : State) (t state : Nat) : State :=
  slotIs s { slot0 7 with st := .arriving, kind := .management, tenant := t
                          cmd := { cmdOf 0x09 with dw10 := 0xC0, dw11 := BitVec.ofNat 32 state } }

theorem wit_PowerEntriesAndPoints :
    (∀ t ∈ [0, 6], featureSlot (feature up t 1) 7) ∧
    (∀ n ∈ [0, 1], PState.ofCode ((getSlot (feature up 0 n) 7).cmd.dw11.toNat % 4) = .ofCode n) ∧
    (PState.ofCode 1 ≠ .hot ∧ PState.ofCode 0 = .hot ∧ entryRefusal (adminHold (feature up 0 1) 7) (.ofCode 1) = 0x0000 ∧
      entryRefusal (adminHold (feature (entering 1) 0 1) 7) (.ofCode 1) ≠ 0x0000) ∧
    (∀ t ∈ [0, 6], let s := adminIn up t { cmdOf 0x0A with dw10 := 0xC0 }
      endpointOpen s ∧ adminAt s 8 0x0A ∧ (getSlot s 8).cmd.dw10.toNat % 256 = 0xC0 ∧ senderOf s 8 = t) ∧
    ((entering 4).pwr.entry.isSome ∧ (∀ e, (entering 4).pwr.entry = some e → entryReady (entering 4) e) ∧
      windowOpen (entering 4) ∧ (entering 4).blw.flush = none ∧
      990 + drainLimit (wr (entering 4) R.PWR_DRAIN_LIMIT_STRIKES 10) ≤ (entering 4).tb.count) ∧
    (isMember member ∧ endpointOpen member ∧ member.pwr.st ≠ .banked ∧ entryRefusal member (.ofCode 1) = 0x0000 ∧
      endpointOpen { member with pwr := { member.pwr with st := .banked } } ∧
      { member with pwr := (entering 1).pwr }.pwr.entry.map (fun e : Entry => e.step) = some 1) ∧
    (∀ p ∈ [OpPhase.voltage, .lowering, .lockPll],
      (sequencing p).pwr.seq = some { rid := 30, target := 3, up := true, phase := p }) ∧
    (let s := { up with tb := { up.tb with perPend := some 2 } }
     s.tb.perPend = some 2 ∧ strikesRun s ∧ longReads s 2 = false ∧ s.wall.announced = none) := by
  refine ⟨by decide +kernel, by decide +kernel, by decide +kernel, by decide +kernel, ⟨by decide +kernel, ?_,
    by decide +kernel, by decide +kernel, by decide +kernel⟩, by decide +kernel, by decide +kernel, by decide +kernel⟩
  intro e h
  cases h
  decide +kernel

/-- The Bellows armed, with the bank at its target. -/
def armed (g : Bellows → Bellows := id) : State :=
  { up with blw := g { up.blw with armed := true, vhv := 511, vbank := rd up R.BLW_CHG_TARGET } }

theorem wit_BellowsChargesAndTests :
    (up.blw.armed = false ∧ up.blw.vhv < rd up R.BLW_LOSS_TH_TH + 10 ∧ windowOpen up ∧ armed.blw.armed ∧
      rd up R.BLW_LOSS_TH_TH + 10 ≤ 511) ∧
    ((armed fun b => { b with bankFault := true }).blw.bankFault ∧
      (armed fun b => { b with bankFault := true }).blw.vbank ≤ bankTarget (armed fun b => { b with bankFault := true })) ∧
    (395 < 396 ∧ armed.blw.bleeding = false ∧ bankTarget armed ≤ 395) ∧
    (let s := armed fun b => { b with bleeding := true, bleedFrom := b.vbank + 3 }
     s.blw.bleeding ∧ s.blw.bleedChecked = false ∧ s.blw.vbank + 3 ≤ s.blw.bleedFrom) ∧
    (let s := armed fun b => { b with bleeding := true, bleedFrom := b.vbank + 2 }
     s.blw.bleeding ∧ s.blw.bleedFrom < s.blw.vbank + 3) ∧
    (let s := armed fun b => { b with chgEn := true, vbank := 0, test := .charging }
     s.blw.chgEn ∧ s.blw.vbank < bankTarget s ∧ s.blw.test = .charging) ∧
    (let s := wr (armed fun b => { b with capLow := true }) R.BLW_TEST_PERIOD_H 1
     s.blw.bankSw = false ∧ s.pwr.halted = false ∧ rdForce s R.BLW_TEST_PERIOD_H ≠ 0 ∧ s.blw.capLow ∧
       s.blw.testing = false) ∧
    (let s := armed fun b => { b with test := .waiting }
     s.blw.test = .waiting ∧ 511 < 512 ∧ s.blw.periodic = false) ∧
    (let s := armed fun b => { b with test := .bleeding, v1 := 370 }
     s.blw.test = .bleeding ∧ s.blw.v1 < 366 + 5 ∧ 365 + rdForce s R.BLW_TEST_DV ≤ 365 + 511) := by decide +kernel

/-- A flush under way. -/
def flow (thermal : Bool) (total : Nat) : State :=
  { armed with blw := { armed.blw with flush := some { thermal := thermal, supply := !thermal, started := true, recs := 64,
                                                       total := total, written := 0 } } }

theorem wit_LossesAndHeatFlush :
    (armed.blw.bankSw = false ∧ armed.pwr.halted = false ∧ armed.pwr.st = .hot ∧
      { armed with pwr := { armed.pwr with st := .cold } }.pwr.st = .cold) ∧
    (0 + flushUnit (flow false (flushUnit armed + 1)) < flushUnit armed + 1 ∧
      flushUnit armed ≤ 0 + flushUnit (flow false (flushUnit armed)) ∧ (flow true 0).blw.flush.isSome) ∧
    (let s := { up with med := { up.med with areaHeld := true } }
     s.med.areaHeld ∧ s.blw.flush = none ∧ strikesRun s ∧ restoredVerified s) ∧
    (let s := wr up R.HKP_EN_EN 1
     inputOn s 0 ∧ (-2048 : Int) ≤ -2048 ∧ (2047 : Int) < 2048) := by decide +kernel

/-- Link port 3 in a state. -/
def linkIn (s : State) (st : LinkState) (replays : Nat) : State := setCk s 3 { port0 3 with st := st, replays := replays }

theorem wit_CourseLinksAndWall :
    (∀ n ∈ [2, 3], (getCk (linkIn head .up n) 3).st = .up ∧ head.pwr.halted = false ∧
      decide ((getCk (linkIn head .up n) 3).replays < 3) = (n == 2)) ∧
    ((getCk (linkIn head .training 0) 3).st = .training ∧ head.boot.cfgMode ≠ 0 ∧
      (let r : LinkReport := { passed := true, peer := peerAt 16 8 0 3, size := 16, skip := 8, delay := 40 }
       wiredRight (linkIn head .training 0) 3 r ∧ wiredRight (linkIn head .training 0) 3 { r with size := 15 } = false)) ∧
    (isMember (linkIn member .up 0) ∧ (getCk (linkIn member .up 0) 3).st = .up ∧ member.boot.memberId.toNat < 4 ∧
      3 ≤ member.boot.memberId.toNat) ∧
    (let s := { linkIn head .down 0 with wall := { (linkIn head .down 0).wall with formed := false, recompute := true } }
     isHead s ∧ s.wall.formed = false ∧ (getCk s 3).st ≠ .off ∧ (getCk s 3).st ≠ .training ∧ s.wall.recompute) ∧
    (let p : Packet := { dest := 1, seq := 9, sentAt := 936, slot := none }
     let s := { head with wall := { head.wall with packets := [(9, some p)] } }
     Tbl.get Tbl.absent s.wall.packets 9 = some p ∧ strikesRun s ∧ 256 ≤ (s.tb.count - p.sentAt) * perQ s) ∧
    (head.wall.live.getLsbD 2 ∧ 2 ∉ head.wall.failedAt) ∧
    (let s := { linkIn member .up 0 with wall := { (linkIn member .up 0).wall with formed := true, noMarker := 4 } }
     isMember s ∧ s.wall.formed ∧ strikesRun s ∧ (getCk s 3).st = .up ∧ s.wall.holdover = false ∧ 4 ≤ s.wall.noMarker) := by
  decide +kernel

theorem wit_FlushHoldsOffResets :
    (flow false 1).blw.flush ≠ none ∧ windowOpen (flow false 1) ∧
    (let s := { flow false 1 with boot := { up.boot with wdtRunning := true }, port := queued.port }
     s.port.linkUp ∧ s.boot.wdtRunning ∧ s.pwr.halted = false ∧ s.blw.flush ≠ none) := by decide +kernel

theorem wit_ResetsAndFaultsOfTheBoard :
    (up.blw.flush = none ∧ isMember member ∧ { up.boot with wdtRunning := true }.wdtRunning ∧ windowOpen queued ∧
      queued.port.linkUp ∧ (0x4E564D64 : W32) ≠ 0x4E564D65 ∧ forMf 8 ∧ (0x15EED : W32).toNat % 65536 = 0x5EED) ∧
    (let s := { up with pwr := { up.pwr with halted := true }, blw := { up.blw with recOpen := true, recFinal := true } }
     s.pwr.halted ∧ s.blw.recOpen ∧ s.blw.recFinal) ∧
    ((flow false 1).blw.flush.isSome ∧ { (flow false 1).blw with bankSw := true }.bankSw) ∧
    up.pwr.halted = false ∧ up.boot.stage ≠ 0 := by decide +kernel

theorem wit_LostDiesAndFloorsOutliveResets :
    (let s := setDie up 2047 { die0 0 with present := true, resetting := true }
     (getDie s 2047).resetting ∧ s.med.slabs = [] ∧ s.med.courses = [] ∧ s.ord.reqs = [] ∧ s.fl.devs = []) ∧
    (getCourse (withCourse course) 5 = some course ∧ course.kind = .zone) ∧
    Tbl.sorted (setDie up 2047 { die0 0 with lost := true }).fl.dies ∧
    (getDie (setDie up 2047 { die0 0 with lost := true }) 2047).lost := by decide +kernel

/-- Images of a slot that are not complete. -/
def images : SlotImages := ⟨noImage, noImage⟩

theorem wit_BootAndFirmwareCommands :
    (∀ n ∈ [5, 11], let s := { up with boot := { up.boot with stage := n, mapsLoaded := false } }
      5 ≤ s.boot.stage ∧ s.boot.stage ≤ 11 ∧ s.boot.mapsLoaded = false ∧ windowOpen s) ∧
    (∀ t ∈ [0, 6], ∀ op ∈ [0x10, 0x11], ∀ a ∈ [0, 1, 2],
      let s := adminIn up t { cmdOf op with dw10 := BitVec.ofNat 32 (8 * a) }
      packageHolds s images ∧ senderOf s 8 = t ∧ adminAt s 8 (BitVec.ofNat 8 op) ∧ commitAction (getSlot s 8).cmd = a ∧
        windowOpen s) ∧
    (let s := adminIn up 0 { cmdOf 0x11 with dw11 := 0 }
     4 * (getSlot s 8).cmd.dw11.toNat = s.boot.package.length ∧ 0 + [0, 0, 0, (0 : Byte)].length ≤ packageMax) ∧
    (∀ z ∈ [false, true], commitTarget up 2 z = some true) ∧ up.boot.commit = none ∧ up.pwr.entry = none ∧
    { up.boot with commit := some (true, images, 0) }.commit = some (true, images, 0) := by decide +kernel

theorem wit_ManagementEndpointCommands :
    endpointOpen up ∧ endpointOpen (asleep .cold) = false ∧ (0xC1 : Nat) ≠ wakeIdentifier ∧
    Tbl.get Tbl.absent { up with port := { up.port with miCfg := [(2, some 5)] } }.port.miCfg 2 = some 5 ∧
    tunnelAllowed 0x09 = false ∧ flag up R.PCI_MI_CTRL_ADMIN_WR = false := by decide +kernel
/-! ## Single steps, with results worked out from the spec -/

/-- The step takes the front command and leaves the rest (95_what_each_step_holds.md); an empty queue idles. -/
theorem test_step_takes_the_front :
    ends (step { up with pending := [.opMsPersistTimer 5, .opMsPersistTimer 7] })
      (fun t => t.pending == [.opMsPersistTimer 7] && t.hm.opMs == 5) ∧
    ends (step up) (fun t => t.pending == []) := by decide +kernel

/-- ADD zero-extends its immediate: 3 + (2^40 - 1), with no flag set (Table 4.4); the word counts (R65). -/
theorem test_add_immediate : ends (exec (.add 7 (fl 15 1 0 1 0xFFFFFFFFFF)) (ready 0x00 (fl 15 1 0 1 0xFFFFFFFFFF))) fun t =>
    let x := getSlot t 7
    x.val 15 == 0x10000000002#64 && x.flags == { z := false, c := false, n := false, f := false } && x.executed == 1
      && x.pc.word == 1 := by decide +kernel

/-- SUB 3 - 8 borrows: C and N (Table 4.4). -/
theorem test_sub_borrows : ends (exec (.sub 7 (fl 1 1 2 0 0)) (ready 0x01 (fl 1 1 2 0 0))) fun t =>
    (getSlot t 7).val 1 == (-5 : W64) && (getSlot t 7).flags == { z := false, c := true, n := true, f := false } := by
  decide +kernel

/-- SHL takes its count modulo 64: by 64 it leaves the operand and clears C (Table 4.4). -/
theorem test_shl_by_64 : ends (exec (.shl 7 (fl 3 1 0 1 64)) (ready 0x05 (fl 3 1 0 1 64))) fun t =>
    (getSlot t 7).val 3 == 3#64 && !(getSlot t 7).flags.c := by decide +kernel

/-- SHR with mod[2] keeps the sign (Table 4.4). -/
theorem test_shr_arithmetic :
    ends (exec (.shr 7 (fl 3 1 0 5 1)) (updSlot (ready 0x06 (fl 3 1 0 5 1)) 7 (·.setVal 1 (-3)))) fun t =>
      (getSlot t 7).val 3 == (-2 : W64) && (getSlot t 7).flags == { z := false, c := true, n := true, f := false } := by
  decide +kernel

/-- LDI with mod 2 writes bits 63 to 40 and keeps the rest (Table 4.4). -/
theorem test_ldi_upper : ends (exec (.ldi 7 (fl 1 0 0 2 0xABCDEF)) (ready 0x07 (fl 1 0 0 2 0xABCDEF))) fun t =>
    (getSlot t 7).val 1 == 0xABCDEF0000000003#64 := by decide +kernel

/-- A word with an unused place that is not 0 faults with ILLEGAL_OP, and with no handler the order posts it (R66, R84). -/
theorem test_unused_place_faults : ends (exec (.add 7 (fl 1 1 2 8 0)) (ready 0x00 (fl 1 1 2 8 0))) fun t =>
    (getSlot t 7).st == .posting && (getSlot t 7).status == 0x6001 && (getSlot t 7).val 1 == 3#64 := by decide +kernel

/-- BALLOC of 4096 bytes gives h2 a fresh buffer of one granule (R93). -/
theorem test_balloc : ends (exec (.balloc 7 (fl 2 0 0 2 4096)) (ready 0x30 (fl 2 0 0 2 4096))) fun t =>
    (getReq t 0).map (·.op) == some 0x30 && (getSlot t 7).st == .suspended := by decide +kernel

/-- A capsule without credit gets an RNR NAK and takes no slot (R217). -/
theorem test_capsule_without_credit :
    ends (exec (.capsuleReceived 9 { cmd := nvme0, data := [], sendLen := 64 })
      (setQp fabric 9 { getQp fabric 9 with credit := 0 })) fun t =>
    t.out == [.rnrNak 9] && rd t R.ETH_RNR_CNT_RNR == 1 && t.ord.slots == [] := by decide +kernel

/-- A fetch moves the submission queue's head by one and takes a slot for the tenant of the function (R227, R230). -/
theorem test_fetch_moves_head : ends (exec (.sqEntryFetch 5 2 nvme0) queued) fun t =>
    ((Tbl.get Tbl.absent (getFunc t 5).sqs 2).map (·.head)) == some 1 && (getSlot t 0).tenant == 5
      && (getSlot t 0).pcie == some (5, 2) := by decide +kernel

/-- A cut with alpha 1 halves the rate, and the target takes the rate it had (R225). -/
theorem test_first_cnp_halves :
    ends (exec (.cnpReceived 9) (setQp fabric 9 { getQp fabric 9 with
      npWord := 0xFFFFFFFF, alpha := 2 ^ 32, rc := 10000 * 65536, rt := 25000 * 65536, steps := 3 })) fun t =>
    (getQp t 9).rc == 5000 * 65536 && (getQp t 9).rt == 10000 * 65536 && (getQp t 9).steps == 0 := by decide +kernel

/-- A mask of 15 channels is refused; one of 16 becomes the mask of Bay 0 (R120). -/
theorem test_bay_mask :
    ends (exec (.bayMaskWrite 0 0) { up with reg := { up.reg with staging := [(pairKey 0 0x40001C, some 0x7FFF)] } })
      (fun t => rd t R.MED_STATUS_BAY_REFUSED == 1 && bayMask t 0 == BitVec.allOnes 64) ∧
    ends (exec (.bayMaskWrite 0 1) { up with reg := { up.reg with staging := [(pairKey 0 0x40001C, some 0x7FFF)] } })
      (fun t => bayMask t 0 == 0x100007FFF#64 && rd t R.MED_STATUS_BAY_REFUSED == 0) := by decide +kernel

/-- An erase that passes leaves the slab erased with one more P/E cycle (R154). -/
theorem test_erase_done :
    ends (exec (.eraseDone 480) (setSlab (withCourse course { die0 0 with
      present := true, st := .erasing, erasing := true, slab := 15, polled := true }) 15 { slab0 15 with st := .erasePending, pe := 6 })) fun t =>
    (getSlab t 15).st == .erased && (getSlab t 15).pe == 7 && (getDie t 480).st == .idle && !(getDie t 480).erasing := by
  decide +kernel

/-- A die that does not answer its reset is lost (R196). -/
theorem test_die_lost :
    ends (exec (.lunResetDone 480 false) (withCourse course { die0 0 with present := true, resetting := true })) fun t =>
    (getDie t 480).lost && !(getDie t 480).present := by decide +kernel

/-- An event identical to the record in commit is counted for a rewrite, and no record waits (R381). -/
theorem test_identical_events_fold :
    ends (exec (.eventArrival { source := 235, code := 0x0101, param := [] }) (recording false)) fun t =>
    t.hm.fifo == [] && t.hm.pendingRep == 1 := by decide +kernel

/-- A member's Manager Request leaves the mailbox when MF answers it (R76). -/
theorem test_manager_answer :
    ends (exec (.managerAnswer 8) (adminIn { asking 1 with ord := { (asking 1).ord with mailbox := [mail] } } 0
      { cmdOf 0xC3 with dw10 := 1, dw11 := 0x4005 })) fun t =>
    t.ord.mailbox == [] && (getSlot t 7).status == 0x4005 && (getSlot t 7).st == .posting := by decide +kernel

/-- A domain that gated by itself after draining is off until it wakes (R338). -/
theorem test_auto_gate :
    ends (exec (.autoDrainDone 67) (setDom up 67 { dom0 0 67 with st := .draining })) (fun t => (getDom t 67).st == .autoOff) := by
  decide +kernel

/-- PORST_N restarts the boot with cause bit 0 and the strike counter at 0 (Table 19.1, R22). -/
theorem test_porst : ends (exec (.porstNReset singlePins) up) (fun t => t.tb.count == 0 && t.boot.cause == 1) := by
  decide +kernel

theorem wit_StepRunsFrontCommand : up.pending = [] ∧ ends (step { up with pending := [.opMsPersistTimer 5] }) := by
  decide +kernel

theorem wit_FuseFloorsNeverFall : ∃ t, step up = .next t ∧ ∀ k, { up.asy with identity := some k }.identity = some k :=
  ⟨up, rfl, fun _ => rfl⟩

theorem wit_QueueIsFirstInFirstOut : ∃ t, step { up with pending := [.opMsPersistTimer 5, .supplyLoss] } = .next t ∧
    t.pending = [.supplyLoss] := ⟨_, rfl, rfl⟩

end Sys2Proof.Tests
end

/-! ## The register window

What an access of an open window answers, what one of a register pair or of a single register leaves, and the bits
that a plain write stores; then the statements about register accesses (R5 to R8, R418). -/

namespace Sys2Proof.Machine

/-! ### Sparse tables -/

theorem Tbl.erase_of_unlisted {α : Type} {m : Tbl α} {k : Nat} (h : ∀ e ∈ m, e.1 ≠ k) : Tbl.erase m k = m := by
  rw [Tbl.erase_eq_filter, List.filter_eq_self]
  exact fun e he => bne_iff_ne.2 (h e he)

theorem Tbl.insert_of_mem {α : Type} {m : Tbl α} {k : Nat} {v : α} (hs : m.Pairwise fun a b => a.1 < b.1)
    (h : (k, v) ∈ m) : Tbl.insert m k v = m := by
  induction m with
  | nil => simp at h
  | cons e m ih =>
    obtain ⟨hlt, hs⟩ := List.pairwise_cons.1 hs
    rcases List.mem_cons.1 h with rfl | h
    · simp [Tbl.insert]
    · have hk : e.1 < k := hlt _ h
      simp only [Tbl.insert, if_neg (Nat.ne_of_lt hk), if_neg (Nat.not_lt.2 hk.le), ih hs h]

/-- In a canonical table, writing back what a key reads as changes nothing. -/
theorem Tbl.set_get_self {α : Type} [DecidableEq α] (d : Nat → α) {m : Tbl α} (k : Nat) (h : Tbl.wf d m = true) :
    Tbl.set d m k (Tbl.get d m k) = m := by
  have hs : Tbl.sorted m = true := (Bool.and_eq_true_iff.1 h).1
  obtain ⟨hp, hd⟩ := (Tbl.wf_iff d m).1 h
  unfold Tbl.set
  by_cases hk : ∀ e ∈ m, e.1 ≠ k
  · rw [if_pos (Tbl.get_of_not_mem d hk), Tbl.erase_of_unlisted hk]
  · push Not at hk
    obtain ⟨e, he, rfl⟩ := hk
    rw [Tbl.get_of_mem d hs he, if_neg (hd e he), Tbl.insert_of_mem hp he]

theorem setWord_regWord_self {s : State} (h : registersCanonical s = true) (key : Nat) :
    setWord s key (regWord s key) = s := by
  have hf : Tbl.wf resetWord s.reg.file = true := (Bool.and_eq_true_iff.1 h).1
  rw [setWord, regWord, Tbl.set_get_self resetWord key hf]

/-! ### Accesses of an open window (R427, R429) -/

section
variable {s : State} {req : Nat} (h : accessOpen s req = true)
include h

theorem exec_rcRegisterRead (addr size : Nat) :
    exec (.rcRegisterRead req addr size) s = .next (regRead s req addr size) := stepIf_of h s _

theorem exec_regPairLoRead (addr size : Nat) :
    exec (.regPairLoRead req addr size) s = .next (regRead s req addr size) := stepIf_of h s _

theorem exec_regPairHiRead (addr size : Nat) :
    exec (.regPairHiRead req addr size) s = .next (regRead s req addr size) := stepIf_of h s _

theorem exec_regPairLoWrite {addr : Nat} (hlow : isLow addr = true) (v : W32) :
    exec (.regPairLoWrite req addr v) s = .next (pairLoWrite s req addr v) :=
  (stepIf_of h s _).trans (by rw [if_pos hlow])

theorem exec_regPairHiWrite {addr : Nat} (hhigh : isHigh addr = true) (v : W32) :
    exec (.regPairHiWrite req addr v) s = .next (pairHiWrite s req (addr - 4) v) :=
  (stepIf_of h s _).trans (by rw [if_pos hhigh])

theorem exec_registerWrite_misaligned {addr size : Nat} (hmis : size ≠ 4 ∨ addr % 4 ≠ 0) (v : W32) :
    exec (.registerWrite req addr size v) s = .next s :=
  (stepIf_of h s _).trans (by rw [if_pos hmis])

/-- An aligned write reaches the register, but for the software reset's key. -/
theorem exec_registerWrite_aligned {addr : Nat} (hal : addr % 4 = 0) (v : W32) :
    exec (.registerWrite req addr 4 v) s = .next
      (if addr = R.GLB_SW_RESET_KEY.addr then softwareReset s req v s.boot.pins else regWrite s req addr v) :=
  (stepIf_of h s _).trans (by rw [if_neg (by simp [hal])])

end

/-! ### Reads of the window (R5, R7) -/

theorem regRead_misaligned (s : State) (req : Nat) {addr size : Nat} (h : size ≠ 4 ∨ addr % 4 ≠ 0) :
    regRead s req addr size = answer s req 0 := if_pos h

theorem regRead_low (s : State) (req : Nat) {addr : Nat} (hal : addr % 4 = 0) (hlow : isLow addr = true) :
    regRead s req addr 4 = pairLoRead s req addr := by
  simp [regRead, hal, hlow]

theorem regRead_high (s : State) (req : Nat) {addr : Nat} (hal : addr % 4 = 0) (hlow : isLow addr = false)
    (hhigh : isHigh addr = true) : regRead s req addr 4 = pairHiRead s req (addr - 4) := by
  simp [regRead, hal, hlow, hhigh]

theorem regRead_single (s : State) (req : Nat) {addr : Nat} (hal : addr % 4 = 0) (hlow : isLow addr = false)
    (hhigh : isHigh addr = false) : regRead s req addr 4 = singleRead s req addr := by
  simp [regRead, hal, hlow, hhigh]

@[simp] theorem get_rdData_answer (s : State) (req : Nat) (w : W32) :
    Tbl.get w32z (answer s req w).reg.rdData req = w := Tbl.get_set_self w32z s.reg.rdData req w

@[simp] theorem clearRc_reg_rdData (s : State) (req addr : Nat) : (clearRc s req addr).reg.rdData = s.reg.rdData := by
  unfold clearRc
  split
  · rfl
  · dsimp only
    split
    · rfl
    · exact setWord_reg_rdData ..

/-- A read of a single register answers its value; the clearing of its RC fields and the restart of SMT_SLOT_MIN come
after the answer. -/
theorem singleRead_reg_rdData (s : State) (req addr : Nat) :
    (singleRead s req addr).reg.rdData = (answer s req (regValue s req addr)).reg.rdData := by
  refine Eq.trans ?_ (clearRc_reg_rdData _ req addr)
  unfold singleRead
  dsimp only
  split
  · rfl
  · split <;> rfl

@[simp] theorem pairLoRead_reg_capture (s : State) (req lo : Nat) : (pairLoRead s req lo).reg.capture =
    Tbl.set Tbl.absent s.reg.capture (pairKey req lo) (some (regValue s req (lo + 4))) := rfl

@[simp] theorem pairHiRead_reg_capture (s : State) (req lo : Nat) : (pairHiRead s req lo).reg.capture =
    Tbl.set Tbl.absent s.reg.capture (pairKey req lo) none := rfl

@[simp] theorem pairLoWrite_reg_staging (s : State) (req lo : Nat) (v : W32) : (pairLoWrite s req lo v).reg.staging =
    Tbl.set Tbl.absent s.reg.staging (pairKey req lo) (some v) := rfl

@[simp] theorem get_rdData_pairLoRead (s : State) (req lo : Nat) :
    Tbl.get w32z (pairLoRead s req lo).reg.rdData req = regValue s req lo := get_rdData_answer _ _ _

@[simp] theorem get_rdData_pairHiRead (s : State) (req lo : Nat) :
    Tbl.get w32z (pairHiRead s req lo).reg.rdData req =
      (Tbl.get Tbl.absent s.reg.capture (pairKey req lo)).getD (regValue s req (lo + 4)) := get_rdData_answer _ _ _

/-! ### The stored word of a plain write (R8, R418) -/

/-- The bit that a write stores, by what the masks of the open and of the write-1-to-clear fields say of its place. -/
theorem getLsbD_writeWord (s : State) (r : RegDesc) (old v : W32) {i : Nat} (hi : i < 32) :
    (writeWord s r old v).getLsbD i =
      if (BitVec.ofNat 32 (r.maskOf fun a => a == .rw || (a == .rwl && !s.boot.locked))).getLsbD i then v.getLsbD i
      else if (BitVec.ofNat 32 (r.maskOf (· == .w1c))).getLsbD i then old.getLsbD i && !v.getLsbD i
      else old.getLsbD i := by
  unfold writeWord
  generalize BitVec.ofNat 32 (r.maskOf fun a => a == .rw || (a == .rwl && !s.boot.locked)) = open_
  generalize BitVec.ofNat 32 (r.maskOf (· == .w1c)) = once
  simp only [BitVec.getLsbD_or, BitVec.getLsbD_and, BitVec.getLsbD_not, hi, decide_true, Bool.true_and]
  cases open_.getLsbD i
  · cases once.getLsbD i <;> simp
  · simp

theorem regMap_write_masks_disjoint :
    ∀ r ∈ regMap, r.maskOf (fun a => a == .rw || a == .rwl) &&& r.maskOf (· == .w1c) = 0 := by decide +kernel

/-- Settles O35: the masks of the register map are disjoint, and the stored word is given bit by bit. -/
theorem writesKeepLockedAndReadOnlyBits : Obligations.WritesKeepLockedAndReadOnlyBits := by
  unfold Obligations.WritesKeepLockedAndReadOnlyBits
  exact ⟨regMap_write_masks_disjoint, fun s r old v _ _ hi => getLsbD_writeWord s r old v hi⟩

/-- Settles O32: each access of a pair is one write of the requester's key in the table of captures or of stagings. -/
theorem registerPairsReadWhole : Obligations.RegisterPairsReadWhole := by
  unfold Obligations.RegisterPairsReadWhole
  refine ⟨fun req lo s h hlow hal => ?_, fun req lo s h hhigh hlow hal => ?_, fun req lo v s h hlow => ?_,
    fun req lo v s h hhigh => exec_regPairHiWrite h hhigh v⟩
  · refine ⟨pairLoRead s req lo, ?_, get_rdData_pairLoRead s req lo, ?_, fun k hk => ?_, rfl⟩
    · rw [exec_regPairLoRead h, regRead_low s req hal hlow]
    · simp
    · simp [Tbl.get_set_ne _ _ _ hk]
  · refine ⟨pairHiRead s req lo, ?_, get_rdData_pairHiRead s req lo, ?_, fun k hk => ?_, rfl⟩
    · rw [exec_regPairHiRead h, regRead_high s req (by omega) hlow hhigh, Nat.add_sub_cancel]
    · simp
    · simp [Tbl.get_set_ne _ _ _ hk]
  · refine ⟨pairLoWrite s req lo v, exec_regPairLoWrite h hlow v, ?_, fun k hk => ?_, rfl⟩
    · simp
    · simp [Tbl.get_set_ne _ _ _ hk]

/-! ### Accesses by access code -/

/-- A device whose register file lists the cell of GLB_SW_RESET at the word that an unlisted cell reads as: a file that
is not in the canonical form. -/
def idleKeyListed : State :=
  { State.reset with reg := { State.reset.reg with file := [(R.GLB_SW_RESET_KEY.addr, 0)] } }

theorem idleKeyListed_open : accessOpen idleKeyListed 9 = true := by decide +kernel

/-- The register's write of GLB_SW_RESET stores the old word again, which drops the entry. -/
theorem regWrite_idleKeyListed_file : (regWrite idleKeyListed 9 R.GLB_SW_RESET_KEY.addr 0).reg.file = [] := by
  decide +kernel

/-- Refutes O34: a write of GLB_SW_RESET that is no software reset leaves the state as it is, where the register's write
stores the old word again; in a register file that lists the cell at its reset word this drops the entry. The clauses on
reads hold (`exec_rcRegisterRead_single`, `exec_read_misaligned`), and so does the one on writes where the file is
canonical (`exec_registerWrite_regWrite`). -/
theorem not_registerAccessByCode : ¬ Obligations.RegisterAccessByCode := by
  unfold Obligations.RegisterAccessByCode
  rintro ⟨-, -, hwrite, -⟩
  have hreg : exec (.registerWrite 9 R.GLB_SW_RESET_KEY.addr 4 0) idleKeyListed =
      .next (regWrite idleKeyListed 9 R.GLB_SW_RESET_KEY.addr 0) :=
    (hwrite 9 _ 4 0 idleKeyListed idleKeyListed_open).2 rfl (by decide) (.inr (.inl rfl))
  have hkeep : exec (.registerWrite 9 R.GLB_SW_RESET_KEY.addr 4 0) idleKeyListed = .next idleKeyListed := by
    rw [exec_registerWrite_aligned idleKeyListed_open (by decide), if_pos rfl, softwareReset, if_neg (by decide)]
  have hsame : idleKeyListed = regWrite idleKeyListed 9 R.GLB_SW_RESET_KEY.addr 0 :=
    Host.Outcome.next.inj (hkeep.symm.trans hreg)
  have hfile := congrArg (·.reg.file) hsame
  rw [regWrite_idleKeyListed_file] at hfile
  exact List.cons_ne_nil _ _ hfile

theorem exec_rcRegisterRead_single {s : State} {req addr : Nat} (h : accessOpen s req = true) (hal : addr % 4 = 0)
    (hlow : isLow addr = false) (hhigh : isHigh addr = false) :
    exec (.rcRegisterRead req addr 4) s = .next (singleRead s req addr) ∧
      Tbl.get w32z (singleRead s req addr).reg.rdData req = regValue s req addr := by
  refine ⟨?_, ?_⟩
  · rw [exec_rcRegisterRead h, regRead_single s req hal hlow hhigh]
  · rw [singleRead_reg_rdData, get_rdData_answer]

theorem exec_read_misaligned {s : State} {req addr size : Nat} (h : accessOpen s req = true)
    (hmis : size ≠ 4 ∨ addr % 4 ≠ 0) :
    ∀ i ∈ [.rcRegisterRead req addr size, .regPairLoRead req addr size, .regPairHiRead req addr size],
      exec i s = .next (answer s req 0) := by
  simp [exec_rcRegisterRead h, exec_regPairLoRead h, exec_regPairHiRead h, regRead_misaligned s req hmis]

/-- GLB_SW_RESET, whose one field is WO. -/
def swResetReg : RegDesc := ⟨0x114, 4, 1, .none, [R.GLB_SW_RESET_KEY]⟩

theorem writeWord_swResetReg (s : State) (old v : W32) : writeWord s swResetReg old v = old := by
  refine BitVec.eq_of_getLsbD_eq fun i hi => ?_
  rw [getLsbD_writeWord s swResetReg old v hi]
  simp [swResetReg, RegDesc.maskOf, R.GLB_SW_RESET_KEY]

theorem plainWrite_swResetKey {s : State} (h : registersCanonical s = true) (req : Nat) (v : W32) :
    plainWrite s req R.GLB_SW_RESET_KEY.addr v = s := by
  have hreg : regAt R.GLB_SW_RESET_KEY.addr = some swResetReg := by decide +kernel
  rw [plainWrite, hreg]
  dsimp only
  rw [writeWord_swResetReg, setWord_regWord_self h]

theorem singleWrite_swResetKey (s : State) (req : Nat) (v : W32) :
    singleWrite s req R.GLB_SW_RESET_KEY.addr v = plainWrite s req R.GLB_SW_RESET_KEY.addr v := by
  have hlisted : (regAt R.GLB_SW_RESET_KEY.addr).isNone = false := by decide +kernel
  simp only [singleWrite, hlisted]
  simp [writeGlb, R.GLB_SW_RESET_KEY]

theorem regWrite_swResetKey {s : State} (h : registersCanonical s = true) (req : Nat) (v : W32) :
    regWrite s req R.GLB_SW_RESET_KEY.addr v = s := by
  have hlow : isLow R.GLB_SW_RESET_KEY.addr = false := by decide +kernel
  have hhigh : isHigh R.GLB_SW_RESET_KEY.addr = false := by decide +kernel
  simp [regWrite, hlow, hhigh, singleWrite_swResetKey, plainWrite_swResetKey h]

/-- Where the register file is canonical, an aligned write that is no software reset is the register's write. -/
theorem exec_registerWrite_regWrite {s : State} {req addr : Nat} {v : W32} (h : accessOpen s req = true)
    (hc : registersCanonical s = true) (hal : addr % 4 = 0)
    (hk : addr ≠ R.GLB_SW_RESET_KEY.addr ∨ forMf req = false ∨ v.toNat % 65536 ≠ 0x5EED) :
    exec (.registerWrite req addr 4 v) s = .next (regWrite s req addr v) := by
  rw [exec_registerWrite_aligned h hal]
  by_cases ha : addr = R.GLB_SW_RESET_KEY.addr
  · subst ha
    have hno : ¬ (forMf req = true ∧ v.toNat % 65536 = 0x5EED) := by
      rintro ⟨hm, hv⟩
      simp [hm, hv] at hk
    rw [if_pos rfl, softwareReset, if_neg hno, regWrite_swResetKey hc]
  · rw [if_neg ha]

end Sys2Proof.Machine

/-! ## The standard I/O commands that write or manage

What a stage of a device pattern does where its word meets no limit, what the checks before a pattern let through, and
the stages of each pattern; then the statements about the commands (R73 to R75). -/

namespace Sys2Proof.Machine

/-! ### A stage that issues its word -/

@[simp] theorem getSlot_nextStage (s : State) (k : Nat) :
    getSlot (nextStage s k) k = { getSlot s k with stage := (getSlot s k).stage + 1 } := getSlot_setSlot_self ..

/-- Whether a word is held does not depend on the pattern's stage. -/
theorem wordHeld_nextStage (s : State) (k : Nat) (f : Fields) (o : AsyncOp) :
    wordHeld (nextStage s k) k f o = wordHeld s k f o := by
  unfold wordHeld overLimit
  rw [getSlot_nextStage]
  rfl

theorem wordHeld_of_runs {s : State} {k : Nat} {f : Fields} {o : AsyncOp} (h : asyncRuns s k f o = true) :
    wordHeld s k f o = false := by
  obtain ⟨-, hclash, hticket, -⟩ := (asyncRuns_iff ..).1 h
  have hfree : (f.m 3 && (freeTicket (getSlot s k)).isNone) = false := by
    cases hm : f.m 3
    · rfl
    · simp [Option.isNone_eq_false_iff.2 (hticket hm)]
  simp [wordHeld, hclash, hfree]

/-- A stage whose word meets no limit issues it, and the pattern stands in the next stage. -/
theorem stageWord_of_runs {k : Nat} {w : StdWord} (h : stdWordRuns k w = true) : stageWord k w = stdWordDone k w := by
  have hfree : wordHeld w.at_ k w.f w.work = false :=
    (wordHeld_nextStage w.at_ k w.f w.work).symm.trans (wordHeld_of_runs h)
  rw [stageWord, hfree]
  exact asyncWord_of_runs h

/-! ### The end of a pattern -/

/-- A pattern that a standard command runs ends the order with 0x0000. -/
theorem stdEnd_of_ready {s : State} {k op : Nat} (h : stdReady s k op = true) :
    stdEnd s k = finishOrder s k 0x0000 := by
  have hkind : (getSlot s k).kind = .standard := by
    simp only [stdReady, Bool.and_eq_true, beq_iff_eq] at h
    obtain ⟨⟨⟨-, hkind⟩, -⟩, -⟩ := h
    exact hkind
  exact if_pos hkind

/-- An illegal field is a fault of the order. -/
theorem stdFault_illegalOp (s : State) (k : Nat) :
    stdFault s k St.illegalOp = orderFault s k 0x6001 (getSlot s k).position := if_neg (by decide)

/-! ### The checks before a pattern starts -/

section
variable {s : State} {k : Nat} {zoned data writes : Bool} {bytes : Nat}
  (h : patternStarts s k zoned data writes bytes = true)
include h

theorem stdCheck_of_starts (go : State) : stdCheck s k zoned data bytes go = go := by
  simp only [patternStarts, Bool.and_eq_true, beq_iff_eq, Bool.not_eq_true'] at h
  obtain ⟨⟨hmedia, hlength⟩, -⟩ := h
  simp [stdCheck, hmedia, hlength]

theorem piStart_of_starts (go : State) : piStart s k writes go = go := by
  simp only [patternStarts, Bool.and_eq_true] at h
  obtain ⟨-, htag⟩ := h
  exact if_pos htag

end

/-! ### Blocks that have come from the host (R111) -/

section
variable {s : State} {k first n : Nat} (hheld : stdWriteHeld s k = false)
include hheld

theorem stdWriteIn_of_accepted (hpi : piRefuses s k first n = none) (lba : Nat) (append : Bool) :
    stdWriteIn s k lba first n append = stageWord k (stdWrite (piIn s k first n) k lba append) := by
  simp [stdWriteIn, hheld, hpi]

theorem stdWriteIn_of_refused {r : Nat × Nat × Bool} (hpi : piRefuses s k first n = some r) (lba : Nat)
    (append : Bool) : stdWriteIn s k lba first n append = endReply s k r := by
  simp [stdWriteIn, hheld, hpi]

end

/-! ### Write -/

section
variable {s : State} {k : Nat}

theorem exec_nvmeWrite (h : stdReady s k 0x01 = true) :
    exec (.nvmeWrite k) s = .next (writeBody s k) := stepIf_of h s _

theorem writeBody_eq_writeStage
    (hstart : (getSlot s k).stage = 0 → patternStarts s k (stdZoned s (getSlot s k)) true true
      (stdBlocks (getSlot s k) * hostSize s (getSlot s k)) = true) : writeBody s k = writeStage s k := by
  unfold writeBody
  dsimp only
  split
  next h0 => rw [stdCheck_of_starts (hstart h0), piStart_of_starts (hstart h0)]
  next => rfl

/-- An odd stage of Write writes the piece that has been fetched. -/
theorem writeStage_odd (h : (getSlot s k).stage % 2 = 1) :
    let x := getSlot s k
    let off := x.stage / 2 * pieceBlocks (stdSize s x)
    writeStage s k = stdWriteIn s k (stdLba x + off) off (pieceLen s x (x.stage / 2)) false := if_pos h

/-- An even stage of Write fetches the next piece. -/
theorem writeStage_even (h : (getSlot s k).stage % 2 = 0)
    (hn : pieceLen s (getSlot s k) ((getSlot s k).stage / 2) ≠ 0) :
    let x := getSlot s k
    writeStage s k = stageWord k (stdHget s k 8 (x.stage / 2 * pieceBlocks (stdSize s x) * hostSize s x)
      (pieceLen s x (x.stage / 2) * hostSize s x) true) :=
  (if_neg (by omega)).trans (if_neg hn)

/-- Write ends where no blocks remain to be fetched. -/
theorem writeStage_past (h : (getSlot s k).stage % 2 = 0)
    (hn : pieceLen s (getSlot s k) ((getSlot s k).stage / 2) = 0) : writeStage s k = stdEnd s k :=
  (if_neg (by omega)).trans (if_pos hn)

/-! ### Write Zeroes -/

theorem exec_nvmeWriteZeroes (h : stdReady s k 0x08 = true) :
    exec (.nvmeWriteZeroes k) s = .next (zeroesBody s k) := stepIf_of h s _

theorem zeroesBody_eq_zeroesStage
    (hstart : (getSlot s k).stage = 0 → patternStarts s k false false true 0 = true) :
    zeroesBody s k = zeroesStage s k := by
  unfold zeroesBody
  dsimp only
  split
  next h0 => rw [stdCheck_of_starts (hstart h0), piStart_of_starts (hstart h0)]
  next => rfl

/-- With DEAC the first stage deallocates the whole range. -/
theorem zeroesStage_deallocates (hd : deac (getSlot s k) = true)
    (h0 : (getSlot s k).stage = 0) :
    zeroesStage s k = stageWord k (stdTrim s k (stdLba (getSlot s k)) (stdBlocks (getSlot s k))) :=
  (if_pos hd).trans (if_pos h0)

/-- Without DEAC a stage writes the zeros of its piece. -/
theorem zeroesStage_writes (hd : deac (getSlot s k) = false)
    (hn : pieceLen s (getSlot s k) (getSlot s k).stage ≠ 0) :
    let x := getSlot s k
    let off := x.stage * pieceBlocks (stdSize s x)
    zeroesStage s k =
      stageWord k (stdWrite (stageZeros s k off (pieceLen s x x.stage)) k (stdLba x + off) false) :=
  (if_neg (by simp [hd])).trans (if_neg hn)

theorem zeroesStage_past (h0 : (getSlot s k).stage ≠ 0)
    (h : deac (getSlot s k) = true ∨ pieceLen s (getSlot s k) (getSlot s k).stage = 0) :
    zeroesStage s k = stdEnd s k := by
  by_cases hd : deac (getSlot s k) = true
  · exact (if_pos hd).trans (if_neg h0)
  · exact (if_neg hd).trans (if_pos (h.resolve_left hd))

/-! ### Zone Append -/

theorem exec_zoneAppend (h : stdReady s k 0x7D = true) :
    exec (.zoneAppend k) s = .next (appendBody s k) := stepIf_of h s _

/-- The first stage of Zone Append fetches the data, where no condition on its reference tags refuses it. -/
theorem appendBody_fetches (h0 : (getSlot s k).stage = 0)
    (hlen : stdBlocks (getSlot s k) * stdSize s (getSlot s k) ≤ 2097152)
    (h1 : ¬ (piType s (getSlot s k) = 1 ∧ ((getSlot s k).val 3).getLsbD 25 = false))
    (h3 : ¬ (piType s (getSlot s k) = 3 ∧ ((getSlot s k).val 3).getLsbD 25 = true))
    (hstart : patternStarts s k true true true (stdBlocks (getSlot s k) * hostSize s (getSlot s k)) = true) :
    appendBody s k =
      stageWord k (stdHget s k 8 0 (stdBlocks (getSlot s k) * hostSize s (getSlot s k)) true) := by
  unfold appendBody
  dsimp only
  rw [if_pos h0, if_neg (Nat.not_lt.2 hlen), stdCheck_of_starts hstart, if_neg (not_or.2 ⟨h1, h3⟩),
    piStart_of_starts hstart]

/-- One of more than 2 MiB has an illegal field (log entry 25). -/
theorem appendBody_tooLong (h0 : (getSlot s k).stage = 0)
    (hlen : 2097152 < stdBlocks (getSlot s k) * stdSize s (getSlot s k)) :
    appendBody s k = stdFault s k St.illegalOp := (if_pos h0).trans (if_pos hlen)

theorem appendBody_writes (h1 : (getSlot s k).stage = 1) :
    appendBody s k = stdWriteIn s k (stdLba (getSlot s k)) 0 (stdBlocks (getSlot s k)) true :=
  (if_neg (by omega)).trans (if_pos h1)

theorem appendBody_past (h2 : 2 ≤ (getSlot s k).stage) : appendBody s k = stdEnd s k :=
  (if_neg (by omega)).trans (if_neg (by omega))

end

/-- Settles O23: the body of each command is the stage that the slot stands in, and each stage issues its word, ends
the command with the status of the failed check, or ends it. -/
theorem standardWritesRunTheirPatterns : Obligations.StandardWritesRunTheirPatterns := by
  unfold Obligations.StandardWritesRunTheirPatterns
  refine ⟨fun k s hready => ?write, fun k s hready => ?zeroes, fun k s hready => ?append⟩
  case write =>
    intro x size n off host
    rw [exec_nvmeWrite hready]
    refine ⟨fun heven hn hstart hword => ?_, fun hodd hheld hpi hword => ?_, fun r hodd hheld hpi => ?_,
      fun heven h0 hn => ?_⟩
    · rw [writeBody_eq_writeStage hstart, writeStage_even heven hn, stageWord_of_runs hword]
    · have h0 : x.stage ≠ 0 := by omega
      rw [writeBody_eq_writeStage (absurd · h0), writeStage_odd hodd, stdWriteIn_of_accepted hheld hpi,
        stageWord_of_runs hword]
    · have h0 : x.stage ≠ 0 := by omega
      rw [writeBody_eq_writeStage (absurd · h0), writeStage_odd hodd, stdWriteIn_of_refused hheld hpi]
    · rw [writeBody_eq_writeStage (absurd · h0), writeStage_past heven hn, stdEnd_of_ready hready]
  case zeroes =>
    intro x n off
    rw [exec_nvmeWriteZeroes hready]
    refine ⟨fun hd h0 hstart hword => ?_, fun hd hn hstart hword => ?_, fun h0 hend => ?_⟩
    · rw [zeroesBody_eq_zeroesStage fun _ => hstart, zeroesStage_deallocates hd h0, stageWord_of_runs hword]
    · rw [zeroesBody_eq_zeroesStage hstart, zeroesStage_writes hd hn, stageWord_of_runs hword]
    · rw [zeroesBody_eq_zeroesStage (absurd · h0), zeroesStage_past h0 hend, stdEnd_of_ready hready]
  case append =>
    intro x bytes remap
    rw [exec_zoneAppend hready]
    refine ⟨fun h0 hlen h1 h3 hstart hword => ?_, fun h0 hlen => ?_, fun h1 hheld hpi hword => ?_,
      fun r h1 hheld hpi => ?_, fun h2 => ?_⟩
    · rw [appendBody_fetches h0 hlen h1 h3 hstart, stageWord_of_runs hword]
    · rw [appendBody_tooLong h0 hlen, stdFault_illegalOp]
    · rw [appendBody_writes h1, stdWriteIn_of_accepted hheld hpi, stageWord_of_runs hword]
    · rw [appendBody_writes h1, stdWriteIn_of_refused hheld hpi]
    · rw [appendBody_past h2, stdEnd_of_ready hready]

/-! ### Flush and Dataset Management -/

section
variable {s : State} {k : Nat}

theorem exec_nvmeFlush (h : stdReady s k 0x00 = true) :
    exec (.nvmeFlush k) s = .next (stdEnd s k) := stepIf_of h s _

theorem exec_nvmeDatasetManagement (h : stdReady s k 0x09 = true) :
    exec (.nvmeDatasetManagement k) s = .next (dsmBody s k) := stepIf_of h s _

/-- Without Deallocate nothing is done. -/
theorem dsmBody_idle (had : ((getSlot s k).val 2).getLsbD 2 = false) :
    dsmBody s k = stdEnd s k := if_pos (by rw [had]; rfl)

theorem dsmBody_eq_dsmStage (had : ((getSlot s k).val 2).getLsbD 2 = true)
    (hlen : (getSlot s k).stage = 0 → badLength (getSlot s k) (16 * dsmRanges (getSlot s k)) = false) :
    dsmBody s k = dsmStage s k :=
  (if_neg (by rw [had]; decide)).trans (if_neg fun ⟨h0, hbad⟩ => by simp [hlen h0] at hbad)

theorem dsmStage_fetches (h0 : (getSlot s k).stage = 0) :
    dsmStage s k = stageWord k (stdHget s k 8 0 (16 * dsmRanges (getSlot s k)) false) := if_pos h0

/-- The stage of a range deallocates it, and passes one that is empty. -/
theorem dsmStage_range (h0 : (getSlot s k).stage ≠ 0)
    (hr : (getSlot s k).stage ≤ dsmRanges (getSlot s k)) :
    let e := dsmRange s (getSlot s k) ((getSlot s k).stage - 1)
    dsmStage s k = if e.2 = 0 then nextStage s k else stageWord k (stdTrim s k e.1 e.2) :=
  (if_neg h0).trans (if_neg (by omega))

theorem dsmStage_past (hr : dsmRanges (getSlot s k) < (getSlot s k).stage) :
    dsmStage s k = stdEnd s k := (if_neg (by omega)).trans (if_pos (by omega))

/-! ### Zone Management Send and Receive (R115, R126) -/

theorem exec_zoneManagementSend (h : stdReady s k 0x79 = true) :
    exec (.zoneManagementSend k) s = .next (sendBody s k) := stepIf_of h s _

/-- Action 0x10 fetches its extension before it acts. -/
theorem sendBody_extended (hext : ((getSlot s k).val 4).toNat % 256 = 0x10) :
    sendBody s k =
      if (getSlot s k).stage = 0 then
        (if badLength (getSlot s k) 64 then stdFault (countTransferFail s (getSlot s k)) k St.lengthMismatch
         else stageWord k (stdHget s k 8 0 64 true))
      else if (getSlot s k).stage = 1 then stageWord k (sendAction s k)
      else stdEnd s k := by
  simp only [sendBody, hext, beq_self_eq_true, and_true, if_true]

/-- Every other action is issued at once. -/
theorem sendBody_plain (hext : ¬ ((getSlot s k).val 4).toNat % 256 = 0x10) :
    sendBody s k = if (getSlot s k).stage = 0 then stageWord k (sendAction s k) else stdEnd s k := by
  simp only [sendBody, beq_eq_false_iff_ne.2 hext, Bool.false_eq_true, and_false, if_false]

theorem sendBody_fetches (hext : ((getSlot s k).val 4).toNat % 256 = 0x10) (h0 : (getSlot s k).stage = 0)
    (hlen : badLength (getSlot s k) 64 = false) : sendBody s k = stageWord k (stdHget s k 8 0 64 true) :=
  (sendBody_extended hext).trans ((if_pos h0).trans (if_neg (by simp [hlen])))

theorem sendBody_acts (h : (((getSlot s k).val 4).toNat % 256 = 0x10 ∧ (getSlot s k).stage = 1) ∨
    (¬ ((getSlot s k).val 4).toNat % 256 = 0x10 ∧ (getSlot s k).stage = 0)) :
    sendBody s k = stageWord k (sendAction s k) := by
  rcases h with ⟨hext, h1⟩ | ⟨hext, h0⟩
  · rw [sendBody_extended hext, if_neg (by omega), if_pos h1]
  · rw [sendBody_plain hext, if_pos h0]

theorem sendBody_past (h : (((getSlot s k).val 4).toNat % 256 = 0x10 ∧ 2 ≤ (getSlot s k).stage) ∨
    (¬ ((getSlot s k).val 4).toNat % 256 = 0x10 ∧ (getSlot s k).stage ≠ 0)) : sendBody s k = stdEnd s k := by
  rcases h with ⟨hext, h2⟩ | ⟨hext, h0⟩
  · rw [sendBody_extended hext, if_neg (by omega), if_neg (by omega)]
  · rw [sendBody_plain hext, if_neg h0]

theorem exec_zoneManagementReceive (h : stdReady s k 0x7A = true) :
    exec (.zoneManagementReceive k) s = .next (receiveBody s k) := stepIf_of h s _

theorem receiveBody_reports (h0 : (getSlot s k).stage = 0)
    (hdef : ¬ (7 < bits ((getSlot s k).val 4).toNat 15 8 ∨ 1 < ((getSlot s k).val 4).toNat % 256))
    (hlen : badLength (getSlot s k) (receiveLen (getSlot s k)) = false) :
    receiveBody s k = stageWord k (receiveReport s k) :=
  (if_pos h0).trans ((if_neg hdef).trans (if_neg (by simp [hlen])))

/-- An option or an action that is not defined is an illegal field (R126, log entry 17). -/
theorem receiveBody_undefined (h0 : (getSlot s k).stage = 0)
    (hundef : 7 < bits ((getSlot s k).val 4).toNat 15 8 ∨ 1 < ((getSlot s k).val 4).toNat % 256) :
    receiveBody s k = stdFault s k St.illegalOp := (if_pos h0).trans (if_pos hundef)

theorem receiveBody_sends (h1 : (getSlot s k).stage = 1) : receiveBody s k = stageWord k (sendReport s k) :=
  (if_neg (by omega)).trans (if_pos h1)

theorem receiveBody_past (h2 : 2 ≤ (getSlot s k).stage) : receiveBody s k = stdEnd s k :=
  (if_neg (by omega)).trans (if_neg (by omega))

end

/-- Settles O24: Flush is at its end at once; the bodies of the others are taken apart by the stage, and for Dataset
Management by the length of the stage's range. -/
theorem standardManagementRunsItsPatterns : Obligations.StandardManagementRunsItsPatterns := by
  unfold Obligations.StandardManagementRunsItsPatterns
  refine ⟨fun k s hready => ?flush, fun k s hready => ?dsm, fun k s hready => ?send, fun k s hready => ?receive⟩
  case flush => rw [exec_nvmeFlush hready, stdEnd_of_ready hready]
  case dsm =>
    intro x e list
    rw [exec_nvmeDatasetManagement hready]
    refine ⟨fun had => ?_, fun had h0 hlen hword => ?_, fun had h0 hr => ⟨fun he hword => ?_, fun he => ?_⟩,
      fun hr => ?_⟩
    · rw [dsmBody_idle had, stdEnd_of_ready hready]
    · rw [dsmBody_eq_dsmStage had fun _ => hlen, dsmStage_fetches h0, stageWord_of_runs hword]
    · rw [dsmBody_eq_dsmStage had (absurd · h0), dsmStage_range h0 hr, if_neg he, stageWord_of_runs hword]
    · rw [dsmBody_eq_dsmStage had (absurd · h0), dsmStage_range h0 hr, if_pos he]
    · cases had : (x.val 2).getLsbD 2
      · rw [dsmBody_idle had, stdEnd_of_ready hready]
      · have h0 : x.stage ≠ 0 := by omega
        rw [dsmBody_eq_dsmStage had (absurd · h0), dsmStage_past hr, stdEnd_of_ready hready]
  case send =>
    intro x ext
    rw [exec_zoneManagementSend hready]
    refine ⟨fun hext h0 hlen hword => ?_, fun hstage hword => ?_, fun hstage => ?_⟩
    · rw [sendBody_fetches hext h0 hlen, stageWord_of_runs hword]
    · rw [sendBody_acts hstage, stageWord_of_runs hword]
    · rw [sendBody_past hstage, stdEnd_of_ready hready]
  case receive =>
    intro x bad
    rw [exec_zoneManagementReceive hready]
    refine ⟨fun h0 hdef hlen hword => ?_, fun h0 hundef => ?_, fun h1 hword => ?_, fun h2 => ?_⟩
    · rw [receiveBody_reports h0 hdef hlen, stageWord_of_runs hword]
    · rw [receiveBody_undefined h0 hundef, stdFault_illegalOp]
    · rw [receiveBody_sends h1, stageWord_of_runs hword]
    · rw [receiveBody_past h2, stdEnd_of_ready hready]

end Sys2Proof.Machine

/-! ## Budgets, buckets and rates

What a budget grants over strikes (R26), how far a bucket fills (R248), and the steps of the rate control (R225). -/

namespace Sys2Proof.Machine

/-! ### The budgets of strikes (R26) -/

/-- What the first n strikes have granted is the whole part of their share. -/
theorem foldl_grantOf (num den n : Nat) :
    (List.range n).foldl (fun a i => a + grantOf num den (i + 1)) 0 = n * num / den := by
  induction n with
  | zero => simp
  | succ n ih =>
    have hmono : n * num / den ≤ (n + 1) * num / den := Nat.div_le_div_right (Nat.mul_le_mul_right num n.le_succ)
    rw [List.range_succ, List.foldl_append, ih, List.foldl_cons, List.foldl_nil, grantOf, Nat.add_sub_cancel]
    omega

theorem grantOf_near (num n : Nat) {den : Nat} (hden : 0 < den) :
    num / den ≤ grantOf num den (n + 1) ∧ grantOf num den (n + 1) ≤ num / den + 1 := by
  have hlow : n * num / den + num / den ≤ (n * num + num) / den := Nat.div_add_div_le_add_div ..
  have hhigh : (n * num + num) / den ≤ n * num / den + num / den + 1 := by
    rw [Nat.add_div hden]
    split <;> simp
  rw [grantOf, Nat.add_sub_cancel, Nat.succ_mul]
  exact ⟨Nat.le_sub_of_add_le' hlow, Nat.sub_le_iff_le_add'.2 hhigh⟩

/-! ### The buckets of a tenant (R248) -/

@[simp] theorem grantTokens_rd (s : State) (x : Tenant) : (grantTokens s x).rd =
    min x.blk.rdDepth (x.rd + grantOf (x.blk.rdRate * perQ s) 1024 (x.since + 1)) := rfl

@[simp] theorem grantTokens_wr (s : State) (x : Tenant) : (grantTokens s x).wr =
    min x.blk.wrDepth (x.wr + grantOf (x.blk.wrRate * perQ s) 1024 (x.since + 1)) := rfl

/-! ### Rate control (R225) -/

/-- A step without a CNP takes its share of alpha away. -/
theorem alphaStep_decay_le (x : QPair) : alphaStep x false ≤ x.alpha := Nat.sub_le ..

/-- A step with a CNP takes from alpha the share that it adds of 1, so alpha stays at most 1. -/
theorem alphaStep_cnp_le {x : QPair} (h : x.alpha ≤ 2 ^ 32) : alphaStep x true ≤ 2 ^ 32 := by
  set k := 2 ^ R.ETH_CC_RP_G_SHIFT.of x.rpWord
  have hk : 0 < k := Nat.two_pow_pos _
  obtain ⟨d, hd⟩ := Nat.exists_eq_add_of_le h
  have hadd : 2 ^ 32 / k ≤ x.alpha / k + d := calc
    2 ^ 32 / k = (x.alpha + d) / k := by rw [hd]
    _ ≤ (x.alpha + d * k) / k := Nat.div_le_div_right (Nat.add_le_add_left (Nat.le_mul_of_pos_right d hk) _)
    _ = x.alpha / k + d := Nat.add_mul_div_right _ _ hk
  calc x.alpha - x.alpha / k + 2 ^ 32 / k
    _ ≤ x.alpha - x.alpha / k + (x.alpha / k + d) := Nat.add_le_add_left hadd _
    _ = 2 ^ 32 := by rw [← Nat.add_assoc, Nat.sub_add_cancel (Nat.div_le_self ..), hd]

theorem rateMin_le_cut (x : QPair) : rateMin x ≤ x.cut.rc := le_max_left ..

theorem cut_rc_le {x : QPair} (h : rateMin x ≤ x.rc) : x.cut.rc ≤ x.rc := max_le h (Nat.sub_le ..)

/-- The target of a recovery lies between the target before and the line rate. -/
theorem recover_rt_bounds {x : QPair} {line : Nat} (h : x.rt ≤ line) :
    x.rt ≤ (x.recover line).rt ∧ (x.recover line).rt ≤ line := by
  unfold QPair.recover
  split
  · exact ⟨le_rfl, h⟩
  · exact ⟨le_min h (Nat.le_add_right ..), min_le_left ..⟩

/-- A recovery halves the distance to its target. -/
theorem recover_rc (x : QPair) (line : Nat) : (x.recover line).rc = (x.rc + (x.recover line).rt) / 2 := by
  unfold QPair.recover
  split <;> rfl

theorem recover_rc_bounds {x : QPair} {line : Nat} (hline : x.rt ≤ line) (h : x.rc ≤ x.rt) :
    x.rc ≤ (x.recover line).rc ∧ (x.recover line).rc ≤ (x.recover line).rt := by
  obtain ⟨hrt, -⟩ := recover_rt_bounds hline
  rw [recover_rc]
  omega

/-- Settles O44: the grants telescope, a bucket is a minimum with its depth, and each step of the rate control moves
within its bounds. -/
theorem tokensAndRatesStayInTheirBounds : Obligations.TokensAndRatesStayInTheirBounds := by
  unfold Obligations.TokensAndRatesStayInTheirBounds
  refine ⟨fun num den n _ => foldl_grantOf num den n, fun num den n hden hn => ?_, fun s x => ?_,
    fun x ha hr => ⟨rateMin_le_cut x, cut_rc_le hr, rfl, alphaStep_cnp_le ha⟩, alphaStep_decay_le,
    fun x line hline h => ?_⟩
  · obtain ⟨m, rfl⟩ := Nat.exists_eq_add_of_le' hn
    exact grantOf_near num m hden
  · simp only [grantTokens_rd, grantTokens_wr]
    omega
  · obtain ⟨hlow, hhigh⟩ := recover_rc_bounds hline h
    exact ⟨(recover_rt_bounds hline).2, hhigh, hlow⟩

end Sys2Proof.Machine

/-! ## Lost dies, failed programs and resets

What a record of an event leaves of the state, the loss of a die (R160, R196), the failure of a program (R157), and what
stands through a reset (R410). -/

namespace Sys2Proof.Machine

/-! ### What a record of Hallmark leaves (R382, R433) -/

/-- A state without what an event reaches: its register file, its output and its recorder. -/
def State.unreported (s : State) : State := { s with reg := State.reset.reg, out := [], hm := State.reset.hm }

theorem foldl_unreported {β : Type} {f : State → β → State} (h : ∀ t a, (f t a).unreported = t.unreported)
    (l : List β) (s : State) : (l.foldl f s).unreported = s.unreported :=
  List.foldlRecOn l f (motive := fun t => t.unreported = s.unreported) rfl fun t ht a _ => (h t a).trans ht

@[simp] theorem setWord_unreported (s : State) (key : Nat) (w : W32) :
    (setWord s key w).unreported = s.unreported := rfl

@[simp] theorem emit_unreported (s : State) (o : Output) : (emit s o).unreported = s.unreported := rfl

@[simp] theorem wr_unreported (s : State) (f : Fld) (v : Nat) : (wr s f v).unreported = s.unreported := by
  rw [wr, wrAt, setWord_unreported]

@[simp] theorem bump_unreported (s : State) (f : Fld) : (bump s f).unreported = s.unreported := by
  simp [State.unreported]

@[simp] theorem lineMessage_unreported (s : State) (l : Nat) : (lineMessage s l).unreported = s.unreported := by
  unfold lineMessage
  dsimp only
  split <;> split <;> rfl

@[simp] theorem sendLines_unreported (s : State) (all : Bool) : (sendLines s all).unreported = s.unreported :=
  foldl_unreported lineMessage_unreported _ s

@[simp] theorem setStat_unreported (s : State) (src : Nat) : (setStat s src).unreported = s.unreported := by
  unfold setStat
  split
  · rw [sendLines_unreported, setWord_unreported]
  · rfl

@[simp] theorem raise_unreported (s : State) (e : Event) : (raise s e).unreported = s.unreported := by
  unfold raise
  dsimp only
  rw [setStat_unreported, raiseTo, wr_unreported]
  split
  · rw [setStat_unreported, bump_unreported]
    rfl
  · rfl

@[simp] theorem raise_pending (s : State) (e : Event) : (raise s e).pending = s.pending :=
  (congrArg State.pending (raise_unreported s e) :)
@[simp] theorem raise_tb (s : State) (e : Event) : (raise s e).tb = s.tb :=
  (congrArg State.tb (raise_unreported s e) :)
@[simp] theorem raise_fl (s : State) (e : Event) : (raise s e).fl = s.fl :=
  (congrArg State.fl (raise_unreported s e) :)
@[simp] theorem raise_ord (s : State) (e : Event) : (raise s e).ord = s.ord :=
  (congrArg State.ord (raise_unreported s e) :)
@[simp] theorem raise_med (s : State) (e : Event) : (raise s e).med = s.med :=
  (congrArg State.med (raise_unreported s e) :)
@[simp] theorem raise_cph (s : State) (e : Event) : (raise s e).cph = s.cph :=
  (congrArg State.cph (raise_unreported s e) :)
@[simp] theorem raise_asy (s : State) (e : Event) : (raise s e).asy = s.asy :=
  (congrArg State.asy (raise_unreported s e) :)
@[simp] theorem raise_pwr (s : State) (e : Event) : (raise s e).pwr = s.pwr :=
  (congrArg State.pwr (raise_unreported s e) :)
@[simp] theorem raise_boot (s : State) (e : Event) : (raise s e).boot = s.boot :=
  (congrArg State.boot (raise_unreported s e) :)

/-! ### A die that is lost (R160, R196) -/

/-- With no order's read and no read of the device, none waits for a die. -/
theorem lostReads_of_no_readers {s : State} (hreqs : s.ord.reqs = []) (hdevs : s.fl.devs = []) (d : Nat) :
    lostReads s d = s := by
  simp [lostReads, readers, hreqs, hdevs]

/-- The loss of a die on which no slab stands and that no course and no read uses is its record alone. -/
theorem dieLost_unused {s : State} {d : Nat} (hslabs : ∀ e ∈ s.med.slabs, slabDie e.1 ≠ d)
    (hcourses : s.med.courses = []) (hreqs : s.ord.reqs = []) (hdevs : s.fl.devs = []) :
    dieLost s d = raise (setDie s d { die0 0 with lost := true }) (event (d / 32) 0x0302 [(2, d)]) := by
  have hnone : (s.med.slabs.filter fun e => slabDie e.1 == d && e.2.st != .retired) = [] :=
    List.filter_eq_nil_iff.2 fun e he => by simp [hslabs e he]
  simp only [dieLost, raise_med, setDie_med, hnone, hcourses, List.map_nil, List.foldl_nil]
  exact lostReads_of_no_readers (by simp [hreqs]) (by simp [hdevs]) d

/-! ### A program that fails (R157) -/

/-- The failure of a unit of a zone or of a conventional host course marks its slab, and the mend starts. -/
theorem failUnit_host {s : State} {id : Nat} {k : Course} (hk : getCourse s id = some k)
    (hkind : k.kind = .zone ∨ k.kind = .conv) (p : Nat) :
    failUnit s id p false = startMends (setSlab (bump s R.MED_PROG_FAIL_CNT_PROG_FAIL) (k.slabs.getD p 0)
      { getSlab s (k.slabs.getD p 0) with fail := 1, failedPe := some (getSlab s (k.slabs.getD p 0)).pe }) id := by
  have hslab (a : Nat) : getSlab (bump s R.MED_PROG_FAIL_CNT_PROG_FAIL) a = getSlab s a := by simp [getSlab]
  have hcourse : getCourse (bump s R.MED_PROG_FAIL_CNT_PROG_FAIL) id = some k := by simpa [getCourse] using hk
  rcases hkind with hkind | hkind <;> simp [failUnit, hcourse, hslab, hkind]

/-! ### What a reset keeps (R410) -/

/-- In the table of the dies that are lost, exactly those read as lost that were. -/
theorem get_lostDies_lost {s : State} (h : Tbl.sorted s.fl.dies = true) (d : Nat) :
    (Tbl.get die0 (lostDies s) d).lost = (getDie s d).lost := by
  unfold lostDies getDie
  rw [Tbl.sorted_iff] at h
  generalize s.fl.dies = dies at h ⊢
  induction dies with
  | nil => rfl
  | cons e m ih =>
    obtain ⟨a, x⟩ := e
    obtain ⟨hlt, hm⟩ := List.pairwise_cons.1 h
    by_cases had : a = d
    · cases hx : x.lost
      · have hrest : Tbl.get die0 m d = die0 d := Tbl.get_of_not_mem die0 fun e he => by have := hlt e he; omega
        rw [List.filter_cons_of_neg (by simp [hx]), ih hm, hrest]
        simp [Tbl.get, had, hx, die0]
      · simp [Tbl.get, had, hx]
    · cases hx : x.lost
      · rw [List.filter_cons_of_neg (by simp [hx]), ih hm]
        simp [Tbl.get, had]
      · rw [List.filter_cons_of_pos (by simpa using hx)]
        simpa [Tbl.get, had] using ih hm

/-- The part of a state that a reset sets or keeps at its release and that the boot ROM then leaves: the queue, the strike
counter, the dies, the epochs, the floors of the fuses, the key manager and the boot lock. -/
def State.lasting (s : State) : List Instr × Nat × Flash × Cipher × Nat × Nat × Option (List Byte) × Bool :=
  (s.pending, s.tb.count, s.fl, s.cph, s.asy.floor0, s.asy.floor1, s.asy.kmHash, s.boot.locked)

theorem lasting_of_unreported {s t : State} (h : t.unreported = s.unreported) : t.lasting = s.lasting :=
  (congrArg State.lasting h :)

@[simp] theorem raise_lasting (s : State) (e : Event) : (raise s e).lasting = s.lasting :=
  lasting_of_unreported (raise_unreported s e)

@[simp] theorem macFails_lasting (s : State) : (macFails s).lasting = s.lasting :=
  lasting_of_unreported (foldl_unreported (fun t k => by rw [raise_unreported, wr_unreported]) _ s)

@[simp] theorem romHalt_lasting (s : State) (fault : Nat) : (romHalt s fault).lasting = s.lasting :=
  raise_lasting _ _

theorem romBoot_lasting {s : State} (h : s.tb.count = 0) (slot fallback : Bool) :
    (romBoot s slot fallback).lasting = s.lasting := by
  refine (raise_lasting _ _).trans ?_
  simp [State.lasting, romDerive, h]

@[simp] theorem countTry_locked (b : Boot) : (countTry b).locked = b.locked := by
  unfold countTry
  split
  · rfl
  · split <;> rfl

theorem rom_lasting {s : State} (h : s.tb.count = 0) (p : ResetPins) : (rom s p).lasting = s.lasting := by
  have hafter (t : State) (r : Option Nat) (ht : t.lasting = s.lasting) :
      (macFails (match r with | some n => raise t (event 227 0x0003 [(1, n)]) | none => t)).lasting = s.lasting := by
    cases r <;> simp [ht]
  unfold rom
  dsimp only
  split
  · exact hafter _ _ (romHalt_lasting _ _)
  split
  · exact hafter _ _ (romHalt_lasting _ _)
  split
  · exact hafter _ _ (romHalt_lasting _ _)
  split
  · exact hafter _ _ ((romHalt_lasting _ _).trans (by simp [State.lasting]))
  · exact hafter _ _ ((romBoot_lasting (by exact h) _ _).trans (by simp [State.lasting]))

theorem releaseReset_lasting (s : State) (cause : Nat) (aon : Bool) (p : ResetPins) :
    (releaseReset s cause aon p).lasting = (bareState s).lasting := by
  cases aon <;> simp [releaseReset, padsAtReset, State.lasting]

theorem deviceReset_lasting (s : State) (cause : Nat) (aon : Bool) (p : ResetPins) :
    (deviceReset s cause aon p).lasting = (bareState s).lasting := by
  have hrelease := releaseReset_lasting s cause aon p
  have hcount : (releaseReset s cause aon p).tb.count = 0 := congrArg (·.2.1) hrelease
  exact (rom_lasting hcount p).trans hrelease

theorem exec_lunResetDone {s : State} {d : Nat} (h : (getDie s d).resetting = true) (idOk : Bool) :
    exec (.lunResetDone d idOk) s = .next (if idOk then timeoutFailed s d else dieLost s d) := stepIf_of h s _

/-- Settles O56: the loss of an unused die is its record, a failed program of a host course marks its slab before the
mend, and what a reset keeps is neither in what it clears nor in what the ROM writes. -/
theorem lostDiesAndFloorsOutliveResets : Obligations.LostDiesAndFloorsOutliveResets := by
  unfold Obligations.LostDiesAndFloorsOutliveResets
  refine ⟨fun d s hres hslabs hcourses hreqs hdevs => ?_, fun s id p k hk hkind => failUnit_host hk hkind p,
    fun s cause aon p => ?_⟩
  · exact (exec_lunResetDone hres false).trans (congrArg _ (dieLost_unused hslabs hcourses hreqs hdevs))
  · intro t hsorted
    have hlast := deviceReset_lasting s cause aon p
    simp only [State.lasting, Prod.mk.injEq] at hlast
    obtain ⟨hpending, hcount, hfl, hcph, hfloor0, hfloor1, hkm, hlocked⟩ := hlast
    refine ⟨fun d => ?_, (congrArg Cipher.epochs hcph :), hfloor0, hfloor1, hkm, hpending, hcount, hlocked⟩
    exact (congrArg (fun f : Flash => (Tbl.get die0 f.dies d).lost) hfl).trans (get_lostDies_lost hsorted d)

end Sys2Proof.Machine

/-! ## Strikes

What a strike does without a flush and with one (R29, R359). -/

namespace Sys2Proof.Machine

section
variable {s : State} (hstop : s.tb.stopped = false) (hhalt : s.pwr.halted = false) (e : StrikeEnv)
include hstop hhalt

theorem exec_strike_works (hnone : s.blw.flush = none) : exec (.strike e) s = .next (workStrike s e) := by
  show execStrike e s = _
  rw [execStrike, hnone]
  exact stepIf_of (by simp [hstop, hhalt]) s _

/-- In a flush a strike counts, and a flush that has not begun its programs starts. -/
theorem exec_strike_flushes {f : FlushRun} (hf : s.blw.flush = some f) :
    exec (.strike e) s = .next (if f.started then countStrike s else flushStart (countStrike s) f) := by
  show execStrike e s = _
  rw [execStrike, hf]
  exact stepIf_of (by simp [hstop, hhalt]) s _

end

/-- While strikes do not fire, a strike leaves the state. -/
theorem exec_strike_idle {s : State} (h : s.tb.stopped = true ∨ s.pwr.halted = true) (e : StrikeEnv) :
    exec (.strike e) s = .next s := by
  have hoff : (!s.tb.stopped && !s.pwr.halted) = false := by rcases h with h | h <;> simp [h]
  show stepIf s _ _ = _
  rw [hoff, stepIf_false]

/-- The times of the operations on the dies advance, and nothing else. -/
theorem runTimes_eq (s : State) : runTimes s = { s with fl := (runTimes s).fl } := by
  refine List.foldlRecOn s.fl.dies _ (motive := fun t : State => t = { s with fl := t.fl }) rfl fun t ht e _ => ?_
  dsimp only
  split
  · rw [ht]
    rfl
  · exact ht

/-- Settles O27: a strike that counts writes the times of the die operations and the strike counter. -/
theorem strikeRunsOrFlushGoesOn : Obligations.StrikeRunsOrFlushGoesOn := by
  unfold Obligations.StrikeRunsOrFlushGoesOn
  refine ⟨fun e s hstop hhalt hnone => exec_strike_works hstop hhalt e hnone,
    fun e f s hstop hhalt hf => ⟨fun hstart => ?_, fun hstart => ?_⟩, fun e s hidle => exec_strike_idle hidle e⟩
  · rw [exec_strike_flushes hstop hhalt e hf, if_neg (by simp [hstart])]
  · have htb : (runTimes s).tb = s.tb := (congrArg State.tb (runTimes_eq s) :)
    refine ⟨countStrike s, ?_, ?_, ?_, ?_⟩
    · rw [exec_strike_flushes hstop hhalt e hf, if_pos hstart]
    · simp [countStrike, htb]
    · rw [countStrike, runTimes_eq]
    · simp [countStrike, htb]

end Sys2Proof.Machine

/-! ## The state at reset -/

namespace Sys2Proof.Machine

/-- Only MF's entry of the tenants is listed at reset. -/
theorem getTen_reset {t : Nat} (h : t ≠ 0) : getTen State.reset t = ten0 t :=
  Tbl.get_of_not_mem ten0 fun e he => by
    obtain rfl : e = (0, mfTenant) := by simpa [State.reset] using he
    exact h.symm

/-- Settles O3: the tables are empty at reset, so that every key reads as it does where it is not listed; of the tenants
MF alone is listed. -/
theorem resetStateHoldsResetValues : Obligations.ResetStateHoldsResetValues := by
  unfold Obligations.ResetStateHoldsResetValues
  have hslot (k : Nat) : (getSlot State.reset k).st = .free := rfl
  have htenant (t : Nat) (h : t ≠ 0) : (getTen State.reset t).st = .none := by rw [getTen_reset h, ten0]
  exact ⟨rfl, fun _ => rfl, rfl, rfl, hslot, rfl, htenant, fun _ => rfl, fun _ => rfl, fun _ => rfl, fun _ => rfl,
    rfl, rfl, rfl⟩

end Sys2Proof.Machine

/-! ## The ends of die operations

What a status or a sense of a die answers once a poll has read it (R195); then the statement about programs, erases,
suspends, senses and ageing. -/

namespace Sys2Proof.Machine

section
variable {s : State} {d : Nat}

/-! ### Programs (R147, R157, R171) -/

section
variable {g : ProgTarget} (htarget : (getDie s d).target = some g) (hdue : statusDue (getDie s d) = true)
include htarget hdue

theorem exec_programDone : exec (.programDone d) s = .next (programDone s d) :=
  stepIf_of (by simp [htarget, hdue]) s _

theorem exec_programFail : exec (.programFail d) s = .next (programFailed s d) :=
  stepIf_of (by simp [htarget, hdue]) s _

end

/-- A program of the unit that a course sends makes it PROGRAMMED. -/
theorem programDone_unit {id p r : Nat} {k : Course} (htarget : (getDie s d).target = some (.unit id p r))
    (hk : getCourse s id = some k)
    (hsent : (k.unit p).st = .sending ∧ (k.unit p).row = r ∧ slabDie (k.slabs.getD p 0) = d) :
    programDone s d = setCourse (setDie s d (getDie s d).opEnd) id
      (some (k.setUnit p { k.unit p with st := .programmed, moved := 0, sensed := 0 })) := by
  have hk' : getCourse (setDie s d (getDie s d).opEnd) id = some k := by simpa using hk
  simp only [programDone, htarget, hk']
  rw [if_pos hsent]

theorem programDone_mend {id p r : Nat} (htarget : (getDie s d).target = some (.mend id p r)) :
    programDone s d = updMend (setDie s d (getDie s d).opEnd) id p fun m =>
      if m.unit.st = .sending ∧ m.unit.row = r ∧ slabDie m.slab = d then
        { m with unit := { m.unit with st := .programmed, moved := 0, sensed := 0 } } else m := by
  simp only [programDone, htarget]

theorem programDone_journal (htarget : (getDie s d).target = some .journal) :
    programDone s d = journalDone (setDie s d (getDie s d).opEnd) := by
  simp only [programDone, htarget]

theorem programFailed_unit {id p r : Nat} (htarget : (getDie s d).target = some (.unit id p r)) :
    programFailed s d = failUnit (setDie s d (getDie s d).opEnd) id p false := by
  simp only [programFailed, htarget]

theorem programFailed_mend {id p r : Nat} (htarget : (getDie s d).target = some (.mend id p r)) :
    programFailed s d = failUnit (setDie s d (getDie s d).opEnd) id p true := by
  simp only [programFailed, htarget]

theorem programFailed_journal (htarget : (getDie s d).target = some .journal) :
    programFailed s d = journalFail (bump (setDie s d (getDie s d).opEnd) R.MED_PROG_FAIL_CNT_PROG_FAIL) := by
  simp only [programFailed, htarget]

/-! ### Erases (R143, R154, R159, R161) -/

section
variable (herase : (getDie s d).erasing = true) (hdue : statusDue (getDie s d) = true)
include herase hdue

theorem exec_eraseDone : exec (.eraseDone d) s = .next (eraseDone s d) := stepIf_of (by simp [herase, hdue]) s _

theorem exec_eraseFail : exec (.eraseFail d) s = .next (eraseFailed s d) := stepIf_of (by simp [herase, hdue]) s _

end

/-- A slab of a course domain or a zone is ERASED, and retires where it had failed again. -/
theorem eraseDone_host (h : (getSlab s (getDie s d).slab).reserved = false) :
    let x := getDie s d
    let y := getSlab s x.slab
    let u := setSlab (setDie s d x.opEnd) x.slab
      { y with pe := y.pe + 1, erasedAt := s.tb.count, st := .erased, course := none, fail := 0 }
    eraseDone s d = wearCheck (repaySlab (if y.fail = 3 then retireSlab u x.slab 3 else u) x.slab) d :=
  if_neg (by simp [h])

/-- A slab of a flush area or of the system area keeps its state. -/
theorem eraseDone_reserved (h : (getSlab s (getDie s d).slab).reserved = true) :
    let x := getDie s d
    let y := getSlab s x.slab
    eraseDone s d = wearCheck (ringErased (setSlab (setDie s d x.opEnd) x.slab
      { y with pe := y.pe + 1, erasedAt := s.tb.count }) x.slab) d :=
  if_pos h

theorem eraseFailed_host (h : (getSlab s (getDie s d).slab).reserved = false) :
    let x := getDie s d
    eraseFailed s d = wearCheck (repaySlab
      (retireSlab (bump (setDie s d x.opEnd) R.MED_ERASE_FAIL_CNT_ERASE_FAIL) x.slab 2) x.slab) d := by
  simp [eraseFailed, h]

/-! ### Suspends (R32) -/

theorem exec_suspendDone (hsent : (getDie s d).susSent = true) (hpoll : (getDie s d).polled = true)
    (hres : (getDie s d).resetting = false) (hlost : (getDie s d).lost = false) (ended : Bool) :
    exec (.suspendDone d ended) s = .next (suspendDone s d ended) :=
  stepIf_of (by simp [hsent, hpoll, hres, hlost]) s _

/-! ### Senses (R35, R172) -/

section
variable (hres : (getDie s d).resetting = false) (hlost : (getDie s d).lost = false)
include hres hlost

/-- The sense of a read-back ends once a poll has read it (R195). -/
theorem exec_senseDone_background {b : BgSense} (hnone : (getDie s d).sensing = none) (hbg : (getDie s d).bg = some b)
    (hpoll : (getDie s d).polled = true) : exec (.senseDone d) s = .next (senseDone s d) :=
  stepIf_of (by simp [hnone, hbg, hpoll, hres, hlost]) s _

/-- A planned sense ends by the strike that it was planned for, without a poll (R35). -/
theorem exec_senseDone_planned {x : PlanStep} (hx : (getDie s d).sensing = some x)
    (hdue : (getDie s d).polled = true ∨ x.sd ≤ s.tb.count + 1) : exec (.senseDone d) s = .next (senseDone s d) :=
  stepIf_of (by simp [hx, hdue, hres, hlost]) s _

end

/-- A sense of a read-back adds a page to a PROGRAMMED unit. -/
theorem senseDone_verify {id p : Nat} {k : Course} (hnone : (getDie s d).sensing = none)
    (hbg : (getDie s d).bg = some (.verify id p)) (hk : getCourse s id = some k) (hst : (k.unit p).st = .programmed) :
    senseDone s d = setCourse (setDie s d { getDie s d with bg := none }) id
      (some (k.setUnit p { k.unit p with sensed := (k.unit p).sensed + 1 })) := by
  simp [senseDone, hnone, hbg, updCourse, hk, hst]

theorem senseDone_planned {x : PlanStep} (hx : (getDie s d).sensing = some x) :
    senseDone s d = partSensed (setDie s d { getDie s d with
      sensing := none, st := if (getDie s d).st = .reading then .idle else (getDie s d).st }) x.who x.part := by
  simp only [senseDone, hx]

/-! ### Ageing (R31) -/

theorem exec_programAged {e : ProgTarget × Nat} {l : List (ProgTarget × Nat)} (hprogs : (getDie s d).progs = e :: l)
    (haged : (getDie s d).aged = false) (hage : e.2 + rd s R.STK_SUSP_PROG_AGE ≤ s.tb.count) :
    exec (.programAged d) s = .next (setDie s d { getDie s d with aged := true }) := by
  show execProgramAged d s = _
  simp only [execProgramAged, hprogs]
  exact stepIf_of (by simp [haged, hage]) s _

end

/-- Settles O28: the status or the sense is due, and each operation ends by what the die worked on. -/
theorem dieOperationsEnd : Obligations.DieOperationsEnd := by
  unfold Obligations.DieOperationsEnd
  refine ⟨fun d id p r k s htarget hdue hk => ?unit, fun d id p r s htarget hdue => ?mend,
    fun d s htarget hdue => ?journal, fun d s herase hdue => ?erase, fun d s hsent hpoll hres hlost => ?suspend,
    fun d id p k s hnone hbg hpoll hres hlost hk hst => ?verify, fun d x s hx hres hlost hdue => ?planned,
    fun d e l s hprogs haged hage => exec_programAged hprogs haged hage⟩
  case unit =>
    refine ⟨fun hst hrow hdie => ?_, ?_⟩
    · rw [exec_programDone htarget hdue, programDone_unit htarget hk ⟨hst, hrow, hdie⟩]
    · rw [exec_programFail htarget hdue, programFailed_unit htarget]
  case mend =>
    rw [exec_programDone htarget hdue, exec_programFail htarget hdue, programDone_mend htarget,
      programFailed_mend htarget]
    exact ⟨rfl, rfl⟩
  case journal =>
    rw [exec_programDone htarget hdue, exec_programFail htarget hdue, programDone_journal htarget,
      programFailed_journal htarget]
    exact ⟨rfl, rfl⟩
  case erase =>
    rw [exec_eraseDone herase hdue, exec_eraseFail herase hdue]
    refine ⟨fun hres => ⟨fun hfail => ?_, fun hfail => ?_, ?_⟩, fun hres => ?_⟩
    · rw [eraseDone_host hres, if_neg hfail]
    · rw [eraseDone_host hres, if_pos hfail]
    · rw [eraseFailed_host hres]
    · rw [eraseDone_reserved hres]
  case suspend =>
    exact ⟨exec_suspendDone hsent hpoll hres hlost false, _, exec_suspendDone hsent hpoll hres hlost true,
      rfl, rfl, rfl, rfl⟩
  case verify =>
    rw [exec_senseDone_background hres hlost hnone hbg hpoll, senseDone_verify hnone hbg hk hst]
  case planned =>
    rw [exec_senseDone_planned hres hlost hx hdue, senseDone_planned hx]

end Sys2Proof.Machine

/-! ## Writes with a meaning of their own

How each write command reaches its effect through an open window (R427); then the statement about these writes. -/

namespace Sys2Proof.Machine

/-! ### Writes that the window answers (R427) -/

section
variable {s : State} {req : Nat} (h : accessOpen s req = true) (v : W32)
include h

theorem exec_eventForceWrite : exec (.eventForceWrite req v) s = .next (forceEvent s v) := stepIf_of h s _

theorem exec_stkPeriodWrite : exec (.stkPeriodWrite req v) s = .next (periodWrite s (R.STK_PERIOD_PER_Q.of v)) :=
  stepIf_of h s _

theorem exec_kekEpochWrite : exec (.kekEpochWrite req v) s = .next (kekEpochWrite s (selEntry s req .kek) v) :=
  stepIf_of h s _

theorem exec_ipEntryCommit : exec (.ipEntryCommit req v) s = .next (ipCommit s req v) := stepIf_of h s _

theorem exec_hmRdSeqWrite : exec (.hmRdSeqWrite req v) s = .next (hmFetch s req v) := stepIf_of h s _

theorem exec_bootLockWrite : exec (.bootLockWrite req v) s = .next (if v.getLsbD 0 then applyLock s else s) :=
  stepIf_of h s _

theorem exec_execEnWrite : exec (.execEnWrite req v) s = .next (smtCtrlWrite s req R.SMT_CTRL_EXEC_EN.addr v) :=
  stepIf_of h s _

variable {k : Nat} (hk : k < 12)
include hk

theorem exec_eventStatusClear : exec (.eventStatusClear req k v) s = .next (statClear s k v) :=
  stepIf_of (by simp [h, hk]) s _

theorem exec_eventEnableWrite : exec (.eventEnableWrite req k v) s = .next (enableWrite s k v) :=
  stepIf_of (by simp [h, hk]) s _

end

/-! ### What a plain write leaves (R8) -/

/-- A plain write changes the register file alone. -/
theorem plainWrite_eq (s : State) (req addr : Nat) (v : W32) :
    plainWrite s req addr v = { s with reg := (plainWrite s req addr v).reg } := by
  unfold plainWrite
  split <;> rfl

@[simp] theorem plainWrite_boot (s : State) (req addr : Nat) (v : W32) : (plainWrite s req addr v).boot = s.boot :=
  (congrArg State.boot (plainWrite_eq s req addr v) :)

@[simp] theorem plainWrite_hm (s : State) (req addr : Nat) (v : W32) : (plainWrite s req addr v).hm = s.hm :=
  (congrArg State.hm (plainWrite_eq s req addr v) :)

/-! ### HM_RD_SEQ (R386) -/

theorem hmFetch_hm (s : State) (req : Nat) (v : W32) :
    (hmFetch s req v).hm = { s.hm with rd := Tbl.set Tbl.absent s.hm.rd req (s.hm.find v.toNat) } := by
  simp only [hmFetch, plainWrite_hm]

theorem hmFetch_eq (s : State) (req : Nat) (v : W32) :
    hmFetch s req v = { s with reg := (hmFetch s req v).reg, hm := (hmFetch s req v).hm } := by
  rw [hmFetch, plainWrite_eq]

/-! ### SMT_CTRL (R418, R419) -/

/-- SMT_CTRL, with its two fields. -/
def smtCtrlReg : RegDesc := ⟨R.SMT_CTRL_EXEC_EN.addr, 4, 1, .none, [R.SMT_CTRL_EXEC_EN, R.SMT_CTRL_HANDLER_ALLOW]⟩

theorem regAt_smtCtrl : regAt R.SMT_CTRL_EXEC_EN.addr = some smtCtrlReg := by decide +kernel

/-- A field of one bit is set where its bit of the word is. -/
theorem flag_eq_getLsbD (s : State) {f : Fld} (hw : f.width = 1) : flag s f = (regWord s f.addr).getLsbD f.lsb := by
  rw [flag, rd, Fld.of, hw, BitVec.getLsbD, Nat.testBit_eq_decide_div_mod_eq, pow_one]
  rcases Nat.mod_two_eq_zero_or_one ((regWord s f.addr).toNat / 2 ^ f.lsb) with h | h <;> rw [h] <;> rfl

/-- A write that sets EXEC_EN leaves it set. -/
theorem flag_plainWrite_execEn (s : State) (req : Nat) {v : W32} (hv : v.getLsbD 0 = true) :
    flag (plainWrite s req R.SMT_CTRL_EXEC_EN.addr v) R.SMT_CTRL_EXEC_EN = true := by
  have hcell : cellOf s req R.SMT_CTRL_EXEC_EN.addr smtCtrlReg = R.SMT_CTRL_EXEC_EN.addr := by
    simp [cellOf, smtCtrlReg, selEntry]
  have hopen : (BitVec.ofNat 32 (smtCtrlReg.maskOf fun a => a == .rw || (a == .rwl && !s.boot.locked))).getLsbD 0 =
      true := by
    cases s.boot.locked <;> decide +kernel
  rw [flag_eq_getLsbD _ rfl, plainWrite, regAt_smtCtrl]
  dsimp only
  rw [hcell, regWord_setWord_self, getLsbD_writeWord _ _ _ _ (by decide)]
  exact (if_pos hopen).trans hv

/-- Setting EXEC_EN first applies the boot lock, and stops the watchdog. -/
theorem smtCtrlWrite_set {v : W32} (hv : v.getLsbD 0 = true) (s : State) (req addr : Nat) :
    smtCtrlWrite s req addr v =
      { plainWrite (applyLock s) req addr v with boot := { s.boot with locked := true, wdtRunning := false } } := by
  rw [smtCtrlWrite, if_pos hv]
  simp [applyLock]

theorem smtCtrlWrite_clear {v : W32} (hv : v.getLsbD 0 = false) (s : State) (req addr : Nat) :
    smtCtrlWrite s req addr v = plainWrite s req addr v := if_neg (by rw [hv]; decide)

/-- Settles O36: each command reaches its register's own effect, and a plain write within one changes the register file
alone. -/
theorem writesWithTheirOwnEffect : Obligations.WritesWithTheirOwnEffect := by
  unfold Obligations.WritesWithTheirOwnEffect
  refine ⟨fun req v s h => ⟨exec_eventForceWrite h v, exec_stkPeriodWrite h v, exec_kekEpochWrite h v,
      exec_ipEntryCommit h v⟩,
    fun req v s h => ⟨hmFetch s req v, exec_hmRdSeqWrite h v, ?_, ?_, hmFetch_eq s req v⟩,
    fun req k v s h hk => ⟨exec_eventStatusClear h v hk, exec_eventEnableWrite h v hk⟩,
    fun req v s h => ⟨fun hv => ?_, fun hv => ?_⟩,
    fun req v s h => ⟨fun hv => ⟨smtCtrlWrite s req R.SMT_CTRL_EXEC_EN.addr v, exec_execEnWrite h v, ?_, ?_, ?_⟩,
      fun hv => ?_⟩⟩
  · rw [hmFetch_hm, Tbl.get_set_self]
  · rw [hmFetch_hm]
  · rw [exec_bootLockWrite h, if_pos hv, applyLock]
  · rw [exec_bootLockWrite h, if_neg (by rw [hv]; decide)]
  · rw [smtCtrlWrite_set hv]
  · rw [smtCtrlWrite_set hv, plainWrite_eq]
    rfl
  · rw [smtCtrlWrite_set hv]
    exact flag_plainWrite_execEn (applyLock s) req hv
  · rw [exec_execEnWrite h, smtCtrlWrite_clear hv]

end Sys2Proof.Machine

/-! ## Power entries and operating points

The commands that ask for, run and end an entry (R327 to R330), and those of the sequencer (R343 to R345). -/

namespace Sys2Proof.Machine

section
variable {s : State}

/-! ### Requests for a device state (R327, R331) -/

/-- An admin command that is refused with Invalid Field carries no data. -/
theorem admin_invalidField (s : State) (k : Nat) : admin s k nvInvalidField [] = endAdmin s k (0, 0x02, true) := rfl

theorem powerRequest_hot (s : State) (b : PowerReq) : powerRequest s b .hot = requestHot s b := if_pos rfl

theorem powerRequest_accepted {b : PowerReq} {target : PState} (hhot : target ≠ .hot)
    (h : entryRefusal s target = 0x0000) : powerRequest s b target = beginEntry s b target :=
  (if_neg hhot).trans (if_neg (not_not_intro h))

theorem powerRequest_refused {b : PowerReq} {target : PState} (hhot : target ≠ .hot)
    (h : entryRefusal s target ≠ 0x0000) :
    powerRequest s b target = powerAnswer s b (entryRefusal s target) :=
  (if_neg hhot).trans (if_pos h)

theorem exec_setFeaturesPowerState {k : Nat} (h : featureSlot s k = true) :
    exec (.setFeaturesPowerState k) s = .next (if (getSlot s k).tenant ≠ 0 then endAdmin s k (0, 0x02, true)
      else powerRequest (adminHold s k) (.feature k (getSlot s k).gen)
        (.ofCode ((getSlot s k).cmd.dw11.toNat % 4))) := stepIf_of h s _

theorem exec_getFeaturesPowerState {k : Nat} (hopen : endpointOpen s = true) (hat : adminAt s k 0x0A = true)
    (hid : (getSlot s k).cmd.dw10.toNat % 256 = 0xC0) :
    exec (.getFeaturesPowerState k) s = .next (if senderOf s k ≠ 0 then admin s k nvInvalidField []
      else adminDw0 s k (powerWord s % 32)) := stepIf_of (by rw [hopen, hat, hid]; rfl) s _

/-! ### The steps of an entry (R329, R330) -/

theorem exec_powerEntryStepDone {e : Entry} (he : s.pwr.entry = some e) (hready : entryReady s e = true)
    (hopen : windowOpen s = true) (hflush : s.blw.flush = none) :
    exec .powerEntryStepDone s = .next (entryStep s e) := by
  show execPowerEntryStepDone s = _
  simp only [execPowerEntryStepDone, he]
  exact stepIf_of (by simp [hready, hopen, hflush]) s _

theorem exec_entryDrainLimitExpiry {e : Entry} (he : s.pwr.entry = some e) (hlow : 2 ≤ e.step) (hhigh : e.step ≤ 4)
    (hfail : e.failing = false) (hlimit : e.startAt + drainLimit s ≤ s.tb.count) :
    exec .entryDrainLimitExpiry s =
      .next { s with pwr := { s.pwr with entry := some { e with failing := true } } } := by
  show execEntryDrainLimitExpiry s = _
  simp only [execEntryDrainLimitExpiry, he]
  exact stepIf_of (by simp [hlow, hhigh, hfail, hlimit]) s _

/-! ### The members of a Wall (R400) -/

theorem exec_memberPowerCommand {target : Nat} (hmember : isMember s = true) (hopen : endpointOpen s = true)
    (ht : target < 4) (abandon : Bool) :
    exec (.memberPowerCommand target abandon) s = .next (memberCommand s target abandon) :=
  stepIf_of (by simp [hmember, hopen, ht]) s _

theorem memberCommand_wakes (h : s.pwr.st = .banked) : memberCommand s 0 false = wakeBanked s s.pwr.wakeCause := by
  simp [memberCommand, h]

theorem memberCommand_requests (h : s.pwr.st ≠ .banked) (target : Nat) :
    memberCommand s target false = powerRequest s .wall (.ofCode target) := by
  simp [memberCommand, h]

theorem memberCommand_abandons {e : Entry} (he : s.pwr.entry = some e) (hstep : e.step ≠ 6) (target : Nat) :
    memberCommand s target true =
      { s with pwr := { s.pwr with entry := some { e with abort := e.abort ++ [.wall] } } } := by
  simp [memberCommand, memberAbandon, he, hstep]

/-! ### The sequencer of the operating points (R343, R345) -/

section
variable {q : OpSeq} (hq : s.pwr.seq = some q)
include hq

theorem exec_avsVoltageReached_rising (h : q.phase = .voltage) :
    exec .avsVoltageReached s = .next (opPhase s q .switch) := by
  show execAvsVoltageReached s = _
  simp only [execAvsVoltageReached, hq, h]

theorem exec_avsVoltageReached_falling (h : q.phase = .lowering) :
    exec .avsVoltageReached s = .next (opEnd s q St.ok) := by
  show execAvsVoltageReached s = _
  simp only [execAvsVoltageReached, hq, h]

theorem exec_pllLocked (h : q.phase = .lockPll) : exec .pllLocked s = .next (opPhase s q .switch) := by
  show execPllLocked s = _
  simp only [execPllLocked, hq]
  exact stepIf_of (by simp [h]) s _

theorem exec_avsSettleTimeout (h : q.phase = .voltage ∨ q.phase = .lowering) (mv : Nat) :
    exec (.avsSettleTimeout mv) s =
      .next (opEnd (raise s (event 235 0x0801 [(1, q.target), (2, mv)])) q St.opRefused) := by
  show execAvsSettleTimeout mv s = _
  simp only [execAvsSettleTimeout, hq]
  exact stepIf_of (by simpa using h) s _

end

/-- The end of a sequence takes its step out of the power state and leaves the timebase. -/
theorem opEnd_pwr (s : State) (q : OpSeq) (st : W16) : (opEnd s q st).pwr = { s.pwr with seq := none } := rfl

theorem opEnd_tb (s : State) (q : OpSeq) (st : W16) : (opEnd s q st).tb = s.tb := rfl

/-! ### The strike period (R24) -/

theorem exec_periodChangeEffect {p : Nat} (hp : s.tb.perPend = some p) (hrun : strikesRun s = true)
    (hreads : longReads s p = false) (hann : s.wall.announced = none) :
    exec .periodChangeEffect s = .next (changePeriod s p) := by
  show execPeriodChangeEffect s = _
  simp only [execPeriodChangeEffect, hp]
  exact stepIf_of (by simp [hrun, hreads, hann]) s _

end

/-- Settles O50: the requests by their target, the entry by its step, the member by its state, and the sequencer by its
phase. -/
theorem powerEntriesAndPoints : Obligations.PowerEntriesAndPoints := by
  unfold Obligations.PowerEntriesAndPoints
  refine ⟨fun k s h => ?set, fun k s hopen hat hid => ?get, fun e s he => ?entry,
    fun target s hmember hopen ht => ?member, fun q mv s hq => ?sequencer,
    fun p s hp hrun hreads hann => exec_periodChangeEffect hp hrun hreads hann⟩
  case set =>
    rw [exec_setFeaturesPowerState h]
    refine ⟨fun hten => by rw [if_pos hten], fun hten => ?_⟩
    rw [if_neg (not_not_intro hten)]
    exact ⟨fun hhot hok => by rw [powerRequest_accepted hhot hok],
      fun hhot hno => by rw [powerRequest_refused hhot hno],
      fun hhot => by rw [hhot, powerRequest_hot]⟩
  case get =>
    rw [exec_getFeaturesPowerState hopen hat hid, admin_invalidField, ite_not]
  case entry =>
    exact ⟨fun hready hopen hflush => exec_powerEntryStepDone he hready hopen hflush,
      fun hlow hhigh hfail hlimit => exec_entryDrainLimitExpiry he hlow hhigh hfail hlimit⟩
  case member =>
    refine ⟨fun hst => ?_, fun hst hhot hok => ?_, fun e he hstep => ?_⟩
    · rw [exec_memberPowerCommand hmember hopen (by decide), memberCommand_wakes hst]
    · rw [exec_memberPowerCommand hmember hopen ht, memberCommand_requests hst, powerRequest_accepted hhot hok]
    · rw [exec_memberPowerCommand hmember hopen ht, memberCommand_abandons he hstep]
  case sequencer =>
    refine ⟨fun h => exec_avsVoltageReached_rising hq h, fun h => exec_avsVoltageReached_falling hq h,
      fun h => exec_pllLocked hq h, fun h => ⟨_, exec_avsSettleTimeout hq h mv, ?_, ?_, ?_⟩⟩
    · rw [opEnd_pwr]
    · rw [opEnd_pwr, raise_pwr]
    · rw [opEnd_tb, raise_tb]

end Sys2Proof.Machine

/-! ## Arithmetic words that fault -/

namespace Sys2Proof.Machine

/-! ### The value registers (R81) -/

theorem Slot.val_setVal_self (x : Slot) {i : BitVec 4} (w : W64) (h : i ≠ 0) : (x.setVal i w).val i = w := by
  rw [Slot.val_setVal, if_neg h, if_pos rfl]

theorem Slot.val_setVal_ne (x : Slot) {i j : BitVec 4} (w : W64) (h : j ≠ i) : (x.setVal i w).val j = x.val j := by
  rw [Slot.val_setVal]
  by_cases hj : j = 0
  · rw [if_pos hj, hj]
    rfl
  · rw [if_neg hj, if_neg h]

/-! ### The arithmetic words (R65, R84) -/

/-- The words of Table 4.4 that write a result and flags, each with its opcode and whether it has the mode of SHR. -/
def arithmeticWords (slot : Nat) (f : Fields) : List (Instr × Nat × Bool) :=
  [(.add slot f, 0x00, false), (.sub slot f, 0x01, false), (.and slot f, 0x02, false), (.or slot f, 0x03, false),
    (.xor slot f, 0x04, false), (.shl slot f, 0x05, false), (.shr slot f, 0x06, true)]

/-- Each of them runs as a word of two cycles. -/
theorem exec_arithmeticWord {slot op : Nat} {f : Fields} {s : State} {c : Instr} {shr : Bool}
    (hc : (c, op, shr) ∈ arithmeticWords slot f) (hat : atWord s slot op f = true) :
    ∃ body, exec c s = .next (runWord s slot 2 (aluUnused f shr) body) := by
  simp only [arithmeticWords, List.mem_cons, List.not_mem_nil, or_false, Prod.mk.injEq] at hc
  rcases hc with ⟨rfl, rfl, rfl⟩ | ⟨rfl, rfl, rfl⟩ | ⟨rfl, rfl, rfl⟩ | ⟨rfl, rfl, rfl⟩ | ⟨rfl, rfl, rfl⟩ |
    ⟨rfl, rfl, rfl⟩ | ⟨rfl, rfl, rfl⟩ <;> exact ⟨_, stepIf_of hat s _⟩

/-- Settles O8: a write of a value register is read back in its own place alone, and the faults are the two of `runWord`,
whichever the arithmetic word. -/
theorem registerZeroAndWordFaults : Obligations.RegisterZeroAndWordFaults := by
  unfold Obligations.RegisterZeroAndWordFaults
  refine ⟨fun x w => ⟨x.val_zero, x.setVal_zero w⟩,
    fun x i j w hi => ⟨x.val_setVal_self w hi, x.val_setVal_ne w⟩, fun slot f s c op shr hc hat => ?_⟩
  obtain ⟨body, hexec⟩ := exec_arithmeticWord hc hat
  rw [hexec]
  refine ⟨fun hout hlimit => ?_, fun hlimit hused => ?_⟩
  · rw [runWord_of_runaway _ _ _ hout hlimit]
    rfl
  · rw [hused, runWord_of_badPlaces _ _ hlimit]
    rfl

end Sys2Proof.Machine

/-! ## Faults -/

namespace Sys2Proof.Machine

/-! ### What leaves the slots -/

@[simp] theorem getSlot_updSlot_self (s : State) (k : Nat) (f : Slot → Slot) :
    getSlot (updSlot s k f) k = f (getSlot s k) := getSlot_setSlot_self ..

/-- A freed buffer changes the buffers and the queue of the Quench alone. -/
theorem freeBuf_eq (s : State) (b : Nat) : freeBuf s b =
    { s with ord := { s.ord with bufs := (freeBuf s b).ord.bufs, quenchQ := (freeBuf s b).ord.quenchQ } } := by
  unfold freeBuf
  split
  · rfl
  · split
    · rfl
    · split <;> rfl

theorem foldl_freeBuf_eq (l : List Nat) (s : State) : l.foldl freeBuf s =
    { s with ord := { s.ord with
      bufs := (l.foldl freeBuf s).ord.bufs, quenchQ := (l.foldl freeBuf s).ord.quenchQ } } :=
  List.foldlRecOn l freeBuf
    (motive := fun t => t = { s with ord := { s.ord with bufs := t.ord.bufs, quenchQ := t.ord.quenchQ } }) rfl
    fun t ht b _ => by
      rw [freeBuf_eq, ht]

/-- Bodies that enter the Quench change the bodies and its queue alone. -/
theorem reapBodies_eq (s : State) : reapBodies s =
    { s with ord := { s.ord with bodies := (reapBodies s).ord.bodies, quenchQ := (reapBodies s).ord.quenchQ } } := by
  refine List.foldlRecOn s.ord.bodies _
    (motive := fun t : State => t = { s with ord := { s.ord with bodies := t.ord.bodies, quenchQ := t.ord.quenchQ } })
    rfl fun t ht e _ => ?_
  dsimp only
  split
  · split
    · rw [ht]
      rfl
    · exact ht
  · exact ht

@[simp] theorem getSlot_reapBodies (s : State) (k : Nat) : getSlot (reapBodies s) k = getSlot s k := by
  rw [reapBodies_eq]
  rfl

@[simp] theorem getSlot_foldl_freeBuf (l : List Nat) (s : State) (k : Nat) :
    getSlot (l.foldl freeBuf s) k = getSlot s k := by
  rw [foldl_freeBuf_eq]
  rfl

@[simp] theorem getSlot_dropPrivate (s : State) (k : Nat) :
    getSlot (dropPrivate s k) k = { getSlot s k with p0 := none, p1 := none } := by
  simp [dropPrivate]

/-! ### The end of an order and the entry of a handler (R52, R66) -/

/-- An order on no Smith leaves for a state by its slot alone. -/
theorem leave_of_not_running {s : State} {k : Nat} (h : (getSlot s k).st ≠ .running) (st : SlotState) :
    leave s k st = setSlot s k { getSlot s k with st := st, sliceLeft := 0 } := by
  simp [leave, h]

theorem getSlot_finishOrder {s : State} {k : Nat} (h : (getSlot s k).st ≠ .running) (st : W16) :
    getSlot (finishOrder s k st) k =
      { getSlot s k with status := st, waiting := .nothing, st := .posting, sliceLeft := 0 } := by
  rw [finishOrder, getSlot_reapBodies, leave_of_not_running (by simpa using h), getSlot_setSlot_self,
    getSlot_updSlot_self]

/-- The slot of an order that has entered a handler. -/
def Slot.entered (x : Slot) (st pos : W16) (p : CodePos) (from_ : Nat) : Slot :=
  let y := ({ x with p0 := none, p1 := none }.setVal 13 (st.zeroExtend 64)).setVal 14 (pos.zeroExtend 64)
  { y with flags := { y.flags with f := true }, inHandler := true, hdepth := x.stack.length, original := st, pc := p,
           waiting := .nothing, from_ := from_, st := .runnable, sliceLeft := 0 }

theorem getSlot_enterHandler {s : State} {k : Nat} (h : (getSlot s k).st ≠ .running) (st pos : W16) (p : CodePos) :
    getSlot (enterHandler s k st pos p) k = (getSlot s k).entered st pos p (s.tb.count + 1) := by
  rw [enterHandler, leave_of_not_running (by simpa using h), getSlot_setSlot_self, getSlot_updSlot_self,
    getSlot_dropPrivate]
  rfl

theorem Slot.entered_val_status (x : Slot) (st pos : W16) (p : CodePos) (n : Nat) :
    (x.entered st pos p n).val 13 = st.zeroExtend 64 :=
  (Slot.val_setVal_ne _ _ (by decide)).trans (Slot.val_setVal_self _ _ (by decide))

theorem Slot.entered_val_position (x : Slot) (st pos : W16) (p : CodePos) (n : Nat) :
    (x.entered st pos p n).val 14 = pos.zeroExtend 64 := Slot.val_setVal_self _ _ (by decide)

theorem Slot.entered_h (x : Slot) (st pos : W16) (p : CodePos) (n : Nat) : (x.entered st pos p n).h = x.h := by
  simp [Slot.entered]

theorem Slot.entered_tickets (x : Slot) (st pos : W16) (p : CodePos) (n : Nat) :
    (x.entered st pos p n).tickets = x.tickets := by simp [Slot.entered]

/-! ### The note of a fault (Table 3.11) -/

/-- A fault that is counted changes the register file alone. -/
theorem countFault_eq (s : State) (k : Nat) (st : W16) :
    countFault s k st = { s with reg := (countFault s k st).reg } := by
  unfold countFault
  dsimp only
  (repeat' split) <;> rfl

theorem noteFault_tb (s : State) (k : Nat) (st pos : W16) : (noteFault s k st pos).tb = s.tb := by
  rw [noteFault, countFault_eq]
  rfl

theorem getSlot_noteFault (s : State) (k : Nat) (st pos : W16) :
    getSlot (noteFault s k st pos) k = { getSlot s k with
      faulted := true
      faultPos := if (getSlot s k).faulted then (getSlot s k).faultPos else pos } := by
  rw [noteFault, getSlot_updSlot_self, countFault_eq]
  rfl

theorem noteFault_not_running {s : State} {k : Nat} (h : (getSlot s k).st ≠ .running) (st pos : W16) :
    (getSlot (noteFault s k st pos) k).st ≠ .running := by simpa [getSlot_noteFault] using h

/-! ### The ways of a fault (R66, R67) -/

section
variable {s : State} {k : Nat} (st pos : W16)

theorem orderFault_in_handler (h : (getSlot s k).inHandler = true) :
    orderFault s k st pos = finishOrder (noteFault s k st pos) k (getSlot s k).original := if_pos h

theorem orderFault_handled {p : CodePos} (hout : (getSlot s k).inHandler = false)
    (hp : handlerOf s (getSlot s k) = some p) :
    orderFault s k st pos = enterHandler (noteFault s k st pos) k st pos p := by simp [orderFault, hout, hp]

theorem orderFault_unhandled (hout : (getSlot s k).inHandler = false) (hp : handlerOf s (getSlot s k) = none) :
    orderFault s k st pos = finishOrder (noteFault s k st pos) k st := by simp [orderFault, hout, hp]

end

/-- Settles O9: the note of a fault leaves the order's place, and the order then enters its handler or ends, by its slot
alone since it is on no Smith. -/
theorem faultsEnterHandlerOrPost : Obligations.FaultsEnterHandlerOrPost := by
  unfold Obligations.FaultsEnterHandlerOrPost
  intro s k st pos hsus
  have hrun : (getSlot (noteFault s k st pos) k).st ≠ .running := noteFault_not_running (by simp [hsus]) st pos
  refine ⟨fun p hout hp => ?_, fun hout hp => ?_, fun hin => ?_⟩
  · rw [orderFault_handled st pos hout hp, getSlot_enterHandler hrun, noteFault_tb]
    refine ⟨rfl, rfl, Slot.entered_val_status .., Slot.entered_val_position .., rfl, rfl, rfl, ?_, ?_⟩
    · rw [Slot.entered_h, getSlot_noteFault]
    · rw [Slot.entered_tickets, getSlot_noteFault]
  · rw [orderFault_unhandled st pos hout hp, getSlot_finishOrder hrun]
    exact ⟨rfl, rfl⟩
  · rw [orderFault_in_handler st pos hin, getSlot_finishOrder hrun]
    exact ⟨rfl, rfl⟩

end Sys2Proof.Machine

/-! ## The request of an asynchronous word -/

namespace Sys2Proof.Machine

/-! ### What a Smith's next slice leaves (R59, R60) -/

/-- The requests of a state: those recorded, and the number that the next one takes. -/
def State.requests (s : State) : Tbl (Option Req) × Nat := (s.ord.reqs, s.ord.nextReq)

@[simp] theorem setSlot_requests (s : State) (k : Nat) (x : Slot) : (setSlot s k x).requests = s.requests := rfl

@[simp] theorem grant_requests (s : State) (m k n : Nat) : (grant s m k n).requests = s.requests := rfl

@[simp] theorem startSlice_requests (s : State) (m : Nat) : (startSlice s m).requests = s.requests := by
  unfold startSlice
  split
  · rfl
  · split <;> rfl

@[simp] theorem passOn_requests (s : State) (m left : Nat) : (passOn s m left).requests = s.requests := by
  unfold passOn
  split
  · simp
  · split <;> simp

@[simp] theorem suspend_requests (s : State) (k : Nat) (w : WaitFor) : (suspend s k w).requests = s.requests := by
  unfold suspend
  dsimp only
  split <;> simp

@[simp] theorem suspend_ord_nextReq (s : State) (k : Nat) (w : WaitFor) :
    (suspend s k w).ord.nextReq = s.ord.nextReq := (congrArg Prod.snd (suspend_requests s k w) :)

@[simp] theorem getReq_suspend (s : State) (k : Nat) (w : WaitFor) (r : Nat) :
    getReq (suspend s k w) r = getReq s r :=
  (congrArg (fun p => Tbl.get Tbl.absent p.1 r) (suspend_requests s k w) :)

/-! ### Sending a request (R61, R85, R87) -/

/-- A request recorded under the next number. -/
def recordReq (s : State) (q : Req) : State :=
  let s1 := setReq s s.ord.nextReq (some q)
  { s1 with ord := { s1.ord with nextReq := s.ord.nextReq + 1 } }

theorem getReq_recordReq (s : State) (q : Req) : getReq (recordReq s q) s.ord.nextReq = some q :=
  getReq_setReq_self s s.ord.nextReq (some q)

theorem sendReq_attached (s : State) (k op : Nat) (f : Fields) (o : AsyncOp) (pos : W16) :
    sendReq s k op f o pos none =
      o.start (suspend (recordReq s (newReq s k op f o pos none)) k (.attached s.ord.nextReq)) s.ord.nextReq := rfl

theorem sendReq_detached (s : State) (k op : Nat) (f : Fields) (o : AsyncOp) (pos : W16) (i : Nat) :
    sendReq s k op f o pos (some i) =
      o.start (updSlot (recordReq s (newReq s k op f o pos (some i))) k (·.setTicket i (.out s.ord.nextReq)))
        s.ord.nextReq := rfl

theorem Slot.ticket_setTicket_self (x : Slot) {i : Nat} (t : Ticket) (h : i < 4) : (x.setTicket i t).ticket i = t := by
  simp [Slot.ticket, Slot.setTicket, h]

/-- Settles O16: the request is recorded before the order waits for it, and neither the wait nor the ticket changes what
is recorded. -/
theorem issuedRequestCapturesOperands : Obligations.IssuedRequestCapturesOperands := by
  unfold Obligations.IssuedRequestCapturesOperands
  intro s k op f o pos
  refine ⟨⟨_, sendReq_attached s k op f o pos, ?_, newReq s k op f o pos none, ?_, rfl, rfl, rfl, rfl, rfl, rfl, rfl, rfl,
    rfl, rfl, rfl, rfl, rfl, rfl, rfl, rfl⟩, fun i hi => ⟨_, sendReq_detached s k op f o pos i, ?_, ?_⟩⟩
  · rw [suspend_ord_nextReq]
    rfl
  · rw [getReq_suspend, getReq_recordReq]
  · rw [getSlot_updSlot_self, Slot.ticket_setTicket_self _ _ hi]
  · exact congrArg _ (getReq_recordReq s _)

end Sys2Proof.Machine

/-! ## A slot that is taken (R52, R54, R56) -/

namespace Sys2Proof.Machine

@[simp] theorem getSlot_noteFree (s : State) (k : Nat) : getSlot (noteFree s) k = getSlot s k := rfl

/-- Room in the cache takes at most the mark of one context away. -/
theorem cacheRoom_cases (s : State) (text : Bool) :
    (cacheRoom s text).1 = s ∨ ∃ j, (cacheRoom s text).1 = updSlot s j fun x => { x with cached := false } := by
  unfold cacheRoom
  dsimp only
  split
  · exact .inl rfl
  · split
    · exact .inr ⟨_, rfl⟩
    · exact .inl rfl

theorem getSlot_cacheRoom (s : State) (text : Bool) (j : Nat) : getSlot (cacheRoom s text).1 j =
    { getSlot s j with cached := (getSlot (cacheRoom s text).1 j).cached } := by
  rcases cacheRoom_cases s text with h | ⟨i, h⟩ <;> rw [h]
  rw [updSlot, getSlot_setSlot]
  split
  · next hj => rw [hj]
  · rfl

section
variable (s : State) (k t : Nat) (kind : OrderKind) (c : NvmeCmd) (pcie : Option (Nat × Nat)) (qp : Option Nat)
  (data : List Byte)

/-- The slot that is taken holds the command, and otherwise what a free slot holds. -/
theorem getSlot_takeSlot_self : ∃ cached, getSlot (takeSlot s k t kind c pcie qp data) k = { slot0 k with
    st := .arriving, tenant := t, gen := (getTen s t).gen, kind := kind, cmd := c, pcie := pcie, qp := qp,
    arrival := s.tb.count, cached := cached, data := data } := by
  refine ⟨(cacheRoom s (kind == .inline || kind == .byPointer)).2, ?_⟩
  rw [takeSlot, getSlot_noteFree, getSlot_setSlot_self]

theorem getSlot_takeSlot_ne {j : Nat} (h : j ≠ k) : getSlot (takeSlot s k t kind c pcie qp data) j =
    { getSlot s j with cached := (getSlot (takeSlot s k t kind c pcie qp data) j).cached } := by
  rw [takeSlot, getSlot_noteFree, getSlot_setSlot_ne _ _ _ h]
  exact getSlot_cacheRoom ..

end

theorem slot0_val (k : Nat) (i : BitVec 4) : (slot0 k).val i = 0 := by
  simp [Slot.val, slot0]

/-- Settles O19: the slot is written whole, and the room in the cache has taken another's mark at most. -/
theorem takenSlotHoldsTheCommand : Obligations.TakenSlotHoldsTheCommand := by
  unfold Obligations.TakenSlotHoldsTheCommand
  intro s k t kind c pcie qp data
  obtain ⟨cached, hk⟩ := getSlot_takeSlot_self s k t kind c pcie qp data
  dsimp only
  rw [hk]
  exact ⟨rfl, rfl, rfl, rfl, rfl, rfl, rfl, rfl, rfl, slot0_val k, rfl, rfl,
    fun j hj => getSlot_takeSlot_ne s k t kind c pcie qp data hj⟩

end Sys2Proof.Machine

/-! ## Commands on their way in -/

namespace Sys2Proof.Machine

/-! ### Commands from the ports (R217 to R219, R230) -/

section
variable {s : State} (hopen : portsOpen s = true) (hhead : isMember s = false)
include hopen hhead

theorem exec_capsuleReceived {q : Nat} (hlive : (getQp s q).st = .live) (hrt : flag s R.ETH_RT_CTRL_RT_EN = true)
    (hroom : (getQp s q).credit = 0 ∨ (findSlot s).isSome) (cap : Capsule) :
    exec (.capsuleReceived q cap) s = .next (receiveCapsule s q cap) :=
  stepIf_of (by simpa [hopen, hhead, hlive, hrt] using hroom) s _

theorem exec_sqEntryFetch {fn sq k : Nat} (hnext : nextFetch s = some (fn, sq)) (hk : findSlot s = some k)
    (cmd : NvmeCmd) : exec (.sqEntryFetch fn sq cmd) s = .next (fetchEntry s fn sq cmd) :=
  stepIf_of (by simp [hopen, hhead, hnext, hk]) s _

end

theorem receiveCapsule_uncredited {s : State} {q : Nat} (h : (getQp s q).credit = 0) (cap : Capsule) :
    receiveCapsule s q cap = bump (emit s (.rnrNak q)) R.ETH_RNR_CNT_RNR := if_pos h

theorem receiveCapsule_takes {s : State} {q k : Nat} {cap : Capsule} (hcredit : 0 < (getQp s q).credit)
    (hlow : 64 ≤ cap.sendLen) (hhigh : cap.sendLen ≤ 8256) (hk : findSlot s = some k) :
    receiveCapsule s q cap = arrive (takeSlot
      (setQp s q { getQp s q with credit := (getQp s q).credit - 1, rnrTries := 0, ackTries := 0 }) k (getQp s q).tenant
      (if (getQp s q).admin then .management else commandKind cap.cmd) cap.cmd none (some q) cap.data) k := by
  simp only [receiveCapsule, hk]
  rw [if_neg (by omega), if_neg (by omega)]

theorem fetchEntry_takes {s : State} {k : Nat} (hk : findSlot s = some k) (fn sq : Nat) (c : NvmeCmd) :
    fetchEntry s fn sq c =
      arrive (takeSlot (popSq s fn sq) k fn (entryKind sq c) (entryCmd c) (some (fn, sq)) none []) k := by
  simp only [fetchEntry, hk]

/-! ### The text of a by-pointer order (R49) -/

theorem exec_orderTextFetched {s : State} {k : Nat} (hst : (getSlot s k).st = .arriving)
    (hkind : (getSlot s k).kind = .byPointer) (hsent : (getSlot s k).stage = 1 ∨ (getSlot s k).qp = none)
    (hrun : strikesRun s = true) (r : HostReply) :
    exec (.orderTextFetched k r) s = .next (nextRead (textArrives s k r) (getSlot s k)) :=
  stepIf_of (by simpa [hst, hkind, hrun] using hsent) s _

/-! ### Commands that the head forwards (R396, R401, R402) -/

section
variable {s : State} {fwd : ForwardedOrder}

theorem exec_forwardedCommandReceived {k : Nat} (hmember : isMember s = true) (hopen : portsOpen s = true)
    (hk : findSlot s = some k) (htakes : takesCommands s fwd.tenant = true)
    (hnew : seenBefore s 0 fwd.seq = false) : exec (.forwardedCommandReceived fwd) s =
      .next (takeForwarded (spendGrant (noteSeq s 0 fwd.seq)) fwd) :=
  stepIf_of (by simp [hmember, hopen, hk, htakes, hnew]) s _

/-- A duplicate changes nothing. -/
theorem exec_forwardedCommandReceived_seen (h : seenBefore s 0 fwd.seq = true) :
    exec (.forwardedCommandReceived fwd) s = .next s := by
  show stepIf s _ _ = _
  rw [h, Bool.not_true, Bool.and_false, stepIf_false]

theorem takeForwarded_takes {k : Nat} (hk : findSlot s = some k) (hgen : (getTen s fwd.tenant).gen = fwd.gen) :
    takeForwarded s fwd = admitWork (updSlot (takeSlot s k fwd.tenant
      (if fwd.isAdmin then .management else commandKind fwd.cmd)
      { fwd.cmd with nsid := BitVec.ofNat 32 (fwd.cmd.nsid.toNat % 4096) } none none fwd.data) k
      fun x => { x with member := some fwd.headSlot, viaRdma := fwd.viaRdma }) k := by
  simp only [takeForwarded, hk]
  rw [if_neg (not_not_intro hgen)]

theorem takeForwarded_stale {k : Nat} (hk : findSlot s = some k) (hgen : (getTen s fwd.tenant).gen ≠ fwd.gen) :
    takeForwarded s fwd = bumpAt s R.TEN_STALE_CNT_STALE 0 fwd.tenant 1 := by
  simp only [takeForwarded, hk]
  rw [if_pos hgen]

end

/-- Settles O18: each command meets its premise, and what it then runs takes the slot that is free. -/
theorem commandsEnterSlots : Obligations.CommandsEnterSlots := by
  unfold Obligations.CommandsEnterSlots
  refine ⟨fun q k cap s hlive hrt hopen hhead hcredit hlow hhigh hk => ?credited,
    fun q cap s hlive hrt hopen hhead hcredit => ?uncredited,
    fun fn sq cmd s hopen hhead hnext k hk => ?entry,
    fun k text pages s hst hkind hsent hrun =>
      ⟨exec_orderTextFetched hst hkind hsent hrun _, exec_orderTextFetched hst hkind hsent hrun _⟩,
    fun fwd k s hmember hopen hk htakes hnew => ?forwarded, fun _ _ => exec_forwardedCommandReceived_seen⟩
  case credited =>
    rw [exec_capsuleReceived hopen hhead hlive hrt (.inr (by simp [hk])), receiveCapsule_takes hcredit hlow hhigh hk]
  case uncredited =>
    rw [exec_capsuleReceived hopen hhead hlive hrt (.inl hcredit), receiveCapsule_uncredited hcredit]
  case entry => rw [exec_sqEntryFetch hopen hhead hnext hk, fetchEntry_takes hk]
  case forwarded =>
    intro t
    have hkt : findSlot t = some k := hk
    rw [exec_forwardedCommandReceived hmember hopen hk htakes hnew]
    exact ⟨fun hgen => by rw [takeForwarded_takes hkt hgen], fun hgen => by rw [takeForwarded_stale hkt hgen]⟩

end Sys2Proof.Machine

/-! ## Completions and results -/

namespace Sys2Proof.Machine

/-! ### Completions (R52, R56, R221) -/

theorem exec_completionPosted {s : State} {k : Nat} (hst : (getSlot s k).st = .posting)
    (hhanded : (getSlot s k).handed = false) (hdone : hostWritesDone s k = true)
    (hgen : (getSlot s k).gen = (getTen s (getSlot s k).tenant).gen) (hrun : strikesRun s = true) :
    exec (.completionPosted k) s = .next (postCompletion s k) := by
  show execCompletionPosted k s = _
  simp only [execCompletionPosted, hst]
  exact stepIf_of (by simp [hhanded, hdone, ← hgen, hrun]) s _

theorem exec_slotQuenchDone {s : State} {k : Nat} (hst : (getSlot s k).st = .quench)
    (hdue : (getSlot s k).quenchAt ≤ s.tb.count) : exec (.slotQuenchDone k) s = .next (setSlot s k (slot0 k)) :=
  stepIf_of (by simp [hst, hdue]) s _

theorem exec_responseRnrNak {s : State} {k q : Nat} (hqp : (getSlot s k).qp = some q)
    (hst : (getSlot s k).st = .posting) (hlive : (getQp s q).st = .live) (hdone : hostWritesDone s k = true) :
    exec (.responseRnrNak k) s = .next
      (if R.ETH_RT_CTRL_RNR_RETRY.of (getQp s q).rtWord = 7 then s
       else if (getQp s q).rnrTries < R.ETH_RT_CTRL_RNR_RETRY.of (getQp s q).rtWord then
         setQp s q { getQp s q with rnrTries := (getQp s q).rnrTries + 1 }
       else qpError s q) := by
  show execResponseRnrNak k s = _
  simp only [execResponseRnrNak, hqp]
  exact stepIf_of (by simp [hst, hlive, hdone]) s _

/-! ### Results (R63) -/

section
variable {s : State} {rid : Nat} {q : Req} (hq : getReq s rid = some q)
include hq

theorem exec_resultArrival (hgen : q.gen = (getTen s q.tenant).gen) (hrun : strikesRun s = true)
    (harrive : canArrive q = true) (r : HostReply) :
    exec (.resultArrival rid r) s = .next (arriveResult s rid q r) := by
  show execResultArrival rid r s = _
  simp only [execResultArrival, hq]
  exact stepIf_of (by simp [harrive, ← hgen, hrun]) s _

theorem arriveResult_done (h : q.phase = .done) (r : HostReply) :
    arriveResult s rid q r = deliver s rid q.result q.value := by
  simp [arriveResult, deliverDone, hq, h]

end

theorem arriveResult_host {q : Req} (hdone : q.phase ≠ .done) (h : q.isHost = true) (s : State) (rid : Nat)
    (r : HostReply) : arriveResult s rid q r = nextRead (hostAnswer s rid q r) (getSlot s q.slot) := by
  simp [arriveResult, hdone, h]

theorem arriveResult_open {q : Req} (hdone : q.phase ≠ .done) (h : q.isHost = false) (s : State) (rid : Nat)
    (r : HostReply) : arriveResult s rid q r = openAnswer s rid q r := by
  simp [arriveResult, hdone, h]

theorem canArrive_done {q : Req} (h : q.phase = .done) : canArrive q = true := by simp [canArrive, h]

theorem canArrive_queued {q : Req} (h : q.phase = .queued) (hhost : q.isHost = true) : canArrive q = true := by
  simp [canArrive, Req.onWire, h, hhost]

/-- An OPEN that writes to the host can be answered while it is zeroed, or released beyond the hold buffer. -/
theorem canArrive_open {q : Req} (hop : q.op = 0x71) (hout : q.mod.getLsbD 2 = true)
    (h : q.phase = .zeroing ∨ (q.phase = .releasing ∧ q.held = false)) : canArrive q = true := by
  rcases h with h | ⟨h, hheld⟩
  · simp [canArrive, Req.onWire, hop, hout, h]
  · simp [canArrive, Req.onWire, hop, hout, h, hheld]

/-! ### The words of a slice (R46, R59) -/

theorem zmgmtWord_next (slot : Nat) (f : Fields) (s : State) : ∃ t, zmgmtWord slot f s = .next t := by
  unfold zmgmtWord
  (repeat' split) <;> exact ⟨_, rfl⟩

theorem tenantStep_next (slot : Nat) (f : Fields) (s : State) : ∃ t, tenantStep slot f s = .next t := by
  unfold tenantStep
  split <;> exact ⟨_, rfl⟩

theorem wordLow_next (op slot : Nat) (f : Fields) (s : State) : ∃ t, wordLow op slot f s = .next t := by
  unfold wordLow
  split <;> exact ⟨_, rfl⟩

theorem wordHigh_next (op slot : Nat) (f : Fields) (s : State) : ∃ t, wordHigh op slot f s = .next t := by
  unfold wordHigh
  split
  case h_4 => exact zmgmtWord_next slot f s
  case h_22 => exact tenantStep_next slot f s
  all_goals exact ⟨_, rfl⟩

theorem stepWord_next (slot : Nat) (s : State) : ∃ t, stepWord slot s = .next t := by
  unfold stepWord
  split
  · split <;> exact ⟨_, rfl⟩
  · split
    · exact wordLow_next ..
    · exact wordHigh_next ..

theorem exec_executeWorkOrder {slot : Nat} {s t : State} (h : stepWord slot s = .next t) :
    exec (.executeWorkOrder slot) s = .next (runSlice slot 31 t) := by
  show execExecuteWorkOrder slot s = _
  simp only [execExecuteWorkOrder, h]
  rfl

section
variable {slot : Nat} {w : W64} {s : State} (hw : presentWord s slot = some w)
include hw

theorem stepWord_low (h : wordOp w < 0x50) : stepWord slot s = wordLow (wordOp w) slot (wordFields w) s := by
  simp only [stepWord, hw]
  exact if_pos h

theorem stepWord_high (h : 0x50 ≤ wordOp w) : stepWord slot s = wordHigh (wordOp w) slot (wordFields w) s := by
  simp only [stepWord, hw]
  exact if_neg (Nat.not_lt.2 h)

end

/-- Settles O20: completions and results by their premises, a slice by the word that stands at the order's place. -/
theorem completionsLeaveAndSlotsFree : Obligations.CompletionsLeaveAndSlotsFree := by
  unfold Obligations.CompletionsLeaveAndSlotsFree
  refine ⟨fun k s hst hhanded hdone hgen hrun => exec_completionPosted hst hhanded hdone hgen hrun,
    fun k s hst hdue => ⟨setSlot s k (slot0 k), exec_slotQuenchDone hst hdue, getSlot_setSlot_self ..,
      fun j hj => getSlot_setSlot_ne _ _ _ hj, rfl⟩,
    fun k q s hqp hst hlive hdone => exec_responseRnrNak hqp hst hlive hdone,
    fun rid q r s hq hgen hrun hphase => ?done, fun rid q r s hq hgen hrun hphase hhost => ?host,
    fun rid q r s hq hgen hrun hop hout hphase => ?release, fun k s => ?slice, fun k w s hw => ?word⟩
  case done => rw [exec_resultArrival hq hgen hrun (canArrive_done hphase), arriveResult_done hq hphase]
  case host =>
    rw [exec_resultArrival hq hgen hrun (canArrive_queued hphase hhost), arriveResult_host (by simp [hphase]) hhost]
  case release =>
    have hdone : q.phase ≠ .done := by rcases hphase with h | ⟨h, -⟩ <;> simp [h]
    rw [exec_resultArrival hq hgen hrun (canArrive_open hop hout hphase),
      arriveResult_open hdone (by simp [Req.isHost, hop])]
  case slice =>
    obtain ⟨t, ht⟩ := stepWord_next k s
    exact ⟨t, ht, exec_executeWorkOrder ht⟩
  case word =>
    refine ⟨fun h => ?_, fun h => ?_, fun h => ?_⟩
    · rw [stepWord_low hw (by omega), h]
      rfl
    · rw [stepWord_low hw (by omega), h]
      rfl
    · rw [stepWord_high hw (by omega), h]
      rfl

end Sys2Proof.Machine

/-! ## The standard I/O commands that read

The stages of Read, Compare and Verify; what a stage's word does, and the checks before a pattern, are those of the
commands that write (R73 to R75). -/

namespace Sys2Proof.Machine

section
variable {s : State} {k : Nat}

/-! ### Read -/

theorem exec_nvmeRead (h : stdReady s k 0x02 = true) : exec (.nvmeRead k) s = .next (readBody s k) := stepIf_of h s _

theorem readBody_eq_readStage
    (hstart : (getSlot s k).stage = 0 → patternStarts s k (stdZoned s (getSlot s k)) true false
      (stdBlocks (getSlot s k) * hostSize s (getSlot s k)) = true) : readBody s k = readStage s k := by
  unfold readBody
  dsimp only
  split
  next h0 => rw [stdCheck_of_starts (hstart h0), piStart_of_starts (hstart h0)]
  next => rfl

/-- An even stage of Read reads the next piece. -/
theorem readStage_even (h : (getSlot s k).stage % 2 = 0)
    (hn : pieceLen s (getSlot s k) ((getSlot s k).stage / 2) ≠ 0) :
    let x := getSlot s k
    readStage s k = stageWord k (stdRead s k (stdLba x + x.stage / 2 * pieceBlocks (stdSize s x))
      (pieceLen s x (x.stage / 2) * stdSize s x)) :=
  (if_neg (by omega)).trans (if_neg hn)

/-- Read ends where no blocks remain to be read. -/
theorem readStage_past (h : (getSlot s k).stage % 2 = 0)
    (hn : pieceLen s (getSlot s k) ((getSlot s k).stage / 2) = 0) : readStage s k = stdEnd s k :=
  (if_neg (by omega)).trans (if_pos hn)

section
variable (h : (getSlot s k).stage % 2 = 1)
include h

/-- An odd stage of Read sends the piece that has been read, where its protection information passes. -/
theorem readStage_sends
    (hpi : piFailure s (getSlot s k) ((getSlot s k).stage / 2 * pieceBlocks (stdSize s (getSlot s k)))
      (pieceLen s (getSlot s k) ((getSlot s k).stage / 2)) = none) :
    let x := getSlot s k
    readStage s k = stageWord k (stdHput (piOut s k (pieceLen s x (x.stage / 2))) k
      (x.stage / 2 * pieceBlocks (stdSize s x) * hostSize s x)) := by
  simp [readStage, h, hpi]

theorem readStage_fails {r : Nat × Nat × Bool}
    (hpi : piFailure s (getSlot s k) ((getSlot s k).stage / 2 * pieceBlocks (stdSize s (getSlot s k)))
      (pieceLen s (getSlot s k) ((getSlot s k).stage / 2)) = some r) : readStage s k = endReply s k r := by
  simp [readStage, h, hpi]

end

/-! ### Compare -/

theorem exec_nvmeCompare (h : stdReady s k 0x05 = true) :
    exec (.nvmeCompare k) s = .next (compareBody s k) := stepIf_of h s _

theorem compareBody_eq_compareStage
    (hstart : (getSlot s k).stage = 0 → patternStarts s k (stdZoned s (getSlot s k)) true false
      (stdBlocks (getSlot s k) * stdSize s (getSlot s k)) = true) : compareBody s k = compareStage s k := by
  unfold compareBody
  dsimp only
  split
  next h0 => rw [stdCheck_of_starts (hstart h0), piStart_of_starts (hstart h0)]
  next => rfl

section
variable (h : (getSlot s k).stage % 2 = 0)
include h

/-- A piece whose bytes differ ends Compare. -/
theorem compareStage_differs (h0 : (getSlot s k).stage ≠ 0) (hsame : sameBytes s (getSlot s k) = false) :
    compareStage s k = endReply s k (2, 0x85, true) := (if_neg (by omega)).trans (if_pos ⟨h0, hsame⟩)

/-- An even stage of Compare, whose last piece was the same, is at the next piece. -/
theorem compareStage_even (hsame : (getSlot s k).stage ≠ 0 → sameBytes s (getSlot s k) = true) :
    let x := getSlot s k
    compareStage s k = if pieceLen s x (x.stage / 2) = 0 then stdEnd s k
      else stageWord k (stdRead s k (stdLba x + x.stage / 2 * pieceBlocks (stdSize s x))
        (pieceLen s x (x.stage / 2) * stdSize s x)) :=
  (if_neg (by omega)).trans (if_neg fun ⟨h0, hdiff⟩ => by simp [hsame h0] at hdiff)

end

section
variable (h : (getSlot s k).stage % 2 = 1)
include h

/-- An odd stage of Compare fetches the host's bytes of the piece, where its protection information passes. -/
theorem compareStage_fetches
    (hpi : piFailure s (getSlot s k) ((getSlot s k).stage / 2 * pieceBlocks (stdSize s (getSlot s k)))
      (pieceLen s (getSlot s k) ((getSlot s k).stage / 2)) = none) :
    let x := getSlot s k
    compareStage s k = stageWord k (stdHget s k 9 (x.stage / 2 * pieceBlocks (stdSize s x) * stdSize s x)
      (pieceLen s x (x.stage / 2) * stdSize s x) false) := by
  simp [compareStage, h, hpi]

theorem compareStage_fails {r : Nat × Nat × Bool}
    (hpi : piFailure s (getSlot s k) ((getSlot s k).stage / 2 * pieceBlocks (stdSize s (getSlot s k)))
      (pieceLen s (getSlot s k) ((getSlot s k).stage / 2)) = some r) : compareStage s k = endReply s k r := by
  simp [compareStage, h, hpi]

end

/-! ### Verify -/

theorem exec_nvmeVerify (h : stdReady s k 0x0C = true) :
    exec (.nvmeVerify k) s = .next (verifyBody s k) := stepIf_of h s _

theorem verifyBody_eq_verifyStage
    (hstart : (getSlot s k).stage = 0 → patternStarts s k (stdZoned s (getSlot s k)) false false 0 = true) :
    verifyBody s k = verifyStage s k := by
  unfold verifyBody
  dsimp only
  split
  next h0 => rw [stdCheck_of_starts (hstart h0), piStart_of_starts (hstart h0)]
  next => rfl

/-- What the piece before the present one fails (R111). -/
def pieceFailure (s : State) (x : Slot) : Option (Nat × Nat × Bool) :=
  piFailure s x ((x.stage - 1) * pieceBlocks (stdSize s x)) (pieceLen s x (x.stage - 1))

theorem verifyStage_fails {r : Nat × Nat × Bool} (h0 : (getSlot s k).stage ≠ 0)
    (hpi : pieceFailure s (getSlot s k) = some r) : verifyStage s k = endReply s k r := by
  rw [pieceFailure] at hpi
  simp [verifyStage, h0, hpi]

/-- A stage of Verify, whose last piece has passed, is at the next piece. -/
theorem verifyStage_passes (hpi : (getSlot s k).stage ≠ 0 → pieceFailure s (getSlot s k) = none) :
    let x := getSlot s k
    verifyStage s k = if pieceLen s x x.stage = 0 then stdEnd s k
      else stageWord k (stdRead s k (stdLba x + x.stage * pieceBlocks (stdSize s x))
        (pieceLen s x x.stage * stdSize s x)) := by
  have hnone : (if (getSlot s k).stage = 0 then none else pieceFailure s (getSlot s k)) = none := by
    split
    · rfl
    · next h0 => exact hpi h0
  rw [pieceFailure] at hnone
  simp only [verifyStage, hnone]

end

/-- Settles O22: the body of each command is the stage that the slot stands in, and each stage issues its word, ends
the command with the status of the failed check or comparison, or ends it. -/
theorem standardReadsRunTheirPatterns : Obligations.StandardReadsRunTheirPatterns := by
  unfold Obligations.StandardReadsRunTheirPatterns
  refine ⟨fun k s hready => ?read, fun k s hready => ?compare, fun k s hready => ?verify⟩
  case read =>
    intro x size n off
    rw [exec_nvmeRead hready]
    refine ⟨fun heven hn hstart hword => ?_, fun hodd hpi hword => ?_, fun r hodd hpi => ?_, fun heven h0 hn => ?_⟩
    · rw [readBody_eq_readStage hstart, readStage_even heven hn, stageWord_of_runs hword]
    · have h0 : x.stage ≠ 0 := by omega
      rw [readBody_eq_readStage (absurd · h0), readStage_sends hodd hpi, stageWord_of_runs hword]
    · have h0 : x.stage ≠ 0 := by omega
      rw [readBody_eq_readStage (absurd · h0), readStage_fails hodd hpi]
    · rw [readBody_eq_readStage (absurd · h0), readStage_past heven hn, stdEnd_of_ready hready]
  case compare =>
    intro x size n off
    rw [exec_nvmeCompare hready]
    refine ⟨fun heven hn hsame hstart hword => ?_, fun hodd hpi hword => ?_, fun r hodd hpi => ?_,
      fun heven h0 hdiff => ?_, fun heven h0 hsame hn => ?_⟩
    · rw [compareBody_eq_compareStage hstart, compareStage_even heven hsame, if_neg hn, stageWord_of_runs hword]
    · have h0 : x.stage ≠ 0 := by omega
      rw [compareBody_eq_compareStage (absurd · h0), compareStage_fetches hodd hpi, stageWord_of_runs hword]
    · have h0 : x.stage ≠ 0 := by omega
      rw [compareBody_eq_compareStage (absurd · h0), compareStage_fails hodd hpi]
    · rw [compareBody_eq_compareStage (absurd · h0), compareStage_differs heven h0 hdiff]
    · rw [compareBody_eq_compareStage (absurd · h0), compareStage_even heven fun _ => hsame, if_pos hn,
        stdEnd_of_ready hready]
  case verify =>
    intro x size n before
    rw [exec_nvmeVerify hready]
    refine ⟨fun hn hpi hstart hword => ?_, fun r h0 hpi => ?_, fun h0 hpi hn => ?_⟩
    · rw [verifyBody_eq_verifyStage hstart, verifyStage_passes hpi, if_neg hn, stageWord_of_runs hword]
    · rw [verifyBody_eq_verifyStage (absurd · h0), verifyStage_fails h0 hpi]
    · rw [verifyBody_eq_verifyStage (absurd · h0), verifyStage_passes fun _ => hpi, if_pos hn, stdEnd_of_ready hready]

end Sys2Proof.Machine

/-! ## The mailbox (R76) -/

namespace Sys2Proof.Machine

section
variable {s : State} {k : Nat}

/-! ### Manager Request -/

theorem exec_managerRequest_legal (hopen : windowOpen s = true) (hat : adminAt s k 0xC2 = true)
    (hten : (getSlot s k).tenant ≠ 0) (hlow : 1 ≤ (getSlot s k).cmd.dw10.toNat % 256)
    (hhigh : (getSlot s k).cmd.dw10.toNat % 256 ≤ 4) {data : List Byte} (hlen : data.length ≤ 8208)
    (hunload : (getSlot s k).cmd.dw10.toNat % 2 = 0 → data = []) :
    exec (.managerRequest k data) s = .next
      (if 4 ≤ mailOf s (getSlot s k).tenant ∨ mailboxSize ≤ s.ord.mailbox.length then endAdmin s k (0, 0x21, false)
       else takeEntry s k data) := by
  refine (stepIf_of (by rw [hopen, hat]; rfl) s _).trans ?_
  have hdata : ¬ (8208 < data.length ∨
      ((getSlot s k).cmd.dw10.toNat % 256 == 2 || (getSlot s k).cmd.dw10.toNat % 256 == 4) = true ∧ data ≠ []) := by
    rintro (hlong | ⟨haction, hdata⟩)
    · omega
    · simp only [Bool.or_eq_true, beq_iff_eq] at haction
      exact hdata (hunload (by omega))
  rw [if_neg hten, if_neg (by omega), if_neg hdata]

/-! ### Manager Answer -/

theorem exec_managerAnswer {e : MailEntry} (hopen : windowOpen s = true) (hat : adminAt s k 0xC3 = true)
    (hmf : senderOf s k = 0) (he : entryOf s ((getSlot s k).cmd.dw10.toNat % 65536) = some e) :
    exec (.managerAnswer k) s = .next
      (endAdmin (answerEntry s e ((getSlot s k).cmd.dw11.truncate 16)) k (0, 0, false)) := by
  refine (stepIf_of (by rw [hopen, hat]; rfl) s _).trans ?_
  rw [if_neg (not_not_intro hmf), he]
  rfl

/-- The slot of the entry that is answered. -/
theorem getSlot_answerEntry_self (s : State) (e : MailEntry) (st : W16) :
    getSlot (answerEntry s e st) e.slot =
      { getSlot s e.slot with st := .posting, status := st }.setVal 1 (st.zeroExtend 64) := getSlot_updSlot_self ..

/-- The end of an admin command writes its slot's state and reply alone, and no other slot. -/
theorem getSlot_endAdmin (s : State) (k : Nat) (r : Nat × Nat × Bool) (j : Nat) :
    getSlot (endAdmin s k r) j =
      if j = k then { getSlot s j with st := .posting, reply := some r } else getSlot s j := by
  rw [endAdmin, updSlot, getSlot_setSlot]
  split
  · next h => rw [h]
  · rfl

/-! ### The mailbox page -/

section
variable (hopen : endpointOpen s = true) (hat : logPageAt s k 0xC9 = true) (hmf : senderOf s k = 0)
include hopen hat hmf

theorem exec_getLogPageMailbox_list (hid : logSpecific (getSlot s k).cmd = 0) :
    exec (.getLogPageMailbox k) s = .next (admin s k (0, 0) (s.ord.mailbox.flatMap MailEntry.line)) := by
  refine (stepIf_of (by rw [hopen, hat]; rfl) s _).trans ?_
  rw [if_neg (not_not_intro hmf), if_pos hid]
  rfl

theorem exec_getLogPageMailbox_entry {e : MailEntry} (hid : logSpecific (getSlot s k).cmd ≠ 0)
    (he : entryOf s (logSpecific (getSlot s k).cmd) = some e) :
    exec (.getLogPageMailbox k) s = .next (admin s k (0, 0) e.data) := by
  refine (stepIf_of (by rw [hopen, hat]; rfl) s _).trans ?_
  rw [if_neg (not_not_intro hmf), if_neg hid, he]
  rfl

end

end

/-- Settles O25: a legal request takes an entry where there is room, the answer to an entry writes the slot of the entry
and then the answering slot, and the page goes by its identifier. -/
theorem managerMailboxCommands : Obligations.ManagerMailboxCommands := by
  unfold Obligations.ManagerMailboxCommands
  refine ⟨fun k data s hopen hat hten hlow hhigh hlen hunload => ?request, fun k e s hopen hat hmf he => ?answer,
    fun k s hopen hat hmf hid => exec_getLogPageMailbox_list hopen hat hmf hid,
    fun k e s hopen hat hmf hid he => exec_getLogPageMailbox_entry hopen hat hmf hid he⟩
  case request =>
    rw [exec_managerRequest_legal hopen hat hten hlow hhigh hlen hunload]
    exact ⟨fun hmine hroom => by rw [if_neg (by omega)], fun hfull => by rw [if_pos hfull]⟩
  case answer =>
    refine ⟨_, exec_managerAnswer hopen hat hmf he, ?_, ?_, ?_, ?_, ?_, rfl, rfl, rfl, rfl, rfl⟩
    · rw [getSlot_endAdmin, getSlot_answerEntry_self]
      split
      · rfl
      · simp
    · rw [getSlot_endAdmin, getSlot_answerEntry_self]
      split <;> simp
    · rw [getSlot_endAdmin, getSlot_answerEntry_self]
      split <;> exact Slot.val_setVal_self _ _ (by decide)
    · rw [getSlot_endAdmin, if_pos rfl]
    · rw [getSlot_endAdmin, if_pos rfl]

end Sys2Proof.Machine

/-! ## Words that run

What a word answers that stands at its place and meets no limit: the state after it, with what it writes said by the tables
(R81, R90, R91, R105, R106). -/

namespace Sys2Proof.Machine

/-! ### A word that is counted (R59, R65) -/

/-- The slot after a word is counted: the counts, what is left of its slice, and its place have moved. -/
theorem getSlot_countWord (s : State) (k c : Nat) : getSlot (countWord s k c) k = { getSlot s k with
    executed := if (getSlot s k).inHandler then (getSlot s k).executed else (getSlot s k).executed + 1
    handlerUsed := if (getSlot s k).inHandler then (getSlot s k).handlerUsed + 1 else (getSlot s k).handlerUsed
    sliceLeft := (getSlot s k).sliceLeft - 1
    pc := { (getSlot s k).pc with word := (getSlot s k).pc.word + 1 } } := getSlot_setSlot_self ..

@[simp] theorem getSlot_countWord_val (s : State) (k c : Nat) (i : BitVec 4) :
    (getSlot (countWord s k c) k).val i = (getSlot s k).val i := by
  rw [getSlot_countWord]
  rfl

@[simp] theorem getSlot_countWord_hdl (s : State) (k c : Nat) (i : BitVec 4) :
    (getSlot (countWord s k c) k).hdl i = (getSlot s k).hdl i := by
  rw [getSlot_countWord]
  rfl

@[simp] theorem getSlot_countWord_tenant (s : State) (k c : Nat) :
    (getSlot (countWord s k c) k).tenant = (getSlot s k).tenant := by
  rw [getSlot_countWord]

@[simp] theorem getSlot_countWord_stack (s : State) (k c : Nat) :
    (getSlot (countWord s k c) k).stack = (getSlot s k).stack := by
  rw [getSlot_countWord]

/-- What a word does is asked of the counted state alone. -/
theorem wordDone_congr {s : State} {k c : Nat} {body body' : State → W16 → State}
    (h : body (countWord s k c) (getSlot s k).position = body' (countWord s k c) (getSlot s k).position) :
    wordDone s k c body = wordDone s k c body' := by
  rw [wordDone, h, wordDone]

section
variable {s : State} {k c : Nat} {p u : Bool} (hat : p = true)
include hat

/-- A word at its place that meets no limit has its own effect. -/
theorem stepIf_runWord {body : State → W16 → State} (h : wordRuns s k u = true) :
    stepIf s p (runWord s k c u body) = .next (wordDone s k c body) := by
  rw [stepIf_of hat, runWord_of_runs body h]

/-- The same, where the effect is said in other words. -/
theorem stepIf_runWord_as {body body' : State → W16 → State} (h : wordRuns s k u = true)
    (heq : body (countWord s k c) (getSlot s k).position = body' (countWord s k c) (getSlot s k).position) :
    stepIf s p (runWord s k c u body) = .next (wordDone s k c body') := by
  rw [stepIf_runWord hat h, wordDone_congr heq]

/-- An asynchronous word at its place that nothing holds is issued. -/
theorem stepIf_asyncWord {op : Nat} {f : Fields} {o : AsyncOp} (h : asyncRuns s k f o = true) :
    stepIf s p (asyncWord s k op f o) = .next (asyncDone s k op f o) := by
  rw [stepIf_of hat, asyncWord_of_runs h]

end

/-! ### Arithmetic (Table 4.4) -/

/-- An operation of two operands writes what its result and its carry are. -/
theorem aluBody_eq_aluWrites {f : Fields} {op : W64 → W64 → W64 × Bool} {r : Slot → W64} {c : Slot → Bool}
    (h : ∀ x, op (x.val f.b) (operandS x f) = (r x, c x)) (t : State) (k : Nat) (pos : W16) :
    aluBody k f op t pos = aluWrites t k f r c := by
  simp only [aluBody, aluWrites, h]
  rfl

theorem aluSub_eq (b t : W64) : aluSub b t = (b - t, decide (b.toNat < t.toNat)) := rfl

theorem aluShl_eq (b t : W64) : aluShl b t =
    (b <<< (t.toNat % 64), t.toNat % 64 != 0 && b.getLsbD (64 - t.toNat % 64)) := by
  by_cases h : t.toNat % 64 = 0 <;> simp [aluShl, h]

theorem aluShr_eq (arith : Bool) (b t : W64) : aluShr arith b t =
    (if arith then b.sshiftRight (t.toNat % 64) else b >>> (t.toNat % 64),
      t.toNat % 64 != 0 && b.getLsbD (t.toNat % 64 - 1)) := by
  by_cases h : t.toNat % 64 = 0 <;> simp [aluShr, h]

/-- An arithmetic word at its place that meets no limit writes the result and the carry of its operation. -/
theorem stepIf_aluWord {s : State} {k : Nat} {f : Fields} {p u : Bool} {op : W64 → W64 → W64 × Bool} {r : Slot → W64}
    {c : Slot → Bool} (hat : p = true) (hruns : wordRuns s k u = true)
    (hop : ∀ x, op (x.val f.b) (operandS x f) = (r x, c x)) :
    stepIf s p (runWord s k 2 u (aluBody k f op)) = .next (wordDone s k 2 fun t _ => aluWrites t k f r c) :=
  stepIf_runWord_as hat hruns (aluBody_eq_aluWrites hop _ k _)

/-- Settles O4: each word runs the operation of its row, whose result and carry are those of the table. -/
theorem arithmeticWordsWriteResultAndFlags : Obligations.ArithmeticWordsWriteResultAndFlags := by
  unfold Obligations.ArithmeticWordsWriteResultAndFlags
  exact fun slot f s => ⟨
    fun hat hruns => stepIf_aluWord hat hruns fun _ => rfl,
    fun hat hruns => stepIf_aluWord hat hruns fun _ => aluSub_eq ..,
    fun hat hruns => stepIf_aluWord hat hruns fun _ => rfl,
    fun hat hruns => stepIf_aluWord hat hruns fun _ => rfl,
    fun hat hruns => stepIf_aluWord hat hruns fun _ => rfl,
    fun hat hruns => stepIf_aluWord hat hruns fun _ => aluShl_eq ..,
    fun hat hruns => stepIf_aluWord hat hruns fun _ => aluShr_eq ..⟩

/-! ### Loading, comparing, selecting and time (Tables 4.4 and 4.11) -/

theorem ldiValue_eq (x : Slot) (f : Fields) : ldiValue x f =
    if f.mod = 0 then f.imm.zeroExtend 64 else if f.mod = 1 then f.imm.signExtend 64
    else BitVec.ofNat 64 ((x.val f.a).toNat % 2 ^ 40 + f.i 23 0 * 2 ^ 40) := by
  unfold ldiValue
  split
  next h => rw [if_pos (BitVec.eq_of_toNat_eq h)]
  next h => rw [if_neg fun e => by simp [e] at h, if_pos (BitVec.eq_of_toNat_eq h)]
  next h0 h1 => rw [if_neg fun e => h0 (by rw [e]; rfl), if_neg fun e => h1 (by rw [e]; rfl)]

theorem cmpFlags_eq (fl : Flags) (b t : W64) : cmpFlags fl b t =
    { z := b == t, c := decide (b.toNat < t.toNat), n := decide (b.toInt < t.toInt), f := fl.f } := rfl

theorem selFlag_eq (fl : Flags) (m : BitVec 4) : selFlag fl m = [fl.z, fl.c, fl.n, fl.f].getD (m.toNat % 4) false := by
  have h : m.toNat % 4 = 0 ∨ m.toNat % 4 = 1 ∨ m.toNat % 4 = 2 ∨ m.toNat % 4 = 3 := by omega
  rcases h with h | h | h | h <;> simp [selFlag, h]

theorem timeValue_eq (s : State) (x : Slot) (f : Fields) : timeValue s x f =
    if f.mod.toNat % 4 = 0 then BitVec.ofNat 64 s.tb.count else if f.mod.toNat % 4 = 1 then BitVec.ofNat 64 x.arrival
    else BitVec.ofNat 64 x.executed := by
  unfold timeValue
  split
  next h => rw [if_pos h]
  next h => rw [if_neg (by omega), if_pos h]
  next h0 h1 => rw [if_neg h0, if_neg h1]

/-- Settles O5: each word writes the value of its table. -/
theorem loadCompareSelectTimeWords : Obligations.LoadCompareSelectTimeWords := by
  unfold Obligations.LoadCompareSelectTimeWords
  refine fun slot f s => ⟨fun hat hruns => stepIf_runWord_as hat hruns ?load,
    fun hat hruns => stepIf_runWord_as hat hruns ?compare, fun hat hruns => stepIf_runWord_as hat hruns ?select,
    fun hat hruns => stepIf_runWord_as hat hruns ?time⟩
  case load => simp only [ldiValue_eq]
  case compare => simp only [cmpFlags_eq]
  case select => simp only [selFlag_eq]
  case time => simp only [timeValue_eq]; rfl

end Sys2Proof.Machine

/-! ## Words that branch, call, wait and end (R62, R63, R64, R91, R105, R106) -/

namespace Sys2Proof.Machine

/-! ### Branches (R91) -/

section
variable {s : State} {k target : Nat} {ws : List W64} (hcode : codeAt s (getSlot s k) = some ws) (pos : W16)
include hcode

theorem jump_inside (h : target < ws.length) :
    jump s k target pos = updSlot s k fun x => { x with pc := { x.pc with word := target } } := by
  simp [jump, hcode, h]

theorem jump_beyond (h : ws.length ≤ target) : jump s k target pos = orderFault s k St.illegalOp pos := by
  simp [jump, hcode, Nat.not_lt.2 h]

end

section
variable {s : State} {k : Nat} {f : Fields} (hruns : wordRuns s k (branchUnused f) = true)
include hruns

theorem exec_bz_taken (hat : atWord s k 0x21 f = true) (hzero : branchZero s k f = true) :
    exec (.bz k f) s = .next (wordDone s k 4 fun t pos => jump t k (f.i 9 0) pos) :=
  (stepIf_runWord hat hruns).trans (by simp only [hzero, if_pos])

theorem exec_bz_passed (hat : atWord s k 0x21 f = true) (hzero : branchZero s k f = false) :
    exec (.bz k f) s = .next (wordDone s k 2 fun t _ => t) :=
  (stepIf_runWord hat hruns).trans (by simp only [hzero, Bool.false_eq_true, if_false])

theorem exec_bnz_taken (hat : atWord s k 0x22 f = true) (hzero : branchZero s k f = false) :
    exec (.bnz k f) s = .next (wordDone s k 4 fun t pos => jump t k (f.i 9 0) pos) :=
  (stepIf_runWord hat hruns).trans (by simp only [hzero, Bool.not_false, if_pos])

theorem exec_bnz_passed (hat : atWord s k 0x22 f = true) (hzero : branchZero s k f = true) :
    exec (.bnz k f) s = .next (wordDone s k 2 fun t _ => t) :=
  (stepIf_runWord hat hruns).trans (by simp only [hzero, Bool.not_true, Bool.false_eq_true, if_false])

end

/-! ### Calls (R64) -/

theorem callable_countWord (s : State) (k c t n : Nat) : callable (countWord s k c) t n = callable s t n := rfl

/-- A call of a pattern that is loaded, at a depth below four. -/
theorem callPattern_enters {s : State} {k n : Nat} (hdepth : (getSlot s k).stack.length < 4)
    (hcallable : callable s (getSlot s k).tenant n = true) (pos : W16) :
    callPattern s k n pos = updSlot s k fun y =>
      { y with stack := y.pc :: y.stack, pc := patStart s (getSlot s k).tenant n, stage := 0 } := by
  simp [callPattern, Nat.not_le.2 hdepth, hcallable]

/-- Settles O6: a branch jumps or passes by its source, a jump by its target, and a call enters its pattern. -/
theorem branchAndCallWords : Obligations.BranchAndCallWords := by
  unfold Obligations.BranchAndCallWords
  refine ⟨fun slot f s => ⟨fun hat hruns => stepIf_runWord hat hruns,
    fun hat hruns hzero => exec_bz_taken hruns hat hzero, fun hat hruns hzero => exec_bz_passed hruns hat hzero,
    fun hat hruns hzero => exec_bnz_taken hruns hat hzero, fun hat hruns hzero => exec_bnz_passed hruns hat hzero,
    fun hat hruns hdepth hcallable => stepIf_runWord_as hat hruns ?call⟩,
    fun s k target pos ws hcode => ⟨jump_inside hcode pos, jump_beyond hcode pos⟩⟩
  case call =>
    rw [callPattern_enters (by simpa using hdepth) (by simpa [callable_countWord] using hcallable),
      getSlot_countWord_tenant]

/-! ### Ends, posts and waits (R62, R91, R105, R106) -/

theorem St.posted_eq (st : W16) : St.posted st = if st.toNat / 4096 = 15 then 0x6001 else st := rfl

theorem St.raised_eq (st : W16) : St.raised st = if st = 0 ∨ st.toNat / 4096 = 15 then 0x6001 else st := rfl

/-- The status that a word names does not depend on its being counted. -/
theorem statusOperand_countWord (s : State) (k c : Nat) (f : Fields) :
    statusOperand (getSlot (countWord s k c) k) f = statusOperand (getSlot s k) f := by
  simp [statusOperand]

/-- A word that waits for its tickets, with none out and none failed, goes on. -/
theorem stepIf_waitWord_raise {s : State} {k c : Nat} {p u : Bool} {mask : BitVec 4} {go : State → State → State}
    (hat : p = true) (h : waitRuns s k u mask = true) :
    stepIf s p (waitWord s k c u mask fun t _ => raiseTickets t k mask (go t)) =
      .next (wordDone s k c fun t _ => go t t) := by
  obtain ⟨-, -, hfail⟩ := (waitRuns_iff ..).1 h
  rw [stepIf_of hat, waitWord_of_runs _ h]
  refine congrArg _ (wordDone_congr (raiseTickets_of_none _ ?_))
  rwa [failedIn_congr mask (getSlot_countWord_tickets s k c)]

section
variable {s : State} {k : Nat} {f : Fields}

theorem exec_endOrder_returns (hat : atWord s k 0x24 f = true) (hcalled : endReturns (getSlot s k) = true)
    (hruns : wordRuns s k (unusedZero f false false false 0 0) = true) :
    exec (.endOrder k f) s = .next (wordDone s k 4 fun t _ => returnCall t k) :=
  (congrArg (stepIf s _) (if_pos hcalled)).trans (stepIf_runWord hat hruns)

theorem exec_endOrder_finishes (hat : atWord s k 0x24 f = true) (hcalled : endReturns (getSlot s k) = false)
    (hruns : waitRuns s k (unusedZero f false false false 0 0) 15 = true) :
    exec (.endOrder k f) s = .next (wordDone s k 4 fun t _ => finishOrder t k 0x0000) :=
  (congrArg (stepIf s _) (if_neg (by simp [hcalled]))).trans (stepIf_waitWord_raise hat hruns)

theorem exec_wait_tickets (hat : atWord s k 0x80 f = true) (hmode : f.m 0 = false)
    (hruns : waitRuns s k (unusedZero f false false false 1 4) (BitVec.ofNat 4 (f.i 3 0)) = true) :
    exec (.wait k f) s = .next (wordDone s k 2 fun t _ => t) := by
  refine Eq.trans (congrArg (stepIf s _) (if_neg (by simp [hmode]))) ?_
  rw [hmode]
  exact stepIf_waitWord_raise hat hruns

variable (hat : atWord s k 0x80 f = true) (hmode : f.m 0 = true)
  (hruns : wordRuns s k (unusedZero f false true false 1 40) = true)
include hat hmode hruns

theorem exec_wait_come (hcome : ((getSlot s k).val f.b + f.imm.zeroExtend 64).toNat ≤ s.tb.count) :
    exec (.wait k f) s = .next (wordDone s k 2 fun t _ => t) := by
  refine Eq.trans (congrArg (stepIf s _) ((if_pos hmode).trans (if_neg ?_))) ?_
  · simp only [decide_eq_false (Nat.not_lt.2 hcome), Bool.and_false, Bool.false_eq_true, not_false_eq_true]
  · rw [hmode]
    exact stepIf_runWord hat hruns

theorem exec_wait_later (hlater : s.tb.count < ((getSlot s k).val f.b + f.imm.zeroExtend 64).toNat) :
    exec (.wait k f) s =
      .next (suspend s k (.strike ((getSlot s k).val f.b + f.imm.zeroExtend 64).toNat)) := by
  obtain ⟨hlimit, hused⟩ := (wordRuns_iff ..).1 hruns
  refine Eq.trans (congrArg (stepIf s _) ((if_pos hmode).trans (if_pos ?_))) (stepIf_of hat s _)
  rw [hlimit, hmode, if_pos rfl, hused, decide_eq_true hlater]
  rfl

end

/-- Settles O7: END by the depth of calls, WAIT by its mode and its strike; the others have one form. -/
theorem endingAndWaitingWords : Obligations.EndingAndWaitingWords := by
  unfold Obligations.EndingAndWaitingWords
  refine fun slot f s => ⟨fun hat hcalled hruns => exec_endOrder_returns hat hcalled hruns,
    fun hat hcalled hruns => exec_endOrder_finishes hat hcalled hruns,
    fun hat hruns => (stepIf_waitWord_raise hat hruns).trans (congrArg _ (wordDone_congr ?post)),
    fun hat hruns => stepIf_runWord_as hat hruns ?fault, fun hat hruns hinside => stepIf_runWord_as hat hruns ?yield,
    fun hat hmode hruns => exec_wait_tickets hat hmode hruns,
    fun hat hmode hruns hcome => exec_wait_come hat hmode hruns hcome,
    fun hat hmode hruns hlater => exec_wait_later hat hmode hruns hlater,
    fun hat hruns => stepIf_waitWord_raise hat hruns⟩
  case post => rw [statusOperand_countWord, St.posted_eq]
  case fault => rw [statusOperand_countWord, St.raised_eq]
  case yield => exact if_neg (by simp [hinside])

end Sys2Proof.Machine

/-! ## Asynchronous words that are issued (R61, R85, R93 to R107, R126) -/

namespace Sys2Proof.Machine

/-! ### Buffers and handles (R93, R94) -/

section
variable {s : State} {k : Nat} {f : Fields} {d : Hdl}

/-- BFREE of a handle that names a buffer, which nothing outstanding uses, frees it. -/
theorem exec_bfree (hat : atWord s k 0x31 f = true) (hruns : wordRuns s k (unusedZero f true false false 0 0) = true)
    (ha : f.a.toNat < 8) (hd : (getSlot s k).hdl f.a = some d)
    (hclash : outIn (getSlot s k) (hazards s (getSlot s k) [] [d.buf] none) = false) :
    exec (.bfree k f) s = .next (wordDone s k 4 fun t _ => bfree t k d.buf) := by
  refine (stepIf_of hat s _).trans (congrArg _ ?_)
  rw [hd]
  refine (waitWord_of_ready _ hruns hclash).trans (wordDone_congr ?_)
  simp only [getSlot_countWord_hdl, hd, if_neg (Nat.not_le.2 ha)]

/-- BSLICE of a handle that names a buffer, which nothing outstanding uses, aims its handle. -/
theorem exec_bslice (hat : atWord s k 0x34 f = true)
    (hruns : wordRuns s k (unusedZero f true true (!f.m 0) 1 (if f.m 0 then 40 else 0)) = true)
    (hd : (getSlot s k).hdl f.b = some d)
    (hclash : outIn (getSlot s k) (hazards s (getSlot s k) [] [d.buf] none) = false) :
    exec (.bslice k f) s = .next (wordDone s k 4 fun t pos => bslice t k f pos) := by
  refine (stepIf_of hat s _).trans (congrArg _ ?_)
  rw [hd]
  exact waitWord_of_ready _ hruns hclash

end

/-- Settles O11: six words are issued; BFREE and BSLICE find no clash to wait for. -/
theorem bufferAndTransferWordsIssue : Obligations.BufferAndTransferWordsIssue := by
  unfold Obligations.BufferAndTransferWordsIssue
  exact fun slot f s => ⟨
    fun hat hruns => stepIf_asyncWord hat hruns, fun hat hruns => stepIf_asyncWord hat hruns,
    fun hat hruns => stepIf_asyncWord hat hruns, fun hat hruns => stepIf_asyncWord hat hruns,
    fun hat hruns => stepIf_asyncWord hat hruns, fun hat hruns => stepIf_asyncWord hat hruns,
    fun d hat hruns ha hd hclash => exec_bfree hat hruns ha hd hclash,
    fun d hat hruns hd hclash => exec_bslice hat hruns hd hclash⟩

/-! ### Media words (R97, R99, R123, R126) -/

/-- Settles O12: each word is issued with the operation of its row. -/
theorem mediaReadAndWriteWordsIssue : Obligations.MediaReadAndWriteWordsIssue := by
  unfold Obligations.MediaReadAndWriteWordsIssue
  exact fun slot f s => ⟨
    fun hat hruns => stepIf_asyncWord hat hruns, fun hat hruns => stepIf_asyncWord hat hruns,
    fun hat hruns => stepIf_asyncWord hat hruns, fun hat hruns => stepIf_asyncWord hat hruns,
    fun hat hruns => stepIf_asyncWord hat hruns, fun hat hruns => stepIf_asyncWord hat hruns,
    fun hat hruns => stepIf_asyncWord hat hruns, fun hat hruns => stepIf_asyncWord hat hruns⟩

/-- A ZMGMT word of a zone action is issued under its own row. -/
theorem zoneWord_issues {s : State} {k code : Nat} {f : Fields} (hat : atWord s k 0x53 f = true)
    (hcode : zmgmtIs f false code = true) (hruns : asyncRuns s k f (actionOp s k f) = true) :
    zoneWord s k f code = .next (asyncDone s k 0x53 f (actionOp s k f)) :=
  stepIf_asyncWord (by simp [hat, hcode]) hruns

/-- A ZMGMT word of a zone report is issued under its own row. -/
theorem zoneReport_issues {s : State} {k code : Nat} {f : Fields} {extended : Bool} (hat : atWord s k 0x53 f = true)
    (hcode : zmgmtIs f true code = true) (hruns : asyncRuns s k f (reportOp s k f extended) = true) :
    stepIf s (atWord s k 0x53 f && zmgmtIs f true code) (asyncWord s k 0x53 f (reportOp s k f extended)) =
      .next (asyncDone s k 0x53 f (reportOp s k f extended)) :=
  stepIf_asyncWord (by simp [hat, hcode]) hruns

/-- Settles O13: the direction bit and the code of the immediate lead to the word's row. -/
theorem zoneManagementWordsIssue : Obligations.ZoneManagementWordsIssue := by
  unfold Obligations.ZoneManagementWordsIssue
  exact fun slot f s => ⟨
    fun hat hcode hruns => zoneWord_issues hat hcode hruns, fun hat hcode hruns => zoneWord_issues hat hcode hruns,
    fun hat hcode hruns => zoneWord_issues hat hcode hruns, fun hat hcode hruns => zoneWord_issues hat hcode hruns,
    fun hat hcode hruns => zoneWord_issues hat hcode hruns, fun hat hcode hruns => zoneWord_issues hat hcode hruns,
    fun hat hcode hruns => zoneReport_issues hat hcode hruns, fun hat hcode hruns => zoneReport_issues hat hcode hruns⟩

/-! ### Cipher, Assay, loads and the manager's words (R101, R103, R107) -/

/-- Settles O14: each word is issued with the operation of its row. -/
theorem cipherAssayPatternWordsIssue : Obligations.CipherAssayPatternWordsIssue := by
  unfold Obligations.CipherAssayPatternWordsIssue
  exact fun slot f s => ⟨
    fun hat hruns => stepIf_asyncWord hat hruns, fun hat hruns => stepIf_asyncWord hat hruns,
    fun hat hruns => stepIf_asyncWord hat hruns, fun hat hruns => stepIf_asyncWord hat hruns,
    fun hat hruns => stepIf_asyncWord hat hruns, fun hat hruns => stepIf_asyncWord hat hruns,
    fun hat hruns => stepIf_asyncWord hat hruns, fun hat hruns => stepIf_asyncWord hat hruns⟩

/-- A TENANT word is issued under the row of its action. -/
theorem tenantWord_issues {s : State} {k action : Nat} {f : Fields} (hat : atWord s k 0xE1 f = true)
    (haction : f.i 2 0 = action) (hruns : asyncRuns s k f (tenantOp s k f) = true) :
    tenantWord k f s action = .next (asyncDone s k 0xE1 f (tenantOp s k f)) :=
  stepIf_asyncWord (by simp [hat, haction]) hruns

/-- Settles O15: the action leads a TENANT word to its row; the others have one. -/
theorem managerWordsIssue : Obligations.ManagerWordsIssue := by
  unfold Obligations.ManagerWordsIssue
  exact fun slot f s => ⟨
    fun hat haction hruns => tenantWord_issues hat haction hruns,
    fun hat haction hruns => tenantWord_issues hat haction hruns,
    fun hat haction hruns => tenantWord_issues hat haction hruns,
    fun hat haction hruns => tenantWord_issues hat haction hruns,
    fun hat haction hruns => tenantWord_issues hat haction hruns,
    fun hat hruns => stepIf_asyncWord hat hruns, fun hat hruns => stepIf_asyncWord hat hruns,
    fun hat hruns => stepIf_asyncWord hat hruns⟩

/-! ### Media instructions that wait (R97, R99, R123, R140) -/

section
variable {s : State} {rid : Nat} {q : Req} (hq : getReq s rid = some q)
include hq

theorem updReq_of_some (f : Req → Req) : updReq s rid f = setReq s rid (some (f q)) := by
  rw [updReq, hq]
  rfl

theorem exec_mediaInstructionResume (hphase : q.phase = .pending) (hready : pendingReady s q = true) :
    exec (.mediaInstructionResume rid) s = .next (resumePending s rid q) := by
  show execMediaInstructionResume rid s = _
  simp only [execMediaInstructionResume, hq]
  exact stepIf_of (by simp [hphase, hready]) s _

theorem resumePending_read (hop : q.op = 0x50 ∨ q.op = 0x54 ∨ q.op = 0x57) :
    resumePending s rid q = setReq s rid (some { q with phase := .presented }) := by
  rw [resumePending, if_pos hop, updReq_of_some hq]

theorem resumePending_write (hop : q.op ≠ 0x50 ∧ q.op ≠ 0x54 ∧ q.op ≠ 0x57) :
    resumePending s rid q = tryPlace (setReq s rid (some { q with phase := .placed })) rid := by
  rw [resumePending, if_neg (by simpa [not_or] using hop), updReq_of_some hq]

theorem exec_courseFormationResume (hphase : q.phase = .placed) (hready : formationReady s q = true) :
    exec (.courseFormationResume rid) s = .next (tryPlace s rid) := by
  show execCourseFormationResume rid s = _
  simp only [execCourseFormationResume, hq]
  exact stepIf_of (by simp [hphase, hready]) s _

theorem exec_zoneActionEffect {w : WritePlan} {n : Namespace} (hw : q.write = some w)
    (hn : getNs s w.nsid = some n) (hphase : q.phase = .waitAction)
    (hfree : actBlocked s rid (q.imm.toNat % 256) w n = false) :
    exec (.zoneActionEffect rid) s = .next (runAction s rid (q.imm.toNat % 256) q w n) := by
  show execZoneActionEffect rid s = _
  simp only [execZoneActionEffect, hq, hw, Option.bind_some, hn]
  exact stepIf_of (by simp [hphase, hfree]) s _

end

/-- Settles O31: each row takes the request that it names in the phase in which it waits. -/
theorem waitingMediaInstructionsGoOn : Obligations.WaitingMediaInstructionsGoOn := by
  unfold Obligations.WaitingMediaInstructionsGoOn
  refine ⟨fun rid s hdue => stepIf_of hdue s _, fun rid q s hq hphase hready => ⟨fun hop => ?read, fun hop => ?write⟩,
    fun rid q s hq hphase hready => exec_courseFormationResume hq hphase hready,
    fun rid q w n s hq hw hn hphase hfree => exec_zoneActionEffect hq hw hn hphase hfree⟩
  case read => rw [exec_mediaInstructionResume hq hphase hready, resumePending_read hq hop]
  case write => rw [exec_mediaInstructionResume hq hphase hready, resumePending_write hq hop]

end Sys2Proof.Machine

/-! ## What results and control words leave

The part of the state beside the orders and the registers, and what the operations of a Smith leave of it; with it the
arrival of a result (R86) and the frame of the arithmetic and control words (R81, R82). -/

namespace Sys2Proof.Machine

/-! ### The state beside the orders and the registers -/

/-- A state without its registers and, of the orders, with the requests and the mailbox alone. -/
def State.besideOrders (s : State) : State :=
  { s with reg := State.reset.reg, ord := { State.reset.ord with reqs := s.ord.reqs, mailbox := s.ord.mailbox } }

@[simp] theorem setSlot_besideOrders (s : State) (k : Nat) (x : Slot) :
    (setSlot s k x).besideOrders = s.besideOrders := rfl

@[simp] theorem updSlot_besideOrders (s : State) (k : Nat) (f : Slot → Slot) :
    (updSlot s k f).besideOrders = s.besideOrders := rfl

@[simp] theorem countWord_besideOrders (s : State) (k c : Nat) :
    (countWord s k c).besideOrders = s.besideOrders := rfl

@[simp] theorem grant_besideOrders (s : State) (m k n : Nat) : (grant s m k n).besideOrders = s.besideOrders := rfl

@[simp] theorem startSlice_besideOrders (s : State) (m : Nat) : (startSlice s m).besideOrders = s.besideOrders := by
  unfold startSlice
  split
  · rfl
  · split <;> rfl

@[simp] theorem leave_besideOrders (s : State) (k : Nat) (st : SlotState) :
    (leave s k st).besideOrders = s.besideOrders := by
  unfold leave
  dsimp only
  split <;> simp

@[simp] theorem foldl_freeBuf_besideOrders (l : List Nat) (s : State) :
    (l.foldl freeBuf s).besideOrders = s.besideOrders := by
  rw [foldl_freeBuf_eq]
  rfl

@[simp] theorem dropPrivate_besideOrders (s : State) (k : Nat) :
    (dropPrivate s k).besideOrders = s.besideOrders := by simp [dropPrivate]

@[simp] theorem reapBodies_besideOrders (s : State) : (reapBodies s).besideOrders = s.besideOrders := by
  rw [reapBodies_eq]
  rfl

@[simp] theorem finishOrder_besideOrders (s : State) (k : Nat) (st : W16) :
    (finishOrder s k st).besideOrders = s.besideOrders := by simp [finishOrder]

@[simp] theorem enterHandler_besideOrders (s : State) (k : Nat) (st pos : W16) (p : CodePos) :
    (enterHandler s k st pos p).besideOrders = s.besideOrders := by simp [enterHandler]

@[simp] theorem noteFault_besideOrders (s : State) (k : Nat) (st pos : W16) :
    (noteFault s k st pos).besideOrders = s.besideOrders := by
  rw [noteFault, updSlot_besideOrders, countFault_eq]
  rfl

@[simp] theorem orderFault_besideOrders (s : State) (k : Nat) (st pos : W16) :
    (orderFault s k st pos).besideOrders = s.besideOrders := by
  unfold orderFault
  dsimp only
  split
  · simp
  · split <;> simp

/-! ### Words and what they do -/

@[simp] theorem afterWord_besideOrders (s : State) (k : Nat) : (afterWord s k).besideOrders = s.besideOrders := by
  unfold afterWord
  dsimp only
  split
  · split
    · simp
    · split <;> simp
  · rfl

/-- A word leaves what its own effect leaves. -/
theorem runWord_besideOrders {body : State → W16 → State} (h : ∀ t pos, (body t pos).besideOrders = t.besideOrders)
    (s : State) (k c : Nat) (u : Bool) : (runWord s k c u body).besideOrders = s.besideOrders := by
  rcases runWord_cases s k c u body with e | e | ⟨-, e⟩ | ⟨-, e⟩ <;> rw [e]
  · exact finishOrder_besideOrders ..
  · exact orderFault_besideOrders ..
  · rw [wordDone, afterWord_besideOrders, h, countWord_besideOrders]
  · rw [orderFault_besideOrders, countWord_besideOrders]

theorem aluBody_besideOrders (k : Nat) (f : Fields) (op : W64 → W64 → W64 × Bool) (s : State) (pos : W16) :
    (aluBody k f op s pos).besideOrders = s.besideOrders := updSlot_besideOrders ..

@[simp] theorem jump_besideOrders (s : State) (k target : Nat) (pos : W16) :
    (jump s k target pos).besideOrders = s.besideOrders := by
  unfold jump
  dsimp only
  split
  · split <;> simp
  · simp

/-- A branch that is taken or passed. -/
theorem branch_besideOrders (taken : Bool) (s : State) (k target : Nat) (pos : W16) :
    (if taken then jump s k target pos else s).besideOrders = s.besideOrders := by
  split
  · exact jump_besideOrders ..
  · rfl

theorem callPattern_besideOrders (s : State) (k n : Nat) (pos : W16) :
    (callPattern s k n pos).besideOrders = s.besideOrders := by
  unfold callPattern
  dsimp only
  split
  · simp
  · split <;> simp

theorem yield_besideOrders (s : State) (k : Nat) :
    (if pastEnd s (getSlot s k) then s
      else leave (updSlot s k fun x => { x with from_ := s.tb.count + 1 }) k .runnable).besideOrders =
      s.besideOrders := by
  split <;> simp

/-- The arithmetic and control words. -/
def controlWords (slot : Nat) (f : Fields) : List Instr :=
  [.add slot f, .sub slot f, .and slot f, .or slot f, .xor slot f, .shl slot f, .shr slot f, .ldi slot f, .cmp slot f,
    .sel slot f, .br slot f, .bz slot f, .bnz slot f, .callp slot f, .fault slot f, .yield slot f, .time slot f]

/-- Each of them runs as a word, whose own effect leaves what is beside the orders and the registers. -/
theorem exec_controlWord {slot : Nat} {f : Fields} {c : Instr} (hc : c ∈ controlWords slot f) (s : State) :
    ∃ (p u : Bool) (cost : Nat) (body : State → W16 → State),
      exec c s = stepIf s p (runWord s slot cost u body) ∧ ∀ t pos, (body t pos).besideOrders = t.besideOrders := by
  simp only [controlWords, List.mem_cons, List.not_mem_nil, or_false] at hc
  rcases hc with rfl | rfl | rfl | rfl | rfl | rfl | rfl | rfl | rfl | rfl | rfl | rfl | rfl | rfl | rfl | rfl | rfl
  -- Table 4.4: the arithmetic words, then LDI, CMP and SEL.
  iterate 7 exact ⟨_, _, _, _, rfl, aluBody_besideOrders slot f _⟩
  iterate 3 exact ⟨_, _, _, _, rfl, fun _ _ => updSlot_besideOrders ..⟩
  -- Tables 4.5 and 4.11: BR; BZ and BNZ; CALLP; FAULT; YIELD; TIME.
  · exact ⟨_, _, _, _, rfl, fun _ _ => jump_besideOrders ..⟩
  iterate 2 exact ⟨_, _, _, _, rfl, fun _ _ => branch_besideOrders ..⟩
  · exact ⟨_, _, _, _, rfl, fun _ _ => callPattern_besideOrders ..⟩
  · exact ⟨_, _, _, _, rfl, fun _ _ => orderFault_besideOrders ..⟩
  · exact ⟨_, _, _, _, rfl, fun _ _ => yield_besideOrders ..⟩
  · exact ⟨_, _, _, _, rfl, fun _ _ => updSlot_besideOrders ..⟩

/-- What two states share that differ in their orders and registers alone. -/
theorem eq_of_besideOrders {s t : State} (h : t.besideOrders = s.besideOrders) :
    t.med = s.med ∧ t.port = s.port ∧ t.ten = s.ten ∧ t.cph = s.cph ∧ t.asy = s.asy ∧ t.mem = s.mem ∧ t.pwr = s.pwr ∧
    t.blw = s.blw ∧ t.hkp = s.hkp ∧ t.hm = s.hm ∧ t.wall = s.wall ∧ t.boot = s.boot ∧ t.tb = s.tb ∧ t.fl = s.fl ∧
    t.pending = s.pending ∧ t.out = s.out ∧ t.ord.reqs = s.ord.reqs ∧ t.ord.mailbox = s.ord.mailbox := by
  simp only [State.besideOrders, State.mk.injEq, Orders.mk.injEq] at h
  tauto

/-- Settles O10: each word either stands elsewhere and changes nothing, or runs, and its own effect, its faults and the
end of its slice change the orders and the registers alone. -/
theorem controlWordsLeaveDeviceState : Obligations.ControlWordsLeaveDeviceState := by
  unfold Obligations.ControlWordsLeaveDeviceState
  intro slot f s t c hc ht
  obtain ⟨p, u, cost, body, hexec, hbody⟩ := exec_controlWord hc s
  rw [hexec] at ht
  refine eq_of_besideOrders ?_
  rcases eq_of_stepIf ht with ⟨-, rfl⟩ | ⟨-, rfl⟩
  · exact runWord_besideOrders hbody s slot cost u
  · rfl

/-! ### The arrival of a result (R62, R63, R86) -/

/-- Orphans that are released change the buffers and the queue of the Quench alone. -/
theorem releaseOrphans_eq (s : State) (bs : List Nat) : releaseOrphans s bs =
    { s with ord := { s.ord with
      bufs := (releaseOrphans s bs).ord.bufs, quenchQ := (releaseOrphans s bs).ord.quenchQ } } := by
  refine List.foldlRecOn bs _
    (motive := fun t : State => t = { s with ord := { s.ord with bufs := t.ord.bufs, quenchQ := t.ord.quenchQ } })
    rfl fun t ht b _ => ?_
  dsimp only
  split
  · split
    · rw [freeBuf_eq, ht]
    · exact ht
  · exact ht

/-- Whether a place is past the end is asked of the bodies, the text and the place alone. -/
theorem pastEnd_congr {s t : State} {x y : Slot} (hbodies : t.ord.bodies = s.ord.bodies) (hpc : y.pc = x.pc)
    (htext : y.text = x.text) : pastEnd t y = pastEnd s x := by
  simp only [pastEnd, codeAt, getBody, hbodies, hpc, htext]

/-- An order with a word left to run is runnable from the next strike. -/
theorem resume_of_words {s : State} {k : Nat} (h : pastEnd s (getSlot s k) = false) : resume s k =
    setSlot s k { getSlot s k with st := .runnable, waiting := .nothing, from_ := s.tb.count + 1 } :=
  if_neg (by simp [h])

/-- A wait of an order that is not suspended is over already. -/
theorem wake_of_not_suspended {s : State} {k : Nat} (h : (getSlot s k).st ≠ .suspended) : wake s k = s :=
  if_neg (by simp [h])

/-- The state in which a result is taken from the requests, and orphans that it wrote are released. -/
def resultTaken (s : State) (rid : Nat) (q : Req) : State := releaseOrphans (setReq s rid none) q.writes

section
variable (s : State) (rid : Nat) (q : Req)

theorem resultTaken_eq : resultTaken s rid q =
    { setReq s rid none with ord := { (setReq s rid none).ord with
      bufs := (resultTaken s rid q).ord.bufs, quenchQ := (resultTaken s rid q).ord.quenchQ } } := releaseOrphans_eq ..

@[simp] theorem getSlot_resultTaken (k : Nat) : getSlot (resultTaken s rid q) k = getSlot s k := by
  rw [resultTaken_eq]
  rfl

@[simp] theorem getReq_resultTaken : getReq (resultTaken s rid q) rid = none := by
  rw [resultTaken_eq]
  exact getReq_setReq_self s rid none

@[simp] theorem resultTaken_tb : (resultTaken s rid q).tb = s.tb := by
  rw [resultTaken_eq]
  rfl

@[simp] theorem resultTaken_ord_bodies : (resultTaken s rid q).ord.bodies = s.ord.bodies := by
  rw [resultTaken_eq]
  rfl

end

section
variable {s : State} {rid : Nat} {q : Req} (hq : getReq s rid = some q) (hgen : (getTen s q.tenant).gen = q.gen)
  (hwait : awaited s rid q = true)
include hq hgen hwait

/-- An attached result with status 0 and a value writes it to v15 and resumes the order. -/
theorem deliver_attached_value (hatt : q.ticket = none) (w : W64) : deliver s rid 0x0000 (some w) =
    resume (updSlot (resultTaken s rid q) q.slot (·.setVal 15 w)) q.slot := by
  simp [deliver, hq, hgen, hwait, hatt, St.ok, resultTaken]

/-- An attached result with status 0 and no value resumes the order. -/
theorem deliver_attached_plain (hatt : q.ticket = none) :
    deliver s rid 0x0000 none = resume (resultTaken s rid q) q.slot := by
  simp [deliver, hq, hgen, hwait, hatt, St.ok, resultTaken]

/-- A detached result with status 0 frees its ticket, and may end a wait for it. -/
theorem deliver_detached_ok {i : Nat} (hdet : q.ticket = some i) (v : Option W64) : deliver s rid 0x0000 v =
    wake (updSlot (resultTaken s rid q) q.slot (·.setTicket i .free)) q.slot := by
  simp [deliver, hq, hgen, hwait, hdet, St.ok, St.lengthMismatch, resultTaken]

end

/-- Settles O17: the result is taken from the requests; an attached one then resumes the order with what it has written,
and a detached one ends no wait of an order that runs. -/
theorem resultsReachOrderOrTicket : Obligations.ResultsReachOrderOrTicket := by
  unfold Obligations.ResultsReachOrderOrTicket
  refine fun s rid q hq hgen hwait => ⟨fun hatt hwords => ⟨fun w => ?value, ?plain⟩, fun i hdet hi v hrun => ?detached⟩
  case value =>
    have hpast : pastEnd (updSlot (resultTaken s rid q) q.slot (·.setVal 15 w))
        (getSlot (updSlot (resultTaken s rid q) q.slot (·.setVal 15 w)) q.slot) = false :=
      (pastEnd_congr (by simp [updSlot]) (by simp) (by simp)).trans hwords
    rw [deliver_attached_value hq hgen hwait hatt, resume_of_words hpast]
    refine ⟨?_, ?_, ?_, ?_⟩
    · rw [getSlot_setSlot_self, getSlot_updSlot_self]
      exact Slot.val_setVal_self _ w (by decide)
    · rw [getSlot_setSlot_self]
    · rw [getSlot_setSlot_self]
      simp [updSlot]
    · simp [updSlot]
  case plain =>
    have hpast : pastEnd (resultTaken s rid q) (getSlot (resultTaken s rid q) q.slot) = false :=
      (pastEnd_congr (by simp) (by simp) (by simp)).trans hwords
    rw [deliver_attached_plain hq hgen hwait hatt, resume_of_words hpast]
    refine ⟨?_, ?_, ?_⟩
    · simp
    · rw [getSlot_setSlot_self]
    · simp
  case detached =>
    have hst : (getSlot (updSlot (resultTaken s rid q) q.slot (·.setTicket i .free)) q.slot).st ≠ .suspended := by
      simp [hrun]
    rw [deliver_detached_ok hq hgen hwait hdet, wake_of_not_suspended hst]
    refine ⟨?_, ?_, ?_⟩
    · rw [getSlot_updSlot_self, Slot.ticket_setTicket_self _ _ hi]
    · simp
    · simp [updSlot]

end Sys2Proof.Machine

/-! ## Bay masks (R120)

What a stored field reads as once it is written; then the statement about the mask of a Bay. -/

namespace Sys2Proof.Machine

/-! ### A field that is written is read back -/

/-- A digit that is replaced leaves the digits above it. -/
theorem replaceDigit_div {A : Nat} (hA : 0 < A) (n B u : Nat) :
    (n - n / A % B * A + u * A) / A = B * (n / A / B) + u := by
  have hdigits := Nat.div_add_mod (n / A) B
  rw [Nat.add_mul_div_right _ _ hA, Nat.mul_comm (n / A % B), Nat.sub_mul_div]
  omega

/-- A field that lies in its word reads as what was put in it. -/
theorem Fld.of_put {f : Fld} (h : f.lsb + f.width ≤ 32) (w : W32) (v : Nat) : f.of (f.put w v) = v % 2 ^ f.width := by
  have hdiv := replaceDigit_div (Nat.two_pow_pos f.lsb) w.toNat (2 ^ f.width) (v % 2 ^ f.width)
  have hv : v % 2 ^ f.width < 2 ^ f.width := Nat.mod_lt _ (Nat.two_pow_pos _)
  have hword : 2 ^ (32 - (f.lsb + f.width)) * 2 ^ f.width * 2 ^ f.lsb = 2 ^ 32 := by
    rw [← pow_add, ← pow_add]
    congr 1
    omega
  have hhigh : w.toNat / 2 ^ f.lsb / 2 ^ f.width < 2 ^ (32 - (f.lsb + f.width)) := by
    rw [Nat.div_lt_iff_lt_mul (Nat.two_pow_pos _), Nat.div_lt_iff_lt_mul (Nat.two_pow_pos _), hword]
    exact w.isLt
  have hfits : w.toNat - f.of w * 2 ^ f.lsb + v % 2 ^ f.width * 2 ^ f.lsb < 2 ^ 32 := by
    rw [Fld.of, ← hword, ← Nat.div_lt_iff_lt_mul (Nat.two_pow_pos _), hdiv]
    calc 2 ^ f.width * (w.toNat / 2 ^ f.lsb / 2 ^ f.width) + v % 2 ^ f.width
        < 2 ^ f.width * (w.toNat / 2 ^ f.lsb / 2 ^ f.width + 1) := by rw [Nat.mul_succ]; omega
      _ ≤ 2 ^ (32 - (f.lsb + f.width)) * 2 ^ f.width := by
          rw [Nat.mul_comm]
          exact Nat.mul_le_mul_right _ hhigh
  rw [Fld.put, Fld.of, BitVec.toNat_ofNat, Nat.mod_eq_of_lt hfits, Fld.of, hdiv, Nat.mul_add_mod, Nat.mod_eq_of_lt hv]

theorem rdAt_wrAt_self {f : Fld} (h : f.lsb + f.width ≤ 32) (s : State) (off sel v : Nat) :
    rdAt (wrAt s f off sel v) f off sel = v % 2 ^ f.width := by
  rw [rdAt, wrAt, regWord_setWord_self, Fld.of_put h]

theorem rd_wr_self {f : Fld} (h : f.lsb + f.width ≤ 32) (s : State) (v : Nat) : rd (wr s f v) f = v % 2 ^ f.width := by
  have hkey : f.key 0 0 = f.addr := by simp [Fld.key]
  rw [rd, ← hkey]
  exact rdAt_wrAt_self h s 0 0 v

/-! ### The mask of a Bay -/

@[simp] theorem bayWrite_reg_staging (s : State) (bay mask : Nat) :
    (bayWrite s bay mask).reg.staging = s.reg.staging := by
  unfold bayWrite
  dsimp only
  split
  · rw [wr_reg_staging]
  · rfl

section
variable {mask : Nat} (s : State) (bay : Nat)

/-- A mask of fewer than 16 channels is recorded as refused, and no mask changes. -/
theorem bayWrite_refused (h : ((List.range 64).filter fun ch => (BitVec.ofNat 64 mask).getLsbD ch).length < 16) :
    bayWrite s bay mask = wr s R.MED_STATUS_BAY_REFUSED 1 := if_pos h

theorem bayWrite_taken (h : 16 ≤ ((List.range 64).filter fun ch => (BitVec.ofNat 64 mask).getLsbD ch).length) :
    bayWrite s bay mask =
      { s with med := { s.med with bays := Tbl.set bay0 s.med.bays bay (BitVec.ofNat 64 mask) } } :=
  if_neg (Nat.not_lt.2 h)

end

/-- The state in which a staged lower half is consumed (R7). -/
def unstaged (s : State) (key : Nat) : State :=
  { s with reg := { s.reg with staging := Tbl.set Tbl.absent s.reg.staging key none } }

@[simp] theorem unstaged_reg_staging (s : State) (key : Nat) :
    (unstaged s key).reg.staging = Tbl.set Tbl.absent s.reg.staging key none := rfl

/-- A write of the upper half commits the mask of the Bay that the requester selected. -/
theorem exec_bayMaskWrite {s : State} {req : Nat} (h : accessOpen s req = true) (v : W32) :
    exec (.bayMaskWrite req v) s = .next (bayWrite (unstaged s (pairKey req 0x40001C)) (selOf s req R.MED_BAY_SEL_BAY)
      (((Tbl.get Tbl.absent s.reg.staging (pairKey req 0x40001C)).getD (regValue s req 0x40001C)).toNat
        + v.toNat * 2 ^ 32)) := by
  refine (stepIf_of h s _).trans ?_
  rw [show R.MED_BAY_MASK_LO_MASK.addr = 0x40001C from rfl, pairHiWrite, pairCommit, if_pos rfl]
  rfl

/-- Settles O33: the lower half is taken from the staging, and the mask is judged by the channels in it. -/
theorem bayMaskUnderSixteenIsRefused : Obligations.BayMaskUnderSixteenIsRefused := by
  unfold Obligations.BayMaskUnderSixteenIsRefused
  intro req v s h lo m
  refine ⟨_, exec_bayMaskWrite h v, ?staging, fun hfew => ?refused, fun hmany => ?taken⟩
  case staging =>
    rw [bayWrite_reg_staging, unstaged_reg_staging, Tbl.get_set_self]
  case refused =>
    rw [bayWrite_refused _ _ hfew]
    exact ⟨wr_med .., rd_wr_self (by decide) _ 1⟩
  case taken =>
    rw [bayWrite_taken _ _ hmany]
    exact ⟨Tbl.get_set_self .., fun b hb => Tbl.get_set_ne _ _ _ hb, rfl, rfl⟩

end Sys2Proof.Machine

/-! ## Namespace Management and Attachment (R110 to R116)

Who may send each of the four commands and which member of a Wall runs it; then the statement about them. -/

namespace Sys2Proof.Machine

section
variable {s : State} {k : Nat}

/-! ### Answers of an admin command without data -/

theorem admin_ok (s : State) (k : Nat) : admin s k nvOk [] = endAdmin s k (0, 0, false) := rfl

theorem admin_invalidOpcode (s : State) (k : Nat) : admin s k nvInvalidOpcode [] = endAdmin s k (0, 0x01, true) := rfl

/-! ### The member that runs a command (R399) -/

theorem onMember_own {m : Nat} (h : isHead s = false ∨ m = 0) (own : State) : onMember s k m own = own := by
  rcases h with h | h <;> simp [onMember, h]

theorem onMember_other {m : Nat} (hhead : isHead s = true) (hm : m ≠ 0) (hsize : m < s.wall.size) (own : State) :
    onMember s k m own = toMember s k m := by
  simp [onMember, hhead, hm, hsize]

theorem nsidLocal_device (h : isHead s = false) (n : Nat) : nsidLocal s n = n := by simp [nsidLocal, h]

/-! ### The commands as they are dispatched (R110) -/

section
variable (hopen : windowOpen s = true)
include hopen

section
variable (hat : adminAt s k 0x0D = true)
include hat

section
variable (hsel : cmdSel (getSlot s k).cmd = 0)
include hsel

theorem exec_namespaceCreate_denied (hten : senderOf s k ≠ 0) (p : NsParams) :
    exec (.namespaceCreate k p) s = .next (endAdmin s k (0, 0x01, true)) :=
  (stepIf_of (by rw [hopen, hat, hsel]; rfl) s _).trans (by rw [if_pos hten, admin_invalidOpcode])

/-- A device takes a creation itself; a head takes one that names no member above 63. -/
theorem exec_namespaceCreate_manager (hmf : senderOf s k = 0)
    (hmember : isHead s = false ∨ (getSlot s k).cmd.dw12.toNat < 64) (p : NsParams) :
    exec (.namespaceCreate k p) s =
      .next (onMember s k (getSlot s k).cmd.dw12.toNat (createNamespace s k p)) := by
  have hnamed : ¬ (isHead s && decide (64 ≤ (getSlot s k).cmd.dw12.toNat)) = true := by
    rcases hmember with h | h <;> simp [h]
  exact (stepIf_of (by rw [hopen, hat, hsel]; rfl) s _).trans (by rw [if_neg (not_not_intro hmf), if_neg hnamed])

end

section
variable (hsel : cmdSel (getSlot s k).cmd = 1)
include hsel

theorem exec_namespaceDelete_denied (hten : senderOf s k ≠ 0) :
    exec (.namespaceDelete k) s = .next (endAdmin s k (0, 0x01, true)) :=
  (stepIf_of (by rw [hopen, hat, hsel]; rfl) s _).trans (by rw [if_neg hten, admin_invalidOpcode])

theorem exec_namespaceDelete_all (hmf : senderOf s k = 0) (hall : (getSlot s k).cmd.nsid.toNat = 0xFFFFFFFF) :
    exec (.namespaceDelete k) s = .next (endAdmin ((s.med.ns.map (·.1)).foldl removeNamespace s) k (0, 0, false)) :=
  (stepIf_of (by rw [hopen, hat, hsel]; rfl) s _).trans (by
    rw [if_pos hmf, if_pos hall, deleteNamespace, if_pos hall, admin_ok])

theorem exec_namespaceDelete_one (hmf : senderOf s k = 0) (hone : (getSlot s k).cmd.nsid.toNat ≠ 0xFFFFFFFF) :
    exec (.namespaceDelete k) s = .next (onMember s k (nsidMember s (getSlot s k).cmd.nsid.toNat)
      (deleteNamespace s k (nsidLocal s (getSlot s k).cmd.nsid.toNat))) :=
  (stepIf_of (by rw [hopen, hat, hsel]; rfl) s _).trans (by rw [if_pos hmf, if_neg hone])

end

end

section
variable (hat : adminAt s k 0x15 = true)
include hat

section
variable (hsel : cmdSel (getSlot s k).cmd = 0) (tenant : Nat)
include hsel

theorem exec_namespaceAttach_denied (hten : senderOf s k ≠ 0) :
    exec (.namespaceAttach k tenant) s = .next (endAdmin s k (0, 0x01, true)) :=
  (stepIf_of (by rw [hopen, hat, hsel]; rfl) s _).trans (by rw [if_neg hten, admin_invalidOpcode])

theorem exec_namespaceAttach_manager (hmf : senderOf s k = 0) :
    exec (.namespaceAttach k tenant) s = .next (onMember s k (nsidMember s (getSlot s k).cmd.nsid.toNat)
      (attachNamespace s k (nsidLocal s (getSlot s k).cmd.nsid.toNat) tenant)) :=
  (stepIf_of (by rw [hopen, hat, hsel]; rfl) s _).trans (by rw [if_pos hmf])

end

section
variable (hsel : cmdSel (getSlot s k).cmd = 1) (tenant : Nat)
include hsel

theorem exec_namespaceDetach_denied (hten : senderOf s k ≠ 0) :
    exec (.namespaceDetach k tenant) s = .next (endAdmin s k (0, 0x01, true)) :=
  (stepIf_of (by rw [hopen, hat, hsel]; rfl) s _).trans (by rw [if_neg hten, admin_invalidOpcode])

theorem exec_namespaceDetach_manager (hmf : senderOf s k = 0) :
    exec (.namespaceDetach k tenant) s = .next (onMember s k (nsidMember s (getSlot s k).cmd.nsid.toNat)
      (detachNamespace s k (nsidLocal s (getSlot s k).cmd.nsid.toNat) tenant)) :=
  (stepIf_of (by rw [hopen, hat, hsel]; rfl) s _).trans (by rw [if_pos hmf])

end

end

end

/-! ### What each command does on its device (R113, R116) -/

theorem createNamespace_fits {p : NsParams} {i : Nat} (hok : paramsOk p = true) (hfree : freeNsid s = some i)
    (hcourses : committedCourses s + (nsOf s p).committed ≤ s.med.dataCourses)
    (hbytes : courseBytes s (nsOf s p).bedrock ≠ 0)
    (hmap : 4 * (mappedUnits s + (nsOf s p).units) ≤ s.med.mapPool * 2 ^ 30) :
    createNamespace s k p = adminDw0 (addNamespace s i (nsOf s p)) k i := by
  simp only [createNamespace, hok, hfree, Bool.not_true, Bool.false_eq_true, if_false]
  exact if_neg (by omega)

section
variable {nsid tenant : Nat} {n : Namespace} (hn : getNs s nsid = some n)
include hn

theorem deleteNamespace_listed (hone : nsid ≠ 0xFFFFFFFF) :
    deleteNamespace s k nsid = endAdmin (removeNamespace s nsid) k (0, 0, false) := by
  rw [deleteNamespace, if_neg hone, hn]
  rfl

theorem attachNamespace_fits (hfree : n.tenant = none) (hten : tenant ≠ 0) (hst : (getTen s tenant).st = .active)
    (hfits : n.zoned = true ∨ n.bedrock = false ∨
      tenantBedrock s tenant + n.committed ≤ (getTen s tenant).blk.bedrock) :
    attachNamespace s k nsid tenant =
      endAdmin (setNs s nsid (some { n with tenant := some tenant })) k (0, 0, false) := by
  have hquota : ¬ (!n.zoned && n.bedrock
      && decide ((getTen s tenant).blk.bedrock < tenantBedrock s tenant + n.committed)) = true := by
    rcases hfits with h | h | h <;> simp [h]
  simp only [attachNamespace, hn]
  rw [if_neg (by simp [hfree]), if_neg (by simp [hten, hst]), if_neg hquota, admin_ok]

theorem detachNamespace_attached (hmine : n.tenant = some tenant) :
    detachNamespace s k nsid tenant = endAdmin (setNs s nsid (some { n with tenant := none })) k (0, 0, false) := by
  simp only [detachNamespace, hn]
  rw [if_pos hmine, admin_ok]

end

end

/-- Settles O26: a function other than MF is denied; MF's command goes to the member that it names, and the device that
runs it passes its checks. -/
theorem namespaceCommandsOfManager : Obligations.NamespaceCommandsOfManager := by
  unfold Obligations.NamespaceCommandsOfManager
  refine ⟨fun k p tenant s hopen hten => ⟨fun hat hsel => exec_namespaceCreate_denied hopen hat hsel hten p,
      fun hat hsel => exec_namespaceDelete_denied hopen hat hsel hten,
      fun hat hsel => exec_namespaceAttach_denied hopen hat hsel tenant hten,
      fun hat hsel => exec_namespaceDetach_denied hopen hat hsel tenant hten⟩,
    fun k p s hopen hat hsel hmf => ⟨fun hdev hok i hfree hcourses hbytes hmap => ?create, fun hhead hd => ?createHead,
      fun hhead hd hsize h64 => ?createMember⟩,
    fun k tenant s hopen hmf hhead hone hm hsize => ⟨fun hat hsel => ?deleteMember, fun hat hsel => ?attachMember,
      fun hat hsel => ?detachMember⟩,
    fun k n s hopen hat hsel hmf hone hdev hn => ?delete,
    fun k s hopen hat hsel hmf hall => exec_namespaceDelete_all hopen hat hsel hmf hall,
    fun k tenant n s hopen hat hsel hmf hdev hn hfree hten hst hfits => ?attach,
    fun k tenant n s hopen hat hsel hmf hdev hn hmine => ?detach⟩
  case create =>
    rw [exec_namespaceCreate_manager hopen hat hsel hmf (.inl hdev), onMember_own (.inl hdev),
      createNamespace_fits hok hfree hcourses hbytes hmap]
  case createHead =>
    rw [exec_namespaceCreate_manager hopen hat hsel hmf (.inr (by omega)), onMember_own (.inr hd)]
  case createMember =>
    rw [exec_namespaceCreate_manager hopen hat hsel hmf (.inr h64), onMember_other hhead (by omega) hsize]
  case deleteMember => rw [exec_namespaceDelete_one hopen hat hsel hmf hone, onMember_other hhead hm hsize]
  case attachMember => rw [exec_namespaceAttach_manager hopen hat hsel tenant hmf, onMember_other hhead hm hsize]
  case detachMember => rw [exec_namespaceDetach_manager hopen hat hsel tenant hmf, onMember_other hhead hm hsize]
  case delete =>
    rw [exec_namespaceDelete_one hopen hat hsel hmf hone, onMember_own (.inl hdev), nsidLocal_device hdev,
      deleteNamespace_listed hn hone]
  case attach =>
    rw [exec_namespaceAttach_manager hopen hat hsel tenant hmf, onMember_own (.inl hdev), nsidLocal_device hdev,
      attachNamespace_fits hn hfree hten hst hfits]
  case detach =>
    rw [exec_namespaceDetach_manager hopen hat hsel tenant hmf, onMember_own (.inl hdev), nsidLocal_device hdev,
      detachNamespace_attached hn hmine]

end Sys2Proof.Machine

/-! ## Time-outs, training and releases

What a LUN Reset, a training or a re-centre leaves of the dies and the channels; then the statement about them. -/

namespace Sys2Proof.Machine

/-! ### What a record of Hallmark leaves of the flash (R382) -/

@[simp] theorem raise_ten (s : State) (e : Event) : (raise s e).ten = s.ten :=
  (congrArg State.ten (raise_unreported s e) :)

@[simp] theorem getDie_raise (s : State) (e : Event) (d : Nat) : getDie (raise s e) d = getDie s d := by
  rw [getDie, raise_fl, getDie]

@[simp] theorem getChan_raise (s : State) (e : Event) (c : Nat) : getChan (raise s e) c = getChan s c := by
  rw [getChan, raise_fl, getChan]

/-! ### The dies of a channel that fails its training (R199) -/

/-- A die is left out of use, as the failed training of its channel leaves it. -/
def leaveOutDie (s : State) (d : Nat) : State :=
  if (getDie s d).present then setDie s d { getDie s d with present := false } else s

/-- The 32 dies of a channel are left out of use. -/
def leaveOutDies (s : State) (c : Nat) : State := ((List.range 32).map (32 * c + ·)).foldl leaveOutDie s

theorem getDie_leaveOutDie_present (s : State) (d j : Nat) :
    (getDie (leaveOutDie s d) j).present = ((getDie s j).present && j != d) := by
  rw [leaveOutDie]
  by_cases hj : j = d
  · subst hj
    split
    · simp
    · next h => simpa using h
  · split
    · simp [getDie_setDie_ne _ _ _ hj, hj]
    · simp [hj]

theorem getDie_foldl_leaveOutDie_present (l : List Nat) (s : State) (j : Nat) :
    (getDie (l.foldl leaveOutDie s) j).present = ((getDie s j).present && !l.contains j) := by
  induction l generalizing s with
  | nil => simp
  | cons d l ih =>
    rw [List.foldl_cons, ih, getDie_leaveOutDie_present]
    simp only [List.contains_cons, Bool.not_or, Bool.and_assoc, bne]

theorem getDie_leaveOutDies_present (s : State) (c : Nat) {i : Nat} (hi : i < 32) :
    (getDie (leaveOutDies s c) (32 * c + i)).present = false := by
  simp [leaveOutDies, getDie_foldl_leaveOutDie_present, hi]

/-- Leaving dies out of use writes the dies alone. -/
theorem foldl_leaveOutDie_eq (l : List Nat) (s : State) :
    l.foldl leaveOutDie s = { s with fl := { s.fl with dies := (l.foldl leaveOutDie s).fl.dies } } := by
  refine List.foldlRecOn l leaveOutDie
    (motive := fun t : State => t = { s with fl := { s.fl with dies := t.fl.dies } }) rfl fun t ht d _ => ?_
  rw [leaveOutDie]
  split
  · rw [setDie, ht]
  · exact ht

theorem leaveOutDies_eq (s : State) (c : Nat) :
    leaveOutDies s c = { s with fl := { s.fl with dies := (leaveOutDies s c).fl.dies } } := by
  unfold leaveOutDies
  exact foldl_leaveOutDie_eq _ s

/-! ### Training (R199) -/

theorem trained_startRate {s : State} {c : Nat} {r : Fin 3} (h : startRate s c = r.val) :
    trained s c (some r) = setChan s c { getChan s c with
      st := .ready, rate := r.val, retained := true, tempAt := chanTemp s c, recentre := 0, wpHigh := true } :=
  if_neg (by omega)

theorem trained_slower {s : State} {c : Nat} {r : Fin 3} (h : startRate s c < r.val) :
    trained s c (some r) = wrAt (setChan s c { getChan s c with
      st := .ready, rate := r.val, retained := true, tempAt := chanTemp s c, recentre := 0, wpHigh := true })
      R.FCH_STATUS_TRAIN_FAIL (0x1000 * c) 0 1 :=
  if_pos h

theorem trained_fault (s : State) (c : Nat) : trained s c none =
    raise (wrAt (leaveOutDies (setChan s c
      { getChan s c with st := .fault, retained := false, recentre := 0, wpHigh := false }) c)
      R.FCH_STATUS_TRAIN_FAIL (0x1000 * c) 0 1) (event c 0x0401 [(1, c), (1, 2)]) := by
  rw [leaveOutDies, List.foldl_map]
  rfl

section
variable {s : State} {ch : Nat}

theorem exec_channelTrainingDone_rate {r : Fin 3} (hst : (getChan s ch).st = .training) (hr : startRate s ch ≤ r.val) :
    exec (.channelTrainingDone ch (some r)) s = .next (trained s ch (some r)) :=
  stepIf_of (by simp [hst, hr]) s _

theorem exec_channelTrainingDone_fault (hst : (getChan s ch).st = .training) :
    exec (.channelTrainingDone ch none) s = .next (trained s ch none) :=
  stepIf_of (by simp [hst]) s _

/-! ### Re-centring (R202) -/

theorem exec_recentreDone (h : (getChan s ch).recentre = 1) (narrow : Bool) :
    exec (.recentreDone ch narrow) s = .next (recentred s ch narrow) := stepIf_of (by simp [h]) s _

end

/-- A re-centre writes its channel, the registers and, where the eye is narrow, a record. -/
theorem recentred_unreported (s : State) (c : Nat) (narrow : Bool) : (recentred s c narrow).unreported =
    (setChan s c { getChan s c with recentre := 0, tempAt := chanTemp s c }).unreported := by
  cases narrow
  case false => rfl
  case true => exact raise_unreported _ _

theorem recentred_wide_hm (s : State) (c : Nat) : (recentred s c false).hm = s.hm := by
  simp [recentred]

/-! ### Time-outs and releases (R124, R196) -/

theorem exec_dieOpTimeout {s : State} {d : Nat} (hpresent : (getDie s d).present = true)
    (hlost : (getDie s d).lost = false) (hres : (getDie s d).resetting = false)
    (hdue : timedOut s (getDie s d) = true) : exec (.dieOpTimeout d) s =
      .next (emit (bumpAt (setDie s d { getDie s d with resetting := true })
        R.FCH_TIMEOUT_CNT_TIMEOUT (0x1000 * (d / 32)) 0 1) (.lunReset d)) :=
  stepIf_of (by simp [hpresent, hlost, hres, hdue]) s _

theorem exec_slabRelease {s : State} {rel : Nat} {x : Release} (hx : Tbl.get Tbl.absent s.med.releases rel = some x)
    (hpast : x.until_ ≤ s.tb.count) (hdevs : devOn s x.slabs = false) :
    exec (.slabRelease rel) s = .next (slabRelease s rel x) := by
  show execSlabRelease rel s = _
  simp only [execSlabRelease, hx]
  exact stepIf_of (by simp [hpast, hdevs]) s _

/-- Settles O29: the die is reset or lost, the channel trains or fails with its dies, and a re-centre or a release goes
on under its condition. -/
theorem timeoutsTrainingAndReleases : Obligations.TimeoutsTrainingAndReleases := by
  unfold Obligations.TimeoutsTrainingAndReleases
  refine ⟨fun d s hpresent hlost hres hdue => exec_dieOpTimeout hpresent hlost hres hdue,
    fun d s hres => ⟨exec_lunResetDone hres true, exec_lunResetDone hres false⟩,
    fun ch r s hst => ⟨fun hr => ?start, fun hr => ?slower, ?fault⟩,
    fun ch narrow s hdue => ⟨recentred s ch narrow, exec_recentreDone hdue narrow, ?recentre⟩,
    fun rel x s hx hpast hdevs => exec_slabRelease hx hpast hdevs⟩
  case start => rw [exec_channelTrainingDone_rate hst hr.le, trained_startRate hr]
  case slower =>
    refine ⟨_, exec_channelTrainingDone_rate hst hr.le, ?_⟩
    rw [trained_slower hr]
    exact ⟨by simp, by simp, rdAt_wrAt_self (by decide) ..⟩
  case fault =>
    refine ⟨_, exec_channelTrainingDone_fault hst, ?_⟩
    rw [trained_fault]
    refine ⟨?_, fun i hi => ?_, ?_⟩
    · rw [getChan_raise, getChan_wrAt, leaveOutDies_eq]
      simp [getChan, setChan]
    · rw [getDie_raise, getDie_wrAt, getDie_leaveOutDies_present _ _ hi]
    · rw [leaveOutDies_eq]
      simp
  case recentre =>
    have hleft := recentred_unreported s ch narrow
    have hfl : (recentred s ch narrow).fl = _ := (congrArg State.fl hleft :)
    have hchan (j : Nat) : getChan (recentred s ch narrow) j = _ := (congrArg (Tbl.get chan0 ·.chans j) hfl :)
    refine ⟨?_, fun j hj => ?_, ?_, (congrArg State.med hleft :), (congrArg State.ord hleft :), ?_⟩
    · rw [hchan]
      exact getChan_setChan_self ..
    · rw [hchan]
      exact getChan_setChan_ne _ _ _ hj
    · rw [hfl]
      rfl
    · rintro rfl
      exact recentred_wide_hm s ch

end Sys2Proof.Machine

/-! ## Rows, units, mends and cut-overs

What each command of a course answers once its condition holds; then the statement about rows, read-backs, mends,
migrations, collections and the ladder. -/

namespace Sys2Proof.Machine

/-! ### A unit whose read-back passes (R172, R176) -/

theorem verifyPass_host {k : Course} (hkind : k.kind = .zone ∨ k.kind = .conv) (s : State) (id p : Nat) :
    verifyPass s id p k = setCourse s id (some (k.setUnit p { k.unit p with st := .verifying })) :=
  if_pos (by simpa using hkind)

theorem verifyPass_inner {k : Course} (hzone : k.kind ≠ .zone) (hconv : k.kind ≠ .conv) (s : State) (id p : Nat) :
    verifyPass s id p k = unitDone s id p :=
  if_neg (by simp [hzone, hconv])

section
variable {s : State} {id : Nat} {k : Course} (hk : getCourse s id = some k)
include hk

theorem updCourse_of_some (f : Course → Course) : updCourse s id f = setCourse s id (some (f k)) := by
  rw [updCourse, hk, Option.map_some]

theorem exec_rowDataInStart (hready : rowReady s k = true) (hrun : strikesRun s = true) :
    exec (.rowDataInStart id) s = .next (startRow s id k) := by
  show execRowDataInStart id s = _
  simp only [execRowDataInStart, hk]
  exact stepIf_of (by simp [hready, hrun]) s _

/-! ### Read-back (R132, R172, R173) -/

section
variable {p : Nat} (hmend : k.mendAt p = none)
include hmend

theorem exec_verifyPass_unit (hin : readBackIn s (k.unit p) (k.slabs.getD p 0) = true) (bits : Nat) :
    exec (.verifyPass id p bits) s = .next
      (if rdForce s R.MED_LADDER_REFRESH_TH < bits then verifyFailed s id p false else verifyPass s id p k) := by
  show execVerifyPass id p bits s = _
  simp only [execVerifyPass, hk, hmend]
  exact stepIf_of hin s _

theorem exec_verifyFail_unit (hst : (k.unit p).st = .programmed) (hsensed : 0 < (k.unit p).sensed) :
    exec (.verifyFail id p) s = .next (verifyFailed s id p false) := by
  show execVerifyFail id p s = _
  simp only [execVerifyFail, hk, hmend]
  exact stepIf_of (by simp [hst, hsensed]) s _

end

section
variable {p : Nat} {m : Mend} (hmend : k.mendAt p = some m)
include hmend

theorem exec_verifyPass_mend (hin : readBackIn s m.unit m.slab = true) (bits : Nat) :
    exec (.verifyPass id p bits) s = .next
      (if rdForce s R.MED_LADDER_REFRESH_TH < bits then verifyFailed s id p true else mendVerified s id p) := by
  show execVerifyPass id p bits s = _
  simp only [execVerifyPass, hk, hmend]
  exact stepIf_of hin s _

theorem exec_verifyFail_mend (hst : m.unit.st = .programmed) (hsensed : 0 < m.unit.sensed) :
    exec (.verifyFail id p) s = .next (verifyFailed s id p true) := by
  show execVerifyFail id p s = _
  simp only [execVerifyFail, hk, hmend]
  exact stepIf_of (by simp [hst, hsensed]) s _

end

/-! ### The last XOR-out of a unit (R171) -/

theorem exec_unitXorOutDone {p : Nat} (hst : (k.unit p).st = .verifying) (hbits : (k.unit p).bitmap = 0) :
    exec (.unitXorOutDone id p) s = .next (unitDone s id p) := by
  show execUnitXorOutDone id p s = _
  simp only [execUnitXorOutDone, hk]
  exact stepIf_of (by simp [hst, hbits]) s _

theorem unitDone_of_some (p : Nat) : unitDone s id p = releaseSet (setCourse s id (some
    { k.setUnit p { row := 0, bitmap := 0, st := .none, moved := 0, sensed := 0 } with
      done := k.done.set p ((k.unit p).row + 1) })) id := by
  rw [unitDone, updCourse_of_some hk]

/-! ### Cut-overs (R131, R132) -/

theorem exec_mendCutover {m : Mend} (hm : k.mends.find? (mendCaught s id k) = some m) (hturn : id ∈ mendsNow s) :
    exec (.mendCutover id) s = .next (cutMend s id k m) := by
  show execMendCutover id s = _
  simp only [execMendCutover, hk, hm]
  exact stepIf_of (by simp [hturn]) s _

theorem exec_migrationCutover {dest : Nat} {d : Course} (hkind : k.kind = .zone)
    (hto : (getZone s k.nsid k.owner).moveTo = some dest)
    (hhidden : (getZone s k.nsid k.owner).hidden = .migrating) (hcourse : (getZone s k.nsid k.owner).course = some id)
    (hcut : (getZone s k.nsid k.owner).cutAt = none) (hd : getCourse s dest = some d)
    (hdone : allVerified s d = true) : exec (.migrationCutover id) s = .next (setZone s k.nsid k.owner
      { getZone s k.nsid k.owner with cutAt := some (s.tb.count + 1) }) := by
  show execMigrationCutover id s = _
  simp only [execMigrationCutover, hk, hto, Option.bind_some, hd]
  exact stepIf_of (by simp [hkind, hhidden, hcourse, hcut, hdone]) s _

end

/-! ### Collections and the ladder (R150, R162) -/

theorem exec_collectionVictimDone {s : State} {nsid dom : Nat} {d : Domain} {r : Collection}
    (hd : getDomain s nsid dom = some d) (hr : d.run = some r) (hcopies : r.copies = [])
    (hunits : validUnits s nsid r.victim = [])
    (hdevs : ∀ e ∈ s.fl.devs, ∀ x, e.2 = some x → x.use ≠ .collect nsid dom) :
    exec (.collectionVictimDone nsid dom) s = .next (collectionDone s nsid dom d r) := by
  have hnone : (s.fl.devs.any fun e => e.2.any fun x => x.use == .collect nsid dom) = false :=
    List.any_eq_false.2 fun e he => by
      cases hx : e.2 with
      | none => simp
      | some x => simpa using hdevs e he x hx
  show execCollectionVictimDone nsid dom s = _
  simp only [execCollectionVictimDone, hd, hr]
  exact stepIf_of (by simp [hcopies, hunits, hnone]) s _

theorem exec_ladderStepDone {s : State} {who : Reader} {part : Nat} {ok : Bool} {x : RdPart}
    (hx : (readerParts s who)[part]? = some x) (hruns : ladderRuns s who part x ok = true) :
    exec (.ladderStepDone who part ok) s = .next (ladderStepDone s who part x ok) := by
  show execLadderStepDone who part ok s = _
  simp only [execLadderStepDone, hx]
  exact stepIf_of hruns s _

/-- Settles O30: each command finds its course, domain or codeword as it names it, and a read-back is told by the
corrected bits and by what the course stores. -/
theorem rowsUnitsAndMends : Obligations.RowsUnitsAndMends := by
  unfold Obligations.RowsUnitsAndMends
  refine ⟨fun id k s hk hready hrun => exec_rowDataInStart hk hready hrun,
    fun id p bits k s hk hmend => ⟨fun hin hfew => ?unitPass, fun hin hmany => ?unitWorn,
      fun hst hsensed => exec_verifyFail_unit hk hmend hst hsensed⟩,
    fun id p bits k m s hk hmend => ⟨fun hin hfew => ?mendPass, fun hin hmany => ?mendWorn,
      fun hst hsensed => exec_verifyFail_mend hk hmend hst hsensed⟩,
    fun id p k s hk hst hbits => ?xorOut,
    fun id k m s hk hm hturn => exec_mendCutover hk hm hturn,
    fun id dest k d s hk hkind hto hhidden hcourse hcut hd hdone =>
      exec_migrationCutover hk hkind hto hhidden hcourse hcut hd hdone,
    fun nsid dom d r s hd hr hcopies hunits hdevs => exec_collectionVictimDone hd hr hcopies hunits hdevs,
    fun who part ok x s hx hruns => exec_ladderStepDone hx hruns⟩
  case unitPass =>
    rw [exec_verifyPass_unit hk hmend hin, if_neg (Nat.not_lt.2 hfew)]
    exact ⟨fun hkind => by rw [verifyPass_host hkind],
      fun hzone hconv => by rw [verifyPass_inner hzone hconv]⟩
  case unitWorn => rw [exec_verifyPass_unit hk hmend hin, if_pos hmany, verifyFailed]
  case mendPass => rw [exec_verifyPass_mend hk hmend hin, if_neg (Nat.not_lt.2 hfew)]
  case mendWorn => rw [exec_verifyPass_mend hk hmend hin, if_pos hmany, verifyFailed]
  case xorOut => rw [exec_unitXorOutDone hk hst hbits, unitDone_of_some hk]

end Sys2Proof.Machine

/-! ## Logical ports and queue pairs

What each command of a logical port, of a queue pair and of its congestion control answers in the state it needs; then
the statements about ports, connections and congestion control. -/

namespace Sys2Proof.Machine

/-! ### Frames of a logical port (R209 to R211) -/

section
variable {s : State} {lp : Nat} (hlp : lp < 8)
include hlp

/-- A port may go down at any time, and comes up when it is enabled and its mode has it (R209). -/
theorem exec_ethernetLinkChange {up : Bool} (hchange : (getLPort s lp).up ≠ up) (hsingle : isMember s = false)
    (hcan : up = true → portEnabled s (portOf lp) = true ∧ lportExists (getLPort s lp).mode lp = true) :
    exec (.ethernetLinkChange lp up) s = .next (setLPort s lp { getLPort s lp with up := up }) := by
  refine stepIf_of ?_ s _
  cases up
  case false => simp [hlp, hchange, hsingle]
  case true => simp [hlp, hchange, hsingle, hcan rfl]

section
variable (hup : (getLPort s lp).up = true)
include hup

theorem exec_addressResolutionRequest (hhot : s.pwr.st = .hot) (a : IpAddr) (vlan : Option Nat) :
    exec (.addressResolutionRequest lp a vlan) s = .next
      (if ownAddress s lp a && vlanOk s lp vlan then emit s (.arpReply lp a) else dropFrame s) :=
  stepIf_of (by simp [hlp, hup, hhot]) s _

theorem exec_icmpEchoRequest (hhot : s.pwr.st = .hot) (a : IpAddr) (vlan : Option Nat) (load : List Byte) :
    exec (.icmpEchoRequest lp a vlan load) s = .next
      (if ownAddress s lp a && vlanOk s lp vlan then emit s (.echoReply lp a load) else dropFrame s) :=
  stepIf_of (by simp [hlp, hup, hhot]) s _

theorem exec_foreignFrame : exec (.foreignFrame lp) s = .next (dropFrame s) := stepIf_of (by simp [hlp, hup]) s _

theorem exec_pfcPauseReceived (prio : BitVec 3) (quanta : W16) : exec (.pfcPauseReceived lp prio quanta) s = .next
    (if lportField s R.ETH_LPORT_CFG_PFC_EN lp == 1 && lportField s R.ETH_LPORT_CFG_PRIO lp == prio.toNat
      then setLPort s lp { getLPort s lp with paused := quanta.toNat } else s) :=
  stepIf_of (by simp [hlp, hup]) s _

end

end

theorem exec_hostRdmaAccess {s : State} {qp : Nat} (h : qpWorks s qp = true) :
    exec (.hostRdmaAccess qp) s = .next (emit s (.nakAccess qp)) := stepIf_of h s _

/-- Settles O39: a frame of a port that is up is answered where its address and its tag are the port's own, and a pause
counts on the priority of the port alone. -/
theorem portsAnswerTheirOwnAddresses : Obligations.PortsAnswerTheirOwnAddresses := by
  unfold Obligations.PortsAnswerTheirOwnAddresses
  refine ⟨fun lp up s hlp hchange hsingle hcan => ⟨_, exec_ethernetLinkChange hlp hchange hsingle hcan, ?_, ?_, rfl⟩,
    fun lp a vlan load s hlp hup hhot => ⟨fun hown htag => ?own, fun hother => ?other⟩,
    fun lp s hlp hup => exec_foreignFrame hlp hup,
    fun lp prio quanta s hlp hup => ⟨fun hen hprio => ?mine, fun hother => ?notMine⟩,
    fun qp s hworks => exec_hostRdmaAccess hworks⟩
  · exact getLPort_setLPort_self ..
  · exact fun j hj => getLPort_setLPort_ne _ _ _ hj
  case own =>
    have hreach : (ownAddress s lp a && vlanOk s lp vlan) = true := by rw [hown, htag, Bool.and_self]
    rw [exec_addressResolutionRequest hlp hup hhot, exec_icmpEchoRequest hlp hup hhot, if_pos hreach, if_pos hreach]
    exact ⟨rfl, rfl⟩
  case other =>
    have hreach : ¬ (ownAddress s lp a && vlanOk s lp vlan) = true := by
      rcases hother with h | h <;> simp [h]
    rw [exec_addressResolutionRequest hlp hup hhot, exec_icmpEchoRequest hlp hup hhot, if_neg hreach, if_neg hreach]
    exact ⟨rfl, rfl⟩
  case mine => rw [exec_pfcPauseReceived hlp hup, if_pos (by simp [hen, hprio])]
  case notMine =>
    rw [exec_pfcPauseReceived hlp hup, if_neg]
    rcases hother with h | h <;> simp [h]

/-! ### Connections (R214, R216, R241) -/

/-- The queue pair that an accepted request gets: without credit, at line rate, under the registers in force (R214). -/
def acceptedQp (s : State) (lp q : Nat) : QPair :=
  { qp0 q with
    st := .connected, lport := lp, rc := lineRate (getLPort s lp).mode * 65536, rt := lineRate (getLPort s lp).mode * 65536
    alpha := 2 ^ 32, rtWord := regWord s R.ETH_RT_CTRL_RT_EN.addr, npWord := regWord s R.ETH_CC_NP_INTERVAL.addr
    rpWord := regWord s R.ETH_CC_RP_G_SHIFT.addr, aiWord := regWord s R.ETH_CC_AI_AI_MBPS.addr }

section
variable {s : State} {lp : Nat} (hlp : lp < 8) (hup : (getLPort s lp).up = true)
  (hen : flag s R.ETH_RT_CTRL_RT_EN = true) (hopen : windowOpen s = true)
include hlp hup hen hopen

theorem exec_connectionRequest_none (hnone : findQp s = none) :
    exec (.connectionRequest lp) s = .next (emit s (.cmReject lp)) :=
  (stepIf_of (by simp [hlp, hup, hen, hopen]) s _).trans (by rw [hnone])

theorem exec_connectionRequest_some {q : Nat} (hfree : findQp s = some q) : exec (.connectionRequest lp) s =
    .next (emit (setQp s q (acceptedQp s lp q)) (.cmAccept lp q (pathMtu s lp))) :=
  (stepIf_of (by simp [hlp, hup, hen, hopen]) s _).trans (by rw [hfree]; rfl)

end

section
variable {s : State} {qp : Nat} {k : ConnectCmd} (hst : (getQp s qp).st = .connected) (hopen : windowOpen s = true)
  (hassoc : k.admin = true ∨ k.discovery = true → assocQps s k.assoc = [])
include hst hopen hassoc

/-- A Connect is judged on a queue pair that waits for one; its controller, if new, has an association of its own. -/
theorem connect_judged : ((getQp s qp).st == .connected && windowOpen s
    && (!(k.admin || k.discovery) || (assocQps s k.assoc).isEmpty)) = true := by
  have hfresh : (!(k.admin || k.discovery) || (assocQps s k.assoc).isEmpty) = true := by
    by_cases hnew : k.admin = true ∨ k.discovery = true
    · simp [hassoc hnew]
    · simp [not_or.1 hnew]
  rw [hst, hopen, hfresh]
  rfl

theorem exec_connect_discovery (hdisc : k.discovery = true) :
    exec (.connect qp k) s = .next (connect s qp 0 k) :=
  (stepIf_of (connect_judged hst hopen hassoc) s _).trans (by rw [if_pos hdisc])

theorem exec_connect_unknown (hdisc : k.discovery = false) (hhost : nqnTenant s k.nqn = none) :
    exec (.connect qp k) s = .next (emit s (.connectReply qp 1 0x84)) :=
  (stepIf_of (connect_judged hst hopen hassoc) s _).trans (by rw [if_neg (by simp [hdisc]), hhost]; rfl)

theorem exec_connect_tenant {t : Nat} (hdisc : k.discovery = false) (hhost : nqnTenant s k.nqn = some t) :
    exec (.connect qp k) s = .next (connect s qp t k) :=
  (stepIf_of (connect_judged hst hopen hassoc) s _).trans (by rw [if_neg (by simp [hdisc]), hhost])

end

theorem getQp_keepAlive (s : State) (m : Tbl Nat) (q : Nat) :
    getQp { s with port := { s.port with keepAlive := m } } q = getQp s q := rfl

theorem getQp_connect_ok {s : State} {t : Nat} {k : ConnectCmd} (h : connectStatus s t k = nvOk) (qp : Nat) :
    getQp (connect s qp t k) qp = { getQp s qp with
      st := .live, tenant := t, assoc := k.assoc, admin := k.admin, discovery := k.discovery, sqsize := k.sqsize } := by
  rw [connect, if_pos h]
  exact (getQp_keepAlive _ _ qp).trans (getQp_setQp_self ..)

theorem connect_refused {s : State} {t : Nat} {k : ConnectCmd} (h : connectStatus s t k ≠ nvOk) (qp : Nat) :
    connect s qp t k = emit s (.connectReply qp (connectStatus s t k).1 (connectStatus s t k).2) := if_neg h

/-! ### Keep-alive and failures (R213, R222) -/

theorem exec_keepAlive {s : State} {qp : Nat} (hst : (getQp s qp).st = .live) (hadmin : (getQp s qp).admin = true) :
    exec (.keepAlive qp) s = .next { s with port := { s.port with
      keepAlive := Tbl.set nat0 s.port.keepAlive (getQp s qp).assoc s.tb.count } } :=
  stepIf_of (by simp [hst, hadmin]) s _

theorem exec_keepAliveExpiry {s : State} {a : Nat}
    (hlive : (s.port.qps.filter fun e => e.2.st == .live && e.2.assoc == a) ≠ []) : exec (.keepAliveExpiry a) s =
      .next (((s.port.qps.filter fun e => e.2.st == .live && e.2.assoc == a).map (·.1)).foldl oneQpError s) :=
  stepIf_of (by rwa [Bool.not_eq_true', List.isEmpty_eq_false_iff, Ne, List.map_eq_nil_iff]) s _

section
variable {s : State} {qp : Nat} (hworks : qpWorks s qp = true)
include hworks

theorem exec_qpTransportError : exec (.qpTransportError qp) s = .next (qpError s qp) := stepIf_of hworks s _

theorem exec_qpDisconnect : exec (.qpDisconnect qp) s = .next (qpError s qp) := stepIf_of hworks s _

theorem exec_ackTimeout_retries (hfew : (getQp s qp).ackTries < R.ETH_RT_CTRL_RETRY_CNT.of (getQp s qp).rtWord) :
    exec (.ackTimeout qp) s = .next (setQp s qp { getQp s qp with ackTries := (getQp s qp).ackTries + 1 }) :=
  (stepIf_of hworks s _).trans (by rw [if_pos hfew])

theorem exec_ackTimeout_fails (hall : R.ETH_RT_CTRL_RETRY_CNT.of (getQp s qp).rtWord ≤ (getQp s qp).ackTries) :
    exec (.ackTimeout qp) s = .next (qpError s qp) :=
  (stepIf_of hworks s _).trans (by rw [if_neg (Nat.not_lt.2 hall)])

end

/-- Settles O40: a request meets a free queue pair or none, a Connect its tenant and its status, and a failure the
retries that are left. -/
theorem queuePairsConnectAndFail : Obligations.QueuePairsConnectAndFail := by
  unfold Obligations.QueuePairsConnectAndFail
  refine ⟨fun lp s hlp hup hen hopen => ⟨exec_connectionRequest_none hlp hup hen hopen, fun q hfree =>
      ⟨_, exec_connectionRequest_some hlp hup hen hopen hfree, ?accepted⟩⟩,
    fun qp k s hst hopen hassoc => ⟨exec_connect_discovery hst hopen hassoc, exec_connect_unknown hst hopen hassoc,
      fun t => exec_connect_tenant hst hopen hassoc⟩,
    fun s qp t k => ⟨fun hok => ?bound, fun hrefused => connect_refused hrefused qp⟩,
    fun qp s hst hadmin => exec_keepAlive hst hadmin,
    fun a s hlive => exec_keepAliveExpiry hlive,
    fun qp s hworks => ⟨exec_qpTransportError hworks, exec_qpDisconnect hworks, exec_ackTimeout_retries hworks,
      exec_ackTimeout_fails hworks⟩⟩
  case accepted =>
    rw [getQp_emit, getQp_setQp_self]
    exact ⟨rfl, rfl, rfl, rfl, rfl, fun j hj => getQp_setQp_ne _ _ _ hj, rfl⟩
  case bound =>
    rw [getQp_connect_ok hok]
    exact ⟨rfl, rfl, rfl⟩

/-! ### Congestion control (R224, R225) -/

/-- Whether INTERVAL µs have passed since a queue pair sent its last CNP, if it sent one (R224). -/
def cnpDue (x : QPair) (us : Nat) : Prop :=
  x.lastCnpUs = none ∨ ∃ l, x.lastCnpUs = some l ∧ R.ETH_CC_NP_INTERVAL.of x.npWord ≤ us - l

section
variable {s : State} {qp : Nat} (hworks : qpWorks s qp = true)
include hworks

theorem exec_ceMarkedPacket_notifies {us : Nat} (hen : R.ETH_CC_NP_NP_EN.of (getQp s qp).npWord = 1)
    (hdue : cnpDue (getQp s qp) us) : exec (.ceMarkedPacket qp us) s =
      .next (bump (emit (setQp s qp { getQp s qp with lastCnpUs := some us }) (.cnp qp
        (lportField s R.ETH_LPORT_CFG_PRIO (getQp s qp).lport) (lportField s R.ETH_LPORT_CFG_CNP_DSCP (getQp s qp).lport)))
        R.ETH_CNP_TX_CNT_CNP_TX) := by
  refine (stepIf_of hworks s _).trans (congrArg _ (if_pos ⟨hen, ?_⟩))
  rcases hdue with h | ⟨l, h, hpast⟩
  · rw [h]
  · rw [h]
    exact decide_eq_true hpast

theorem exec_ceMarkedPacket_silent {us : Nat}
    (hnot : R.ETH_CC_NP_NP_EN.of (getQp s qp).npWord ≠ 1 ∨ ¬ cnpDue (getQp s qp) us) :
    exec (.ceMarkedPacket qp us) s = .next s := by
  refine (stepIf_of hworks s _).trans (congrArg _ (if_neg fun ⟨hen, hdue⟩ => hnot.elim (· hen) fun hearly => hearly ?_))
  cases h : (getQp s qp).lastCnpUs with
  | none => exact .inl h
  | some l =>
    rw [h] at hdue
    exact .inr ⟨l, h, of_decide_eq_true hdue⟩

section
variable (hen : R.ETH_CC_NP_RP_EN.of (getQp s qp).npWord = 1)
include hen

theorem exec_cnpReceived_cuts :
    exec (.cnpReceived qp) s = .next (bump (setQp s qp (getQp s qp).cut) R.ETH_CNP_RX_CNT_CNP_RX) :=
  (stepIf_of hworks s _).trans (by rw [if_pos hen])

theorem exec_rateIncreaseTimer : exec (.rateIncreaseTimer qp) s =
    .next (setQp s qp ((getQp s qp).recover (lineRate (getLPort s (getQp s qp).lport).mode * 65536))) :=
  stepIf_of (by simp [hworks, hen]) s _

theorem exec_alphaDecayTimer : exec (.alphaDecayTimer qp) s =
    .next (setQp s qp { getQp s qp with alpha := alphaStep (getQp s qp) false }) :=
  stepIf_of (by simp [hworks, hen]) s _

end

theorem exec_cnpReceived_counts (hoff : R.ETH_CC_NP_RP_EN.of (getQp s qp).npWord ≠ 1) :
    exec (.cnpReceived qp) s = .next (bump s R.ETH_CNP_RX_CNT_CNP_RX) :=
  (stepIf_of hworks s _).trans (by rw [if_neg hoff])

end

/-- Settles O41: a mark is told by NP_EN and the time since the last CNP, a CNP and the timers by RP_EN. -/
theorem congestionControlCommands : Obligations.CongestionControlCommands := by
  unfold Obligations.CongestionControlCommands
  exact ⟨fun qp us s hworks => ⟨exec_ceMarkedPacket_notifies hworks, exec_ceMarkedPacket_silent hworks⟩,
    fun qp s hworks => ⟨fun hen => ⟨exec_cnpReceived_cuts hworks hen, exec_rateIncreaseTimer hworks hen,
      exec_alphaDecayTimer hworks hen⟩, exec_cnpReceived_counts hworks⟩⟩

end Sys2Proof.Machine

/-! ## PCIe functions, their queues and resets

What each command of the PCIe endpoint answers in the state it needs, and how a doorbell is judged; then the statement
about them. -/

namespace Sys2Proof.Machine

/-! ### The link and the controllers (R226, R228) -/

theorem exec_pcieLinkUp {s : State} {speed width : Nat} {flit : Bool} (hdown : s.port.linkUp = false)
    (hsingle : isMember s = false) (hopen : windowOpen s = true) (hspeed : 1 ≤ speed) (hmax : speed ≤ maxSpeed s)
    (hwidth : width ∈ [1, 2, 4, 8]) (hwide : width ≤ maxWidth s) (hflit : speed = 6 → flit = true) :
    exec (.pcieLinkUp speed width flit) s = .next { s with port := { s.port with
      linkUp := true, linkSpeed := speed, linkWidth := width, linkFlit := flit, perstHigh := true } } := by
  have hmode : (speed != 6 || flit) = true := by
    by_cases h : speed = 6
    · simp [hflit h]
    · simp [h]
  have hlanes : [1, 2, 4, 8].contains width = true := List.contains_iff_mem.2 hwidth
  exact stepIf_of (by simp only [hdown, hsingle, hopen, hspeed, hmax, hlanes, hwide, hmode]; rfl) s _

section
variable {s : State} {fn sq cq : Nat} {acq : W64} (hlink : s.port.linkUp = true) (hopen : windowOpen s = true)
  (hfn : fn < 1024) (hsq : 2 ≤ sq) (hcq : 2 ≤ cq)
include hlink hopen hfn hsq hcq

/-- A write of CC.EN is told by its value, by what the controller is, and by whether the function has one (R228). -/
theorem exec_controllerEnable (en : Bool) : exec (.controllerEnable fn en sq cq acq) s = .next
    (if !en then controllerReset s fn
     else if (getFunc s fn).rdy then s
     else if functionWorks s fn then setFunc s fn { adminQueues sq cq acq with rdy := s.boot.ioReady }
     else setFunc s fn { getFunc s fn with en := true }) :=
  stepIf_of (by simp [hlink, hopen, tenantCount, hfn, hsq, hcq]) s _

theorem exec_controllerEnable_clear : exec (.controllerEnable fn false sq cq acq) s = .next (controllerReset s fn) :=
  exec_controllerEnable hlink hopen hfn hsq hcq false

theorem exec_controllerEnable_ready (hrdy : (getFunc s fn).rdy = true) :
    exec (.controllerEnable fn true sq cq acq) s = .next s := by
  rw [exec_controllerEnable hlink hopen hfn hsq hcq, if_neg (by simp), if_pos hrdy]

section
variable (hidle : (getFunc s fn).rdy = false)
include hidle

theorem exec_controllerEnable_starts (hworks : functionWorks s fn = true) : exec (.controllerEnable fn true sq cq acq) s =
    .next (setFunc s fn { adminQueues sq cq acq with rdy := s.boot.ioReady }) := by
  rw [exec_controllerEnable hlink hopen hfn hsq hcq, if_neg (by simp), if_neg (by simp [hidle]), if_pos hworks]

theorem exec_controllerEnable_absent (hnone : functionWorks s fn = false) : exec (.controllerEnable fn true sq cq acq) s =
    .next (setFunc s fn { getFunc s fn with en := true }) := by
  rw [exec_controllerEnable hlink hopen hfn hsq hcq, if_neg (by simp), if_neg (by simp [hidle]), if_neg (by simp [hnone])]

end

end

/-! ### Queues of a ready controller (R229) -/

theorem opcode_of_adminAt {s : State} {k : Nat} {op : Byte} (h : adminAt s k op = true) : (getSlot s k).cmd.opcode = op := by
  simp only [adminAt, Bool.and_eq_true, beq_iff_eq] at h
  exact h.2

section
variable {s : State} {k : Nat} (hrdy : (getFunc s (senderOf s k)).rdy = true) (hopen : windowOpen s = true)
include hrdy hopen

section
variable (hat : adminAt s k 0x05 = true) (base : W64)
include hat

theorem exec_createIoCompletionQueue_ok (hst : createStatus s (senderOf s k) (queueId (getSlot s k).cmd)
      (queueSize (getSlot s k).cmd) (getFunc s (senderOf s k)).cqs = nvOk) :
    exec (.createIoCompletionQueue k base) s = .next (endAdmin (setFunc s (senderOf s k) { getFunc s (senderOf s k) with
      cqs := Tbl.set Tbl.absent (getFunc s (senderOf s k)).cqs (queueId (getSlot s k).cmd)
        (some { base := base, size := queueSize (getSlot s k).cmd, head := 0, tail := 0, cqid := queueId (getSlot s k).cmd }) })
      k (0, 0, false)) :=
  (stepIf_of (by rw [hrdy, hopen, hat]; rfl) s _).trans (by rw [hst, if_pos rfl, admin_ok])

theorem exec_createIoCompletionQueue_refused {st : Nat × Nat} (hst : createStatus s (senderOf s k)
      (queueId (getSlot s k).cmd) (queueSize (getSlot s k).cmd) (getFunc s (senderOf s k)).cqs = st) (hbad : st ≠ nvOk) :
    exec (.createIoCompletionQueue k base) s = .next (admin s k st []) :=
  (stepIf_of (by rw [hrdy, hopen, hat]; rfl) s _).trans (by rw [hst, if_neg hbad])

end

theorem exec_createIoSubmissionQueue_ok {cqid : Nat} (hat : adminAt s k 0x01 = true)
    (hcqid : (getSlot s k).cmd.dw11.toNat / 65536 = cqid) (hne : cqid ≠ 0)
    (hcq : (Tbl.get Tbl.absent (getFunc s (senderOf s k)).cqs cqid).isSome = true)
    (hst : createStatus s (senderOf s k) (queueId (getSlot s k).cmd) (queueSize (getSlot s k).cmd)
      (getFunc s (senderOf s k)).sqs = nvOk) :
    exec (.createIoSubmissionQueue k) s = .next (endAdmin (setFunc s (senderOf s k) { getFunc s (senderOf s k) with
      sqs := Tbl.set Tbl.absent (getFunc s (senderOf s k)).sqs (queueId (getSlot s k).cmd)
        (some { base := 0, size := queueSize (getSlot s k).cmd, head := 0, tail := 0, cqid := cqid }) })
      k (0, 0, false)) := by
  subst hcqid
  have hthere : ((getSlot s k).cmd.dw11.toNat / 65536 != 0 && (Tbl.get Tbl.absent (getFunc s (senderOf s k)).cqs
      ((getSlot s k).cmd.dw11.toNat / 65536)).isSome) = true := by rw [hcq, bne_iff_ne.2 hne]; rfl
  exact (stepIf_of (by rw [hrdy, hopen, hat]; rfl) s _).trans (by
    rw [if_pos hthere, hst, if_pos rfl, admin_ok])

section
variable (hid : queueId (getSlot s k).cmd ≠ 0)
include hid

theorem exec_deleteIoQueue_submission (hat : adminAt s k 0x00 = true) (hthere : (Tbl.get Tbl.absent
      (getFunc s (senderOf s k)).sqs (queueId (getSlot s k).cmd)).isSome = true) :
    exec (.deleteIoQueue k) s = .next (endAdmin (setFunc s (senderOf s k) { getFunc s (senderOf s k) with
      sqs := Tbl.set Tbl.absent (getFunc s (senderOf s k)).sqs (queueId (getSlot s k).cmd) none }) k (0, 0, false)) := by
  have hop : (getSlot s k).cmd.opcode = 0x00 := opcode_of_adminAt hat
  refine (stepIf_of (by rw [hrdy, hopen, hat]; rfl) s _).trans ?_
  simp [hop, hid, hthere, admin_ok]

theorem exec_deleteIoQueue_completion (hat : adminAt s k 0x04 = true) (hthere : (Tbl.get Tbl.absent
      (getFunc s (senderOf s k)).cqs (queueId (getSlot s k).cmd)).isSome = true)
    (hunbound : ((getFunc s (senderOf s k)).sqs.any
      (fun e => (e.2.map (·.cqid)) == some (queueId (getSlot s k).cmd))) = false) :
    exec (.deleteIoQueue k) s = .next (endAdmin (setFunc s (senderOf s k) { getFunc s (senderOf s k) with
      cqs := Tbl.set Tbl.absent (getFunc s (senderOf s k)).cqs (queueId (getSlot s k).cmd) none }) k (0, 0, false)) := by
  have hop : (getSlot s k).cmd.opcode = 0x04 := opcode_of_adminAt hat
  refine (stepIf_of (by simp only [hrdy, hopen, hat, Bool.or_true]; rfl) s _).trans ?_
  simp only [hop, hunbound]
  simp [hid, hthere, admin_ok]

end

end

/-! ### Doorbells (R230, R231) -/

section
variable {s : State} {fn qid : Nat} (hrdy : (getFunc s fn).rdy = true) (hopen : windowOpen s = true) (v : W32)
include hrdy hopen

/-- Index 2q is the tail of submission queue q. -/
theorem exec_doorbellWrite_tail {q : NvmeQueue} (hq : Tbl.get Tbl.absent (getFunc s fn).sqs qid = some q) :
    exec (.doorbellWrite fn (2 * qid) v) s = .next (tailDoorbell s fn qid v.toNat q) := by
  refine (stepIf_of (by rw [hrdy, hopen]; rfl) s _).trans ?_
  simp only [Nat.mul_mod_right, Nat.mul_div_right qid Nat.two_pos, if_true, hq]

theorem exec_doorbellWrite_unknown (hnone : Tbl.get Tbl.absent (getFunc s fn).sqs qid = none) :
    exec (.doorbellWrite fn (2 * qid) v) s = .next (doorbellError s fn 0) := by
  refine (stepIf_of (by rw [hrdy, hopen]; rfl) s _).trans ?_
  simp only [Nat.mul_mod_right, Nat.mul_div_right qid Nat.two_pos, if_true, hnone]

/-- Index 2q + 1 is the head of completion queue q. -/
theorem exec_doorbellWrite_head {q : NvmeQueue} (hq : Tbl.get Tbl.absent (getFunc s fn).cqs qid = some q) :
    exec (.doorbellWrite fn (2 * qid + 1) v) s = .next (headDoorbell s fn qid v.toNat q) := by
  have hodd : ¬ (2 * qid + 1) % 2 = 0 := by omega
  have hhalf : (2 * qid + 1) / 2 = qid := by omega
  refine (stepIf_of (by rw [hrdy, hopen]; rfl) s _).trans ?_
  simp only [if_neg hodd, hhalf, hq]

end

section
variable {q : NvmeQueue} {v : Nat}

theorem tailDoorbell_moves (hv : v < q.size) (hfree : ringDist q.size q.tail v ≤ q.size - 1 - ringDist q.size q.head q.tail)
    (s : State) (fn qid : Nat) : tailDoorbell s fn qid v q = setFunc s fn { getFunc s fn with
      sqs := Tbl.set Tbl.absent (getFunc s fn).sqs qid (some { q with tail := v }) } :=
  if_neg (not_or.2 ⟨Nat.not_le.2 hv, Nat.not_lt.2 hfree⟩)

theorem tailDoorbell_refused (hbad : q.size ≤ v ∨ q.size - 1 - ringDist q.size q.head q.tail < ringDist q.size q.tail v)
    (s : State) (fn qid : Nat) : tailDoorbell s fn qid v q = doorbellError s fn 1 := if_pos hbad

theorem headDoorbell_moves (hv : v < q.size) (hused : ringDist q.size q.head v ≤ ringDist q.size q.head q.tail)
    (s : State) (fn qid : Nat) : headDoorbell s fn qid v q =
      drainBacklog fn (getFunc s fn).backlog.length (setFunc s fn { getFunc s fn with
        cqs := Tbl.set Tbl.absent (getFunc s fn).cqs qid (some { q with head := v }) }) :=
  if_neg (not_or.2 ⟨Nat.not_le.2 hv, Nat.not_lt.2 hused⟩)

theorem headDoorbell_refused (hbad : q.size ≤ v ∨ ringDist q.size q.head q.tail < ringDist q.size q.head v)
    (s : State) (fn qid : Nat) : headDoorbell s fn qid v q = doorbellError s fn 1 := if_pos hbad

end

/-! ### Resets (R232) -/

theorem exec_functionLevelReset {s : State} {fn : Nat} (hlink : s.port.linkUp = true) (hopen : windowOpen s = true)
    (hfn : fn < 1024) : exec (.functionLevelReset fn) s = .next (if functionWorks (bump s R.PCI_FLR_CNT_FLR) fn
      then flrReset (bump s R.PCI_FLR_CNT_FLR) fn else controllerReset (bump s R.PCI_FLR_CNT_FLR) fn) :=
  stepIf_of (by simp [hlink, hopen, tenantCount, hfn]) s _

theorem exec_pcieReset {s : State} (hsingle : isMember s = false) (hruns : s.pwr.halted = false)
    (hup : s.pwr.st = .hot ∨ s.pwr.st = .banked) (perst : Bool) : exec (.pcieReset perst) s =
      .next { pcieReset s with port := { (pcieReset s).port with perstHigh := (pcieReset s).port.perstHigh && !perst } } := by
  refine stepIf_of ?_ s _
  rcases hup with h | h <;> simp [hsingle, hruns, h]

/-- Settles O42: CC.EN is told by the controller's state, a queue command by its status, and a doorbell by the entries
between its index and the queue's own. -/
theorem pcieFunctionsAndQueues : Obligations.PcieFunctionsAndQueues := by
  unfold Obligations.PcieFunctionsAndQueues
  refine ⟨fun speed width flit s hdown hsingle hopen hspeed hmax hwidth hwide hflit =>
      exec_pcieLinkUp hdown hsingle hopen hspeed hmax hwidth hwide hflit,
    fun fn sq cq acq s hlink hopen hfn hsq hcq => ⟨exec_controllerEnable_clear hlink hopen hfn hsq hcq,
      exec_controllerEnable_ready hlink hopen hfn hsq hcq, exec_controllerEnable_starts hlink hopen hfn hsq hcq,
      exec_controllerEnable_absent hlink hopen hfn hsq hcq⟩,
    fun k base s hrdy hopen hat => ⟨exec_createIoCompletionQueue_ok hrdy hopen hat base,
      fun sct sc hst hbad => exec_createIoCompletionQueue_refused hrdy hopen hat base hst hbad⟩,
    fun k s hrdy hopen hat hne hcq hst => exec_createIoSubmissionQueue_ok hrdy hopen hat rfl hne hcq hst,
    fun k s hrdy hopen hid => ⟨exec_deleteIoQueue_submission hrdy hopen hid, exec_deleteIoQueue_completion hrdy hopen hid⟩,
    fun fn qid v q s hrdy hopen => ⟨fun hq => ?tail, fun hq => ?head,
      exec_doorbellWrite_unknown hrdy hopen v⟩,
    fun fn s hlink hopen hfn => exec_functionLevelReset hlink hopen hfn,
    fun perst s hsingle hruns hup => ⟨_, exec_pcieReset hsingle hruns hup perst, rfl, fun hlow => ?perst, rfl⟩,
    fun eid s => rfl⟩
  case tail =>
    rw [exec_doorbellWrite_tail hrdy hopen v hq]
    exact ⟨fun hv hfree => congrArg _ (tailDoorbell_moves hv hfree s fn qid),
      fun hbad => congrArg _ (tailDoorbell_refused hbad s fn qid)⟩
  case head =>
    rw [exec_doorbellWrite_head hrdy hopen v hq]
    exact ⟨fun hv hused => congrArg _ (headDoorbell_moves hv hused s fn qid),
      fun hbad => congrArg _ (headDoorbell_refused hbad s fn qid)⟩
  case perst => rw [hlow, Bool.not_true, Bool.and_false]

end Sys2Proof.Machine

/-! ## Wake events

What a wake event does under its bit of PWR_WAKE_EN, what a wake from BANKED leaves, and which commands bring one; then
the statement about them. -/

namespace Sys2Proof.Machine

/-! ### An event and its bit (R333, R372) -/

section
variable {s : State} {bit : Nat}

theorem wakeEvent_disabled (h : (rd s R.PWR_WAKE_EN_EN).testBit bit = false) (w : WakeEnv) : wakeEvent s bit w = s :=
  if_pos (by rw [h]; rfl)

section
variable (hen : (rd s R.PWR_WAKE_EN_EN).testBit bit = true)
include hen

theorem wakeEvent_enabled (hshut : s.hkp.shutdown = false) (w : WakeEnv) :
    wakeEvent s bit w = wakeNow s (BitVec.ofNat 6 (2 ^ bit)) w := by simp [wakeEvent, hen, hshut]

theorem wakeEvent_held (hshut : s.hkp.shutdown = true) (hfirst : s.pwr.thermHeld = none) (w : WakeEnv) :
    wakeEvent s bit w = { s with pwr := { s.pwr with thermHeld := some (BitVec.ofNat 6 (2 ^ bit)) } } := by
  simp [wakeEvent, hen, hshut, hfirst]

end

end

/-! ### The wake from BANKED (R333) -/

/-- A DRAM channel comes out of self-refresh, and its domain back on. -/
def wakeDram (t : State) (c : Nat) : State :=
  let t1 := setDram t c { getDram t c with sr := false, gated := false }
  if (getDom t (dmDom c)).st == .autoOff then setDom t1 (dmDom c) { getDom t (dmDom c) with st := .on } else t1

/-- Waking DRAM writes the channels and the domains alone. -/
theorem exists_foldl_wakeDram_eq (l : List Nat) (s : State) :
    ∃ mem doms, l.foldl wakeDram s = { s with mem := mem, pwr := { s.pwr with doms := doms } } := by
  refine List.foldlRecOn l wakeDram
    (motive := fun t : State => ∃ mem doms, t = { s with mem := mem, pwr := { s.pwr with doms := doms } })
    ⟨s.mem, s.pwr.doms, rfl⟩ fun t ht c _ => ?_
  obtain ⟨mem, doms, rfl⟩ := ht
  rw [wakeDram]
  split
  · exact ⟨_, _, rfl⟩
  · exact ⟨_, _, rfl⟩

/-- A wake from BANKED writes the power state, the clocks, the DRAM and the output alone. -/
theorem exists_wakeBanked_eq (s : State) (cause : BitVec 6) : ∃ mem doms out, wakeBanked s cause = { s with
    pwr := { s.pwr with st := .hot, wakeCause := cause, cur := s.pwr.opAtEntry, doms := doms }
    tb := { s.tb with stopped := false }
    mem := mem, out := out } := by
  obtain ⟨mem, doms, hdram⟩ := exists_foldl_wakeDram_eq (List.range 4) { s with
    pwr := { s.pwr with st := .hot, wakeCause := cause, cur := s.pwr.opAtEntry }
    tb := { s.tb with stopped := false } }
  have hwake : wakeBanked s cause = (if isHead s
      then emit (emit ((List.range 4).foldl wakeDram _) (.avsWrite (opMv s.pwr.opAtEntry))) (.powerCommand 0 false)
      else emit ((List.range 4).foldl wakeDram _) (.avsWrite (opMv s.pwr.opAtEntry))) := rfl
  rw [hwake, hdram]
  split
  · exact ⟨_, _, _, rfl⟩
  · exact ⟨_, _, _, rfl⟩

theorem wakeNow_hot {s : State} (h : s.pwr.st = .hot) (cause : BitVec 6) (w : WakeEnv) : wakeNow s cause w = s := by
  rw [wakeNow, h]

theorem wakeNow_banked {s : State} (h : s.pwr.st = .banked) (cause : BitVec 6) (w : WakeEnv) :
    wakeNow s cause w = wakeBanked s cause := by
  rw [wakeNow, h]

/-! ### What brings an event (R212, R333, R407) -/

section
variable {s : State} (hruns : s.pwr.halted = false)
include hruns

theorem exec_pwrWakeNAssert (w : WakeEnv) : exec (.pwrWakeNAssert w) s = .next (wakeEvent s 3 w) :=
  stepIf_of (by rw [hruns]; rfl) s _

theorem exec_wallWakePulse (hmember : isMember s = true) (w : WakeEnv) :
    exec (.wallWakePulse w) s = .next (wakeEvent s 3 w) := stepIf_of (by rw [hmember, hruns]; rfl) s _

theorem asleep_of_low (hlow : s.pwr.st ≠ .hot) : asleep s = true := by simp [asleep, hlow, hruns]

theorem exec_wakeTimerExpiry (hlow : s.pwr.st ≠ .hot) (htimer : rd s R.PWR_WAKE_TIMER_MS ≠ 0) (w : WakeEnv) :
    exec (.wakeTimerExpiry w) s = .next (wakeEvent s 4 w) :=
  stepIf_of (by simp [asleep_of_low hruns hlow, htimer]) s _

theorem exec_perstWake (hdeep : s.pwr.st = .ember ∨ s.pwr.st = .cold) (hsingle : isMember s = false) (w : WakeEnv) :
    exec (.perstWake w) s = .next (wakeEvent { s with port := { s.port with perstHigh := true } } 2 w) := by
  refine stepIf_of ?_ s _
  rcases hdeep with h | h <;> simp [asleep_of_low hruns, h, hsingle]

theorem exec_thermalRestartRelease {cause : BitVec 6} (hheld : s.pwr.thermHeld = some cause)
    (hshut : s.hkp.shutdown = true) (hlow : s.pwr.st ≠ .hot) (hcool : coolEnough s = true) (w : WakeEnv) :
    exec (.thermalRestartRelease w) s = .next
      (wakeNow { s with hkp := { s.hkp with shutdown := false }, pwr := { s.pwr with thermHeld := none } } cause w) := by
  show execThermalRestartRelease w s = _
  simp only [execThermalRestartRelease, hheld]
  exact stepIf_of (by simp [hshut, asleep_of_low hruns hlow, hcool]) s _

/-! ### What reaches a device in BANKED (R212, R333) -/

section
variable (hbanked : s.pwr.st = .banked) (hsingle : isMember s = false)
include hbanked hsingle

/-- A packet for an address of a port that is up is held and wakes, where its bit is set (R212). -/
theorem exec_wakePacket {lp : Nat} {a : IpAddr} (hup : (getLPort s lp).up = true) (hown : ownAddress s lp a = true)
    (len : Nat) : exec (.wakePacket lp a len) s = .next
      (if (rd s R.PWR_WAKE_EN_EN).testBit 0 then wakeEvent (holdPacket s lp len) 0 (noEnv s) else s) :=
  stepIf_of (by simp [asleep, hruns, hbanked, hsingle, hup, hown]) s _

/-- A TLP for a function that fits the buffer is held and wakes, where its bit is set (R333). -/
theorem exec_wakeTlp {fn len : Nat} (hlink : s.port.linkUp = true) (hfn : fn ≤ 1023)
    (hroom : s.port.heldTlps + len ≤ 65536) : exec (.wakeTlp fn len) s = .next
      (if (rd s R.PWR_WAKE_EN_EN).testBit 1 then
        wakeEvent { s with port := { s.port with heldTlps := s.port.heldTlps + len } } 1 (noEnv s) else s) :=
  stepIf_of (by simp [asleep, hruns, hbanked, hsingle, hlink, hfn, hroom]) s _

end

end

/-- Settles O49: each command brings its event, an event is told by its bit and by a thermal shutdown, and a wake from
BANKED takes the device back to HOT as it was. -/
theorem wakeEventsAct : Obligations.WakeEventsAct := by
  unfold Obligations.WakeEventsAct
  refine ⟨fun w s hruns => ⟨exec_pwrWakeNAssert hruns w, fun hmember => exec_wallWakePulse hruns hmember w,
      fun hlow htimer => exec_wakeTimerExpiry hruns hlow htimer w,
      fun hdeep hsingle => exec_perstWake hruns hdeep hsingle w⟩,
    fun s bit w => ⟨fun hoff => wakeEvent_disabled hoff w, fun hen hshut => wakeEvent_enabled hen hshut w,
      fun hen hshut hfirst => wakeEvent_held hen hshut hfirst w⟩,
    fun s cause w => ⟨fun hhot => wakeNow_hot hhot cause w, fun hbanked => ?banked⟩,
    fun lp len a s hbanked hruns hsingle hup hown => ?packet,
    fun fn len s hbanked hruns hsingle hlink hfn hroom => ?tlp,
    fun w cause s hheld hshut hlow hruns hcool => exec_thermalRestartRelease hruns hheld hshut hlow hcool w⟩
  case banked =>
    obtain ⟨mem, doms, out, hwake⟩ := exists_wakeBanked_eq s cause
    rw [wakeNow_banked hbanked, hwake]
    exact ⟨rfl, rfl, rfl, rfl, rfl, rfl, rfl⟩
  case packet =>
    rw [exec_wakePacket hruns hbanked hsingle hup hown]
    exact ⟨fun hen => by rw [if_pos hen], fun hoff => by simp [hoff]⟩
  case tlp =>
    rw [exec_wakeTlp hruns hbanked hsingle hlink (by omega) hroom]
    exact ⟨fun hen => by rw [if_pos hen], fun hoff => by simp [hoff]⟩

end Sys2Proof.Machine

/-! ## Tenants: the ends of resets and the dirty-page log

What the record of a tenant's action and the drop of its keys and patterns leave of the state, and what each command that
ends a reset or tends the dirty-page log answers; then the statement about them. -/

namespace Sys2Proof.Machine

/-! ### What a tenant's record, and the drop of its keys and patterns, leave (R79, R250, R256) -/

@[simp] theorem getTen_tenantEvent (s : State) (k t mask j : Nat) : getTen (tenantEvent s k t mask) j = getTen s j := by
  rw [getTen, tenantEvent, raise_ten, getTen]

/-- A key put in a slot, or taken from it, changes the cipher alone. -/
theorem installKey_eq (s : State) (slot : Nat) (k : Option KeyRec) :
    installKey s slot k = { s with cph := (installKey s slot k).cph } := by
  unfold installKey
  split
  · split <;> rfl
  · rfl

/-- Dropped keys change the cipher alone. -/
theorem dropKeys_eq (s : State) (t lo n : Nat) : dropKeys s t lo n = { s with cph := (dropKeys s t lo n).cph } := by
  refine List.foldlRecOn s.cph.slots _ (motive := fun u : State => u = { s with cph := u.cph }) rfl fun u hu e _ => ?_
  split
  · split
    · rw [installKey_eq, hu]
    · exact hu
  · exact hu

/-- Dropped patterns change the orders' state alone: the loaded patterns and their bodies. -/
theorem exists_dropPatterns_eq (s : State) (t : Nat) : ∃ ord, dropPatterns s t = { s with ord := ord } := by
  simp only [dropPatterns]
  generalize hretired : List.foldl _ s _ = u
  have hu : ∃ ord, u = { s with ord := ord } := by
    rw [← hretired]
    refine List.foldlRecOn _ _ (motive := fun u : State => ∃ ord, u = { s with ord := ord }) ⟨s.ord, rfl⟩
      fun u hu e _ => ?_
    obtain ⟨ord, rfl⟩ := hu
    split
    · exact ⟨_, rfl⟩
    · exact ⟨ord, rfl⟩
  obtain ⟨ord, rfl⟩ := hu
  exact ⟨_, reapBodies_eq _⟩

/-- A destroyed tenant's keys and patterns are in the cipher and the orders. -/
theorem exists_dropPatterns_dropKeys_eq (s : State) (t : Nat) : ∃ cph ord,
    dropPatterns (dropKeys s t 0 0) t = { s with cph := cph, ord := ord } := by
  obtain ⟨ord, hord⟩ := exists_dropPatterns_eq (dropKeys s t 0 0) t
  rw [hord, dropKeys_eq]
  exact ⟨_, _, rfl⟩

/-! ### The ends of resets (R252, R254, R256) -/

theorem exec_staleResultDiscard {s : State} {rid : Nat} {q : Req} (hq : getReq s rid = some q)
    (hold : q.gen ≠ (getTen s q.tenant).gen) (hfrom : q.onWire ∨ q.isHost ∨ q.phase = .done) :
    exec (.staleResultDiscard rid) s = .next (discardResult s rid) := by
  show execStaleResultDiscard rid s = _
  simp only [execStaleResultDiscard, hq]
  exact stepIf_of (by simpa [hold, or_assoc] using hfrom) s _

section
variable {s : State} {n : Nat}

section
variable (hstrike : (getTen s n).resetAt = none) (hnone : oldRequests s n = false)
include hstrike hnone

theorem exec_tenantResetEnd (hst : (getTen s n).st = .resetting) (hwait : (getTen s n).flrWaiting = false) :
    exec (.tenantResetEnd n) s = .next (tenantEvent (setTen s n { getTen s n with st := .active }) 4 n 0) :=
  stepIf_of (by simp [hst, hstrike, hwait, hnone]) s _

theorem exec_tenantDestroyEnd (hst : (getTen s n).st = .destroying) (hslots : slotsUsed s n = 0) :
    exec (.tenantDestroyEnd n) s = .next (setTen (dropPatterns (dropKeys s n 0 0) n) n (ten0 n)) :=
  stepIf_of (by simp [hst, hstrike, hnone, hslots]) s _

end

theorem exec_deferredFlrEffect (hwait : (getTen s n).flrWaiting = true) (hst : (getTen s n).st = .resetting)
    (hclash : genClash s n = false) : exec (.deferredFlrEffect n) s = .next
      (tenantEvent (startReset (setTen s n { getTen s n with flrWaiting := false }) n .resetting) 2 n 0) :=
  stepIf_of (by simp [hwait, hst, hclash]) s _

end

/-! ### The head's record of a tenant (R397, R400) -/

section
variable {s : State} {r : TenantRecord} (hmember : isMember s = true) (hn : r.tenant < 1024)
include hmember hn

theorem exec_memberTenantRecord_gone (hp : r.present = false) (hthere : (getTen s r.tenant).there = true)
    (hne : r.tenant ≠ 0) : exec (.memberTenantRecord r) s = .next (tenantDestroy s r.tenant) :=
  (stepIf_of (by simp [hmember, tenantCount, hn]) s _).trans (by simp [hp, hthere, hne])

theorem exec_memberTenantRecord_new (hp : r.present = true) (hthere : (getTen s r.tenant).there = false) :
    exec (.memberTenantRecord r) s = .next (tenantEvent (setTen s r.tenant { ten0 r.tenant with
      st := .active, gen := r.gen, blk := parseBlock r.block
      rd := (parseBlock r.block).rdDepth, wr := (parseBlock r.block).wrDepth }) 0 r.tenant 0) :=
  (stepIf_of (by simp [hmember, tenantCount, hn]) s _).trans (by simp [hp, hthere])

end

/-! ### The dirty-page log (R260 to R262) -/

section
variable {s : State} {req : Nat} (hopen : windowOpen s = true) (hreq : req < 10)
include hopen hreq

theorem exec_dirtyLogEnable : exec (.dirtyLogEnable req) s = .next (dirtyOn s (selOf s req R.TEN_SEL_TENANT)) :=
  stepIf_of (by simp [hopen, requesterCount, hreq]) s _

theorem exec_dirtyLogSwap : exec (.dirtyLogSwap req) s = .next (dirtySwap s (selOf s req R.TEN_SEL_TENANT)) :=
  stepIf_of (by simp [hopen, requesterCount, hreq]) s _

theorem exec_dirtyLogDisable : exec (.dirtyLogDisable req) s = .next (dirtyStop s (selOf s req R.TEN_SEL_TENANT)) :=
  stepIf_of (by simp [hopen, requesterCount, hreq]) s _

end

/-- The write-back ends once no swap or stop waits for its strike and the logged writes have landed. -/
theorem exec_dirtyLogFlushDone {s : State} {n : Nat} (hbusy : (getTen s n).dirty.busy = true)
    (hswap : (getTen s n).dirty.swapNext = false)
    (hon : (getTen s n).dirty.en = true → rdAt s R.TEN_DIRTY_CTRL_EN 0 n ≠ 0)
    (hlanded : writesBefore s n (getTen s n).dirty.swapAt = false) : exec (.dirtyLogFlushDone n) s =
      .next (setTen s n { getTen s n with dirty := { (getTen s n).dirty with
        busy := false, old := (getTen s n).dirty.was, flushing := [] } }) := by
  have hstays : ((getTen s n).dirty.en && rdAt s R.TEN_DIRTY_CTRL_EN 0 n == 0) = false :=
    Bool.and_eq_false_imp.2 fun hen => beq_false_of_ne (hon hen)
  exact stepIf_of (by rw [hbusy, hswap, hstays, hlanded]; rfl) s _

/-- Settles O43: each command acts under its condition, the keys and patterns that a destroyed tenant loses lie beside
the tenants, the media and the ports, and the record of a tenant's action leaves the tenants. -/
theorem tenantsResetAndRecordDirtyPages : Obligations.TenantsResetAndRecordDirtyPages := by
  unfold Obligations.TenantsResetAndRecordDirtyPages
  refine ⟨fun rid q s hq hold hfrom => exec_staleResultDiscard hq hold hfrom,
    fun n s hstrike hnone => ⟨exec_tenantResetEnd hstrike hnone,
      fun hst hslots => ⟨_, exec_tenantDestroyEnd hstrike hnone hst hslots, ?gone⟩⟩,
    fun n s hwait hst hclash => exec_deferredFlrEffect hwait hst hclash,
    fun r s hmember hn => ⟨exec_memberTenantRecord_gone hmember hn,
      fun hp hthere => ⟨_, exec_memberTenantRecord_new hmember hn hp hthere, ?new⟩⟩,
    fun req s hopen hreq => ⟨exec_dirtyLogEnable hopen hreq, exec_dirtyLogSwap hopen hreq,
      exec_dirtyLogDisable hopen hreq⟩,
    fun n s hbusy hswap hon hlanded => exec_dirtyLogFlushDone hbusy hswap hon hlanded⟩
  case gone =>
    obtain ⟨cph, ord, hleft⟩ := exists_dropPatterns_dropKeys_eq s n
    rw [hleft]
    exact ⟨getTen_setTen_self .., fun j hj => getTen_setTen_ne _ _ _ hj, rfl, rfl⟩
  case new =>
    simp only [getTen_tenantEvent, getTen_setTen_self, true_and]
    exact fun j hj => getTen_setTen_ne _ _ _ hj

end Sys2Proof.Machine

/-! ## Cipher lanes, hash groups and the register interface of the Assay

What a lane's and a group's command answers once its work is due, and what a write of the DG registers does to a context
that the registers own and to any other; then the statement about them. -/

namespace Sys2Proof.Machine

/-! ### Lanes and hash groups (R276, R278, R284, R288) -/

section
variable {s : State} {l rid : Nat} {q : Req}

section
variable (hq : getReq s rid = some q)
include hq

theorem exec_laneRequestDone {rest : List Nat} (hfin : (getLane s l).finished = rid :: rest) :
    exec (.laneRequestDone l) s =
      .next (requestDone (setLane s l { getLane s l with finished := rest }) l rid q) := by
  have hon : finishedOn s l = some (rid, q) := by simp only [finishedOn, hfin, hq, Option.map_some]
  show execLaneRequestDone l s = _
  simp only [execLaneRequestDone, hon, hfin, List.drop_one, List.tail_cons]

theorem exec_holdReleaseDone (hrel : (getLane s l).releasing = some rid) (hlater : q.doneAt < s.tb.count)
    (pages : List Nat) : exec (.holdReleaseDone l pages) s = .next (releaseDone s l rid q pages) := by
  have hon : releasingOn s l = some (rid, q) := by simp only [releasingOn, hrel, hq, if_pos hlater]
  show execHoldReleaseDone l pages s = _
  simp only [execHoldReleaseDone, hon]

end

theorem exec_zeroingDone (hon : zeroingOn s l = some (rid, q)) (pages : List Nat) :
    exec (.zeroingDone l pages) s = .next (zeroed s rid q pages) := by
  show execZeroingDone l pages s = _
  simp only [execZeroingDone, hon]

theorem exec_blockCompressed {k : Nat} (hturn : groupTurn s (homeGroup k) = some k)
    (hserves : domServes s (asDom (homeGroup k)) = true)
    (hgrant : blockCost (getCtx s k).sha512 ≤ groupLeft s (homeGroup k)) (hruns : strikesRun s = true) :
    exec (.blockCompressed k) s = .next (compressOne s k) :=
  stepIf_of (by simp [hturn, hserves, hgrant, hruns]) s _

end

/-! ### Commands and data of a context (R287 to R292) -/

@[simp] theorem length_leBytes (n v : Nat) : (leBytes n v).length = n := by
  induction n generalizing v with
  | zero => rfl
  | succ n ih => rw [leBytes, List.length_cons, ih]

/-- The condition of EXPORT: a message under way, at a block boundary and without an overrun (R292). -/
theorem dgExport_eq (s : State) (k : Nat) (algo : Bool) : dgExport s k algo = ctxCommand s k algo
    (!(getCtx s k).valid && !(getCtx s k).err && !(getCtx s k).ovr
      && (getCtx s k).count % shaBlock (getCtx s k).sha512 == 0)
    fun x => { x with record := recordWords x.stateRecord } := rfl

section
variable {s : State} {k : Nat}

section
variable (hforeign : regOwned s k = false)
include hforeign

theorem ctxCommand_foreign (algo cond : Bool) (act : AssayCtx → AssayCtx) : ctxCommand s k algo cond act = s := by
  simp [ctxCommand, hforeign]

theorem dataWrite_foreign (l : List Byte) (last : Bool) : dataWrite s k l last = s := by simp [dataWrite, hforeign]

/-- Whatever is written to the registers of a context that they do not own, the state stays (R287). -/
theorem exec_dg_foreign (hopen : windowOpen s = true) (algo : Bool) (v : W32) :
    ∀ i ∈ [Instr.dgInit k algo, .dgExport k algo, .dgImport k algo, .dgDataWrite k v, .dgLastWrite k v],
      exec i s = .next s := by
  have hinit : exec (.dgInit k algo) s = .next s :=
    (stepIf_of hopen s _).trans (congrArg _ (ctxCommand_foreign hforeign ..))
  have hexport : exec (.dgExport k algo) s = .next s :=
    (stepIf_of hopen s _).trans (by rw [dgExport_eq, ctxCommand_foreign hforeign])
  have himport : exec (.dgImport k algo) s = .next s :=
    (stepIf_of hopen s _).trans (congrArg _ (ctxCommand_foreign hforeign ..))
  have hdata : exec (.dgDataWrite k v) s = .next s :=
    (stepIf_of hopen s _).trans (congrArg _ (dataWrite_foreign hforeign ..))
  have hlast : exec (.dgLastWrite k v) s = .next s :=
    (stepIf_of hopen s _).trans (congrArg _ (dataWrite_foreign hforeign ..))
  simp only [List.forall_mem_cons, List.not_mem_nil, false_implies, implies_true, and_true]
  exact ⟨hinit, hexport, himport, hdata, hlast⟩

end

section
variable (hown : regOwned s k = true) (hidle : (getCtx s k).busy = false)
include hown hidle

/-- A command whose condition holds acts on an idle context, and its write stores ALGO. -/
theorem ctxCommand_idle {cond : Bool} (hcond : cond = true) (algo : Bool) (act : AssayCtx → AssayCtx) :
    ctxCommand s k algo cond act =
      setCtx (wrAt s R.DG_CTRL_ALGO (dgPage k) 0 (b2n algo)) k (act (getCtx s k)) := by
  simp [ctxCommand, hown, hidle, hcond]

/-- Bytes within the limit of a message join it, a new one after a finish. -/
theorem dataWrite_idle {l : List Byte} (hlimit : (newMessage s k).count + l.length < 2 ^ 61) (last : Bool) :
    dataWrite s k l last =
      let x := newMessage s k
      let y := { x with buf := x.buf ++ l, count := x.count + l.length }
      placeCtx s k (if last then y.finish s.tb.count else y.settle s.tb.count) := by
  have hfits : ¬ 2 ^ 61 - 1 < (newMessage s k).count + l.length := by omega
  simp only [dataWrite, hown, hidle, hfits, decide_false, Bool.not_true, Bool.or_self, Bool.false_eq_true, if_false]

variable (hopen : windowOpen s = true)
include hopen

theorem exec_dgInit (algo : Bool) : exec (.dgInit k algo) s =
    .next (setCtx (wrAt s R.DG_CTRL_ALGO (dgPage k) 0 (b2n algo)) k
      { (getCtx s k).begin algo with ovr := false, ovrNext := false }) :=
  (stepIf_of hopen s _).trans (congrArg _ (ctxCommand_idle hown hidle rfl ..))

theorem exec_dgExport (hvalid : (getCtx s k).valid = false) (herr : (getCtx s k).err = false)
    (hovr : (getCtx s k).ovr = false) (hblock : (getCtx s k).count % shaBlock (getCtx s k).sha512 = 0) (algo : Bool) :
    exec (.dgExport k algo) s = .next (setCtx (wrAt s R.DG_CTRL_ALGO (dgPage k) 0 (b2n algo)) k
      { getCtx s k with record := recordWords (getCtx s k).stateRecord }) :=
  (stepIf_of hopen s _).trans
    (by rw [dgExport_eq, ctxCommand_idle hown hidle (by simp [hvalid, herr, hovr, hblock])])

theorem exec_dgImport (hrec : recordValid (getCtx s k).recordBytes = true) (algo : Bool) :
    exec (.dgImport k algo) s = .next (setCtx (wrAt s R.DG_CTRL_ALGO (dgPage k) 0 (b2n algo)) k
      ((getCtx s k).load (getCtx s k).recordBytes)) :=
  (stepIf_of hopen s _).trans (congrArg _ (ctxCommand_idle hown hidle hrec ..))

theorem exec_dgDataWrite (v : W32) (hlimit : (newMessage s k).count + 4 < 2 ^ 61) :
    exec (.dgDataWrite k v) s = .next (placeCtx s k
      (({ newMessage s k with buf := (newMessage s k).buf ++ leBytes 4 v.toNat
                              count := (newMessage s k).count + 4 } : AssayCtx).settle s.tb.count)) :=
  (stepIf_of hopen s _).trans (congrArg _ (dataWrite_idle hown hidle (l := leBytes 4 v.toNat) hlimit false))

theorem exec_dgLastWrite (v : W32) {n : Nat} (hn : n ≤ 4) (hcnt : rdAt s R.DG_LAST_CNT_BYTES (dgPage k) 0 = n)
    (hlimit : (newMessage s k).count + n < 2 ^ 61) :
    exec (.dgLastWrite k v) s = .next (placeCtx s k
      (({ newMessage s k with buf := (newMessage s k).buf ++ leBytes n v.toNat
                              count := (newMessage s k).count + n } : AssayCtx).finish s.tb.count)) := by
  have hlast : dgLast s k v = dataWrite s k (leBytes n v.toNat) true := by rw [dgLast, hcnt, min_eq_right hn]
  refine (stepIf_of hopen s _).trans ?_
  rw [hlast, dataWrite_idle hown hidle (by rwa [length_leBytes])]
  simp only [length_leBytes, if_true]

end

end

/-! ### Contexts taken and given up by the registers (R283, R287) -/

section
variable {s : State} {req : Nat} (hopen : windowOpen s = true) (hreq : req < 10) {v : W32}
include hopen hreq

theorem exec_dgAllocRequest : exec (.dgAllocRequest req v) s = .next (dgAlloc s v) :=
  stepIf_of (by simp [hopen, requesterCount, hreq]) s _

theorem exec_dgFreeWrite : exec (.dgFreeWrite req v) s = .next (dgFree s v) :=
  stepIf_of (by simp [hopen, requesterCount, hreq]) s _

end

section
variable {s : State} {v : W32}

theorem dgAlloc_noRequest (hreq : v.getLsbD 31 = false) : dgAlloc s v = s := by
  simp only [dgAlloc, hreq, Bool.false_eq_true, if_false]

theorem dgAlloc_some {k : Nat} (hreq : v.getLsbD 31 = true) (hfree : allocContext s 0 = some k) :
    dgAlloc s v = { s with asy := { s.asy with
      ctxs := (setCtx s k (freshCtx .register (v.getLsbD 0))).asy.ctxs, allocRes := BitVec.ofNat 32 k } } := by
  simp only [dgAlloc, hreq, hfree, if_true]
  rfl

theorem dgAlloc_none (hreq : v.getLsbD 31 = true) (hfull : allocContext s 0 = none) :
    dgAlloc s v = { s with asy := { s.asy with
      allocRes := BitVec.ofNat 32 (s.asy.allocRes.toNat % 256 + 256) } } := by
  simp only [dgAlloc, hreq, hfull, if_true]

theorem dgFree_owned (hown : regOwned s (v.toNat % 256) = true) : dgFree s v = quenchCtx s (v.toNat % 256) := by
  rw [dgFree, if_pos hown]

theorem dgFree_foreign (hforeign : regOwned s (v.toNat % 256) = false) : dgFree s v = s := by simp [dgFree, hforeign]

end

/-- Settles O45: each lane and group command acts once its work is due, a DG register acts on an idle context of the
registers alone, and an allocation leaves every context but the one it takes. -/
theorem cipherAndAssayCommands : Obligations.CipherAndAssayCommands := by
  unfold Obligations.CipherAndAssayCommands
  refine ⟨fun l rid q rest s hfin hq => exec_laneRequestDone hq hfin,
    fun l rid q pages s hq => ⟨fun hrel hlater => exec_holdReleaseDone hq hrel hlater pages,
      fun hon => exec_zeroingDone hon pages⟩,
    fun k s hturn hserves hgrant hruns => exec_blockCompressed hturn hserves hgrant hruns,
    fun k n algo v s hopen hown hidle => ⟨exec_dgInit hown hidle hopen algo,
      fun hvalid herr hovr hblock => exec_dgExport hown hidle hopen hvalid herr hovr hblock algo,
      fun hrec => exec_dgImport hown hidle hopen hrec algo,
      fun hlimit => exec_dgDataWrite hown hidle hopen v hlimit,
      fun hn hcnt hlimit => exec_dgLastWrite hown hidle hopen v hn hcnt hlimit⟩,
    fun k algo v s hopen hforeign => exec_dg_foreign hforeign hopen algo v,
    fun req v s hopen hreq => ?registers⟩
  case registers =>
    rw [exec_dgAllocRequest hopen hreq, exec_dgFreeWrite hopen hreq]
    refine ⟨fun hno => by rw [dgAlloc_noRequest hno],
      fun k hbit hfree => ⟨_, congrArg _ (dgAlloc_some hbit hfree), ?taken, fun j hj => ?others, rfl, rfl⟩,
      fun hbit hfull => by rw [dgAlloc_none hbit hfull],
      fun hown => by rw [dgFree_owned hown], fun hforeign => by rw [dgFree_foreign hforeign]⟩
    case taken => exact getCtx_setCtx_self s k (freshCtx .register (v.getLsbD 0))
    case others => exact getCtx_setCtx_ne s k (freshCtx .register (v.getLsbD 0)) hj

end Sys2Proof.Machine

/-! ## What every step keeps of the queue, the fuses and the identity

What each command keeps of the state it runs on, and so what a step does; then the statement about the fuses' floors. -/

namespace Sys2Proof.Machine

/-- A command leaves the queue alone, lowers no floor of the fuses and changes no identity once made. Those that boot,
wake or reset the device can raise a floor or make the identity (R298, R300); every other leaves all of them as they
are. -/
theorem exec_kept (i : Instr) (s : State) : Answer.Kept s (exec i s) :=
  match i with
  | .strike e => (execStrike_mark e s).kept
  | .stkPeriodWrite req value => (execStkPeriodWrite_mark req value s).kept
  | .periodChangeEffect => (execPeriodChangeEffect_mark s).kept
  | .programAged die => (execProgramAged_mark die s).kept
  | .senseDone die => (execSenseDone_mark die s).kept
  | .suspendDone die ended => (execSuspendDone_mark die ended s).kept
  | .ladderStepDone who part ok => (execLadderStepDone_mark who part ok s).kept
  | .readResultPosted rid => (execReadResultPosted_mark rid s).kept
  | .programDone die => (execProgramDone_mark die s).kept
  | .programFail die => (execProgramFail_mark die s).kept
  | .eraseDone die => (execEraseDone_mark die s).kept
  | .eraseFail die => (execEraseFail_mark die s).kept
  | .verifyPass course pos bits => (execVerifyPass_mark course pos bits s).kept
  | .verifyFail course pos => (execVerifyFail_mark course pos s).kept
  | .unitXorOutDone course pos => (execUnitXorOutDone_mark course pos s).kept
  | .rowDataInStart course => (execRowDataInStart_mark course s).kept
  | .dieOpTimeout die => (execDieOpTimeout_mark die s).kept
  | .lunResetDone die idOk => (execLunResetDone_mark die idOk s).kept
  | .channelTrainingDone ch rate => (execChannelTrainingDone_mark ch rate s).kept
  | .recentreDone ch narrow => (execRecentreDone_mark ch narrow s).kept
  | .slabRelease rel => (execSlabRelease_mark rel s).kept
  | .courseFormationResume rid => (execCourseFormationResume_mark rid s).kept
  | .zoneActionEffect rid => (execZoneActionEffect_mark rid s).kept
  | .migrationCutover course => (execMigrationCutover_mark course s).kept
  | .mendCutover course => (execMendCutover_mark course s).kept
  | .collectionVictimDone nsid dom => (execCollectionVictimDone_mark nsid dom s).kept
  | .mediaInstructionResume rid => (execMediaInstructionResume_mark rid s).kept
  | .capsuleReceived qp cap => (execCapsuleReceived_mark qp cap s).kept
  | .sqEntryFetch fn sq cmd => (execSqEntryFetch_mark fn sq cmd s).kept
  | .orderTextFetched slot r => (execOrderTextFetched_mark slot r s).kept
  | .resultArrival rid r => (execResultArrival_mark rid r s).kept
  | .completionPosted slot => (execCompletionPosted_mark slot s).kept
  | .slotQuenchDone slot => (execSlotQuenchDone_mark slot s).kept
  | .add slot f => (execAdd_mark slot f s).kept
  | .sub slot f => (execSub_mark slot f s).kept
  | .and slot f => (execAnd_mark slot f s).kept
  | .or slot f => (execOr_mark slot f s).kept
  | .xor slot f => (execXor_mark slot f s).kept
  | .shl slot f => (execShl_mark slot f s).kept
  | .shr slot f => (execShr_mark slot f s).kept
  | .ldi slot f => (execLdi_mark slot f s).kept
  | .cmp slot f => (execCmp_mark slot f s).kept
  | .sel slot f => (execSel_mark slot f s).kept
  | .br slot f => (execBr_mark slot f s).kept
  | .bz slot f => (execBz_mark slot f s).kept
  | .bnz slot f => (execBnz_mark slot f s).kept
  | .callp slot f => (execCallp_mark slot f s).kept
  | .endOrder slot f => (execEndOrder_mark slot f s).kept
  | .fault slot f => (execFault_mark slot f s).kept
  | .yield slot f => (execYield_mark slot f s).kept
  | .balloc slot f => (execBalloc_mark slot f s).kept
  | .bfree slot f => (execBfree_mark slot f s).kept
  | .bfill slot f => (execBfill_mark slot f s).kept
  | .bcopy slot f => (execBcopy_mark slot f s).kept
  | .bslice slot f => (execBslice_mark slot f s).kept
  | .hget slot f => (execHget_mark slot f s).kept
  | .hput slot f => (execHput_mark slot f s).kept
  | .zread slot f => (execZread_mark slot f s).kept
  | .zappend slot f => (execZappend_mark slot f s).kept
  | .zwrite slot f => (execZwrite_mark slot f s).kept
  | .zoneOpen slot f => (execZoneOpen_mark slot f s).kept
  | .zoneClose slot f => (execZoneClose_mark slot f s).kept
  | .zoneFinish slot f => (execZoneFinish_mark slot f s).kept
  | .zoneReset slot f => (execZoneReset_mark slot f s).kept
  | .zoneOffline slot f => (execZoneOffline_mark slot f s).kept
  | .zoneSetExtension slot f => (execZoneSetExtension_mark slot f s).kept
  | .reportZones slot f => (execReportZones_mark slot f s).kept
  | .extendedReportZones slot f => (execExtendedReportZones_mark slot f s).kept
  | .cread slot f => (execCread_mark slot f s).kept
  | .cwrite slot f => (execCwrite_mark slot f s).kept
  | .ctrim slot f => (execCtrim_mark slot f s).kept
  | .parchk slot f => (execParchk_mark slot f s).kept
  | .seal slot f => (execSeal_mark slot f s).kept
  | .openRecord slot f => (execOpenRecord_mark slot f s).kept
  | .mac slot f => (execMac_mark slot f s).kept
  | .dgfeed slot f => (execDgfeed_mark slot f s).kept
  | .dgfin slot f => (execDgfin_mark slot f s).kept
  | .dgload slot f => (execDgload_mark slot f s).kept
  | .wait slot f => (execWait_mark slot f s).kept
  | .fence slot f => (execFence_mark slot f s).kept
  | .time slot f => (execTime_mark slot f s).kept
  | .plumb slot f => (execPlumb_mark slot f s).kept
  | .post slot f => (execPost_mark slot f s).kept
  | .note slot f => (execNote_mark slot f s).kept
  | .power slot f => (execPower_mark slot f s).kept
  | .tenantCreate slot f => (execTenantCreate_mark slot f s).kept
  | .tenantModify slot f => (execTenantModify_mark slot f s).kept
  | .tenantReset slot f => (execTenantReset_mark slot f s).kept
  | .tenantDestroy slot f => (execTenantDestroy_mark slot f s).kept
  | .tenantQuery slot f => (execTenantQuery_mark slot f s).kept
  | .keyload slot f => (execKeyload_mark slot f s).kept
  | .patload slot f => (execPatload_mark slot f s).kept
  | .opset slot f => (execOpset_mark slot f s).kept
  | .hmread slot f => (execHmread_mark slot f s).kept
  | .nvmeFlush slot => (execNvmeFlush_mark slot s).kept
  | .nvmeWrite slot => (execNvmeWrite_mark slot s).kept
  | .nvmeRead slot => (execNvmeRead_mark slot s).kept
  | .nvmeCompare slot => (execNvmeCompare_mark slot s).kept
  | .nvmeWriteZeroes slot => (execNvmeWriteZeroes_mark slot s).kept
  | .nvmeDatasetManagement slot => (execNvmeDatasetManagement_mark slot s).kept
  | .nvmeVerify slot => (execNvmeVerify_mark slot s).kept
  | .zoneManagementSend slot => (execZoneManagementSend_mark slot s).kept
  | .zoneManagementReceive slot => (execZoneManagementReceive_mark slot s).kept
  | .zoneAppend slot => (execZoneAppend_mark slot s).kept
  | .executeWorkOrder slot => (execExecuteWorkOrder_mark slot s).kept
  | .namespaceCreate slot p => (execNamespaceCreate_mark slot p s).kept
  | .namespaceDelete slot => (execNamespaceDelete_mark slot s).kept
  | .namespaceAttach slot tenant => (execNamespaceAttach_mark slot tenant s).kept
  | .namespaceDetach slot tenant => (execNamespaceDetach_mark slot tenant s).kept
  | .managerRequest slot data => (execManagerRequest_mark slot data s).kept
  | .managerAnswer slot => (execManagerAnswer_mark slot s).kept
  | .getLogPageMailbox slot => (execGetLogPageMailbox_mark slot s).kept
  | .getLogPageHallmark slot => (execGetLogPageHallmark_mark slot s).kept
  | .createIoSubmissionQueue slot => (execCreateIoSubmissionQueue_mark slot s).kept
  | .createIoCompletionQueue slot base => (execCreateIoCompletionQueue_mark slot base s).kept
  | .setFeaturesPowerState slot => (execSetFeaturesPowerState_mark slot s).kept
  | .getFeaturesPowerState slot => (execGetFeaturesPowerState_mark slot s).kept
  | .spGetIdentity slot => (execSpGetIdentity_mark slot s).kept
  | .spQuote slot nonce => (execSpQuote_mark slot nonce s).kept
  | .spEnrolKeyManager slot key sig => (execSpEnrolKeyManager_mark slot key sig s).kept
  | .spKekExport slot r => (execSpKekExport_mark slot r s).kept
  | .securityOpDone => (execSecurityOpDone_mark s).kept
  | .securityReceive slot => (execSecurityReceive_mark slot s).kept
  | .firmwareImageDownload slot piece => (execFirmwareImageDownload_mark slot piece s).kept
  | .firmwareCommitWrite slot p => (execFirmwareCommitWrite_mark slot p s).kept
  | .firmwareCommitWritePending slot p => (execFirmwareCommitWritePending_mark slot p s).kept
  | .firmwareCommitPending slot => (execFirmwareCommitPending_mark slot s).kept
  | .firmwareSlotWritten readback => (execFirmwareSlotWritten_mark readback s).kept
  | .connect qp c => (execConnect_mark qp c s).kept
  | .responseRnrNak slot => (execResponseRnrNak_mark slot s).kept
  | .qpTransportError qp => (execQpTransportError_mark qp s).kept
  | .qpDisconnect qp => (execQpDisconnect_mark qp s).kept
  | .keepAliveExpiry assoc => (execKeepAliveExpiry_mark assoc s).kept
  | .ceMarkedPacket qp us => (execCeMarkedPacket_mark qp us s).kept
  | .cnpReceived qp => (execCnpReceived_mark qp s).kept
  | .rateIncreaseTimer qp => (execRateIncreaseTimer_mark qp s).kept
  | .alphaDecayTimer qp => (execAlphaDecayTimer_mark qp s).kept
  | .pfcPauseReceived lport prio quanta => (execPfcPauseReceived_mark lport prio quanta s).kept
  | .addressResolutionRequest lport target vlan => (execAddressResolutionRequest_mark lport target vlan s).kept
  | .icmpEchoRequest lport target vlan payload => (execIcmpEchoRequest_mark lport target vlan payload s).kept
  | .foreignFrame lport => (execForeignFrame_mark lport s).kept
  | .hostRdmaAccess qp => (execHostRdmaAccess_mark qp s).kept
  | .doorbellWrite fn idx value => (execDoorbellWrite_mark fn idx value s).kept
  | .controllerEnable fn en sqSize cqSize acq => (execControllerEnable_mark fn en sqSize cqSize acq s).kept
  | .functionLevelReset fn => (execFunctionLevelReset_mark fn s).kept
  | .pcieReset perst => (execPcieReset_mark perst s).kept
  | .deferredFlrEffect tenant => (execDeferredFlrEffect_mark tenant s).kept
  | .miHealthStatusPoll => (execMiHealthStatusPoll_mark s).kept
  | .miControllerHealthPoll => (execMiControllerHealthPoll_mark s).kept
  | .miReadDataStructure dtyp => (execMiReadDataStructure_mark dtyp s).kept
  | .miConfigurationGet cfg => (execMiConfigurationGet_mark cfg s).kept
  | .miConfigurationSet cfg value w => execMiConfigurationSet_kept cfg value w s
  | .miVpdRead offset len => (execMiVpdRead_mark offset len s).kept
  | .miTunnelledAdmin cmd => (execMiTunnelledAdmin_mark cmd s).kept
  | .staleResultDiscard rid => (execStaleResultDiscard_mark rid s).kept
  | .tenantResetEnd tenant => (execTenantResetEnd_mark tenant s).kept
  | .tenantDestroyEnd tenant => (execTenantDestroyEnd_mark tenant s).kept
  | .dirtyLogEnable req => (execDirtyLogEnable_mark req s).kept
  | .dirtyLogSwap req => (execDirtyLogSwap_mark req s).kept
  | .dirtyLogDisable req => (execDirtyLogDisable_mark req s).kept
  | .dirtyLogFlushDone tenant => (execDirtyLogFlushDone_mark tenant s).kept
  | .laneRequestDone lane => (execLaneRequestDone_mark lane s).kept
  | .holdReleaseDone lane pages => (execHoldReleaseDone_mark lane pages s).kept
  | .zeroingDone lane pages => (execZeroingDone_mark lane pages s).kept
  | .kekEpochWrite req value => (execKekEpochWrite_mark req value s).kept
  | .dgAllocRequest req value => (execDgAllocRequest_mark req value s).kept
  | .dgFreeWrite req value => (execDgFreeWrite_mark req value s).kept
  | .dgInit ctx algo => (execDgInit_mark ctx algo s).kept
  | .dgExport ctx algo => (execDgExport_mark ctx algo s).kept
  | .dgImport ctx algo => (execDgImport_mark ctx algo s).kept
  | .dgDataWrite ctx value => (execDgDataWrite_mark ctx value s).kept
  | .dgLastWrite ctx value => (execDgLastWrite_mark ctx value s).kept
  | .blockCompressed ctx => (execBlockCompressed_mark ctx s).kept
  | .selfRefreshEntry ch => (execSelfRefreshEntry_mark ch s).kept
  | .selfRefreshInterrupt ch => (execSelfRefreshInterrupt_mark ch s).kept
  | .selfRefreshExitDone ch => (execSelfRefreshExitDone_mark ch s).kept
  | .dmGateIdleExpiry ch => (execDmGateIdleExpiry_mark ch s).kept
  | .refreshDue ch bank busy => (execRefreshDue_mark ch bank busy s).kept
  | .openRowTimeout ch bank => (execOpenRowTimeout_mark ch bank s).kept
  | .patrolScrub ch corrected bad => (execPatrolScrub_mark ch corrected bad s).kept
  | .crucibleScrub corrected bad => (execCrucibleScrub_mark corrected bad s).kept
  | .uncorrectableLine line => (execUncorrectableLine_mark line s).kept
  | .crucibleRetentionEntry group => (execCrucibleRetentionEntry_mark group s).kept
  | .powerEntryStepDone => execPowerEntryStepDone_kept s
  | .entryDrainLimitExpiry => (execEntryDrainLimitExpiry_mark s).kept
  | .pwrWakeNAssert w => execPwrWakeNAssert_kept w s
  | .wakeTimerExpiry w => execWakeTimerExpiry_kept w s
  | .perstWake w => execPerstWake_kept w s
  | .wakePacket lport target len => execWakePacket_kept lport target len s
  | .wakeTlp fn len => execWakeTlp_kept fn len s
  | .domainOnRequest req => (execDomainOnRequest_mark req s).kept
  | .domainOffRequest req => (execDomainOffRequest_mark req s).kept
  | .domainDrained dom => (execDomainDrained_mark dom s).kept
  | .domainDrainLimitExpiry dom => (execDomainDrainLimitExpiry_mark dom s).kept
  | .autoGateIdleExpiry dom => (execAutoGateIdleExpiry_mark dom s).kept
  | .autoDrainDone dom => (execAutoDrainDone_mark dom s).kept
  | .domainWakeDone dom => (execDomainWakeDone_mark dom s).kept
  | .avsVoltageReached => (execAvsVoltageReached_mark s).kept
  | .pllLocked => (execPllLocked_mark s).kept
  | .avsSettleTimeout lastMv => (execAvsSettleTimeout_mark lastMv s).kept
  | .bellowsArm => (execBellowsArm_mark s).kept
  | .voltageSample vhv vbank => (execVoltageSample_mark vhv vbank s).kept
  | .bleedCheckTimer => (execBleedCheckTimer_mark s).kept
  | .faultClear => (execFaultClear_mark s).kept
  | .chargeTimeout => (execChargeTimeout_mark s).kept
  | .capTestRequest => (execCapTestRequest_mark s).kept
  | .periodicTestTimer => (execPeriodicTestTimer_mark s).kept
  | .capTestBleedStart v1 => (execCapTestBleedStart_mark v1 s).kept
  | .capTestBleedEnd v2 us => (execCapTestBleedEnd_mark v2 us s).kept
  | .capTestRetryTimer => (execCapTestRetryTimer_mark s).kept
  | .supplyLoss => (execSupplyLoss_mark s).kept
  | .flushProgramDone => (execFlushProgramDone_mark s).kept
  | .bellowsRestart p => execBellowsRestart_kept p s
  | .bankDepleted p => execBankDepleted_kept p s
  | .flushAreaRearm => (execFlushAreaRearm_mark s).kept
  | .housekeepingSample input c => (execHousekeepingSample_mark input c s).kept
  | .criticalComparatorTrip sensor => (execCriticalComparatorTrip_mark sensor s).kept
  | .flushOvertempHalt sensor => (execFlushOvertempHalt_mark sensor s).kept
  | .thermalRestartRelease w => execThermalRestartRelease_kept w s
  | .eventArrival e => (execEventArrival_mark e s).kept
  | .recordCommitDone => (execRecordCommitDone_mark s).kept
  | .repeatRewriteDone => (execRepeatRewriteDone_mark s).kept
  | .commitReadbackFail => (execCommitReadbackFail_mark s).kept
  | .hmRdSeqWrite req value => (execHmRdSeqWrite_mark req value s).kept
  | .opMsPersistTimer elapsedMs => (execOpMsPersistTimer_mark elapsedMs s).kept
  | .flitCrcFail port => (execFlitCrcFail_mark port s).kept
  | .linkElectricalIdle port => (execLinkElectricalIdle_mark port s).kept
  | .linkTrainingDone port r => (execLinkTrainingDone_mark port r s).kept
  | .formMessage size skip strike => (execFormMessage_mark size skip strike s).kept
  | .formationTimeout => (execFormationTimeout_mark s).kept
  | .routeTablesInForce far => (execRouteTablesInForce_mark far s).kept
  | .endToEndAckTimeout pkt => (execEndToEndAckTimeout_mark pkt s).kept
  | .downNotice member => (execDownNotice_mark member s).kept
  | .strikeMarker m => (execStrikeMarker_mark m s).kept
  | .markerHoldover => (execMarkerHoldover_mark s).kept
  | .commandForward slot => (execCommandForward_mark slot s).kept
  | .memberHostTransfer t => (execMemberHostTransfer_mark t s).kept
  | .wallWakePulse w => execWallWakePulse_kept w s
  | .wallResetMessage p => execWallResetMessage_kept p s
  | .porstNReset p => execPorstNReset_kept p s
  | .sysRstNReset p => execSysRstNReset_kept p s
  | .nvmSubsystemReset p value => execNvmSubsystemReset_kept p value s
  | .softwareReset req value p => execSoftwareReset_kept req value p s
  | .bootWatchdogExpiry p => execBootWatchdogExpiry_kept p s
  | .bootStageDone b => execBootStageDone_kept b s
  | .bootLockWrite req value => (execBootLockWrite_mark req value s).kept
  | .execEnWrite req value => (execExecEnWrite_mark req value s).kept
  | .railFault rail mv => (execRailFault_mark rail mv s).kept
  | .aonUndervoltage p => execAonUndervoltage_kept p s
  | .refclkStop => (execRefclkStop_mark s).kept
  | .bayMaskWrite req value => (execBayMaskWrite_mark req value s).kept
  | .ipEntryCommit req value => (execIpEntryCommit_mark req value s).kept
  | .eventForceWrite req value => (execEventForceWrite_mark req value s).kept
  | .eventStatusClear req k value => (execEventStatusClear_mark req k value s).kept
  | .eventEnableWrite req k value => (execEventEnableWrite_mark req k value s).kept
  | .regPairLoRead req addr size => (execRegPairLoRead_mark req addr size s).kept
  | .regPairHiRead req addr size => (execRegPairHiRead_mark req addr size s).kept
  | .regPairLoWrite req addr value => (execRegPairLoWrite_mark req addr value s).kept
  | .regPairHiWrite req addr value => (execRegPairHiWrite_mark req addr value s).kept
  | .rcRegisterRead req addr size => (execRcRegisterRead_mark req addr size s).kept
  | .registerWrite req addr size value => execRegisterWrite_kept req addr size value s
  | .keepAlive qp => (execKeepAlive_mark qp s).kept
  | .connectionRequest lport => (execConnectionRequest_mark lport s).kept
  | .ackTimeout qp => (execAckTimeout_mark qp s).kept
  | .ethernetLinkChange lport up => (execEthernetLinkChange_mark lport up s).kept
  | .pcieLinkUp speed width flit => (execPcieLinkUp_mark speed width flit s).kept
  | .deleteIoQueue slot => (execDeleteIoQueue_mark slot s).kept
  | .forwardedCommandReceived fwd => (execForwardedCommandReceived_mark fwd s).kept
  | .memberCompletionReceived slot c => (execMemberCompletionReceived_mark slot c s).kept
  | .memberPowerCommand target abandon => (execMemberPowerCommand_mark target abandon s).kept
  | .memberTenantRecord r => (execMemberTenantRecord_mark r s).kept
  | .endpointIdAssignment eid => (execEndpointIdAssignment_mark eid s).kept

/-! ### One step -/

section
variable {s t : State}

theorem step_of_pending_nil (h : s.pending = []) : step s = .next s := by rw [step, h]

theorem step_of_pending_cons {c : Instr} {rest : List Instr} (h : s.pending = c :: rest) :
    step s = exec c { s with pending := rest } := by rw [step, h]

/-- What a step keeps is what its command keeps of the state with the queue's rest. -/
theorem step_kept (h : step s = .next t) : Kept { s with pending := s.pending.tail } t := by
  cases hq : s.pending with
  | nil =>
    obtain rfl : s = t := Host.Outcome.next.inj ((step_of_pending_nil hq).symm.trans h)
    exact ⟨hq, Nat.le_refl _, Nat.le_refl _, fun _ hk => hk⟩
  | cons c rest =>
    have hexec : exec c { s with pending := rest } = .next t := (step_of_pending_cons hq).symm.trans h
    have hkept := exec_kept c { s with pending := rest }
    rwa [hexec] at hkept

end

/-- Settles O59: whatever command stands in front, the step keeps what the command keeps. -/
theorem fuseFloorsNeverFall : Obligations.FuseFloorsNeverFall := by
  unfold Obligations.FuseFloorsNeverFall
  intro s t hstep
  obtain ⟨-, hfloors⟩ := step_kept hstep
  exact hfloors

end Sys2Proof.Machine

/-! ## Security protocol 0xF0

What a Security Send leaves, what the end of an operation of SEC core 1 answers, and which operation a Security Receive
takes; then the statement about them. -/

namespace Sys2Proof.Machine

/-! ### Security Sends (R301) -/

section
variable {s : State} {slot : Nat}

theorem secSend_denied (hten : senderOf s slot ≠ 0) (r : SecReq) :
    secSend s slot r = endAdmin s slot (0, 0x01, true) := if_pos hten

theorem secSend_full (hmf : senderOf s slot = 0) (hfull : secQueue ≤ s.asy.secOps.length) (r : SecReq) :
    secSend s slot r = endAdmin s slot (0, 0x0C, false) :=
  (if_neg (not_not_intro hmf)).trans (if_pos hfull)

theorem secSend_quote (hmf : senderOf s slot = 0) (hroom : s.asy.secOps.length < secQueue) {n : List Byte}
    (hlen : n.length = 32) :
    secSend s slot (.quote n) = secSettle secQueue (endAdmin (setSecOps s (s.asy.secOps ++
      [{ req := .quote n, fin := false, status := (0, 0), answer := [], asked := none }])) slot (0, 0, false)) := by
  rw [secSend, if_neg (not_not_intro hmf), if_neg (Nat.not_le.2 hroom), if_neg (by simp [hlen])]
  rfl

section
variable (hopen : windowOpen s = true)
include hopen

theorem exec_spGetIdentity (hat : sendAt s slot 1 = true) :
    exec (.spGetIdentity slot) s = .next (secSend s slot .identity) := stepIf_of (by rw [hopen, hat]; rfl) s _

theorem exec_spQuote (hat : sendAt s slot 2 = true) (nonce : List Byte) :
    exec (.spQuote slot nonce) s = .next (secSend s slot (.quote nonce)) := stepIf_of (by rw [hopen, hat]; rfl) s _

theorem exec_spEnrolKeyManager (hat : sendAt s slot 3 = true) (key sig : List Byte) :
    exec (.spEnrolKeyManager slot key sig) s = .next (secSend s slot (.enrol key sig)) :=
  stepIf_of (by rw [hopen, hat]; rfl) s _

theorem exec_spKekExport (hat : sendAt s slot 4 = true) (k : KekRequest) :
    exec (.spKekExport slot k) s = .next (secSend s slot (.kek k)) := stepIf_of (by rw [hopen, hat]; rfl) s _

/-! ### The end of an operation (R302 to R304) -/

theorem exec_securityOpDone (hrun : ∃ o ∈ s.asy.secOps, o.fin = false) :
    exec .securityOpDone s = .next (secSettle secQueue (secFinish s)) :=
  stepIf_of (by simp [hopen, hrun]) s _

/-! ### Security Receives (R301) -/

theorem exec_securityReceive (hat : adminAt s slot 0x82 = true) (hprot : secProtocol (getSlot s slot).cmd = 0xF0) :
    exec (.securityReceive slot) s = .next (secReceive s slot (secOperation (getSlot s slot).cmd)) :=
  stepIf_of (by rw [hopen, hat, hprot]; rfl) s _

end

theorem secReceive_denied (hten : senderOf s slot ≠ 0) (op : Nat) :
    secReceive s slot op = endAdmin s slot (0, 0x01, true) := by
  rw [secReceive, if_pos hten, admin_invalidOpcode]

section
variable (hmf : senderOf s slot = 0) {op : Nat}
include hmf

/-- A Receive of an operation of which none is held that no Receive has asked for. -/
theorem secReceive_none (hnone : (s.asy.secOps.all fun o => o.req.code != op || o.asked.isSome) = true) :
    secReceive s slot op = endAdmin s slot (0, 0x0C, false) := by
  have hfind : (s.asy.secOps.findIdx? fun o => o.req.code == op && o.asked.isNone) = none := by
    rw [List.findIdx?_eq_none_iff]
    exact fun o ho => by simpa using congrArg not (List.all_eq_true.1 hnone o ho)
  rw [secReceive, if_neg (not_not_intro hmf), hfind]
  rfl

/-- A Receive of the oldest operation held: the answer is taken, or the Receive waits for it. -/
theorem secReceive_head {o : SecOp} {rest : List SecOp} (hops : s.asy.secOps = o :: rest) (hcode : o.req.code = op)
    (hasked : o.asked = none) :
    secReceive s slot op =
      if o.fin then admin (setSecOps s rest) slot o.status o.answer
      else setSecOps (adminHold s slot) ({ o with asked := some (slot, (getSlot s slot).gen) } :: rest) := by
  have hfind : ((o :: rest).findIdx? fun o => o.req.code == op && o.asked.isNone) = some 0 := by
    simp [List.findIdx?_cons, hcode, hasked]
  rw [secReceive, if_neg (not_not_intro hmf), hops, hfind]
  rfl

end

end

/-- Settles O46: a Send joins the queue of SEC core 1 or is refused, the first unfinished operation ends, and a Receive
goes by the oldest operation of its number that none has asked for. -/
theorem securityProtocolCommands : Obligations.SecurityProtocolCommands := by
  unfold Obligations.SecurityProtocolCommands
  refine ⟨fun slot nonce key sig k s hopen => ⟨fun hat => exec_spGetIdentity hopen hat,
      fun hat => exec_spQuote hopen hat nonce, fun hat => exec_spEnrolKeyManager hopen hat key sig,
      fun hat => exec_spKekExport hopen hat k⟩,
    fun s slot r => ⟨fun hten => secSend_denied hten r, fun hmf hfull => secSend_full hmf hfull r,
      fun n hmf hroom hlen => secSend_quote hmf hroom hlen⟩,
    fun s hopen hrun => exec_securityOpDone hopen hrun,
    fun slot o rest s hopen hat hprot hmf hops hcode hasked => ?held, fun slot s hopen hat hprot => ?refused⟩
  case held =>
    rw [exec_securityReceive hopen hat hprot, secReceive_head hmf hops hcode hasked]
    exact ⟨fun hfin => by rw [if_pos hfin], fun hrun => by simp [hrun]⟩
  case refused =>
    rw [exec_securityReceive hopen hat hprot]
    exact ⟨fun hten => by rw [secReceive_denied hten], fun hmf hnone => by rw [secReceive_none hmf hnone]⟩

end Sys2Proof.Machine

/-! ## Memories

What a request does to a DRAM channel in self-refresh, which refreshes are owed, and the commands of the DRAM channels,
the scrubs and the Crucible's bank groups; then the statement about them. -/

namespace Sys2Proof.Machine

/-! ### Self-refresh (R316 to R318) -/

section
variable {s : State} {ch : Nat}

/-- Before SRE a request abandons the entry. -/
theorem selfRefreshRequest_entering (hent : (getDram s ch).entering = true) :
    selfRefreshRequest s ch =
      bump (setDram s ch { getDram s ch with entering := false, idle := 0 }) R.DRM_SR_ABANDON_CNT_ABANDON := if_pos hent

/-- After SRE a request begins the exit and wakes the channel's domain. -/
theorem selfRefreshRequest_entered (hent : (getDram s ch).entering = false) :
    selfRefreshRequest s ch =
      useDomain (bump (setDram s ch { getDram s ch with exiting := true, idle := 0 }) R.DRM_SR_WAIT_CNT_WAIT) (dmDom ch) :=
  if_neg (Bool.eq_false_iff.1 hent)

section
variable (hruns : dramRuns s = true)
include hruns

theorem exec_selfRefreshEntry (hent : (getDram s ch).entering = true) :
    exec (.selfRefreshEntry ch) s = .next (setDram s ch { getDram s ch with
      entering := false, sr := true, exiting := false, openRows := [], owed := [], idle := 0 }) :=
  stepIf_of (by simp [hruns, hent]) s _

theorem exec_selfRefreshInterrupt_entering (hent : (getDram s ch).entering = true) :
    exec (.selfRefreshInterrupt ch) s = .next
      (bump (setDram s ch { getDram s ch with entering := false, idle := 0 }) R.DRM_SR_ABANDON_CNT_ABANDON) := by
  rw [← selfRefreshRequest_entering hent]
  exact stepIf_of (by simp [hruns, hent]) s _

theorem exec_selfRefreshInterrupt_entered (hsr : (getDram s ch).sr = true) (hent : (getDram s ch).entering = false)
    (hexit : (getDram s ch).exiting = false) :
    exec (.selfRefreshInterrupt ch) s = .next (useDomain
      (bump (setDram s ch { getDram s ch with exiting := true, idle := 0 }) R.DRM_SR_WAIT_CNT_WAIT) (dmDom ch)) := by
  rw [← selfRefreshRequest_entered hent]
  exact stepIf_of (by simp [hruns, hsr, hexit]) s _

theorem exec_selfRefreshExitDone (hsr : (getDram s ch).sr = true) (hexit : (getDram s ch).exiting = true)
    (hgated : (getDram s ch).gated = false) (hserves : domServes s (dmDom ch) = true) :
    exec (.selfRefreshExitDone ch) s =
      .next (setDram s ch { getDram s ch with sr := false, exiting := false, idle := 0 }) :=
  stepIf_of (by simp [hruns, hsr, hexit, hgated, hserves]) s _

theorem exec_dmGateIdleExpiry (hsr : (getDram s ch).sr = true) (hexit : (getDram s ch).exiting = false)
    (hgated : (getDram s ch).gated = false) (hon : (getDom s (dmDom ch)).st = .on)
    (hen : rdForce s R.DRM_SR_CTRL_GATE_EN = 1) (hidle : rdForce s R.DRM_SR_CTRL_GATE_IDLE ≤ (getDram s ch).idle)
    (hallow : gateAllowed s (dmDom ch) = true) :
    exec (.dmGateIdleExpiry ch) s =
      .next (setDom s (dmDom ch) { getDom s (dmDom ch) with st := .draining, mgr := false }) :=
  stepIf_of (by simp [hruns, hsr, hexit, hgated, hon, hen, hidle, hallow]) s _

end

/-! ### Refreshes and open rows (R314, R315) -/

/-- A refresh that falls due closes its bank's row; level-3 requests postpone it until four intervals are owed. -/
theorem refreshBank_eq (x : DramCh) (bank : Nat) (busy : Bool) :
    refreshBank x bank busy = { x with
      openRows := x.openRows.filter (· != bank)
      owed := Tbl.set nat0 x.owed bank
        (if busy = true ∧ Tbl.get nat0 x.owed bank < 3 then Tbl.get nat0 x.owed bank + 1 else 0) } := by
  have hlimit : Tbl.get nat0 x.owed bank + 1 < 4 ↔ Tbl.get nat0 x.owed bank < 3 := Nat.add_lt_add_iff_right
  simp [refreshBank, hlimit]

section
variable (hruns : dramRuns s = true)
include hruns

theorem exec_refreshDue (hsr : (getDram s ch).sr = false) (bank : Nat) (busy : Bool) :
    exec (.refreshDue ch bank busy) s = .next (setDram s ch (refreshBank (getDram s ch) bank busy)) :=
  stepIf_of (by simp [hruns, hsr]) s _

theorem exec_openRowTimeout {bank : Nat} (hrow : bank ∈ (getDram s ch).openRows) :
    exec (.openRowTimeout ch bank) s =
      .next (setDram s ch { getDram s ch with openRows := (getDram s ch).openRows.filter (· != bank) }) :=
  stepIf_of (by simp [hruns, hrow]) s _

/-! ### Scrubs and uncorrectable lines (R309, R320, R322) -/

/-- A channel outside self-refresh that does not enter it is scrubbed. -/
theorem exec_patrolScrub (hsr : (getDram s ch).sr = false) (hent : (getDram s ch).entering = false)
    (hhours : rd s R.DRM_SCRUB_HOURS ≠ 0) {corrected : List Nat} (hcorr : ∀ a ∈ corrected, dramChannel a = ch)
    {bad : List PoisonLine} (hbad : ∀ l ∈ bad, l.crucible = false ∧ dramChannel l.addr = ch ∧ placeThere s l = true) :
    exec (.patrolScrub ch corrected bad) s = .next (bad.foldl poisonLine
      (bumpAt (setDram s ch { getDram s ch with idle := 0 }) R.DRM_CE_CNT_CE 0 0 corrected.length)) := by
  have hcorrAll : (corrected.all fun a => dramChannel a == ch) = true := by simpa using hcorr
  have hbadAll : (bad.all fun l => !l.crucible && dramChannel l.addr == ch && placeThere s l) = true := by
    simpa [and_assoc] using hbad
  have hpremise : (dramRuns s && !(getDram s ch).sr && rd s R.DRM_SCRUB_HOURS != 0
      && (corrected.all fun a => dramChannel a == ch)
      && (bad.all fun l => !l.crucible && dramChannel l.addr == ch && placeThere s l)) = true := by
    rw [hcorrAll, hbadAll]
    simp [hruns, hsr, hhours]
  exact (stepIf_of hpremise s _).trans (by rw [if_neg (Bool.eq_false_iff.1 hent)])

end

section
variable (hhot : s.pwr.st = .hot) (hstrikes : strikesRun s = true)
include hhot hstrikes

theorem exec_uncorrectableLine {l : PoisonLine} (hthere : placeThere s l = true) :
    exec (.uncorrectableLine l) s = .next (poisonLine s l) :=
  stepIf_of (by simp [hhot, hstrikes, hthere]) s _

theorem exec_crucibleScrub {bad : List PoisonLine} (hbad : ∀ l ∈ bad, l.crucible = true ∧ placeThere s l = true)
    (corrected : List Nat) :
    exec (.crucibleScrub corrected bad) s =
      .next (bad.foldl poisonLine (bumpAt s R.CRU_CE_CNT_CE 0 0 corrected.length)) :=
  stepIf_of (by simpa [hhot, hstrikes] using hbad) s _

/-! ### Retention (R323) -/

theorem exec_crucibleRetentionEntry {g : Nat} (hret : (getGroup s g).retention = false)
    (hon : (getDom s (sbDom g)).st = .on) (hidle : rd s R.CRU_CTRL_IDLE ≤ (getGroup s g).idle)
    (hbusy : groupBusy s g = false) (hnever : neverRetained s g = false) (hallow : allowsNs s (sbDom g) 500 = true) :
    exec (.crucibleRetentionEntry g) s = .next (setGroup s g { getGroup s g with retention := true }) :=
  stepIf_of (by simp [hhot, hstrikes, hret, hon, hidle, hbusy, hnever, hallow]) s _

end

end

/-- Settles O47: each command acts under its premise, a request in self-refresh goes by whether SRE has been issued, and a
refresh is owed up to three intervals. -/
theorem memoryCommands : Obligations.MemoryCommands := by
  unfold Obligations.MemoryCommands
  refine ⟨fun ch s hruns hent => ⟨exec_selfRefreshEntry hruns hent, exec_selfRefreshInterrupt_entering hruns hent⟩,
    fun ch s hruns hsr => ⟨fun hent hexit => exec_selfRefreshInterrupt_entered hruns hsr hent hexit,
      fun hexit hgated hserves => exec_selfRefreshExitDone hruns hsr hexit hgated hserves,
      fun hexit hgated hon hen hidle hallow => exec_dmGateIdleExpiry hruns hsr hexit hgated hon hen hidle hallow⟩,
    fun ch bank busy s hruns => ⟨fun hsr => ?refresh, fun hrow => exec_openRowTimeout hruns hrow⟩,
    fun ch corrected bad s hruns hsr hent hhours hcorr hbad => exec_patrolScrub hruns hsr hent hhours hcorr hbad,
    fun corrected bad l s hhot hstrikes => ⟨fun hthere => exec_uncorrectableLine hhot hstrikes hthere,
      fun hbad => exec_crucibleScrub hhot hstrikes hbad corrected⟩,
    fun g s hhot hstrikes hret hon hidle hbusy hnever hallow =>
      exec_crucibleRetentionEntry hhot hstrikes hret hon hidle hbusy hnever hallow⟩
  case refresh => rw [exec_refreshDue hruns hsr, refreshBank_eq]

end Sys2Proof.Machine

/-! ## Steps and their answers

A step runs the command at the front of the queue and leaves the rest of it, and every command answers a next state. -/

namespace Sys2Proof.Machine

/-- Settles O60: what a step keeps of the queue is what its command keeps of the queue's rest. -/
theorem queueIsFirstInFirstOut : Obligations.QueueIsFirstInFirstOut := by
  unfold Obligations.QueueIsFirstInFirstOut
  intro s t hstep
  obtain ⟨hpending, -⟩ := step_kept hstep
  exact hpending

/-- Settles O1: the two cases of the queue. -/
theorem stepRunsFrontCommand : Obligations.StepRunsFrontCommand := by
  unfold Obligations.StepRunsFrontCommand
  exact ⟨fun c rest s => step_of_pending_cons rfl, fun s hnil => step_of_pending_nil hnil⟩

/-- Every command answers a next state. Most are a step under a premise (`stepIf`), which is one by definition. The
others look first for what they act on (a record, a request, a course, a flush), and answer the present state where it
is not there. -/
theorem exists_exec_eq_next (c : Instr) (s : State) : ∃ t, exec c s = .next t := by
  cases c
  case recordCommitDone | repeatRewriteDone | commitReadbackFail | resultArrival | staleResultDiscard |
      mediaInstructionResume | courseFormationResume | zoneActionEffect | ladderStepDone | responseRnrNak |
      programAged | rowDataInStart | unitXorOutDone | verifyPass | verifyFail | slabRelease | migrationCutover |
      mendCutover | collectionVictimDone | laneRequestDone | holdReleaseDone | zeroingDone | powerEntryStepDone
      | entryDrainLimitExpiry | avsVoltageReached | pllLocked | avsSettleTimeout | periodChangeEffect |
      thermalRestartRelease | flushProgramDone | flushOvertempHalt | firmwareSlotWritten | commandForward |
      endToEndAckTimeout | executeWorkOrder =>
    dsimp only [exec, execRecordCommitDone, execRepeatRewriteDone, execCommitReadbackFail, execResultArrival,
      execStaleResultDiscard, execMediaInstructionResume, execCourseFormationResume, execZoneActionEffect,
      execLadderStepDone, execResponseRnrNak, execProgramAged, execRowDataInStart, execUnitXorOutDone,
      execVerifyPass, execVerifyFail, execSlabRelease, execMigrationCutover, execMendCutover,
      execCollectionVictimDone, execLaneRequestDone, execHoldReleaseDone, execZeroingDone,
      execPowerEntryStepDone, execEntryDrainLimitExpiry, execAvsVoltageReached, execPllLocked,
      execAvsSettleTimeout, execPeriodChangeEffect, execThermalRestartRelease, execFlushProgramDone,
      execFlushOvertempHalt, execFirmwareSlotWritten, execCommandForward, execEndToEndAckTimeout,
      execExecuteWorkOrder]
    (repeat' split) <;> exact ⟨_, rfl⟩
  all_goals exact ⟨_, rfl⟩

/-- Settles O2: the premise of a command chooses between two next states, and never another answer. -/
theorem commandsAlwaysAnswerNextState : Obligations.CommandsAlwaysAnswerNextState := by
  unfold Obligations.CommandsAlwaysAnswerNextState
  exact exists_exec_eq_next

end Sys2Proof.Machine

/-! ## The FIFO of the recorder

How an event and the end of a commit change the FIFO (R381 to R383), and the numbers of records (R377); then the
statement about them. -/

namespace Sys2Proof.Machine

/-! ### The record being committed (R381) -/

section
variable {h : Hall} {r : HmRecord} {code : W16} {param : List Byte} (hcommit : h.committing = some r)
include hcommit

theorem Hall.arrive_repeat (hsame : r.same code param = true) :
    h.arrive code param = { h with pendingRep := h.pendingRep + 1 } := by
  simp [Hall.arrive, hcommit, hsame]

theorem Hall.arrive_other (hother : r.same code param = false) : h.arrive code param = h.queue code param := by
  simp [Hall.arrive, hcommit, hother]

end

/-! ### An event for the FIFO (R382, R383) -/

section
variable (h : Hall) (code : W16) (param : List Byte)

/-- A lost event takes no entry: it counts in an EVENTS_LOST of the FIFO, or beside it. -/
theorem Hall.length_lose_fifo : (h.lose code).fifo.length = h.fifo.length := by
  unfold Hall.lose
  split
  · exact List.length_map ..
  · split <;> rfl

theorem Hall.length_queue_fifo_of_any (hfold : h.fifo.any (fun x => x.same code param) = true) :
    (h.queue code param).fifo.length = h.fifo.length := by
  rw [Hall.queue, if_pos hfold]
  exact List.length_map ..

theorem Hall.queue_fifo_of_room (hnew : h.fifo.any (fun x => x.same code param) = false)
    (hroom : h.fifo.length + b2n h.lost.isSome < 64) :
    (h.queue code param).fifo = h.fifo ++ [freshRecord h code param] := by
  rw [Hall.queue, if_neg (by simp [hnew]), if_pos hroom]

/-- An entry joins a FIFO that has room alone, so it stays within its 64 entries. -/
theorem Hall.length_queue_fifo_le (hle : h.fifo.length ≤ 64) : (h.queue code param).fifo.length ≤ 64 := by
  unfold Hall.queue
  split
  · rwa [List.length_map]
  · split
    · next hroom =>
      rw [List.length_append, List.length_singleton]
      omega
    · rwa [Hall.length_lose_fifo]

theorem Hall.length_arrive_fifo_le (hle : h.fifo.length ≤ 64) : (h.arrive code param).fifo.length ≤ 64 := by
  unfold Hall.arrive
  split
  · exact hle
  · split
    · exact hle
    · exact Hall.length_queue_fifo_le h code param hle

end

/-! ### The end of a commit (R380 to R383, R388) -/

@[simp] theorem Hall.place_fifo (h : Hall) (r : HmRecord) : (h.place r).fifo = h.fifo := by
  unfold Hall.place
  split
  · rfl
  · dsimp only
    split
    · rfl
    · split <;> rfl

@[simp] theorem Hall.placeFallback_fifo (h : Hall) (r : HmRecord) : (h.placeFallback r).fifo = h.fifo := by
  unfold Hall.placeFallback
  split
  · rfl
  · split <;> rfl

@[simp] theorem Hall.store_fifo (h : Hall) (r : HmRecord) : (h.store r).fifo = h.fifo := by
  unfold Hall.store
  split
  · exact Hall.placeFallback_fifo h r
  · exact Hall.place_fifo h r

/-- The entry that leaves makes room for the EVENTS_LOST that waits. -/
theorem Hall.length_next_fifo_le (h : Hall) : h.next.fifo.length ≤ h.fifo.length := by
  unfold Hall.next
  split
  · exact Nat.le_refl _
  · next r rest hfifo =>
    rw [hfifo]
    cases h.lost with
    | none => exact Nat.le_succ _
    | some l => exact Nat.le_of_eq (List.length_append ..)

theorem Hall.length_finish_fifo_le (h : Hall) (r : HmRecord) : (h.finish r).fifo.length ≤ h.fifo.length := by
  unfold Hall.finish
  dsimp only
  split
  · rw [Hall.store_fifo]
  · exact (Hall.length_next_fifo_le _).trans_eq (by rw [Hall.store_fifo])

/-- With repeats pending the same record is rewritten, with its REPEAT raised and saturated. -/
theorem Hall.finish_repeats {h : Hall} (hrep : 0 < h.pendingRep) (r : HmRecord) : h.finish r = { h.store r with
    committing := some { r with repeat_ := min (r.repeat_ + h.pendingRep) 65535 }
    rewriting := true, pendingRep := 0 } :=
  if_pos hrep

/-! ### Numbers of records (R377) -/

theorem nextSeq_bounds (n : Nat) : 1 ≤ nextSeq n ∧ nextSeq n ≤ 0xFFFFFFFF := by
  unfold nextSeq
  split <;> omega

/-- Settles O38: an event by the record that it is identical to, and the end of a commit by the repeats that wait. -/
theorem recorderCountsOrLosesNoRepeat : Obligations.RecorderCountsOrLosesNoRepeat := by
  unfold Obligations.RecorderCountsOrLosesNoRepeat
  refine ⟨fun h code param r hcommit hsame => Hall.arrive_repeat hcommit hsame,
    fun h code param r hcommit hother => ?other, fun h code param hle => Hall.length_arrive_fifo_le h code param hle,
    fun h r hle => (Hall.length_finish_fifo_le h r).trans hle, fun h r hrep => ?repeats, fun n _ => nextSeq_bounds n⟩
  case other =>
    rw [Hall.arrive_other hcommit hother]
    exact ⟨Hall.length_queue_fifo_of_any h code param, Hall.queue_fifo_of_room h code param⟩
  case repeats =>
    rw [Hall.finish_repeats hrep]
    exact ⟨rfl, rfl, rfl⟩

end Sys2Proof.Machine

/-! ## Events and the log page of Hallmark

The commands of the recorder (R378, R381, R382, R388, R433) and its log page (R387), and where the statement about them
fails. -/

namespace Sys2Proof.Machine

/-! ### The commands that do as the statement says -/

theorem exec_eventArrival {e : Event} (h : e.source ≤ 242) (s : State) :
    exec (.eventArrival e) s = .next (raise s e) := stepIf_of (decide_eq_true h) s _

section
variable {s : State}

section
variable {r : HmRecord} (hcommit : s.hm.committing = some r)
include hcommit

theorem exec_recordCommitDone (hfirst : s.hm.rewriting = false) :
    exec .recordCommitDone s = .next { s with hm := s.hm.finish r } := by
  show execRecordCommitDone s = _
  simp only [execRecordCommitDone, hcommit]
  exact stepIf_of (by rw [hfirst]; rfl) s _

theorem exec_repeatRewriteDone (hagain : s.hm.rewriting = true) :
    exec .repeatRewriteDone s = .next { s with hm := s.hm.finish r } := by
  show execRepeatRewriteDone s = _
  simp only [execRepeatRewriteDone, hcommit]
  exact stepIf_of hagain s _

theorem exec_commitReadbackFail (hring : s.hm.degraded = false) :
    exec .commitReadbackFail s = .next (setStat { s with hm := s.hm.degrade r } 226) := by
  show execCommitReadbackFail s = _
  simp only [execCommitReadbackFail, hcommit]
  exact stepIf_of (by rw [hring]; rfl) s _

end

theorem exec_opMsPersistTimer (h : s.pwr.st ≠ .cold) (ms : Nat) : exec (.opMsPersistTimer ms) s =
    .next { s with hm := { s.hm with
      opMs := (s.hm.opMs + ms) % 2 ^ 48, opMsStored := (s.hm.opMs + ms) % 2 ^ 48 } } :=
  stepIf_of (bne_iff_ne.2 h) s _

/-! ### The log page (R380, R387) -/

/-- The answer to a Get Log Page holds the records from its BASE on, which the controller's capture keeps. -/
theorem exec_getLogPageHallmark {slot : Nat} (hopen : endpointOpen s = true) (hat : logPageAt s slot 0xC8 = true) :
    exec (.getLogPageHallmark slot) s = .next
      (admin (setCapture s (senderOf s slot) (captureBase s (senderOf s slot) (logOffset (getSlot s slot).cmd)))
        slot nvOk (hallmarkBytes s.hm (captureBase s (senderOf s slot) (logOffset (getSlot s slot).cmd))
          (logOffset (getSlot s slot).cmd) (logBytes (getSlot s slot).cmd))) :=
  stepIf_of (by rw [hopen, hat]; rfl) s _

end

/-- The capture that a Get Log Page leaves for its controller. -/
theorem captures_admin_setCapture (s : State) (ctl base k : Nat) (data : List Byte) :
    Tbl.get Tbl.absent (admin (setCapture s ctl base) k nvOk data).hm.captures ctl = some base := by
  have hadmin : (admin (setCapture s ctl base) k nvOk data).hm = (setCapture s ctl base).hm := by
    rw [admin, endAdmin, updSlot, setSlot_hm]
    split
    · rfl
    · rw [emit_hm]
  rw [hadmin]
  exact Tbl.get_set_self Tbl.absent s.hm.captures ctl (some base)

/-- The recorder after its first commit has failed its read-back (R388): the ring holds no record, the head has gone on
to 3, and the stored tail still stands at 1. By R380 HM_TAIL equals HM_HEAD here. -/
def firstCommitFailed : Hall := State.reset.hm.degrade { freshRecord State.reset.hm 0x0101 [] with seq := 1 }

/-- A device with that recorder, whose slot 8 holds a Get Log Page of the recorder. -/
def emptyRing : State :=
  setSlot { State.reset with hm := firstCommitFailed } 8
    { slot0 8 with st := .arriving, kind := .management, cmd := { nvme0 with opcode := 0x02, dw10 := 0xC8 } }

theorem emptyRing_asks : endpointOpen emptyRing = true ∧ logPageAt emptyRing 8 0xC8 = true := by decide +kernel

theorem captureBase_emptyRing :
    captureBase emptyRing (senderOf emptyRing 8) (logOffset (getSlot emptyRing 8).cmd) = 3 := by decide +kernel

/-- Refutes O37: the log page of a device whose ring is empty captures HM_HEAD, as R380 defines HM_TAIL then, where the
statement names the stored tail. Its other clauses hold (`exec_eventArrival`, `exec_recordCommitDone`,
`exec_repeatRewriteDone`, `exec_commitReadbackFail`, `exec_opMsPersistTimer`). -/
theorem not_hallmarkTakesEveryEvent : ¬ Obligations.HallmarkTakesEveryEvent := by
  unfold Obligations.HallmarkTakesEveryEvent
  rintro ⟨-, -, -, hpage⟩
  obtain ⟨hopen, hat⟩ := emptyRing_asks
  obtain ⟨t, ht, -, hcapture, -⟩ := hpage 8 emptyRing hopen hat
  rw [exec_getLogPageHallmark hopen hat, captureBase_emptyRing] at ht
  obtain rfl := Host.Outcome.next.inj ht
  rw [captures_admin_setCapture] at hcapture
  revert hcapture
  decide +kernel

end Sys2Proof.Machine

/-! ## Resets and halts of the board

The resets of Table 19.1, which a running flush holds off but for the loss of AON (R360, R411, R439), and the halts
without a flush (R439, R445); then the two statements about them. -/

namespace Sys2Proof.Machine

/-! ### A reset that a flush holds off (R411) -/

theorem heldReset_flushing {s : State} (h : s.blw.flush ≠ none) (cause : Nat) (p : ResetPins) :
    heldReset s cause p = s :=
  if_pos (Option.isSome_iff_ne_none.2 h)

theorem heldReset_quiet {s : State} (h : s.blw.flush = none) (cause : Nat) (p : ResetPins) :
    heldReset s cause p = deviceReset s cause true p :=
  if_neg (by simp [h])

theorem exec_sysRstNReset (p : ResetPins) (s : State) : exec (.sysRstNReset p) s = .next (heldReset s 1 p) := rfl

section
variable {s : State}

theorem exec_bootWatchdogExpiry (hwdt : s.boot.wdtRunning = true) (hruns : s.pwr.halted = false) (p : ResetPins) :
    exec (.bootWatchdogExpiry p) s = .next (heldReset s 4 p) := stepIf_of (by simp [hwdt, hruns]) s _

theorem exec_wallResetMessage (hmember : isMember s = true) (p : ResetPins) :
    exec (.wallResetMessage p) s = .next (heldReset s 2 p) := stepIf_of hmember s _

/-! ### The software reset and NSSR (Table 19.1) -/

theorem softwareReset_key {req : Nat} {v : W32} (hmf : forMf req = true) (hkey : v.toNat % 65536 = 0x5EED)
    (p : ResetPins) : softwareReset s req v p = heldReset s 3 p := if_pos ⟨hmf, hkey⟩

theorem softwareReset_other {req : Nat} {v : W32} (h : forMf req = false ∨ v.toNat % 65536 ≠ 0x5EED) (p : ResetPins) :
    softwareReset s req v p = s := by
  refine if_neg ?_
  rintro ⟨hmf, hkey⟩
  rcases h with h | h
  · rw [hmf] at h
    cases h
  · exact h hkey

/-- With a flush running the software reset does nothing, whatever is written. -/
theorem softwareReset_flushing (h : s.blw.flush ≠ none) (req : Nat) (v : W32) (p : ResetPins) :
    softwareReset s req v p = s := by
  rw [softwareReset, heldReset_flushing h, ite_self]

@[simp] theorem resetMembers_blw (s : State) : (resetMembers s).blw = s.blw := by
  unfold resetMembers
  split
  · rw [emit_blw]
  · rfl

section
variable (hopen : windowOpen s = true) (p : ResetPins)
include hopen

theorem exec_softwareReset (req : Nat) (v : W32) : exec (.softwareReset req v p) s = .next (softwareReset s req v p) :=
  stepIf_of hopen s _

section
variable (hlink : s.port.linkUp = true)
include hlink

theorem exec_nvmSubsystemReset (v : W32) : exec (.nvmSubsystemReset p v) s = .next
    (if v = 0x4E564D65 ∧ s.blw.flush.isNone then heldReset (resetMembers s) 2 p else s) :=
  stepIf_of (by simp [hopen, hlink]) s _

theorem exec_nvmSubsystemReset_magic (hquiet : s.blw.flush = none) :
    exec (.nvmSubsystemReset p 0x4E564D65) s = .next (deviceReset (resetMembers s) 2 true p) := by
  rw [exec_nvmSubsystemReset hopen p hlink, if_pos ⟨rfl, by rw [hquiet]; rfl⟩,
    heldReset_quiet (by rw [resetMembers_blw, hquiet])]

theorem exec_nvmSubsystemReset_other {v : W32} (hv : v ≠ 0x4E564D65) :
    exec (.nvmSubsystemReset p v) s = .next s := by
  rw [exec_nvmSubsystemReset hopen p hlink, if_neg fun h => hv h.1]

theorem exec_nvmSubsystemReset_flushing (hflush : s.blw.flush ≠ none) (v : W32) :
    exec (.nvmSubsystemReset p v) s = .next s := by
  rw [exec_nvmSubsystemReset hopen p hlink, if_neg fun h => hflush (Option.isNone_iff_eq_none.1 h.2)]

end

end

/-! ### Resets of a device that has halted or loses AON (R360, R439) -/

theorem exec_bellowsRestart (hhalt : s.pwr.halted = true) (hopen : s.blw.recOpen = true)
    (hfinal : s.blw.recFinal = true) (p : ResetPins) :
    exec (.bellowsRestart p) s = .next (deviceReset s 5 true p) := stepIf_of (by simp [hhalt, hopen, hfinal]) s _

theorem exec_bankDepleted (hflush : s.blw.flush.isSome = true) (hbank : s.blw.bankSw = true) (p : ResetPins) :
    exec (.bankDepleted p) s = .next (deviceReset s 0 false p) := stepIf_of (by simp [hflush, hbank]) s _

/-! ### Halts with no flush (R439, R445) -/

section
variable (hruns : s.pwr.halted = false) (hbooted : s.boot.stage ≠ 0)
include hruns hbooted

theorem exec_railFault (rail : Rail) (mv : Nat) :
    exec (.railFault rail mv) s = .next (haltNow (railEvent s rail mv)) := stepIf_of (by simp [hruns, hbooted]) s _

theorem exec_refclkStop : exec .refclkStop s = .next (haltNow s) := stepIf_of (by simp [hruns, hbooted]) s _

end

end

/-- Settles O54: each of the four resets is one that a flush holds off, and PORST_N is not. -/
theorem flushHoldsOffResets : Obligations.FlushHoldsOffResets := by
  unfold Obligations.FlushHoldsOffResets
  refine ⟨fun p s hflush => ?sysRst,
    fun p v s hflush hlink hopen => exec_nvmSubsystemReset_flushing hopen p hlink hflush v,
    fun p req v s hflush hopen => ?software, fun p s hflush hwdt hruns => ?watchdog, fun p s => rfl⟩
  case sysRst => rw [exec_sysRstNReset, heldReset_flushing hflush]
  case software => rw [exec_softwareReset hopen, softwareReset_flushing hflush]
  case watchdog => rw [exec_bootWatchdogExpiry hwdt hruns, heldReset_flushing hflush]

/-- Settles O55: with no flush the resets that one holds off reset the device, each with its cause; the others and the
halts go by what the device is in. -/
theorem resetsAndFaultsOfTheBoard : Obligations.ResetsAndFaultsOfTheBoard := by
  unfold Obligations.ResetsAndFaultsOfTheBoard
  refine ⟨fun p s hquiet => ⟨?sysRst, fun hwdt hruns => ?watchdog, fun hmember => ?wall⟩,
    fun p v s hquiet hopen hlink => ⟨exec_nvmSubsystemReset_magic hopen p hlink hquiet,
      fun hv => exec_nvmSubsystemReset_other hopen p hlink hv⟩,
    fun p req v s hquiet hopen => ⟨fun hmf hkey => ?key, fun hother => ?other⟩,
    fun p s => ⟨fun hhalt hrec hfinal => exec_bellowsRestart hhalt hrec hfinal p,
      fun hflush hbank => exec_bankDepleted hflush hbank p, rfl⟩,
    fun rail mv s hruns hbooted => ⟨exec_railFault hruns hbooted rail mv, exec_refclkStop hruns hbooted⟩⟩
  case sysRst => rw [exec_sysRstNReset, heldReset_quiet hquiet]
  case watchdog => rw [exec_bootWatchdogExpiry hwdt hruns, heldReset_quiet hquiet]
  case wall => rw [exec_wallResetMessage hmember, heldReset_quiet hquiet]
  case key => rw [exec_softwareReset hopen, softwareReset_key hmf hkey, heldReset_quiet hquiet]
  case other => rw [exec_softwareReset hopen, softwareReset_other hother]

end Sys2Proof.Machine

/-! ## Switched domains

Automatic gating (R338), the drain on the manager's order and its limit (R339, R340), and the wake; then the statement
about them. -/

namespace Sys2Proof.Machine

section
variable {s : State} {d : Nat}

/-! ### Automatic gating (R338) -/

theorem exec_autoGateIdleExpiry (hhot : s.pwr.st = .hot) (hruns : strikesRun s = true) (hauto : autoGates d = true)
    (hon : (getDom s d).st = .on) (hen : flag s R.PWR_AUTO_EN = true)
    (hcount : rd s R.PWR_AUTO_IDLE ≤ (getDom s d).idle) (hidle : domIdle s d = true) (hallow : gateAllowed s d = true) :
    exec (.autoGateIdleExpiry d) s = .next (setDom s d { getDom s d with st := .draining, mgr := false }) :=
  stepIf_of (by simp [hhot, hruns, hauto, hon, hen, hcount, hidle, hallow]) s _

/-! ### The end of a drain (R338 to R340) -/

section
variable (hdrain : (getDom s d).st = .draining)
include hdrain

theorem exec_autoDrainDone (hauto : (getDom s d).mgr = false) (hback : (getDom s d).back = false)
    (hdone : domDrained s d = true) : exec (.autoDrainDone d) s =
      .next (powerDown (setDom s d { getDom s d with st := .autoOff, idle := 0 }) d false) :=
  stepIf_of (by simp [hdrain, hauto, hback, hdone]) s _

section
variable (hmgr : (getDom s d).mgr = true)
include hmgr

theorem exec_domainDrained (hdone : domDrained s d = true) : exec (.domainDrained d) s =
    .next (powerDown (setDom s d
      { getDom s d with st := .mgrOff, busy := false, result := St.ok, idle := 0 }) d true) :=
  stepIf_of (by simp [hdrain, hmgr, hdone]) s _

/-- A drain that outlasts its limit ends with NOT_IDLE and counts. -/
theorem exec_domainDrainLimitExpiry (hlimit : (getDom s d).drainAt + drainLimit s ≤ s.tb.count) :
    exec (.domainDrainLimitExpiry d) s = .next (bump (setDom s d { getDom s d with
      st := .on, mgr := false, busy := false, result := St.notIdle, idle := 0 }) R.PWR_DRAIN_FAIL_CNT_FAIL) :=
  stepIf_of (by simp [hdrain, hmgr, hlimit]) s _

end

end

/-! ### The wake (R338) -/

/-- A domain that holds no DRAM channel wakes with no channel to bring back. -/
theorem exec_domainWakeDone (hwake : (getDom s d).st = .waking) (hdm : isDm d = false) :
    exec (.domainWakeDone d) s = .next (powerUp (setDom s d { getDom s d with
      st := .on, mgr := false, idle := 0, busy := false
      result := if (getDom s d).busy then St.ok else (getDom s d).result }) d) := by
  refine (stepIf_of (by rw [hwake]; rfl) s _).trans ?_
  rw [hdm, Bool.false_and, if_neg Bool.false_ne_true]

/-! ### The manager's orders (R339) -/

section
variable (hopen : windowOpen s = true) (req : Nat)
include hopen

theorem exec_domainOnRequest :
    exec (.domainOnRequest req) s = .next (if forMf req then domainOn s (selDom s req) else s) := stepIf_of hopen s _

theorem exec_domainOffRequest :
    exec (.domainOffRequest req) s = .next (if forMf req then domainOff s (selDom s req) else s) := stepIf_of hopen s _

end

end

/-- Settles O48: the gating by its premise, a draining domain by who ordered it, and the orders by their requester. -/
theorem switchedDomainsGateAndWake : Obligations.SwitchedDomainsGateAndWake := by
  unfold Obligations.SwitchedDomainsGateAndWake
  refine ⟨fun d s hhot hruns hauto hon hen hcount hidle hallow =>
      exec_autoGateIdleExpiry hhot hruns hauto hon hen hcount hidle hallow,
    fun d s hdrain => ⟨fun hauto hback hdone => exec_autoDrainDone hdrain hauto hback hdone,
      fun hmgr hdone => exec_domainDrained hdrain hmgr hdone,
      fun hmgr hlimit => exec_domainDrainLimitExpiry hdrain hmgr hlimit⟩,
    fun d s hwake hdm => exec_domainWakeDone hwake hdm,
    fun req s hopen => ?orders⟩
  case orders =>
    rw [exec_domainOnRequest hopen, exec_domainOffRequest hopen]
    refine ⟨fun hmf => ?_, fun hother => ?_⟩
    · rw [if_pos hmf, if_pos hmf]
      exact ⟨rfl, rfl⟩
    · rw [hother]
      exact ⟨rfl, rfl⟩

end Sys2Proof.Machine

/-! ## Commands over a Wall

What a head does with a command that a member runs: forwarding it for a credit, posting its completion and carrying its
transfers (R396, R401, R402); then the statement about them. -/

namespace Sys2Proof.Machine

/-! ### Forwarding a command (R396, R401) -/

/-- The Wall's part of the head after a command has gone to a member: one credit less, and a packet that waits for its
acknowledgement. -/
def wallForwarded (s : State) (slot m : Nat) : Wall :=
  { s.wall with
    credits := Tbl.set nat0 s.wall.credits m (Tbl.get nat0 s.wall.credits m - 1), nextPkt := s.wall.nextPkt + 1
    packets := Tbl.set Tbl.absent s.wall.packets s.wall.nextPkt
      (some { dest := m, seq := s.wall.nextPkt, sentAt := s.tb.count, slot := some slot }) }

theorem get_credits_wallForwarded (s : State) (slot m : Nat) :
    Tbl.get nat0 (wallForwarded s slot m).credits m = Tbl.get nat0 s.wall.credits m - 1 := Tbl.get_set_self ..

theorem get_packets_wallForwarded (s : State) (slot m : Nat) :
    Tbl.get Tbl.absent (wallForwarded s slot m).packets s.wall.nextPkt =
      some { dest := m, seq := s.wall.nextPkt, sentAt := s.tb.count, slot := some slot } := by
  rw [wallForwarded, Tbl.get_set_self]

section
variable {s : State} {slot m : Nat}

theorem exec_commandForward (hm : (getSlot s slot).member = some m) (hhead : isHead s = true)
    (hst : (getSlot s slot).st = .suspended) (hstage : (getSlot s slot).stage = 0)
    (hcredit : 0 < Tbl.get nat0 s.wall.credits m) (hlive : s.wall.live.getLsbD m = true)
    (hruns : strikesRun s = true) : exec (.commandForward slot) s = .next (emit
      (updSlot { s with wall := wallForwarded s slot m } slot fun x => { x with stage := 1 }) (.forward m slot)) := by
  show execCommandForward slot s = _
  simp only [execCommandForward, hm]
  exact stepIf_of (by simp [hhead, hst, hstage, hcredit, hlive, hruns]) s _

/-! ### The completion of a member (R396, R401) -/

/-- A slot as a member's completion leaves it: its status and its values are to be posted. -/
def memberPosted (x : Slot) (r : MemberCompletion) : Slot :=
  ({ x with st := .posting, status := r.status, faultPos := r.pos, reply := some (r.sct, r.sc, r.dnr) }.setVal 1
    (headValue x r.value)).setVal 15 r.value

theorem memberPosted_fields (x : Slot) (r : MemberCompletion) :
    (memberPosted x r).st = .posting ∧ (memberPosted x r).status = r.status ∧ (memberPosted x r).faultPos = r.pos ∧
      (memberPosted x r).reply = some (r.sct, r.sc, r.dnr) := by
  simp [memberPosted]

theorem memberPosted_val_one (x : Slot) (r : MemberCompletion) : (memberPosted x r).val 1 = headValue x r.value := by
  rw [memberPosted, Slot.val_setVal_ne _ _ (by decide), Slot.val_setVal_self _ _ (by decide)]

theorem memberPosted_val_last (x : Slot) (r : MemberCompletion) : (memberPosted x r).val 15 = r.value :=
  Slot.val_setVal_self _ _ (by decide)

theorem exec_memberCompletionReceived {r : MemberCompletion} (hhead : isHead s = true)
    (hst : (getSlot s slot).st = .suspended) (hstage : (getSlot s slot).stage = 1)
    (hmember : (getSlot s slot).member.isSome = true)
    (hgen : (getSlot s slot).gen = (getTen s (getSlot s slot).tenant).gen)
    (hnew : seenBefore s ((getSlot s slot).member.getD 0) r.seq = false) :
    exec (.memberCompletionReceived slot r) s = .next (updSlot
      (noteSeq (dropPackets s slot) ((getSlot s slot).member.getD 0) r.seq) slot fun x => memberPosted x r) := by
  refine (stepIf_of (by simp [hhead, hst, hstage, hmember, hnew]) s _).trans ?_
  rw [if_neg (not_not_intro hgen)]
  rfl

end

/-! ### The transfers of a member (R396, R402) -/

section
variable {s : State} {x : MemberTransfer}

/-- A duplicate is discarded. -/
theorem exec_memberHostTransfer_seen (hseen : seenBefore s x.member x.seq = true) :
    exec (.memberHostTransfer x) s = .next s := by
  show stepIf s _ _ = _
  rw [hseen, Bool.not_true, Bool.and_false, stepIf_false]

theorem exec_memberHostTransfer_new (hhead : isHead s = true) (hlive : s.wall.live.getLsbD x.member = true)
    (hst : (getSlot s x.slot).st = .suspended) (hmember : (getSlot s x.slot).member = some x.member)
    (hnew : seenBefore s x.member x.seq = false) : exec (.memberHostTransfer x) s = .next
      (if x.gen ≠ (getTen s x.tenant).gen then
        bumpAt (noteSeq s x.member x.seq) R.TEN_STALE_CNT_STALE 0 x.tenant 1
      else if x.write then emit (noteSeq s x.member x.seq) (.hostWrite x.slot x.mode x.rkey x.addr x.data)
      else emit (noteSeq s x.member x.seq) (.memberRead x.slot x.mode x.rkey x.addr)) :=
  stepIf_of (by simp [hhead, hlive, hst, hmember, hnew]) s _

end

/-- Settles O21: the forwarded command and the member's completion by the slot they leave, a transfer by its number, its
generation and its direction. -/
theorem wallCommandsTravel : Obligations.WallCommandsTravel := by
  unfold Obligations.WallCommandsTravel
  refine ⟨fun slot m s hm hhead hst hstage hcredit hlive hruns =>
      ⟨_, exec_commandForward hm hhead hst hstage hcredit hlive hruns, ?credit, rfl, rfl, ?stage, ?packet,
        rfl, rfl, rfl, rfl⟩,
    fun slot r s hhead hst hstage hmember hgen hnew =>
      ⟨_, exec_memberCompletionReceived hhead hst hstage hmember hgen hnew, ?completion⟩,
    fun x s hhead hlive hst hmember => ⟨exec_memberHostTransfer_seen, ?transfer⟩⟩
  case credit => exact get_credits_wallForwarded s slot m
  case stage => rw [getSlot_emit, getSlot_updSlot_self]
  case packet => exact get_packets_wallForwarded s slot m
  case completion =>
    obtain ⟨hst', hstatus, hpos, hreply⟩ := memberPosted_fields (getSlot s slot) r
    rw [getSlot_updSlot_self]
    exact ⟨hst', hstatus, hpos, memberPosted_val_one _ r, hreply, memberPosted_val_last _ r, rfl, rfl, rfl⟩
  case transfer =>
    have hexec := exec_memberHostTransfer_new hhead hlive hst hmember
    exact ⟨fun hnew hgen hwrite => by rw [hexec hnew, if_neg (not_not_intro hgen), if_pos hwrite],
      fun hnew hgen hread => by rw [hexec hnew, if_neg (not_not_intro hgen), if_neg (by simp [hread])],
      fun hnew hstale => by rw [hexec hnew, if_pos hstale]⟩

end Sys2Proof.Machine

/-! ## Course links and the Wall

The links (R392, R393), formation (R394), routes (R395), packets and failed members (R396, R397) and strike markers
(R403, R404); then the statement about them. -/

namespace Sys2Proof.Machine

/-! ### What a change of a link leaves (R392, R395) -/

/-- The output apart, sending a list of messages leaves the state. -/
theorem foldl_emit_eq {α : Type} (f : α → Output) (l : List α) (s : State) :
    l.foldl (fun t a => emit t (f a)) s = { s with out := s.out ++ l.map f } := by
  induction l generalizing s with
  | nil => rw [List.foldl_nil, List.map_nil, List.append_nil]
  | cons a l ih => rw [List.foldl_cons, ih, List.map_cons, emit_out, List.append_assoc, List.singleton_append]; rfl

@[simp] theorem getCk_linkChange_self (s : State) (p : Nat) (x : CkPort) : getCk (linkChange s p x) p = x :=
  getCk_setCk_self s p x

theorem getCk_linkChange_ne (s : State) (p : Nat) (x : CkPort) {j : Nat} (h : j ≠ p) :
    getCk (linkChange s p x) j = getCk s j := getCk_setCk_ne s p x h

theorem getCk_linkDown_ne (s : State) {p j : Nat} (h : j ≠ p) : getCk (linkDown s p) j = getCk s j := by
  rw [linkDown, getCk_linkChange_ne _ _ _ h, getCk_bump]

/-! ### A link that fails (R392) -/

section
variable {s : State} {p : Fin 4} (hup : (getCk s p.val).st = .up) (hruns : s.pwr.halted = false)
include hup hruns

theorem exec_flitCrcFail : exec (.flitCrcFail p) s = .next (if 3 ≤ (getCk s p.val).replays then linkDown s p.val
    else bump (setCk s p.val { getCk s p.val with replays := (getCk s p.val).replays + 1 }) R.GLB_CK_RETRY_CNT_RETRY) :=
  stepIf_of (by simp [hup, hruns]) s _

theorem exec_linkElectricalIdle : exec (.linkElectricalIdle p) s = .next (linkDown s p.val) :=
  stepIf_of (by simp [hup, hruns]) s _

end

/-! ### Training (R393) -/

theorem exec_linkTrainingDone {s : State} {p : Fin 4}
    (hst : (getCk s p.val).st = .training ∨ (getCk s p.val).st = .down) (hwall : s.boot.cfgMode ≠ 0) (hruns : s.pwr.halted = false) (r : LinkReport) :
    exec (.linkTrainingDone p r) s = .next (linkTrained s p.val r) :=
  stepIf_of (by rw [bne_iff_ne.2 hwall, hruns]; simpa using hst) s _

section
variable {s : State} {p : Nat} {r : LinkReport}

theorem linkTrained_failed (h : r.passed = false) : linkTrained s p r = s := by simp [linkTrained, h]

/-- A link that reaches the peer of Table 18.1 is UP, whether or not the head sends FORM over it. -/
theorem getCk_linkTrained_right (h : r.passed = true) (hright : wiredRight s p r = true) :
    getCk (linkTrained s p r) p = { st := .up, peer := r.peer, delay := r.delay, replays := 0 } := by
  simp only [linkTrained, h, hright, Bool.not_true, Bool.false_eq_true, if_false, if_true]
  split
  · rw [getCk_emit, getCk_linkChange_self]
  · rw [getCk_linkChange_self]

theorem getCk_linkTrained_wrong (h : r.passed = true) (hwrong : wiredRight s p r = false) :
    getCk (linkTrained s p r) p = { port0 0 with st := .miswired } := by
  simp [linkTrained, h, hwrong]

end

/-! ### Forming and routes (R394, R395) -/

section
variable {s : State} (hruns : s.pwr.halted = false)
include hruns

theorem exec_formMessage (hmember : isMember s = true) (hlink : ∃ p, p < 4 ∧ (getCk s p).st = .up) (size skip : Nat)
    (strike : W64) : exec (.formMessage size skip strike) s =
      .next (if s.boot.memberId.toNat < size then formed s size skip strike.toNat else notFormed s) := by
  refine (stepIf_of ?_ s _).trans (by rw [memberNumber, if_pos hmember])
  simpa [hmember, hruns] using hlink

theorem exec_formationTimeout (hhead : isHead s = true) (hforming : s.wall.formed = false)
    (hlink : ∃ p, p < 4 ∧ (getCk s p).st ≠ .off ∧ (getCk s p).st ≠ .training) : exec .formationTimeout s =
      .next (bumpAt { s with wall := { s.wall with formed := true } } R.GLB_WALL_FAIL_CNT_FAIL 0 0
        (s.wall.size - maskCount (s.wall.live ||| 1))) := by
  refine stepIf_of ?_ s _
  simpa [hhead, hforming, hruns] using hlink

theorem exec_routeTablesInForce (hwall : s.boot.cfgMode ≠ 0) (hwork : s.wall.recompute = true)
    (far : List (Nat × Nat)) : exec (.routeTablesInForce far) s =
      .next (if isHead s then routesHead s far else routesMember s far) :=
  stepIf_of (by rw [bne_iff_ne.2 hwall, hwork, hruns]; rfl) s _

/-- The head takes a DOWN notice of a live member once (R397). -/
theorem exec_downNotice {m : Nat} (hhead : isHead s = true) (hlive : s.wall.live.getLsbD m = true) (hm : m ≠ 0)
    (hnew : m ∉ s.wall.failedAt) : exec (.downNotice m) s = .next { s with wall := { s.wall with
      failedAt := s.wall.failedAt ++ [m], noticed := s.wall.noticed ++ [m], recompute := true } } :=
  stepIf_of (by simp [hhead, hruns, hlive, hm, hnew]) s _

end

theorem cfgMode_of_isHead {s : State} (h : isHead s = true) : s.boot.cfgMode = 1 := by simpa [isHead] using h

theorem cfgMode_of_isMember {s : State} (h : isMember s = true) : s.boot.cfgMode = 2 := by simpa [isMember] using h

theorem isHead_of_isMember {s : State} (h : isMember s = true) : isHead s = false := by
  simp [isHead, cfgMode_of_isMember h]

/-! ### Packets (R396) -/

/-- A packet whose acknowledgement is due: it is sent again, and its time begins again. -/
theorem exec_endToEndAckTimeout {s : State} {n : Nat} {p : Packet} (hp : Tbl.get Tbl.absent s.wall.packets n = some p)
    (hruns : strikesRun s = true) (hdue : 256 ≤ (s.tb.count - p.sentAt) * perQ s) :
    exec (.endToEndAckTimeout n) s = .next (emit (bump { s with wall := { s.wall with
      packets := Tbl.set Tbl.absent s.wall.packets n (some { p with sentAt := s.tb.count }) } }
        R.GLB_WALL_RESEND_CNT_RESEND) (.packetAgain p.dest (p.seq % 2 ^ 32))) := by
  show execEndToEndAckTimeout n s = _
  simp only [execEndToEndAckTimeout, hp]
  exact stepIf_of (by simp [hruns, hdue]) s _

/-! ### Markers (R403, R404) -/

/-- A marker ends a holdover and the count of strikes without one, and leaves the strike number. -/
theorem takeMarker_frame (s : State) (m : Marker) :
    (takeMarker s m).wall.holdover = false ∧ (takeMarker s m).wall.noMarker = 0 ∧ (takeMarker s m).tb = s.tb := by
  rw [takeMarker, foldl_emit_eq]
  simp [raiseTo]

section
variable {s : State} (hmember : isMember s = true) (hformed : s.wall.formed = true) (hruns : strikesRun s = true)
include hmember hformed hruns

theorem exec_strikeMarker (hlink : ∃ p, p < 4 ∧ (getCk s p).st = .up) (m : Marker) :
    exec (.strikeMarker m) s = .next (takeMarker s m) := by
  refine stepIf_of ?_ s _
  simpa [hmember, hformed, hruns] using hlink

theorem exec_markerHoldover (hlocked : s.wall.holdover = false) (hmissed : 4 ≤ s.wall.noMarker) :
    exec .markerHoldover s = .next { s with wall := { s.wall with holdover := true } } :=
  stepIf_of (by simp [hmember, hformed, hruns, hlocked, hmissed]) s _

end

/-- Settles O53: the links by their state and what training reports, the Wall by what the device is in it. -/
theorem courseLinksAndWall : Obligations.CourseLinksAndWall := by
  unfold Obligations.CourseLinksAndWall
  refine ⟨fun p s hup hruns => ⟨fun hfew => ?replay, fun hall => ?down, exec_linkElectricalIdle hup hruns⟩,
    fun s p => ⟨by rw [linkDown, getCk_linkChange_self], rfl, fun j hj => getCk_linkDown_ne s hj⟩,
    fun p r s hst hwall hruns => ⟨exec_linkTrainingDone hst hwall hruns r, fun hfail => linkTrained_failed hfail,
      fun hpass hright => ?right, fun hpass hwrong => by rw [getCk_linkTrained_wrong hpass hwrong]⟩,
    fun size skip strike s hmember hruns hlink => ?form,
    fun s hhead hforming hruns hlink => exec_formationTimeout hruns hhead hforming hlink,
    fun far s hwork hruns => ⟨fun hhead => ?head, fun hmember => ?member⟩,
    fun n p s hp hruns hdue => ⟨_, exec_endToEndAckTimeout hp hruns hdue, ?out, ?packet⟩,
    fun m s hhead hruns hlive hm hnew => exec_downNotice hruns hhead hlive hm hnew,
    fun m s hmember hformed hruns => ⟨fun hlink => ⟨exec_strikeMarker hmember hformed hruns hlink m,
      takeMarker_frame s m⟩, exec_markerHoldover hmember hformed hruns⟩⟩
  case replay => rw [exec_flitCrcFail hup hruns, if_neg (Nat.not_le.2 hfew)]
  case down => rw [exec_flitCrcFail hup hruns, if_pos hall]
  case right =>
    rw [getCk_linkTrained_right hpass hright]
    exact ⟨rfl, rfl⟩
  case form =>
    rw [exec_formMessage hruns hmember hlink]
    exact ⟨fun hin => by rw [if_pos hin], fun hout => by rw [if_neg (Nat.not_lt.2 hout)]⟩
  case head => rw [exec_routeTablesInForce hruns (by simp [cfgMode_of_isHead hhead]) hwork, if_pos hhead]
  case member =>
    rw [exec_routeTablesInForce hruns (by simp [cfgMode_of_isMember hmember]) hwork, isHead_of_isMember hmember,
      if_neg Bool.false_ne_true]
  case out => rw [emit_out, bump_out]
  case packet =>
    rw [emit_wall, bump_wall]
    exact Tbl.get_set_self Tbl.absent s.wall.packets n (some { p with sentAt := s.tb.count })

end Sys2Proof.Machine

/-! ## The Bellows

What a record of Hallmark leaves of the registers, charging and the samples (R350, R351, R361), and the capacitance test
(R352 to R354); then the statement about them. -/

namespace Sys2Proof.Machine

/-! ### What a record of Hallmark leaves of the Bellows and the registers (R382, R433) -/

@[simp] theorem raise_blw (s : State) (e : Event) : (raise s e).blw = s.blw :=
  (congrArg State.blw (raise_unreported s e) :)

@[simp] theorem lineMessage_reg (s : State) (l : Nat) : (lineMessage s l).reg = s.reg := by
  unfold lineMessage
  dsimp only
  split <;> split <;> rfl

@[simp] theorem sendLines_reg (s : State) (all : Bool) : (sendLines s all).reg = s.reg :=
  List.foldlRecOn _ lineMessage (motive := fun t => t.reg = s.reg) rfl fun t ht l _ => (lineMessage_reg t l).trans ht

/-- A status bit of a source stands below the other registers. -/
theorem regWord_setStat {key : Nat} (hlow : 0x220 ≤ key) (s : State) (src : Nat) :
    regWord (setStat s src) key = regWord s key := by
  unfold setStat
  split
  · next hsrc =>
    have hkey : key ≠ statKey (src / 32) := by
      simp only [lastSource] at hsrc
      simp only [statKey, Fld.key, R.GLB_EVT_STAT_STAT]
      omega
    rw [regWord, sendLines_reg]
    exact regWord_setWord_ne _ _ _ hkey
  · rfl

theorem regWord_wr_ne (s : State) {f : Fld} {key : Nat} (h : key ≠ f.addr) (v : Nat) :
    regWord (wr s f v) key = regWord s key :=
  regWord_setWord_ne _ _ _ (by simpa [Fld.key] using h)

theorem regWord_bump_ne (s : State) {f : Fld} {key : Nat} (h : key ≠ f.addr) :
    regWord (bump s f) key = regWord s key := regWord_wr_ne s h _

/-- A record writes the status bits of its sources and two counters of Hallmark, and no register between them. -/
theorem rd_raise {f : Fld} (hlow : 0x220 ≤ f.addr) (hhigh : f.addr < 0xD00000) (s : State) (e : Event) :
    rd (raise s e) f = rd s f := by
  have hlost : f.addr ≠ R.HM_LOST_CNT_LOST.addr := by simp only [R.HM_LOST_CNT_LOST]; omega
  have hmax : f.addr ≠ R.HM_FIFO_MAX_MAX.addr := by simp only [R.HM_FIFO_MAX_MAX]; omega
  unfold rd raise
  dsimp only
  rw [regWord_setStat hlow, raiseTo, regWord_wr_ne _ hmax]
  split
  · rw [regWord_setStat hlow]
    exact congrArg f.of (regWord_bump_ne _ hlost)
  · rfl

/-! ### Charging (R350) -/

/-- The level of CHG_EN is settled: taking it again gives it again. -/
theorem chargeLevel_idem (s : State) (b : Bellows) :
    chargeLevel s { b with chgEn := chargeLevel s b } = chargeLevel s b := by
  simp only [chargeLevel]
  split
  · rfl
  · split
    · rfl
    · split
      · rfl
      · split <;> rfl

/-- While the bleed is on the charger is off. -/
theorem chargeLevel_of_bleedEn (s : State) {b : Bellows} (h : b.bleedEn = true) : chargeLevel s b = false := by
  simp [chargeLevel, h]

/-- A request for a test writes the test and CHG_EN alone. -/
theorem requestTest_blw (s : State) (periodic : Bool) : (requestTest s periodic).blw = { s.blw with
    test := (requestTest s periodic).blw.test, periodic := (requestTest s periodic).blw.periodic
    chgEn := (requestTest s periodic).blw.chgEn } := by
  unfold requestTest
  split <;> rfl

section
variable {s : State}

theorem armBellows_armed (h : s.blw.armed = true) : armBellows s = s := if_pos (by simp [h])

theorem armBellows_low (h : s.blw.vhv < rd s R.BLW_LOSS_TH_TH + 10) : armBellows s = s := if_pos (by simp [h])

theorem armBellows_ready (hoff : s.blw.armed = false) (hhigh : rd s R.BLW_LOSS_TH_TH + 10 ≤ s.blw.vhv) :
    armBellows s = requestTest
      { wr s R.BLW_CTRL_ARM 1 with blw := { s.blw with armed := true, chgFet := !s.blw.bankFault } } false :=
  if_neg (by simp [hoff, hhigh])

section
variable (hopen : windowOpen s = true)
include hopen

theorem exec_bellowsArm : exec .bellowsArm s = .next (armBellows s) := stepIf_of hopen s _

theorem exec_faultClear : exec .faultClear s = .next (faultClear s) := stepIf_of hopen s _

theorem exec_capTestRequest : exec .capTestRequest s = .next (testRequest s) := stepIf_of hopen s _

end

/-! ### Faults of the bank (R361) -/

theorem faultClear_kept (h : s.blw.bankFault = false ∨ bankTarget s < s.blw.vbank) : faultClear s = s := by
  refine if_neg ?_
  rintro ⟨hfault, hlow⟩
  rcases h with h | h
  · rw [h] at hfault
    cases hfault
  · exact absurd hlow (Nat.not_le.2 h)

/-- A fault that is cleared leaves the bank unproven until the next test. -/
theorem faultClear_cleared (hfault : s.blw.bankFault = true) (hlow : s.blw.vbank ≤ bankTarget s) :
    (faultClear s).blw.bankFault = false ∧ (faultClear s).blw.passed = false := by
  rw [faultClear, if_pos ⟨hfault, hlow⟩]
  dsimp only
  split
  · rw [requestTest_blw]
    exact ⟨rfl, rfl⟩
  · exact ⟨rfl, rfl⟩

/-! ### Samples (R351, R361) -/

@[simp] theorem supplyHigh_blw (s : State) (vhv : Nat) : (supplyHigh s vhv).blw = s.blw := by
  unfold supplyHigh
  split
  · rw [raise_blw, wr_blw]
  · rfl

@[simp] theorem bankTarget_supplyHigh (s : State) (vhv : Nat) : bankTarget (supplyHigh s vhv) = bankTarget s := by
  unfold supplyHigh
  split
  · rw [bankTarget, rd_raise (by decide) (by decide), rd, regWord_wr_ne _ (by decide)]
    rfl
  · rfl

/-- The two voltages that the Bellows has sampled. -/
def Bellows.volts (b : Bellows) : Nat × Nat := (b.vhv, b.vbank)

@[simp] theorem overvoltage_volts (s : State) : (overvoltage s).blw.volts = s.blw.volts := by
  unfold overvoltage
  dsimp only
  split <;> rfl

@[simp] theorem bleedEnd_volts (s : State) : (bleedEnd s).blw.volts = s.blw.volts := by
  unfold bleedEnd
  dsimp only
  split
  · split
    · rfl
    · rw [raise_blw]
      rfl
  · rfl

@[simp] theorem testReach_volts (s : State) : (testReach s).blw.volts = s.blw.volts := by
  unfold testReach
  split
  · rfl
  · split <;> rfl

/-- The test alone goes on when the bank reaches TARGET. -/
theorem testReach_blw (s : State) : (testReach s).blw = { s.blw with test := (testReach s).blw.test } := by
  unfold testReach
  split
  · rfl
  · split <;> rfl

/-- A bank above 39.5 V begins its bleed. -/
theorem overvoltage_high (harmed : s.blw.armed = true) (hhigh : 395 < s.blw.vbank) (hidle : s.blw.bleeding = false) :
    overvoltage s = { bump s R.BLW_OV_CNT_OV with blw := { s.blw with
      chgEn := false, bleedEn := true, bleeding := true, bleedFrom := s.blw.vbank, bleedChecked := false } } :=
  if_pos (by simp [harmed, hhigh, hidle])

/-- A bleed goes on above TARGET. -/
theorem bleedEnd_above (h : bankTarget s < s.blw.vbank) : bleedEnd s = s := if_neg (by simp [h])

@[simp] theorem bankTarget_overvoltage (s : State) : bankTarget (overvoltage s) = bankTarget s := by
  unfold overvoltage
  dsimp only
  split
  · show R.BLW_CHG_TARGET.of (regWord (bump s R.BLW_OV_CNT_OV) R.BLW_CHG_TARGET.addr) = _
    rw [regWord_bump_ne _ (by decide)]
    rfl
  · rfl

/-- Both voltages are taken, before anything is decided by them. -/
def voltsTaken (s : State) (vhv vbank : Nat) : State :=
  { supplyHigh s vhv with blw := { (supplyHigh s vhv).blw with vhv := vhv, vbank := vbank } }

theorem voltsTaken_blw (s : State) (vhv vbank : Nat) :
    (voltsTaken s vhv vbank).blw = { s.blw with vhv := vhv, vbank := vbank } := by
  show { (supplyHigh s vhv).blw with vhv := vhv, vbank := vbank } = _
  rw [supplyHigh_blw]

/-- The state of a sample before the charger is settled. -/
def sampled (s : State) (vhv vbank : Nat) : State := testReach (bleedEnd (overvoltage (voltsTaken s vhv vbank)))

theorem sampled_volts (s : State) (vhv vbank : Nat) : (sampled s vhv vbank).blw.volts = (vhv, vbank) := by
  rw [sampled, testReach_volts, bleedEnd_volts, overvoltage_volts]
  rfl

/-- The bleed that an overvoltage begins does not end in the same sample, as TARGET lies below. -/
theorem sampled_bleeds {vhv vbank : Nat} (hhigh : 395 < vbank) (harmed : s.blw.armed = true)
    (hidle : s.blw.bleeding = false) (htarget : bankTarget s ≤ 395) :
    (sampled s vhv vbank).blw.bleeding = true ∧ (sampled s vhv vbank).blw.bleedEn = true := by
  have hover := overvoltage_high (s := voltsTaken s vhv vbank) (by rwa [voltsTaken_blw]) (by rwa [voltsTaken_blw])
    (by rwa [voltsTaken_blw])
  have hbank : (overvoltage (voltsTaken s vhv vbank)).blw.vbank = vbank := by
    rw [hover]
    rfl
  have habove : bankTarget (overvoltage (voltsTaken s vhv vbank)) <
      (overvoltage (voltsTaken s vhv vbank)).blw.vbank := by
    rw [hbank, bankTarget_overvoltage]
    exact Nat.lt_of_le_of_lt ((bankTarget_supplyHigh s vhv).trans_le htarget) hhigh
  rw [sampled, bleedEnd_above habove, testReach_blw, hover]
  exact ⟨rfl, rfl⟩

theorem exec_voltageSample {vhv vbank : Nat} (hvhv : vhv < 512) (hvbank : vbank < 512) (s : State) :
    exec (.voltageSample vhv vbank) s = .next { sampled s vhv vbank with blw := { (sampled s vhv vbank).blw with
      chgEn := chargeLevel (sampled s vhv vbank) (sampled s vhv vbank).blw } } :=
  stepIf_of (decide_eq_true ⟨hvhv, hvbank⟩) s _

theorem exec_bleedCheckTimer (hbleed : s.blw.bleeding = true) (hdue : s.blw.bleedChecked = false) :
    exec .bleedCheckTimer s = .next (if s.blw.vbank + 3 ≤ s.blw.bleedFrom then
      { s with blw := { s.blw with bleedChecked := true } } else bleedFailed s) :=
  stepIf_of (by simp [hbleed, hdue]) s _

/-! ### The capacitance test (R352 to R354) -/

/-- A test that fails, as its record leaves it. -/
theorem testFailed_blw (s : State) :
    (testFailed s).blw.passed = false ∧ (testFailed s).blw.capLow = true := by
  rw [testFailed, raise_blw]
  exact ⟨rfl, rfl⟩

/-- The record of a bank that charges too slowly. -/
def chargeSlow (s : State) : State :=
  raise (wr s R.BLW_STATUS_CHG_SLOW 1) (event 240 0x0905 [(4, s.blw.vbank)])

theorem exec_chargeTimeout (harmed : s.blw.armed = true) (hchg : s.blw.chgEn = true)
    (hlow : s.blw.vbank < bankTarget s) : exec .chargeTimeout s =
      .next (if s.blw.test = .charging then testFailed (chargeSlow s) else chargeSlow s) :=
  stepIf_of (by simp [harmed, hchg, hlow]) s _

/-- CHG_SLOW is set, and stays so through the record of a test that fails with it. -/
theorem rd_chargeSlow (s : State) : rd (chargeSlow s) R.BLW_STATUS_CHG_SLOW = 1 := by
  rw [chargeSlow, rd_raise (by decide) (by decide), rd_wr_self (by decide)]
  rfl

theorem rd_testFailed_chargeSlow (s : State) : rd (testFailed (chargeSlow s)) R.BLW_STATUS_CHG_SLOW = 1 := by
  rw [testFailed, rd_raise (by decide) (by decide)]
  exact rd_chargeSlow s

section
variable (harmed : s.blw.armed = true) (hrail : s.blw.bankSw = false) (hruns : s.pwr.halted = false)
include harmed hrail hruns

theorem exec_periodicTestTimer (hperiod : rdForce s R.BLW_TEST_PERIOD_H ≠ 0) :
    exec .periodicTestTimer s = .next (requestTest s true) :=
  stepIf_of (by simp [harmed, hrail, hruns, hperiod]) s _

theorem exec_capTestRetryTimer (hlow : s.blw.capLow = true) (hidle : s.blw.testing = false) :
    exec .capTestRetryTimer s = .next (requestTest s false) :=
  stepIf_of (by simp [harmed, hrail, hruns, hlow, hidle]) s _

end

theorem exec_capTestBleedStart {v1 : Nat} (hwait : s.blw.test = .waiting) (hv : v1 < 512)
    (hsafe : s.blw.periodic = true → coveredAt s (v1 - rdForce s R.BLW_TEST_DV) = true) :
    exec (.capTestBleedStart v1) s = .next { s with blw := { s.blw with
      test := .bleeding, v1 := v1, vbank := v1, chgEn := false, bleedEn := true } } := by
  refine stepIf_of ?_ s _
  cases hper : s.blw.periodic
  · simp [hwait, hv]
  · simp [hwait, hv, hsafe hper]

theorem exec_capTestBleedEnd {v2 us : Nat} (hbleed : s.blw.test = .bleeding) (hv : v2 < 512)
    (hend : v2 + rdForce s R.BLW_TEST_DV ≤ s.blw.v1 ∨ 500000 ≤ us) :
    exec (.capTestBleedEnd v2 us) s = .next (testEnds s v2 us) :=
  stepIf_of (by simp [hbleed, hv, hend]) s _

/-- A bank that has hardly fallen fails its test. -/
theorem testEnds_short {v2 : Nat} (h : s.blw.v1 < v2 + 5) (us : Nat) : ∃ t, testEnds s v2 us = testFailed t :=
  ⟨_, if_pos (.inl h)⟩

end

/-- Settles O51: the writes by the state of the Bellows, a sample by the chain of what it decides, and the tests by
their steps. -/
theorem bellowsChargesAndTests : Obligations.BellowsChargesAndTests := by
  unfold Obligations.BellowsChargesAndTests
  refine ⟨fun s hopen => ⟨fun harmed => ?armed, fun hlow => ?low, fun hoff hhigh => ?arms, exec_faultClear hopen,
      exec_capTestRequest hopen⟩,
    fun s => ⟨fun hkeep => faultClear_kept hkeep, fun hfault hlow => faultClear_cleared hfault hlow⟩,
    fun vhv vbank s hvhv hvbank => ⟨_, exec_voltageSample hvhv hvbank s, ?sample⟩,
    fun s hbleed hdue => ⟨fun hgood => ?good, fun hbad => ?bad⟩,
    fun s harmed hchg hlow => ⟨_, exec_chargeTimeout harmed hchg hlow, ?slow, fun htest => ?fails⟩,
    fun s harmed hrail hruns => ⟨exec_periodicTestTimer harmed hrail hruns, exec_capTestRetryTimer harmed hrail hruns⟩,
    fun v1 s hwait hv hsafe => exec_capTestBleedStart hwait hv hsafe,
    fun v2 us s hbleed hv hend => ⟨exec_capTestBleedEnd hbleed hv hend, fun hshort => ?short⟩⟩
  case armed => rw [exec_bellowsArm hopen, armBellows_armed harmed]
  case low => rw [exec_bellowsArm hopen, armBellows_low hlow]
  case arms => rw [exec_bellowsArm hopen, armBellows_ready hoff hhigh]
  case sample =>
    have hvolts := sampled_volts s vhv vbank
    refine ⟨congrArg Prod.fst hvolts, congrArg Prod.snd hvolts, (chargeLevel_idem _ _).symm,
      fun hhigh harmed hidle htarget => ?_⟩
    obtain ⟨hbleeds, hon⟩ := sampled_bleeds (vhv := vhv) hhigh harmed hidle htarget
    exact ⟨hbleeds, chargeLevel_of_bleedEn _ hon⟩
  case good => rw [exec_bleedCheckTimer hbleed hdue, if_pos hgood]
  case bad =>
    refine ⟨bleedFailed s, ?_, ?_⟩
    · rw [exec_bleedCheckTimer hbleed hdue, if_neg (Nat.not_le.2 hbad)]
    · rw [bleedFailed, raise_blw]
      exact ⟨rfl, rfl, rfl⟩
  case slow =>
    split
    · exact rd_testFailed_chargeSlow s
    · exact rd_chargeSlow s
  case fails =>
    rw [if_pos htest]
    exact (testFailed_blw _).symm
  case short =>
    obtain ⟨t, ht⟩ := testEnds_short hshort us
    rw [ht]
    exact testFailed_blw t

end Sys2Proof.Machine

/-! ## Losses of supply and heat

The power-loss sequence and its flush (R336, R358, R359), the flush area that is armed again (R335, R362), and thermal
shutdowns (R365, R371); then the statement about them. -/

namespace Sys2Proof.Machine

section
variable {s : State}

/-! ### A loss of supply (R336, R358) -/

section
variable (harmed : s.blw.armed = true) (hruns : s.pwr.halted = false) (hrail : s.blw.bankSw = false)
include harmed hruns hrail

theorem exec_supplyLoss : exec .supplyLoss s = .next (if s.pwr.st = .ember ∨ s.pwr.st = .cold then s
    else beginFlush { s with blw := bankIn s.blw } false true) :=
  stepIf_of (by simp [harmed, hruns, hrail]) s _

theorem exec_supplyLoss_awake (hst : s.pwr.st = .hot ∨ s.pwr.st = .banked) :
    exec .supplyLoss s = .next (beginFlush { s with blw := bankIn s.blw } false true) := by
  rw [exec_supplyLoss harmed hruns hrail, if_neg]
  rcases hst with h | h <;> simp [h]

end

/-! ### The programs of a flush (R359) -/

section
variable {f : FlushRun}

theorem exec_flushProgramDone (hf : s.blw.flush = some f) (hstart : f.started = true) (hruns : s.pwr.halted = false) :
    exec .flushProgramDone s = .next (flushProgram s f) := by
  show execFlushProgramDone s = _
  simp only [execFlushProgramDone, hf]
  exact stepIf_of (by simp [hstart, hruns]) s _

theorem flushProgram_last (h : f.total ≤ f.written + flushUnit s) : flushProgram s f = flushEnd s f :=
  if_pos (Nat.min_eq_left h)

/-- A program that is not the last adds to what is written; a progress record may go with it. -/
theorem flushProgram_more (h : f.written + flushUnit s < f.total) : ∃ bytes, flushProgram s f = { s with
    blw := { s.blw with flush := some { f with written := f.written + flushUnit s }, recBytes := bytes } } := by
  have hmin : min f.total (f.written + flushUnit s) = f.written + flushUnit s := Nat.min_eq_right h.le
  rw [flushProgram, hmin, if_neg h.ne]
  dsimp only
  split
  · exact ⟨_, rfl⟩
  · exact ⟨_, rfl⟩

end

/-! ### The flush area is armed again (R142, R335, R362) -/

/-- An erase waits for a die, in its queue or for room there. -/
def eraseWaits (s : State) (a : Nat) : Prop :=
  a ∈ (getDie s (slabDie a)).erases ∨ a ∈ (getDie s (slabDie a)).eraseWait

/-- The erase of a slab enters its die's queue. -/
def queueSlab (s : State) (a : Nat) : State := setDie s (slabDie a) ((getDie s (slabDie a)).queueErase a)

theorem mem_queueErase {x : Die} {a b : Nat} : b ∈ (x.queueErase a).erases ∨ b ∈ (x.queueErase a).eraseWait ↔
    b = a ∨ b ∈ x.erases ∨ b ∈ x.eraseWait := by
  unfold Die.queueErase
  split <;> simp only [List.mem_append, List.mem_singleton] <;> tauto

/-- The erase that is queued waits, and those that waited go on waiting. -/
theorem eraseWaits_queueSlab {a b : Nat} (h : b = a ∨ eraseWaits s b) : eraseWaits (queueSlab s a) b := by
  unfold eraseWaits queueSlab
  rw [getDie_setDie]
  split
  · next hdie => exact mem_queueErase.2 (by rw [← hdie]; exact h)
  · next hdie => exact h.resolve_left fun hab => hdie (by rw [hab])

theorem eraseWaits_foldl_queueSlab (l : List Nat) (s : State) {a : Nat} (h : a ∈ l ∨ eraseWaits s a) :
    eraseWaits (l.foldl queueSlab s) a := by
  induction l generalizing s with
  | nil => exact h.resolve_left (List.not_mem_nil)
  | cons b l ih =>
    refine ih (queueSlab s b) ?_
    rcases h with h | h
    · rcases List.mem_cons.1 h with rfl | h
      · exact .inr (eraseWaits_queueSlab (.inl rfl))
      · exact .inl h
    · exact .inr (eraseWaits_queueSlab (.inr h))

/-- Queueing erases writes the dies alone. -/
theorem foldl_queueSlab_eq (l : List Nat) (s : State) :
    l.foldl queueSlab s = { s with fl := { s.fl with dies := (l.foldl queueSlab s).fl.dies } } := by
  refine List.foldlRecOn l queueSlab
    (motive := fun t : State => t = { s with fl := { s.fl with dies := t.fl.dies } }) rfl fun t ht a _ => ?_
  rw [ht]
  rfl

/-- The slabs of the armed flush area. -/
def armedArea (s : State) : List Nat := if s.med.armedB then s.med.areaB else s.med.areaA

theorem rearm_eq (s : State) : rearm s = { s with
    fl := { s.fl with dies := ((armedArea s).foldl queueSlab s).fl.dies }
    blw := { s.blw with image := none }
    med := { s.med with areaHeld := false, restored := [], armedB := !s.med.armedB } } := by
  show { (armedArea s).foldl queueSlab s with
    med := { ((armedArea s).foldl queueSlab s).med with
      areaHeld := false, restored := [], armedB := !((armedArea s).foldl queueSlab s).med.armedB }
    blw := { ((armedArea s).foldl queueSlab s).blw with image := none } } = _
  rw [foldl_queueSlab_eq]

theorem exec_flushAreaRearm (hheld : s.med.areaHeld = true) (hquiet : s.blw.flush = none) (hruns : strikesRun s = true)
    (hsafe : restoredCovered s = true ∨ restoredVerified s = true) : exec .flushAreaRearm s = .next (rearm s) :=
  stepIf_of (by simp [hheld, hquiet, hruns, hsafe]) s _

/-! ### Thermal shutdowns (R371) -/

theorem exec_criticalComparatorTrip (k : Nat) (s : State) :
    exec (.criticalComparatorTrip k) s = .next (thermalShutdown s k) := rfl

/-- Nothing more begins where a flush runs already or nothing is at risk. -/
theorem thermalShutdown_idle
    (h : s.blw.flush.isSome = true ∨ s.pwr.halted = true ∨ s.pwr.st = .ember ∨ s.pwr.st = .cold) (k : Nat) :
    thermalShutdown s k = s := by
  refine if_pos ?_
  rcases h with h | h | h | h <;> simp [h]

theorem exec_flushOvertempHalt {f : FlushRun} (hf : s.blw.flush = some f) (hheat : f.thermal = true)
    (hruns : s.pwr.halted = false) (k : Nat) : exec (.flushOvertempHalt k) s = .next (thermalCold (haltNow s)) := by
  show execFlushOvertempHalt k s = _
  simp only [execFlushOvertempHalt, hf]
  exact stepIf_of (by simp [hheat, hruns]) s _

/-! ### Samples (R365) -/

section
variable {k : Nat} (hon : inputOn s k = true)
include hon

/-- A reading of 12 bits is within the range of every input. -/
theorem exec_housekeepingSample_good {v : Int} (hlow : -2048 ≤ v) (hhigh : v < 2048) :
    exec (.housekeepingSample k (.good v)) s = .next (sample s k (.good v)) := by
  have hfits : v < if 28 ≤ k then 4096 else 2048 := by split <;> omega
  exact stepIf_of (by rw [hon, Bool.true_and]; exact decide_eq_true (And.intro hlow hfits)) s _

/-- An input with leads can be found broken. -/
theorem exec_housekeepingSample_faulty (hleads : k < 24) {c : Conversion} (hc : c = .opened ∨ c = .short) :
    exec (.housekeepingSample k c) s = .next (sample s k c) := by
  rcases hc with rfl | rfl <;> exact stepIf_of (by simp [hon, hleads]) s _

end

end

/-- Settles O52: the loss by the device state, a program by whether it is the last, the area by its slabs, and heat by
what runs. -/
theorem lossesAndHeatFlush : Obligations.LossesAndHeatFlush := by
  unfold Obligations.LossesAndHeatFlush
  refine ⟨fun s harmed hruns hrail => ⟨fun hlow => ?low, exec_supplyLoss_awake harmed hruns hrail⟩,
    fun f s hf hstart hruns => ⟨fun hlast => ?last, fun hmore => ?more⟩,
    fun s hheld hquiet hruns hsafe => ⟨_, exec_flushAreaRearm hheld hquiet hruns hsafe, ?area⟩,
    fun k s => ⟨exec_criticalComparatorTrip k s, fun hidle => thermalShutdown_idle hidle k⟩,
    fun k f s hf hheat hruns => ⟨_, exec_flushOvertempHalt hf hheat hruns k, rfl, rfl, rfl, rfl⟩,
    fun k v s hon hlow hhigh => exec_housekeepingSample_good hon hlow hhigh,
    fun k s hon hleads => ⟨exec_housekeepingSample_faulty hon hleads (.inl rfl),
      exec_housekeepingSample_faulty hon hleads (.inr rfl)⟩⟩
  case low => rw [exec_supplyLoss harmed hruns hrail, if_pos hlow]
  case last => rw [exec_flushProgramDone hf hstart hruns, flushProgram_last hlast]
  case more =>
    obtain ⟨bytes, hprogram⟩ := flushProgram_more hmore
    exact ⟨_, (exec_flushProgramDone hf hstart hruns).trans (congrArg _ hprogram), rfl, rfl⟩
  case area =>
    rw [rearm_eq]
    exact ⟨fun a ha => eraseWaits_foldl_queueSlab (armedArea s) s (.inl ha), rfl⟩

end Sys2Proof.Machine

/-! ## Bring-up and firmware

The stages of the bring-up (R417) and the firmware commands (R422, R423); then the statement about them. -/

namespace Sys2Proof.Machine

/-! ### The stages (Table 19.4) -/

theorem exec_bootStageDone {s : State} (hlow : 5 ≤ s.boot.stage) (hhigh : s.boot.stage ≤ 11)
    (hmaps : s.boot.mapsLoaded = false) (hopen : windowOpen s = true) (b : BootReport) :
    exec (.bootStageDone b) s = .next { stageWork s b with
      boot := { (stageWork s b).boot with stage := min 11 (s.boot.stage + 1) } } :=
  stepIf_of (by simp [hlow, hhigh, hmaps, hopen]) s _

section
variable {s : State} {slot : Nat} (hopen : windowOpen s = true)
include hopen

/-! ### Downloads (R422) -/

theorem exec_firmwareImageDownload (hat : adminAt s slot 0x11 = true) (piece : List Byte) :
    exec (.firmwareImageDownload slot piece) s = .next (if senderOf s slot = 0
      then downloadPiece s slot (4 * (getSlot s slot).cmd.dw11.toNat) piece else admin s slot nvInvalidOpcode []) :=
  stepIf_of (by rw [hopen, hat]; rfl) s _

omit hopen in
/-- A piece of whole words that follows those before it is kept. -/
theorem downloadPiece_next {off : Nat} {piece : List Byte} (hoff : off % 4 = 0) (hlen : piece.length % 4 = 0)
    (hnext : off = s.boot.package.length) (hroom : off + piece.length ≤ packageMax) :
    downloadPiece s slot off piece = endAdmin
      { s with boot := { s.boot with package := s.boot.package ++ piece } } slot (0, 0, false) := by
  refine (if_neg ?_).trans (admin_ok _ _)
  rintro (h | h | h | h)
  · exact h hoff
  · exact h hlen
  · exact h hnext
  · exact absurd hroom (Nat.not_le.2 h)

/-! ### Commits (R296, R423, R424) -/

section
variable (hat : adminAt s slot 0x10 = true)
include hat

theorem exec_firmwareCommitPending (hact : commitAction (getSlot s slot).cmd = 2) :
    exec (.firmwareCommitPending slot) s = .next (if senderOf s slot = 0
      then commitPending s slot (commitSlotOf (getSlot s slot).cmd) else admin s slot nvInvalidOpcode []) :=
  stepIf_of (by rw [hopen, hat, hact]; rfl) s _

section
variable {p : SlotImages} (hholds : packageHolds s p = true)
include hholds

theorem exec_firmwareCommitWrite (hact : commitAction (getSlot s slot).cmd = 0) :
    exec (.firmwareCommitWrite slot p) s = .next (if senderOf s slot = 0
      then commitWrite s slot (commitSlotOf (getSlot s slot).cmd) 0 p else admin s slot nvInvalidOpcode []) :=
  stepIf_of (by rw [hopen, hat, hact, hholds]; rfl) s _

theorem exec_firmwareCommitWritePending (hact : commitAction (getSlot s slot).cmd = 1) :
    exec (.firmwareCommitWritePending slot p) s = .next (if senderOf s slot = 0
      then commitWrite s slot (commitSlotOf (getSlot s slot).cmd) 1 p else admin s slot nvInvalidOpcode []) :=
  stepIf_of (by rw [hopen, hat, hact, hholds]; rfl) s _

end

end

theorem exec_firmwareSlotWritten {b : Bool} {x : SlotImages} {a : Nat} (hcommit : s.boot.commit = some (b, x, a))
    (ok : Bool) : exec (.firmwareSlotWritten ok) s = .next (slotWritten s b x a ok) := by
  show execFirmwareSlotWritten ok s = _
  simp only [execFirmwareSlotWritten, hcommit]
  exact stepIf_of hopen s _

end

/-- The slot of images that a commit writes holds no whole image until its read-back ends. -/
def commitBegun (s : State) (slot : Nat) (b : Bool) (p : SlotImages) (a : Nat) : State :=
  { adminHold s slot with boot := { s.boot with
    commit := some (b, p, a), commitSlot := some (slot, (getSlot s slot).gen)
    flash := if b then { s.boot.flash with slotB := ⟨noImage, noImage⟩ }
      else { s.boot.flash with slotA := ⟨noImage, noImage⟩ } } }

section
variable {s : State} {slot fs : Nat} {b : Bool} (hfree : s.boot.commit = none) (hentry : s.pwr.entry = none)
include hfree hentry

theorem commitBusy_eq_false : commitBusy s = false := by
  rw [commitBusy, hfree, hentry]
  rfl

/-- With no commit and no entry under way a commit goes by the checks of the images. -/
theorem commitWrite_checked (hslot : commitTarget s fs true = some b) (p : SlotImages) (a : Nat) :
    commitWrite s slot fs a p = if imagesStatus s p = (0, 0) then commitBegun s slot b p a
      else admin s slot (imagesStatus s p) [] := by
  unfold commitWrite
  rw [commitBusy_eq_false hfree hentry, if_neg Bool.false_ne_true, hslot]
  exact ite_not ..

theorem commitPending_checked (hslot : commitTarget s fs false = some b) :
    let st := imagesStatus s (slotImages s.boot.flash b)
    commitPending s slot fs = if st = (0, 0) then endAdmin
      { s with boot := { s.boot with pendingSlot := 1 + b2n b, tries := 0 } } slot (0, 0, false)
      else admin s slot st [] := by
  intro st
  unfold commitPending
  rw [commitBusy_eq_false hfree hentry, if_neg Bool.false_ne_true, hslot]
  exact ite_not ..

end

/-- Settles O57: a stage by its number, and a firmware command by its sender, its action and the checks of its
images. -/
theorem bootAndFirmwareCommands : Obligations.BootAndFirmwareCommands := by
  unfold Obligations.BootAndFirmwareCommands
  refine ⟨fun b s hlow hhigh hmaps hopen => ⟨stageWork s b, exec_bootStageDone hlow hhigh hmaps hopen b, ?stages⟩,
    fun slot piece p s hopen hmf => ⟨fun hat hlen hnext hroom => ?download,
      fun b hat hact hfree hentry hslot => ?pending,
      fun b a hat hholds hact hfree hentry hslot => ⟨fun ha => ?write, fun ha => ?writePending⟩⟩,
    fun slot piece p s hopen hother hholds => ⟨fun hat => ?noDownload, fun hat hact => ?noWrite,
      fun hat hact => ?noWritePending, fun hat hact => ?noPending⟩,
    fun b x a ok s hcommit hopen => exec_firmwareSlotWritten hopen hcommit ok⟩
  case stages =>
    refine ⟨fun h => ?_, fun h => ?_, fun h => ?_, fun h => ?_, fun h => ?_, fun h => ?_, fun h => ?_⟩ <;>
      rw [stageWork, h] <;> rfl
  case download =>
    rw [exec_firmwareImageDownload hopen hat, if_pos hmf, downloadPiece_next (Nat.mul_mod_right 4 _) hlen hnext hroom]
  case pending =>
    intro st
    rw [exec_firmwareCommitPending hopen hat hact, if_pos hmf, commitPending_checked hfree hentry hslot]
  case write =>
    rw [exec_firmwareCommitWrite hopen hat hholds (hact.trans ha), if_pos hmf,
      commitWrite_checked hfree hentry hslot, ← ha]
    rfl
  case writePending =>
    rw [exec_firmwareCommitWritePending hopen hat hholds (hact.trans ha), if_pos hmf,
      commitWrite_checked hfree hentry hslot, ← ha]
    rfl
  case noDownload => rw [exec_firmwareImageDownload hopen hat, if_neg hother, admin_invalidOpcode]
  case noWrite => rw [exec_firmwareCommitWrite hopen hat hholds hact, if_neg hother, admin_invalidOpcode]
  case noWritePending => rw [exec_firmwareCommitWritePending hopen hat hholds hact, if_neg hother, admin_invalidOpcode]
  case noPending => rw [exec_firmwareCommitPending hopen hat hact, if_neg hother, admin_invalidOpcode]

end Sys2Proof.Machine
